-- ==== Sys2Proof/Word.lean ====
section
/-! DEFINITION. The plain value types of the hub model: bytes, words, port and core indices. -/

namespace Sys2Proof

/-- One byte. -/
abbrev Byte := BitVec 8

/-- One 32-bit register or memory word. -/
abbrev Word := BitVec 32

/-- Port index n of R10: 0-11 W0-W11, 12 KU, 13 KD, 14 B, 15 G. -/
abbrev Port := Fin 16

/-- Core index c of R230: 0-3 LE0-LE3, 4 PC0, 5 PC1, 6 SV. -/
abbrev Core := Fin 7

/-- KU. -/
abbrev portKU : Port := 12
/-- KD. -/
abbrev portKD : Port := 13
/-- B. -/
abbrev portB : Port := 14
/-- G. -/
abbrev portG : Port := 15

/-- PC0. -/
abbrev corePC0 : Core := 4
/-- PC1. -/
abbrev corePC1 : Core := 5
/-- SV. -/
abbrev coreSV : Core := 6

end Sys2Proof
end

