-- ==== Sys2Proof/Syntax.lean ====
section
/-! DEFINITION. The commands of the hub, one constructor per row of spec/opcode_table.json, and the plain types of
their operands. A command is an event of the table: what a core, the host, a far end, a sensor or the hub's own
hardware does in one indivisible step (spec/95_what_each_step_holds.md). An operand carries what the event brings from
outside the block: a voltage, a reading, a frame, a host transaction, a choice the spec leaves to the program. -/

namespace Sys2Proof

/-- Who writes a register: a core of R230 or the host. -/
inductive Writer where
  | core (c : Core)
  | host
deriving DecidableEq, Repr

/-- A double-bit memory error met by an instruction (R232): in its fetch, in the data read of a slot, or in the Y fetch of a MACXY. -/
inductive Ecc where
  | none
  | fetch
  | data (slot : Fin 4)
  | dataY (slot : Fin 4)
deriving DecidableEq, Repr

/-- The supply pins of R69. -/
inductive Supply where
  | ku | g | b
deriving DecidableEq, Repr

/-- One of the five readings of R89. -/
inductive Reading where
  | undecided | mark | hold | openBand | floatBand
deriving DecidableEq, Repr

/-- The comparators and receivers of R220 that carry a VALID. -/
inductive CmpName where
  | pk (n : Port) | hs (n : Port) | ov (n : Port) | uv (n : Port)
  | cf1 (n : Port) | cf2 (n : Port) | seat (n : Port) | tone (n : Port)
  | hbusUv | hbusOv
deriving DecidableEq, Repr

/-- What a self-test exercises (R222, R225). -/
inductive TestTarget where
  | port (n : Port)
  | hbus
deriving DecidableEq, Repr

/-- One port's newest conversions (R416): voltage at the pins and on the stage side in mV, current in mA, positive out
of the hub. -/
structure PortSample where
  port : Port
  vPort : Nat
  vStage : Nat
  iPort : Int
deriving DecidableEq, Repr

/-- The conductances of one moisture measurement in µS (R429): CF1, CF2 and SEAT at 1 kHz and at 20 kHz. -/
structure MoistSample where
  cf1G1 : Nat
  cf1G20 : Nat
  cf2G1 : Nat
  cf2G20 : Nat
  seatG1 : Nat
  seatG20 : Nat
deriving DecidableEq, Repr

/-- A received Manchester frame (R112): the addressee byte, the header, the objects and the CRC as read, whether a sync
was found after eight preamble bits and whether the bit count fitted COUNT when the end bit came. -/
structure FrameRx where
  sync : Bool
  framing : Bool
  addr : Byte
  hdr : BitVec 16
  objs : List Word
  crc : Word
deriving DecidableEq, Repr

/-- A received message of context PART as its policy sees it: header ID, the sender's ROLE bit and the objects. -/
structure Msg where
  id : BitVec 3
  role : Bool
  objs : List Word
deriving DecidableEq, Repr

/-- What the sink's policy program answers to a CAPS (R152, step 2). -/
inductive CapsChoice where
  | nothing
  | deny (code : Byte)
  | ask (pos : BitVec 4) (volt : BitVec 11) (cur : BitVec 9) (profile : Option (Word × Word))
deriving DecidableEq, Repr

/-- What the policy program does with a swap request it could carry out: it grants or denies it; a WAIT is its answer only where
R176 and R180 ask for one (R158). -/
inductive SwapChoice where
  | grant
  | wait (ms : BitVec 16)
  | deny
deriving DecidableEq, Repr

/-- The transaction shapes a host can drive (R498). -/
inductive Shape where
  | writeByte | readByte | readWord | blockWrite | blockRead | processCall | commandOnly
deriving DecidableEq, Repr

/-- How the write part of a transaction ended (R510, R529, R532). -/
inductive Ending where
  | stop | repStart | broken | timeout
deriving DecidableEq, Repr

/-- One host transaction after its command byte. `count` is the count byte N or M of a block write or process call.
`bytes` are the data bytes the host sent, with every byte it sent after the last of them (a PEC among them). `ending`
says how the write part ended. `whole` says that the host received every byte of the read part, NACKed the last or a
later one and sent STOP (R518). `rise` is the fewest steps of 33.3 ns between a change of SDA by the hub and the rise of SCL after it
(R527), none where the hub changed SDA nowhere. -/
structure Xact where
  shape : Shape
  count : Byte
  bytes : List Byte
  ending : Ending
  whole : Bool
  rise : Option Nat
deriving DecidableEq, Repr

/-- Where a Stone request comes from: OTPU on SV with its moved value (R326), or OTPCMD from the host (R467). -/
inductive StoneReq where
  | sv (arg : Word)
  | host (x : Xact)
deriving DecidableEq, Repr

/-- Where an image-store request comes from: SV with the bytes after OP (R490), or IMGCMD from the host. -/
inductive ImageReq where
  | sv (args : List Byte)
  | host (x : Xact)
deriving DecidableEq, Repr

/-- The wake sources of R526: WAKE_N, the UV comparator of a port or with `cf` its CF detectors, and a supply. -/
inductive WakeSource where
  | pin
  | comparator (n : Port) (cf : Bool)
  | supply
deriving DecidableEq, Repr

/-- The three reads of one Stone word at this boot's temperature, where they differ from what was programmed (R457,
R459). -/
structure StoneRead where
  word : Nat
  normal : Word
  low : Word
  high : Word
deriving DecidableEq, Repr

/-- The commands: one constructor per row of spec/opcode_table.json, in its order. `at` is the f_CORE cycle in which the
event falls, counted from the last boot (DESIGN CHOICE, log entry 2). -/
inductive Instr where
  -- cores
  | instructionIssue (c : Core) (ecc : Ecc)
  | waitEnd (c : Core) (timeout : Bool) (at_ : Nat)
  | farAccessPerformed (c : Core)
  | resultCommit (c : Core)
  | peakLatchClear (n : Port) (w : Writer)
  | msgComplete (c : Core)
  -- ledger
  | raise (n : Port)
  | settle (n : Port)
  | release (n : Port)
  | tokensWrite (w : Writer) (tokens : BitVec 4)
  -- the Stone
  | pgm (r : StoneReq)
  | lock (r : StoneReq)
  | advance (x : Xact)
  | scrap (x : Xact)
  | stoneOperationDone (ok : Bool)
  -- RIPEN, restarts, watchdogs
  | ripen (x : Xact)
  | setripReq (n : Port) (w : Writer)
  | portSetExchange (n : Port)
  | ripreqReq (c : Core) (w : Writer)
  | imemRipenSafePoint (c : Core)
  | ripenTimeout (c : Core)
  | restart (c : Core) (w : Writer)
  | pcAutoRestart (c : Core)
  | watchdogExpiry (c : Core)
  | svWatchdogExpiry
  -- the switching cycle
  | periodStart (n : Port) (pathMv : Nat) (at_ : Nat)
  | sampleTrigger (n : Port) (at_ : Nat)
  | sampleReady (n : Port) (code : BitVec 12)
  | setReady (n : Port) (s1 s2 s3 : BitVec 12) (lag : Nat)
  | peakTrip (n : Port) (importing : Bool)
  | dmaxReached (n : Port)
  | hardShortTrip (n : Port)
  | ovTrip (n : Port)
  | uvTrip (n : Port)
  | cmptestStart (n : Port) (w : Writer) (v : Word)
  | hbuswinTestStart (w : Writer) (v : Word)
  | selfTestDone (t : TestTarget) (untested out : BitVec 3)
  | comparatorValid (k : CmpName) (tripped : Bool)
  -- timers and wheels
  | zero (ch : Fin 24)
  | matchEvent (ch : Fin 24)
  | cherryCapture (ch : Fin 4) (rising : Bool) (at_ : Nat)
  | toneLeadingEdge (n : Port) (at_ : Nat)
  | toneTrailingEdge (n : Port) (at_ : Nat)
  | angctlWrite (n : Port) (w : Writer) (v : Word)
  | angleModeTimeout (n : Port)
  | suspTimeout (n : Port)
  | pipFire (e : Fin 256)
  | sweepQueueExecute
  | tokenReturn (n : Port)
  | burstTolExpiry (n : Port)
  | burstTmaxExpiry (n : Port)
  | markStart (n : Port)
  | syncLock
  | syncLoss
  -- configuration wires
  | cfReadingChange (n : Port) (cf1 cf2 : Reading)
  | cfAttachDone (n : Port)
  | cfDetachTimeout (n : Port)
  | cfUndecidedTimeout (n : Port)
  | drpToggle (n : Port)
  | tryDebounceDone (n : Port)
  | tryTimeout (n : Port)
  | tryWaitTimeout (n : Port)
  | legacyTimeout (n : Port)
  | swapPresentationTimeout (n : Port)
  | rolemodeWrite (n : Port) (w : Writer) (v : Word)
  | seatBreak (n : Port)
  | seatSettled (n : Port)
  | bSupplyBreak
  | csupOvercurrent (n : Port)
  | csupRetry (n : Port)
  -- line PHYs
  | txStart (n : Port)
  | holdDone (n : Port)
  | frameSent (n : Port)
  | nodTimeout (n : Port)
  | txRetry (n : Port)
  | nodSend (n : Port)
  | frameReceived (n : Port) (f : FrameRx) (at_ : Nat)
  | nod (n : Port) (f : FrameRx)
  | notsup (n : Port) (m : Msg)
  | grantMarkReceived (n : Port)
  -- contracts
  | caps (n : Port) (m : Msg) (choice : CapsChoice)
  | getcaps (n : Port) (m : Msg) (answer : List Word)
  | ask (n : Port) (m : Msg)
  | grant (n : Port) (m : Msg)
  | deny (n : Port) (m : Msg)
  | waitMessage (n : Port) (m : Msg)
  | ready (n : Port) (m : Msg) (byHub : Bool)
  | pswap (n : Port) (m : Msg) (choice : SwapChoice)
  | sswap (n : Port) (m : Msg) (choice : SwapChoice)
  | abort (n : Port) (m : Msg)
  | profile (n : Port) (m : Msg)
  | info (n : Port) (m : Msg)
  | statusMessage (n : Port) (m : Msg)
  | relay (n : Port) (m : Msg) (k : Fin 8)
  | bye (n : Port) (m : Msg) (byHub : Bool)
  | answerTimeout (n : Port)
  | capsRepeat (n : Port)
  | slewStart (n : Port)
  | readyHoldDone (n : Port) (mv : Nat)
  | transTimeout (n : Port)
  | defaultWindowNarrow (n : Port)
  | askNewTimeout (n : Port)
  | retryWaitDone (n : Port)
  | swapOffTimeout (n : Port)
  | swapOnTimeout (n : Port)
  | sswapTimeout (n : Port)
  | shedTimeout
  -- seating, fusing, power-good
  | swctlStart (n : Port) (w : Writer)
  | swctlStop (n : Port) (w : Writer)
  | readmit (n : Port) (w : Writer)
  | pretimeExpiry (n : Port)
  | rampDone (n : Port)
  | faultTimerExpiry (n : Port)
  | dischargeDone (n : Port)
  | dischargeTimeout (n : Port)
  | backfedCheck (n : Port) (ma : Int)
  | offtimeEnd (n : Port)
  | pgDeglitchDone (n : Port)
  | telemetryTick (smp : List PortSample) (hbusMv : Nat)
  | telemetryUpdate
  -- feeds
  | supplyRise (p : Supply) (mv : Nat)
  | supplyFall (p : Supply) (mv : Nat)
  | feedGapEnd
  | hbusPrechargeTimeout
  | plan (w : Writer) (target : BitVec 2)
  | progWrite (w : Writer) (prog : Bool)
  | benClear (w : Writer)
  | hbusOvTrip
  | hbusOvRelease
  | brownOut
  | hbusUvRelease
  -- moisture
  | moistureMeasurementStart (n : Port)
  | moistureMeasurementDone (n : Port) (r : MoistSample)
  | moistureYield (n : Port)
  | leakageWet (n : Port)
  | leakageDry (n : Port)
  | wetTimeout (n : Port)
  -- thermal guard, reset and boot
  | thermalRound (readings : List (Option Int))
  | thermalShutdownEnd
  | resetNLow (ns : Nat)
  | boot (addr : BitVec 3) (reads : List StoneRead) (tboot : Byte)
  -- host bus
  | status (x : Xact)
  | readWithoutCommand (whole : Bool)
  | quick
  | evpop (x : Xact)
  | evcount (x : Xact)
  | portsel (x : Xact)
  | portBlockRead (code : Byte) (x : Xact)
  | portBlockWrite (code : Byte) (x : Xact)
  | globalBlockRead (code : Byte) (x : Xact)
  | globalBlockWrite (code : Byte) (x : Xact)
  | winsel (x : Xact)
  | memrd (x : Xact)
  | memwr (x : Xact)
  | registerWrite (w : Writer) (addr : Word) (v : Word)
  | ringpush (x : Xact)
  | ringpop (x : Xact)
  | sleep (x : Xact) (active : Option WakeSource)
  | sleepEntry (active : Option WakeSource)
  | wake (src : WakeSource)
  | reset (x : Xact)
  | erase (r : ImageReq)
  | write (r : ImageReq)
  | check (r : ImageReq)
  | loadgreen (r : ImageReq)
  | imageOperationDone
  | busConditionMisplaced (cmd : Byte) (writing : Bool)
  | sclLowTimeout (cmd : Byte) (inTransaction : Bool)
  | sdaHoldRelease
  -- rows that follow in the table
  | counterTick (ch : Fin 24)
  | angleUpdate (n : Port) (at_ : Nat)
  | frameSyncDetected (n : Port)
  | markEnd (n : Port)
  | syncAcquisition
  | uvRelease (n : Port)
  | ovRelease (n : Port)
  | seatSeated (n : Port)
  | supplyRangeChange (p : Supply) (mv : Nat)
  | swapPresentationRead (n : Port)
  | ledctlWrite (w : Writer) (v : Word)
  | cfctlLevelWrite (n : Port) (w : Writer) (v : Word)
deriving DecidableEq, Repr

end Sys2Proof
end

