-- ==== Sys2Proof/Config.lean ====
section
/-! DEFINITION. What an implementation fixes and the spec leaves open: constants without a body. Nothing in Lean
can evaluate them, so a statement that holds of the model holds whatever they are (log entries 5, 6 and 24). -/

namespace Sys2Proof.Config

/-- The contents of the 32 KB boot ROM at 0x0000_0000 (R540): the spec gives none (DESIGN CHOICE, log entry 5). -/
opaque bootRom : Nat → Byte

/-- A value the spec leaves open: applied to the model's own counter State.freeCtr, a fresh value at each use
(DESIGN CHOICE, log entry 6). -/
opaque freeByte : Nat → Byte

/-- An open truth value: applied to State.freeCtr (DESIGN CHOICE, log entry 6). -/
opaque freeBool : Nat → Bool

/-- Whether an inexact quotient of a sum by a count takes the whole number above it: the spec does not say how a mean or an energy
drops its fraction (R416, R417; DESIGN CHOICE, log entry 24). -/
opaque roundsUp : Int → Nat → Bool

end Sys2Proof.Config
end

