-- ==== Sys2Proof/Machine/State.lean ====
section
/-! DEFINITION. The hub's state as plain data, its stop reasons, and the state right after reset.

Configuration registers that software reads and writes whole are kept as 32-bit words; status registers are kept field
by field and put together when they are read (Machine/RegRead.lean). Everything the spec places in RAM or in the image
store (message rings, event ring, log, pip table, ledger region, parameter sets, telemetry, IMEM, data memories) is in
the one memory `mem`, so that each byte has one home (DESIGN CHOICE, log entry 7). -/

namespace Sys2Proof.Machine

/-- The reasons a step can fault. No command of the table ends in a fault: the type has one constructor because a
closed inductive needs one; nothing raises it (safe). -/
inductive Fault where
  /-- Raised by no command. Safe. -/
  | none
deriving DecidableEq, Repr

/-- The reasons a step can be refused. -/
inductive Refusal where
  /-- Raised by an arm of Dispatch whose command has no meaning yet. Safe: the run stops. -/
  | notModelled (mnemonic : String)
deriving DecidableEq, Repr

/-! ## Small types -/

/-- P[n].SWSTAT.STATE (R435), in code order. -/
inductive SwState where
  | off | wait | prechg | ramp | on | offtime | giveup | disch
deriving DecidableEq, Repr

/-- The stage modes of R191, and START_REG of R227 (reads 0b110). -/
inductive StageMode where
  | off | buckOut | boostOut | buckIn | boostIn | bypass | startReg
deriving DecidableEq, Repr

/-- P[n].CFSTAT.STATE (R137), in code order. -/
inductive AttachState where
  | unattached | attachWait | attachedSrc | attachedSnk | trySrc | tryWaitSnk | trySnk | tryWaitSrc | legacy
deriving DecidableEq, Repr

/-- P[n].CTRCUR.STATE (R186), in code order. -/
inductive CtrState where
  | none | default | negotiated | legacy | swap
deriving DecidableEq, Repr

/-- G.CORECTL.STATE (R273), in code order. -/
inductive CoreState where
  | reset | run | wait | halted
deriving DecidableEq, Repr

/-- P[n].ANGSTAT.MODE (R396), in code order. -/
inductive WheelMode where
  | off | time | angle | susp
deriving DecidableEq, Repr

/-- STATUS.MODE (R520), in code order. -/
inductive HubMode where
  | booting | running | noset | restrictive | integrity | shutdown | vendor | scrapped
deriving DecidableEq, Repr

/-- Why the hub is held in reset, if it is (R427, R545). -/
inductive Hold where
  | none | brownOut
deriving DecidableEq, Repr

/-- The feed selector's choices (R436), in code order. -/
inductive Feed where
  | none | ku | g | b
deriving DecidableEq, Repr

/-- The force-off sources of R199. -/
inductive ForceSource where
  | hardShort | seatBreak | leTrap | trip | pcTrap | hbusOv | noFeed | thermal | stuck
deriving DecidableEq, Repr

/-- A comparator or receiver (R220): its VALID bit and its output. -/
structure Comparator where
  valid : Bool
  out : Bool
deriving DecidableEq, Repr

/-- A segment descriptor (R253). -/
structure SegDesc where
  base : Word
  lim : Word
  rw : BitVec 2
deriving DecidableEq, Repr

/-- A resource claim (R482). -/
structure Claim where
  type : Byte
  owner : Byte
  index : Byte
  rights : Byte
  first : Word
  last : Word
deriving DecidableEq, Repr

/-- What a loaded image brings besides its bytes (R476, R489): the epochs it provides and requires, its claims, and the slot it
came from (false A, true B). -/
structure ImageMeta where
  prov : Word
  req : List (BitVec 16)
  claims : List Claim
  slot : Option Bool
deriving DecidableEq, Repr

/-! ## Cores -/

/-- A result on its way to its result sockets (R248, R249). -/
inductive ResultVal where
  | alu (r : Word) (c v : Bool)
  | shf (r : Word) (sat : Bool)
  | mac (p ph : Word)
  | acc (k : Fin 4) (v : BitVec 72)
  | clp (k : Fin 8) (v : Word) (flag : BitVec 16)
  | lsuD (d : Word)
  | lsuDy (d dh : Word)
  | lsuDf (d : Word)
  | lsuDfy (d df : Word)
  | tim (v : Word)
  | snap (s0 s1 s2 s3 : Word)
  | pipA (v : Word)
  | msgSt (v : Word)
  | ledOut (v : Word)
  | ledN (v : Word)
  | ledTokr (v : Word)
  | otpu (v : Word)
  | pev (v : Word)
  | segRead (base lim rw : Word)
deriving DecidableEq, Repr

/-- An operation in flight: the cc of its trigger, the cc from which its result can be read, and the result. -/
structure InFlight where
  issued : Nat
  due : Nat
  val : ResultVal
deriving DecidableEq, Repr

/-- The data kinds of an LSU access (R303). -/
inductive AccessKind where
  | ld32 | ld16 | ld16s | ld8 | ld8s | ldy | st32 | st16 | st8 | sty
deriving DecidableEq, Repr

/-- A far access on its way (R252): triggered in cc `issued`, performed at `due`, its load result readable 2 cc later. -/
structure FarAccess where
  issued : Nat
  due : Nat
  kind : AccessKind
  addr : Word
  data : Word
  dataH : Byte
deriving DecidableEq, Repr

/-- A message-ring operation in flight (R321, R322): when it commits, its status word, and for a POP or PEEK the ring
and the DMEM address its entry goes to. -/
structure MsgOp where
  due : Nat
  st : Word
  copy : Option (Fin 32 × Word × Bool)
deriving DecidableEq, Repr

/-- An active zero-overhead loop (R284): first and last body index and the iterations left, the running one counted. -/
structure LoopFrame where
  first : Nat
  last : Nat
  left : Nat
deriving DecidableEq, Repr

/-- One NMA core: its visible state (R243), its operand and result sockets, and what it has in flight. `jump` is a taken
control move: the delay slots still to issue, its target, and whether it can end a loop (R259, R286). `evtFired` and
`adcrFresh` are the wait sources and sample slots that came in the cc beside them (R289, R309). -/
structure CoreSt where
  run : CoreState
  locals : Vector Word 32
  guards : BitVec 8
  acc : Vector (BitVec 72) 4
  accSeen : Vector (BitVec 72) 4
  segs : Vector SegDesc 8
  segNext : List (Nat × Fin 8 × SegDesc)
  stack : List Nat
  loops : List LoopFrame
  pc : Nat
  lastPc : Nat
  inRom : Bool
  jump : Option (Nat × Nat × Bool)
  startCc : Nat
  lastIssue : Option Nat
  waitT : BitVec 17
  waitCc : Option Nat
  -- operand sockets
  aluA : Word
  shfA : Word
  macA : Word
  macXp : Word
  macYp : Word
  clpK : Word
  clpLo : Word
  clpHi : Word
  lsuA : Word
  lsuSd : Word
  lsuSdh : Word
  evtMask : Word
  segSel : Word
  segBase : Word
  segLim : Word
  cuLcnt : Word
  timSel : Word
  pipIdx : Word
  pipW0 : Word
  msgRing : Word
  -- result sockets, as committed
  aluR : Word
  aluC : Bool
  aluV : Bool
  shfR : Word
  shfSat : Bool
  macP : Word
  macPh : Word
  clpSeen : Vector Word 8
  clpFlag : BitVec 16
  lsuD : Word
  lsuDh : Word
  lsuDf : Word
  timV : Word
  timS : Vector Word 4
  pipA : Word
  msgSt : Word
  ledOut : Word
  ledN : Word
  ledTokr : Word
  otpuD : Word
  evtSrc : Word
  evtPev : Word
  segRead : Word × Word × Word
  -- live flags and state behind the sockets
  macFlag : BitVec 6
  lsuFlag : BitVec 2
  timFlag : Bool
  pipFlag : Bool
  dacwFlag : BitVec 8
  clpI : Vector Word 8
  clpLoV : Vector Word 8
  clpHiV : Vector Word 8
  clpSticky : BitVec 8
  clpAtHi : BitVec 8
  evtPend : Word
  evtOvf : Word
  evtFired : Word
  evtFiredCc : Nat
  adcr : Vector (BitVec 12) 32
  adcrNew : Word
  adcrMiss : Word
  adcrFresh : Word
  adcrFreshCc : Nat
  adcrStamp : Vector Word 4
  portEv : Vector Byte 16
  -- in flight
  inflight : List InFlight
  far : List FarAccess
  msgOp : Option MsgOp
  ledServe : List (Nat × Port)
  ledTokw : List (Nat × BitVec 4)
  -- watchdog, trap record, banks
  wdctl : BitVec 16
  wdLim : BitVec 16
  wdStart : Nat
  trapRec : Word
  trapArg : Word
  trapCc : Option Nat
  bank : Bool
  verified : Bool
  ripeVerified : Bool
  ripenPend : Bool
  ripeMeta : ImageMeta
  greenMeta : ImageMeta
deriving DecidableEq, Repr

/-! ## Ports -/

/-- The green or the ripe copy of a port's GW registers (R12). -/
structure GwSet where
  startcfg : Word
  fusecfg : Word
  moistctl : Word
  ctrpol : Word
  ctrdef : Word
  pwmcfg : Word
  pkcfg : Word
  winth : Word
  adcset : Word
  burstctl : Word
deriving DecidableEq, Repr

/-- Seating, switch, breaker and power-good of a port (R397 to R415). -/
structure PowerSt where
  sw : SwState
  cause : BitVec 4
  retryLeft : Byte
  pg : Bool
  pgctl : Word
  seat : Comparator
  settled : Bool
  startHeld : Bool
  refused : Bool
  reason : BitVec 3
  tripCnt : Byte
  failed : Bool
  ftCount : Nat
  ftStart : Nat
  preStart : Nat
  onReached : Bool
  after : SwState
  ripenedSinceTrip : Bool
  retrying : Bool
  offElapsed : Bool
  offTimeUs : Nat
  offStart : Nat
  rampPj : Nat
  discharging : Bool
  stuck : Bool
  thermHold : Bool
  vPort : Nat
  vStage : Nat
  iPort : Int
deriving DecidableEq, Repr

/-- Metering of a port (R416 to R418): the readings shown, the sums of the present 1 ms, and the two accumulators with
their remainders of 1/1024 µJ. -/
structure MeterSt where
  vmeas : BitVec 16
  imeas : Word
  pmeas : Word
  sumV : Nat
  sumI : Int
  sumP : Int
  count : Nat
  eexp : BitVec 48
  eimp : BitVec 48
  remExp : Nat
  remImp : Nat
deriving DecidableEq, Repr

/-- Moisture of a port (R429 to R434). -/
structure MoistSt where
  wet : Bool
  pins : BitVec 3
  dgmax : Byte
  yield : Byte
  mcnt : Byte
  dryRuns : Nat
  measuring : Bool
deriving DecidableEq, Repr

/-- Configuration wires of a port (R88 to R110): `effMode` is the ROLEMODE in effect (R102), `levelCc` the cc of the last
change of LEVEL (R91), `debounced` says that a sink's tCF_ATTACH has run (R95), `suspended` that R100 holds. -/
structure CfSt where
  cfctl : Word
  attach : AttachState
  asSource : Bool
  active : Bool
  csupOn : Bool
  csupIn : Bool
  marker : Bool
  csupOc : Bool
  csupTrips : Nat
  cause : BitVec 2
  cf1 : Reading
  cf2 : Reading
  effMode : BitVec 3
  levelCc : Nat
  fromLegacy : Bool
  legacyDue : Bool
  attachRun : Bool
  debounced : Bool
  startRow : Reading × Reading
  suspended : Bool
  csupSwapped : Bool
deriving DecidableEq, Repr

/-- One session context (R98, R120): the TX ID counter and the last accepted ID with the cc its frame ended. -/
structure CtxSt where
  txId : BitVec 3
  lastRx : Option (BitVec 3 × Nat)
deriving DecidableEq, Repr

/-- A frame the PHY builds by itself, ahead of the TX ring (R117, R132, R163). `id` is its ID once its first try has begun
(R120). -/
structure PhyFrame where
  ctx : Nat
  type : BitVec 5
  objs : List Word
  id : Option (BitVec 3) := none
deriving DecidableEq, Repr

/-- What the PHY has on the line or waits for. -/
inductive TxItem where
  | ring (e : Nat)
  | own (f : PhyFrame)
deriving DecidableEq, Repr

/-- The PHY's line state (R118, R119, R123). -/
inductive LinePhase where
  | idle
  | sending
  | awaitNod
  | retryWait
  | sendingMark
  | sendingNod
deriving DecidableEq, Repr

/-- A pending grant mark (R122, R389): OPEN or CLOSE and its turn bits. -/
structure MarkReq where
  isOpen : Bool
  turn : BitVec 6
deriving DecidableEq, Repr

/-- Line PHY, contexts and rings of a port (R111 to R136). `tx` lists the entries the TX ring holds, oldest first, and
`txNext` is the entry of the next push; `begun` lists the held entries whose message has its ID already (R120). `sinkStart` says
that the sink's START frame came in while the hub's own START entry waited for its level (R128). -/
structure LineSt where
  linectl : Word
  ctxen : Word
  crcerr : Byte
  drop : Byte
  rxfull : Byte
  notsup : Byte
  holdviol : Byte
  txfail : Byte
  dup : Byte
  owner : Bool
  tx : List Nat
  txNext : Nat
  begun : List Nat
  rxHead : Nat
  rxCount : Nat
  ctxs : Vector CtxSt 12
  phase : LinePhase
  cur : Option TxItem
  curId : BitVec 3
  tries : Nat
  receiving : Bool
  nodOwed : Option (BitVec 4 × BitVec 3)
  notsupDue : Option PhyFrame
  own : List PhyFrame
  mark : Option MarkReq
  markOnLine : Option Byte
  holdStood : Bool
  holdWait : Bool
  startOut : Bool
  sinkStart : Bool
deriving DecidableEq, Repr

/-- The kinds of open sequence (R147). -/
inductive SeqKind where
  | capsOut | capsIn | getcapsOut | getcapsIn | askOut | askIn | profileOut | profileIn | pswapOut | pswapIn | sswapOut | sswapIn
deriving DecidableEq, Repr

/-- How far an open sequence has come: requested, granted, the acting end has begun to act, the first READY given; in an SSWAP
`gaveReady` is the first READY given by the hub, `ready1` that given by the other end. -/
inductive SeqPhase where
  | requested | granted | acting | ready1 | gaveReady
deriving DecidableEq, Repr

/-- A port's open sequence (R147): what it is, the request's type and ID, how far it has come, and whether a request of the
hub has had its NOD. -/
structure Seq where
  kind : SeqKind
  rtype : BitVec 5
  rid : BitVec 3
  phase : SeqPhase
  nodded : Bool
deriving DecidableEq, Repr

/-- An OV/UV window in mV (R154). -/
structure Window where
  lo : Nat
  hi : Nat
deriving DecidableEq, Repr

/-- A request that WAIT has put off (R158): its type and objects, how many WAITs it has had, and whether it is to go out
again. -/
structure WaitingReq where
  type : BitVec 5
  objs : List Word
  count : Nat
  due : Bool
deriving DecidableEq, Repr

/-- Contract state of a port (R138 to R180). `first` says that the transition under way is a source's first contract (R546),
`profGranted` that a burst profile is granted, `ownSwap` holds the hub's own swap request that the source's request has
overtaken (R179), `getcapsDue` that the sink owes its GETCAPS (R151). -/
structure ContractSt where
  state : CtrState
  trans : Bool
  prof : Bool
  asSource : Bool
  volt : BitVec 11
  icont : BitVec 9
  newProf : Bool
  newVolt : BitVec 11
  newIcont : BitVec 9
  waitout : Byte
  timeout : Byte
  stale : Byte
  transfail : Byte
  window : Window
  slewing : Bool
  slew : BitVec 16
  seq : Option Seq
  lastReq : List Word
  caps : List Word
  capsOut : List Word
  capsSent : Nat
  capsNodded : Bool
  waiting : List WaitingReq
  narrowing : Bool
  askNewRun : Bool
  tokAfter : Option Nat
  lastType : BitVec 5
  newTok : Nat
  oldTok : Nat
  first : Bool
  profGranted : Bool
  ownSwap : Option Seq
  getcapsDue : Bool
deriving DecidableEq, Repr

/-- Power stage, comparators and sampling of a port (R188 to R228, R329 to R335, R354). `setDue` holds the slots of the sample sets
that queue, oldest first, each as ADCSET stood when it was triggered (R333, R334). `prevMode` is the mode write an earlier cc left
beside one of the cc `pendCc` (R195); `refOld` the reference that the last write replaced, with the cc of the write (R197, R311); `bypBack`
that a voltage change took the stage out of BYPASS (R156); `clrCc` is the cc of the last clear of the latch `pkLat`, which releases it
from the next cc (R210); `clampOld` whether the burst clamp held before its last change, with the cc of
the change (R388). -/
structure StageSt where
  mode : StageMode
  lastMode : StageMode
  pendMode : Option StageMode
  pendCc : Nat
  prevMode : Option StageMode
  force : List ForceSource
  hs : Bool
  limit : Bool
  limitSeen : Bool
  pkLat : Bool
  pkTripCc : Option Nat
  clrCc : Option Nat
  badMode : Bool
  bypRef : Bool
  bypExit : Option Bool
  refCode : BitVec 10
  refOld : Option (Nat × BitVec 10)
  dmaxCnt : Byte
  dmaxRun : Nat
  dmaxPend : Option Nat
  active : Bool
  ended : Bool
  bypBack : Bool
  burstClamp : Bool
  clampOld : Option (Nat × Bool)
  pk : Comparator
  hsCmp : Comparator
  ov : Comparator
  uv : Comparator
  cmproute : Word
  testSel : BitVec 4
  testMode : BitVec 3
  testBusy : Bool
  testDone : Bool
  testRefused : Bool
  testPass : Bool
  testOut : BitVec 3
  periods : Nat
  startCc : Nat
  setDue : List (BitVec 8)
  smpOvf : Byte
  lagMax : Byte
  setCnt : Byte
  ripCause : BitVec 4
  ripRefused : Bool
  ripDone : Bool
  ripPend : Bool
deriving DecidableEq, Repr

/-- Wheel tracker and burst window of a W port (R369, R376 to R391, R396). `runs` holds the last two forward tooth periods
that count for ANGLE mode, `gapped` says that an invalid or reverse tooth came after the last of them (R380); `lastLead` is
the last forward leading edge; `synthCc` and `synthRem` carry the synthetic angle of TIME mode. -/
structure WheelSt where
  angctl : Word
  angtint : Word
  turn : BitVec 16
  tu : BitVec 16
  mode : WheelMode
  before : WheelMode
  sync : Bool
  dir : Bool
  tpos : Nat
  errcnt : Byte
  resync : Byte
  angper : Word
  angjump : Word
  rise : Word
  fall : Word
  width : Word
  pulses : BitVec 16
  fallSeen : Bool
  counting : Bool
  lastLead : Option Nat
  runs : List Nat
  gapped : Bool
  sinceIndex : Nat
  synthCc : Nat
  synthRem : Nat
  tone : Comparator
  burstOpen : Bool
  token : Bool
  returning : Bool
  markPend : Bool
  tmaxRun : Bool
  skipTok : Byte
  skipLate : Byte
  skipState : Byte
  opens : BitVec 16
  forced : Byte
deriving DecidableEq, Repr

/-- One port. -/
structure PortSt where
  green : GwSet
  ripe : GwSet
  pw : PowerSt
  me : MeterSt
  mo : MoistSt
  cf : CfSt
  ln : LineSt
  ct : ContractSt
  st : StageSt
  wh : WheelSt
deriving DecidableEq, Repr

/-! ## Shared hardware -/

/-- The power ledger's books (R164 to R173, R187). -/
structure LedgerSt where
  ledctl : Word
  avail : Nat
  hard : Nat
  held : Vector Nat 16
  tokpwr : Vector Nat 16
  tokens : BitVec 4
  tokout : BitVec 4
  cut : Bool
  shedCnt : Byte
  refuse : Byte
  jhead : Nat
  shedRun : Bool
  excursion : Bool
  lastServed : Nat
deriving DecidableEq, Repr

/-- What a counter is to do in a later cc (R315, R358, R366): register i written, START, STOP or FORCE_RELOAD. -/
inductive CtOp where
  | write (i : Nat) (v : Word)
  | start
  | stop
  | reload
deriving DecidableEq, Repr

/-- A general counter (R392). `due` holds what commands, links and pips ask of it, each with the cc in which it takes effect,
earliest first. -/
structure Counter where
  run : Bool
  out : Bool
  ctl : Word
  count : BitVec 16
  reload : BitVec 16
  cmp : BitVec 16
  link : Word
  zerof : Bool
  matchf : Bool
  zcnt : Byte
  due : List (Nat × CtOp)
deriving DecidableEq, Repr

/-- A cherry pair on a general input (R394). `due` is a CTL write on its way with the cc in which it lands (R315). -/
structure Cherry where
  ctl : Word
  rise : Word
  fall : Word
  width : Word
  pulses : BitVec 16
  other : Bool
  due : Option (Nat × Word)
deriving DecidableEq, Repr

/-- A sweep-queue item (R385): a pip entry and whether it fires late. `crossed` says that its wheel's CLOSE entry was
crossed by the same jump (R388). -/
structure SweepItem where
  entry : Fin 256
  late : Bool
  crossed : Bool
deriving DecidableEq, Repr

/-- A pip entry as it stood before the cc in which PIP.ARM rewrote it or PIP.DIS disarmed it (R319): its two words, and whether it
was rewritten. -/
structure PipShadow where
  entry : Fin 256
  w0 : Word
  w1 : Word
  rewritten : Bool
deriving DecidableEq, Repr

/-- Timer array, SYNC_IN and the pip scheduler (R356 to R395). `pipOld` holds the entries that changed in cc `pipOldCc` as they
stood before it (R319). -/
structure TimerSt where
  counters : Vector Counter 24
  cherries : Vector Cherry 4
  gisel : Word
  syncEn : Bool
  corrcnt : Byte
  losscnt : Byte
  acq : Bool
  lock : Bool
  tbind : Vector Word 56
  queue : List SweepItem
  ovfcnt : Byte
  latecnt : Byte
  pipnote : Vector Word 3
  pipOldCc : Nat
  pipOld : List PipShadow
deriving DecidableEq, Repr

/-- Feed selector, HBUS window and supplies (R14 to R17, R219, R225, R420 to R428, R436). -/
structure FeedSt where
  prog : Bool
  ben : Bool
  prio : BitVec 6
  locked : Bool
  feed : Feed
  last : Feed
  cause : BitVec 4
  lossCause : BitVec 4
  gap : Bool
  pre : Bool
  target : Feed
  planned : Bool
  refcause : BitVec 4
  refused : Bool
  chgcnt : Byte
  hbusmeas : BitVec 16
  wrapcnt : Byte
  wrapImp : Bool
  wrapPort : BitVec 4
  hbusMv : Nat
  hbusSum : Nat
  hbusN : Nat
  hbusLow : Bool
  kuMv : Nat
  gMv : Nat
  bMv : Nat
  bHigh : Option Nat
  kuUp : Bool
  gUp : Bool
  bUp : Bool
  uv : Comparator
  ov : Comparator
  testSel : Bool
  testMode : BitVec 3
  testBusy : Bool
  testDone : Bool
  testRefused : Bool
  testPass : Bool
  vhost : Bool
  exempt : Feed
  telSeq : Word
deriving DecidableEq, Repr

/-- One temperature sensor (R438 to R443): the reading shown, whether it is broken, counts of consecutive bad, valid,
over-limit and over-warning samples, recent readings with their round times, and the rate judgement. -/
structure Sensor where
  temp : BitVec 16
  broken : Bool
  bad : Nat
  good : Nat
  overLim : Nat
  overWarn : Nat
  limit : Bool
  warn : Bool
  warnArmed : Bool
  rate : Bool
  rateLastNo : Nat
  hist : List (Nat × Int)
deriving DecidableEq, Repr

/-- The thermal guard (R437 to R452). `now` counts half milliseconds of sampling. -/
structure ThermalSt where
  sensors : Vector Sensor 24
  thermctl : Word
  fast : Bool
  calm : Nat
  now : Nat
  ptrip : Byte
  ratecnt : Byte
  warncnt : Byte
  maxTemp : BitVec 16
  maxSensor : BitVec 5
  seq : Word
deriving DecidableEq, Repr

/-- One Stone word at its three references (R457). -/
structure FuseWord where
  word : Nat
  normal : Word
  low : Word
  high : Word
deriving DecidableEq, Repr

/-- A Stone operation under way (R463 to R465): its code of R467, its requester, its argument. -/
structure StoneOp where
  op : BitVec 4
  arg : BitVec 16
deriving DecidableEq, Repr

/-- The Stone (R453 to R467, R492): the fuses, the words latched at boot with their marks, and what the boot read
decided. -/
structure StoneSt where
  fuses : List FuseWord
  latched : List (Nat × Word)
  life : BitVec 3
  locks : BitVec 4
  areast : BitVec 8
  varmis : Bool
  variant : BitVec 2
  restrict : Bool
  ctlmarg : Bool
  mword : BitVec 11
  busy : Option StoneOp
  done : Bool
  src : BitVec 2
  code : BitVec 4
  op : BitVec 4
  arg : BitVec 16
  otpuDone : Bool
  otpuCode : BitVec 4
deriving DecidableEq, Repr

/-- An image-store operation under way (R490). -/
structure ImageOp where
  op : BitVec 4
  slot : Nat
  offset : Nat
  len : Nat
  src : Nat
  kind : Byte
  portSel : Byte
deriving DecidableEq, Repr

/-- Boot results, the retained cause and the image store's registers (R471, R480, R492). -/
structure BootSt where
  result : BitVec 4
  chkA : BitVec 4
  chkB : BitVec 4
  unsign : Bool
  tboot : Byte
  rcause : BitVec 4
  feedcause : BitVec 4
  rsensor : BitVec 5
  rpeak : BitVec 16
  keyHash : Option (List Word)
  addrofs : BitVec 2
  slotUsed : Option Bool
  imgRun : BitVec 2
  img : Option ImageOp
  imgDone : Bool
  imgCode : BitVec 4
  imgCheck : BitVec 4
  imgOp : BitVec 4
  imgLeft : BitVec 16
  ripStatCause : BitVec 4
  ripStatCore : BitVec 4
  ripDone : BitVec 6
  paramMeta : ImageMeta
  paramGreen : ImageMeta
  paramLoaded : BitVec 16
deriving DecidableEq, Repr

/-- Host bus and event rings (R493 to R534). `sent` holds the bytes the hub put on SDA in the last transaction and
`nack` the index of the host byte it did not acknowledge (0 the command byte, 1 the next byte). -/
structure HostSt where
  portsel : BitVec 4
  winbase : BitVec 16
  bushold : Word
  bussetup : Word
  busfilt : Word
  busctl : Word
  errcnt : Byte
  errcmd : Byte
  errcode : BitVec 4
  lost : Byte
  loghead : Byte
  evhead : Nat
  evcount : Nat
  even : Vector Word 5
  sent : List Byte
  nack : Option Nat
deriving DecidableEq, Repr

/-- The module's straps and pins, and the hub's mode. -/
structure DeviceSt where
  strap : BitVec 2
  stepping : BitVec 5
  addr : BitVec 3
  mode : HubMode
  hold : Hold
  asleep : Bool
  sleepDue : Bool
deriving DecidableEq, Repr

/-- The whole hub. `freeCtr` is the model's own: it counts the free values used (DESIGN CHOICE, log entry 6). `pending` holds the
commands that wait, first in first out. `evq` holds the events a command has fired and not yet written to the rings; it is
empty between commands (DESIGN CHOICE, log entry 3). -/
structure State where
  cc : Nat
  evq : List (Nat × Nat)
  dev : DeviceSt
  cores : Vector CoreSt 7
  ports : Vector PortSt 16
  led : LedgerSt
  tim : TimerSt
  fd : FeedSt
  th : ThermalSt
  stone : StoneSt
  bt : BootSt
  host : HostSt
  mem : List Host.Cell
  freeCtr : Nat
  pending : List Instr
deriving DecidableEq, Repr

/-! ## Reset -/

/-- A comparator right after power-up (R220): not tripped, VALID = 0. -/
def Comparator.reset : Comparator := { valid := false, out := false }

/-- No image. -/
def ImageMeta.empty : ImageMeta := { prov := 0, req := [], claims := [], slot := none }

/-- A disabled descriptor (R243, R256). -/
def SegDesc.off : SegDesc := { base := 0, lim := 0, rw := 0 }

/-- Core state after reset (R243), held in RESET. `wd` is the reset value of G.WDCTLc (R273). -/
def CoreSt.reset (wd : BitVec 16) : CoreSt :=
  { run := .reset, locals := .replicate 32 0, guards := 1, acc := .replicate 4 0, accSeen := .replicate 4 0,
    segs := .replicate 8 .off, segNext := [], stack := [], loops := [], pc := 0, lastPc := 0, inRom := false, jump := none,
    startCc := 0, lastIssue := none, waitT := 0, waitCc := none,
    aluA := 0, shfA := 0, macA := 0, macXp := 0, macYp := 0, clpK := 0, clpLo := 0, clpHi := 0, lsuA := 0, lsuSd := 0,
    lsuSdh := 0, evtMask := 0, segSel := 0, segBase := 0, segLim := 0, cuLcnt := 0, timSel := 0, pipIdx := 0,
    pipW0 := 0, msgRing := 0,
    aluR := 0, aluC := false, aluV := false, shfR := 0, shfSat := false, macP := 0, macPh := 0,
    clpSeen := .replicate 8 0, clpFlag := 0, lsuD := 0, lsuDh := 0, lsuDf := 0, timV := 0, timS := .replicate 4 0,
    pipA := 0, msgSt := 0, ledOut := 0, ledN := 0, ledTokr := 0, otpuD := 0, evtSrc := 0, evtPev := 0,
    segRead := (0, 0, 0),
    macFlag := 0, lsuFlag := 0, timFlag := false, pipFlag := false, dacwFlag := 0, clpI := .replicate 8 0,
    clpLoV := .replicate 8 0, clpHiV := .replicate 8 0, clpSticky := 0, clpAtHi := 0, evtPend := 0, evtOvf := 0, evtFired := 0, evtFiredCc := 0,
    adcr := .replicate 32 0, adcrNew := 0, adcrMiss := 0, adcrFresh := 0, adcrFreshCc := 0, adcrStamp := .replicate 4 0, portEv := .replicate 16 0,
    inflight := [], far := [], msgOp := none, ledServe := [], ledTokw := [],
    wdctl := wd, wdLim := wd, wdStart := 0, trapRec := 0, trapArg := 0, trapCc := none,
    bank := false, verified := false, ripeVerified := false, ripenPend := false, ripeMeta := .empty, greenMeta := .empty }

/-- The watchdog reset values of R273; SV's fixed watchdog of 100 ms (R264) is 10000 steps of 10 µs. -/
def wdReset : Core → BitVec 16
  | 0 => 0x000A | 1 => 0x000A | 2 => 0x000A | 3 => 0x000A | 4 => 0x03E8 | 5 => 0x03E8 | 6 => 10000

/-- The GW registers' reset values by port (R186, R228, R354, R396, R435). On B the moisture registers read 0. -/
def GwSet.reset (n : Port) : GwSet :=
  { startcfg := if n.val < 12 then 0x14320032 else 0x32320190
    fusecfg := 0x0A020300
    moistctl := if n = portB then 0 else 0x800A0C28
    ctrpol := if n.val < 12 then 0x48183250 else if n = portKU then 0x38183258 else if n = portKD then 0x28183250
      else if n = portB then 0x10000000 else 0x38183250
    ctrdef := if n.val < 12 then 0x00F00005 else if n = portKU then 0x01E02864 else if n = portKD then 0x01E00064
      else if n = portB then 0 else 0x03C00032
    pwmcfg := if n.val < 12 then 0x21C14302 else 0x8703CB4F
    pkcfg := 0
    winth := 0xFFC00100
    adcset := if n.val < 12 then BitVec.ofNat 32 (0x00300003 + (n.val % 8) * 0x10000)
      else if n = portB then 0x0020000F else 0x0000000F
    burstctl := 0 }

/-- Switch, breaker and power-good after reset (R435): everything off. -/
def PowerSt.reset : PowerSt :=
  { sw := .off, cause := 0, retryLeft := 0, pg := false, pgctl := 0, seat := .reset, settled := false,
    startHeld := false, refused := false, reason := 0, tripCnt := 0, failed := false, ftCount := 0, ftStart := 0,
    preStart := 0, onReached := false, after := .off, ripenedSinceTrip := false, retrying := false,
    offElapsed := false, offTimeUs := 0, offStart := 0,
    rampPj := 0, discharging := false, stuck := false, thermHold := false, vPort := 0, vStage := 0, iPort := 0 }

/-- Metering after reset (R417, R435). -/
def MeterSt.reset : MeterSt :=
  { vmeas := 0, imeas := 0, pmeas := 0, sumV := 0, sumI := 0, sumP := 0, count := 0, eexp := 0, eimp := 0,
    remExp := 0, remImp := 0 }

/-- Moisture after reset (R435). -/
def MoistSt.reset : MoistSt :=
  { wet := false, pins := 0, dgmax := 0, yield := 0, mcnt := 0, dryRuns := 0, measuring := false }

/-- Configuration wires after reset (R90, R137): ROLEMODE OFF, SHARE 0x4, detectors Undecided. -/
def CfSt.reset : CfSt :=
  { cfctl := 0x00040000, attach := .unattached, asSource := false, active := false, csupOn := false, csupIn := false,
    marker := false, csupOc := false, csupTrips := 0, cause := 0, cf1 := .undecided, cf2 := .undecided,
    effMode := 0, levelCc := 0, fromLegacy := false, legacyDue := false, attachRun := false, debounced := false,
    startRow := (.undecided, .undecided), suspended := false, csupSwapped := false }

/-- A closed context (R98). -/
def CtxSt.reset : CtxSt := { txId := 0, lastRx := none }

/-- Line PHY and rings after reset (R137). -/
def LineSt.reset : LineSt :=
  { linectl := 0, ctxen := 0, crcerr := 0, drop := 0, rxfull := 0, notsup := 0, holdviol := 0,
    txfail := 0, dup := 0, owner := false, tx := [], txNext := 0, begun := [], rxHead := 0, rxCount := 0,
    ctxs := .replicate 12 .reset, phase := .idle, cur := none, curId := 0, tries := 0, receiving := false,
    nodOwed := none, notsupDue := none, own := [], mark := none, markOnLine := none, holdStood := false,
    holdWait := false, startOut := false, sinkStart := false }

/-- Contracts after reset (R186). -/
def ContractSt.reset : ContractSt :=
  { state := .none, trans := false, prof := false, asSource := false, volt := 0, icont := 0, newProf := false,
    newVolt := 0, newIcont := 0, waitout := 0, timeout := 0, stale := 0, transfail := 0, window := ⟨0, 0⟩,
    slewing := false, slew := 0, seq := none, lastReq := [], caps := [], capsOut := [], capsSent := 0, capsNodded := false,
    waiting := [], narrowing := false, askNewRun := false, tokAfter := none, lastType := 0, newTok := 0, oldTok := 0,
    first := false, profGranted := false, ownSwap := none, getcapsDue := false }

/-- Stage and comparators after reset (R220, R228, R354). -/
def StageSt.reset : StageSt :=
  { mode := .off, lastMode := .off, pendMode := none, pendCc := 0, prevMode := none, force := [], hs := false, limit := false, limitSeen := false,
    pkLat := false, pkTripCc := none, clrCc := none, badMode := false, bypRef := false,
    bypExit := none, refCode := 0, refOld := none, dmaxCnt := 0, dmaxRun := 0, dmaxPend := none, active := false, ended := false,
    bypBack := false, burstClamp := false, clampOld := none, pk := .reset, hsCmp := .reset, ov := .reset, uv := .reset, cmproute := 0, testSel := 0,
    testMode := 0, testBusy := false, testDone := false, testRefused := false, testPass := false, testOut := 0,
    periods := 0, startCc := 0, setDue := [], smpOvf := 0, lagMax := 0,
    setCnt := 0, ripCause := 0, ripRefused := false, ripDone := false, ripPend := false }

/-- Wheel tracker and burst window after reset (R396). -/
def WheelSt.reset : WheelSt :=
  { angctl := 0x005000D0, angtint := 0x000001F4, turn := 0, tu := 0, mode := .off, before := .time, sync := false,
    dir := false, tpos := 0, errcnt := 0, resync := 0, angper := 0, angjump := 0, rise := 0, fall := 0, width := 0,
    pulses := 0, fallSeen := false, counting := false, lastLead := none, runs := [], gapped := false, sinceIndex := 0,
    synthCc := 0, synthRem := 0, tone := .reset, burstOpen := false, token := false, returning := false, markPend := false,
    tmaxRun := false, skipTok := 0, skipLate := 0, skipState := 0, opens := 0, forced := 0 }

/-- Port n after reset. -/
def PortSt.reset (n : Port) : PortSt :=
  { green := GwSet.reset n, ripe := GwSet.reset n, pw := .reset, me := .reset, mo := .reset, cf := .reset,
    ln := .reset, ct := .reset, st := .reset, wh := .reset }

/-- The ledger after reset (R187): TOKENS 4, RESERVE 800, SHEDMARGIN 600. -/
def LedgerSt.reset : LedgerSt :=
  { ledctl := 0x03202580, avail := 0, hard := 0, held := .replicate 16 0, tokpwr := .replicate 16 0, tokens := 4,
    tokout := 0, cut := false, shedCnt := 0, refuse := 0, jhead := 0, shedRun := false, excursion := false, lastServed := 15 }

/-- A general counter after reset (R392). -/
def Counter.reset : Counter :=
  { run := false, out := false, ctl := 0, count := 0, reload := 0xFFFF, cmp := 0, link := 0, zerof := false,
    matchf := false, zcnt := 0, due := [] }

/-- A cherry pair after reset (R394). -/
def Cherry.reset : Cherry := { ctl := 0, rise := 0, fall := 0, width := 0, pulses := 0, other := false, due := none }

/-- Timers after reset (R395): SYNCCTL.EN = 1. -/
def TimerSt.reset : TimerSt :=
  { counters := .replicate 24 .reset, cherries := .replicate 4 .reset, gisel := 0, syncEn := true, corrcnt := 0,
    losscnt := 0, acq := false, lock := false, tbind := .replicate 56 0, queue := [], ovfcnt := 0, latecnt := 0,
    pipnote := .replicate 3 0, pipOldCc := 0, pipOld := [] }

/-- Feeds after reset (R436): PROG 0, BEN 1, order KU > G > B, no feed, no supply (DEDUCED, log entry 9). -/
def FeedSt.reset : FeedSt :=
  { prog := false, ben := true, prio := 0x1B, locked := false, feed := .none, last := .none, cause := 0,
    lossCause := 0, gap := false, pre := false, target := .none, planned := false, refcause := 0, refused := false,
    chgcnt := 0, hbusmeas := 0, wrapcnt := 0, wrapImp := false, wrapPort := 0, hbusMv := 0, hbusSum := 0, hbusN := 0,
    hbusLow := true, kuMv := 0, gMv := 0, bMv := 0, bHigh := none, kuUp := false, gUp := false, bUp := false, uv := .reset,
    ov := .reset, testSel := false, testMode := 0, testBusy := false, testDone := false, testRefused := false,
    testPass := false, vhost := false, exempt := .none, telSeq := 0 }

/-- A sensor before its first sample (R452). -/
def Sensor.reset : Sensor :=
  { temp := 0, broken := false, bad := 0, good := 0, overLim := 0, overWarn := 0, limit := false, warn := false,
    warnArmed := true, rate := false, rateLastNo := 0, hist := [] }

/-- The thermal guard after reset (R452). -/
def ThermalSt.reset : ThermalSt :=
  { sensors := .replicate 24 .reset, thermctl := 0x877D697D, fast := false, calm := 0, now := 0, ptrip := 0,
    ratecnt := 0, warncnt := 0, maxTemp := 0, maxSensor := 0, seq := 0 }

/-- The Stone as it leaves the fuse process, nothing read yet (R453, DESIGN CHOICE, log entry 8). -/
def StoneSt.reset : StoneSt :=
  { fuses := [], latched := [], life := 0, locks := 0, areast := 0, varmis := false, variant := 0, restrict := false,
    ctlmarg := false, mword := 0x7FF, busy := none, done := false, src := 0, code := 0, op := 0, arg := 0,
    otpuDone := false, otpuCode := 0 }

/-- Boot results before a boot, with no retained cause (R471). -/
def BootSt.reset : BootSt :=
  { result := 0, chkA := 0, chkB := 0, unsign := false, tboot := 0, rcause := 0, feedcause := 0, rsensor := 0,
    rpeak := 0, keyHash := none, addrofs := 0, slotUsed := none, imgRun := 0, img := none, imgDone := false,
    imgCode := 0, imgCheck := 0, imgOp := 0, imgLeft := 0, ripStatCause := 0, ripStatCore := 0, ripDone := 0,
    paramMeta := .empty, paramGreen := .empty, paramLoaded := 0 }

/-- The host bus after reset (R504, R534). -/
def HostSt.reset : HostSt :=
  { portsel := 0, winbase := 0, bushold := 0xC, bussetup := 3, busfilt := 3, busctl := 0x00010006, errcnt := 0,
    errcmd := 0, errcode := 0, lost := 0, loghead := 0, evhead := 0, evcount := 0,
    even := #v[0xFFFFFFFF, 0xFFFFFFFF, 0xFFFFFFFF, 0xFFFFFFFF, 0x00FFFFFF], sent := [], nack := none }

/-- Straps, pins and mode after reset: a DMH-16 (DESIGN CHOICE, log entry 8), released from reset and booting. -/
def DeviceSt.reset : DeviceSt :=
  { strap := 3, stepping := 0, addr := 0, mode := .booting, hold := .none, asleep := false, sleepDue := false }

/-- The hub right after reset: nothing enabled, every core in RESET, every output inert (R7, R243), the boot of R472
still to come, no command waiting. -/
def State.reset : State :=
  { cc := 0, evq := [], dev := .reset, cores := Vector.ofFn fun c => CoreSt.reset (wdReset c),
    ports := Vector.ofFn PortSt.reset, led := .reset, tim := .reset, fd := .reset, th := .reset, stone := .reset,
    bt := .reset, host := .reset, mem := [], freeCtr := 0, pending := [] }

end Sys2Proof.Machine
end

