-- ==== Sys2Proof/Machine/Bits.lean ====
section
/-! DEFINITION. Bit fields, byte order and saturating counters: the helpers every other file of the machine uses. -/

namespace Sys2Proof.Machine

/-- Field [hi:lo] of a word, as a number. -/
def fld {k : Nat} (w : BitVec k) (hi lo : Nat) : Nat := (w.toNat >>> lo) % 2 ^ (hi - lo + 1)

/-- Bit i of a word. -/
def bitOf {k : Nat} (w : BitVec k) (i : Nat) : Bool := w.getLsbD i

/-- A number placed at bit lo of a 32-bit word. -/
def place (v lo : Nat) : Word := BitVec.ofNat 32 (v <<< lo)

/-- A truth value placed at bit lo. -/
def placeB (b : Bool) (lo : Nat) : Word := if b then BitVec.ofNat 32 (1 <<< lo) else 0

/-- A word with field [hi:lo] replaced. -/
def setFld {k : Nat} (w : BitVec k) (hi lo : Nat) (v : Nat) : BitVec k :=
  let mask := BitVec.ofNat k ((2 ^ (hi - lo + 1) - 1) <<< lo)
  (w &&& ~~~mask) ||| (BitVec.ofNat k (v <<< lo) &&& mask)

/-- A counter field that stops at 0xFF. -/
def satInc (b : Byte) : Byte := if b = 0xFF then b else b + 1

/-- A counter field that advances by k and stops at 0xFF. -/
def satAdd (b : Byte) (k : Nat) : Byte := BitVec.ofNat 8 (min 255 (b.toNat + k))

/-- A W1C byte field [hi:lo] after a write: the bits written 1 clear (R12). -/
def w1c8 (b : Byte) (v : Word) (lo : Nat) : Byte := b &&& ~~~(BitVec.ofNat 8 (fld v (lo + 7) lo))

/-- A W1C bit after a write (R12). -/
def w1c1 (b : Bool) (v : Word) (i : Nat) : Bool := b && !bitOf v i

/-- The truth value of a bit as a number. -/
def b2n (b : Bool) : Nat := if b then 1 else 0

/-- The word's four bytes, least significant first (R543). -/
def bytesLE (w : Word) : List Byte :=
  [w.extractLsb' 0 8, w.extractLsb' 8 8, w.extractLsb' 16 8, w.extractLsb' 24 8]

/-- The word's four bytes, most significant first. -/
def bytesBE (w : Word) : List Byte := (bytesLE w).reverse

/-- The number that bytes spell, least significant first. -/
def natLE : List Byte → Nat
  | [] => 0
  | b :: bs => b.toNat + 256 * natLE bs

/-- The number that bytes spell, most significant first. -/
def natBE (bs : List Byte) : Nat := natLE bs.reverse

/-- The number as k bytes, least significant first. -/
def toBytesLE : Nat → Nat → List Byte
  | 0, _ => []
  | k + 1, v => BitVec.ofNat 8 v :: toBytesLE k (v / 256)

/-- A signed value narrowed to 32 bits with saturation. -/
def sat32 (i : Int) : Word :=
  if 2147483647 < i then 0x7FFFFFFF else if i < -2147483648 then 0x80000000 else BitVec.ofInt 32 i

/-- Whether sat32 changes the value. -/
def sat32Hit (i : Int) : Bool := decide (2147483647 < i) || decide (i < -2147483648)

end Sys2Proof.Machine
end

