-- ==== Sys2Proof/Machine/Crypto.lean ====
section
/-! DEFINITION. The checksums and the image verification the spec names: CRC-32 of R114, the PEC of R502, SHA-256 and
ECDSA on P-256 of R478. -/

namespace Sys2Proof.Machine

/-! ## CRC-32 of R114 -/

/-- One bit of the CRC of R114, most significant bit first. -/
def crcBit (c : Word) : Word := if c.msb then (c <<< 1) ^^^ 0x04C11DB7 else c <<< 1

/-- One byte of the CRC of R114. -/
def crcByte (c : Word) (b : Byte) : Word :=
  crcBit (crcBit (crcBit (crcBit (crcBit (crcBit (crcBit (crcBit (c ^^^ ((b.setWidth 32) <<< 24)))))))))

/-- The CRC of R114: initial value and final XOR all ones, not reflected. -/
def crc32 (bs : List Byte) : Word := bs.foldl crcByte 0xFFFFFFFF ^^^ 0xFFFFFFFF

/-! ## PEC of R502 -/

/-- One bit of the SMBus CRC-8. -/
def pecBit (c : Byte) : Byte := if c.msb then (c <<< 1) ^^^ 0x07 else c <<< 1

/-- One byte of the SMBus CRC-8. -/
def pecByte (c b : Byte) : Byte :=
  pecBit (pecBit (pecBit (pecBit (pecBit (pecBit (pecBit (pecBit (c ^^^ b))))))))

/-- The Packet Error Code over the bytes of a transaction (R502). -/
def pecOf (bs : List Byte) : Byte := bs.foldl pecByte 0

/-! ## SHA-256 (FIPS 180-4), R478

The hash is computed as two sequences of words, one for each half of the working state, to which every round adds a word. -/

/-- The first 64 primes. -/
def primes64 : List Nat :=
  [2, 3, 5, 7, 11, 13, 17, 19, 23, 29, 31, 37, 41, 43, 47, 53, 59, 61, 67, 71, 73, 79, 83, 89, 97, 101, 103, 107, 109, 113, 127, 131]
  ++ [137, 139, 149, 151, 157, 163, 167, 173, 179, 181, 191, 193, 197, 199, 211, 223, 227, 229, 233, 239, 241, 251, 257, 263, 269, 271,
      277, 281, 283, 293, 307, 311]

/-- The whole k-th root of x, from a partial root r whose bits from `top` upwards are found. -/
def wholeRoot (k x : Nat) : Nat → Nat → Nat
  | 0, r => r
  | top + 1, r => wholeRoot k x top (if (r + 2 ^ top) ^ k ≤ x then r + 2 ^ top else r)

/-- The first 32 bits of the fraction of the k-th root of a prime. -/
def rootFraction (k prime : Nat) : Word := BitVec.ofNat 32 (wholeRoot k (prime * 2 ^ (32 * k)) 37 0)

/-- A word turned right by each of the amounts, the results summed bit by bit, with one shift beside them. -/
def turned (x : Word) (turns : List Nat) (rest : Word) : Word := turns.foldl (fun y r => y ^^^ x.rotateRight r) rest

/-- The schedule of a block, newest word first, after `k` words more. -/
def schedule (w : List Word) : Nat → List Word
  | 0 => w
  | k + 1 =>
    let l := schedule w k
    let back (i : Nat) : Word := l.getD (i - 1) 0
    (back 16 + back 7 + turned (back 15) [7, 18] (back 15 >>> 3) + turned (back 2) [17, 19] (back 2 >>> 10)) :: l

/-- The two sequences, newest word first. -/
structure Strands where
  left : List Word
  right : List Word

/-- What one round adds to both sequences; x is the sum of its schedule word and its constant. -/
def Strands.grow (t : Strands) (x : Word) : Strands :=
  match t.left, t.right with
  | a :: b :: c :: d :: _, e :: f :: g :: h :: _ =>
    let mix := x + h + (g ^^^ (e &&& (f ^^^ g))) + turned e [6, 11, 25] 0
    { left := (mix + ((a &&& (b ||| c)) ||| (b &&& c)) + turned a [2, 13, 22] 0) :: t.left, right := (mix + d) :: t.right }
  | _, _ => t

/-- Each of the four newest words of a sequence added to those of another. -/
def added (x y : List Word) : List Word := (x.take 4).zipWith (· + ·) y

/-- The sequences before the first block. -/
def Strands.first : Strands :=
  let r (k : Nat) : List Word := ((primes64.drop k).take 4).map (rootFraction 2)
  { left := r 0, right := r 4 }

/-- One block of 16 words. -/
def Strands.block (t : Strands) (w : List Word) : Strands :=
  let sums := (schedule w.reverse 48).reverse.zipWith (· + ·) (primes64.map (rootFraction 3))
  let u := sums.foldl Strands.grow t
  { left := added u.left t.left, right := added u.right t.right }

/-- Groups bytes into words, most significant byte first. -/
def wordsBE : List Byte → List Word
  | a :: b :: c :: d :: rest => (a ++ b ++ c ++ d : BitVec 32) :: wordsBE rest
  | _ => []

/-- The message with its closing 1 bit, zeros up to a whole number of blocks, and its length in bits. -/
def blocksOf (m : List Byte) : List Byte :=
  let tail := (8 * m.length) + (0x80 <<< (8 * ((119 - m.length % 64) % 64 + 8)))
  m ++ (toBytesLE ((119 - m.length % 64) % 64 + 9) tail).reverse

/-- Runs `k` blocks. -/
def Strands.run (t : Strands) : Nat → List Word → Strands
  | 0, _ => t
  | k + 1, w => Strands.run (t.block (w.take 16)) k (w.drop 16)

/-- SHA-256 as eight words. -/
def sha256 (m : List Byte) : List Word :=
  let p := blocksOf m
  let t := Strands.first.run (p.length / 64) (wordsBE p)
  t.left ++ t.right

/-- SHA-256 as a number. -/
def sha256Nat (m : List Byte) : Nat := (sha256 m).foldl (fun a w => a * 2 ^ 32 + w.toNat) 0

/-! ## ECDSA on P-256 (FIPS 186-5), R478 -/

/-- The field prime of P-256. -/
def p256P : Nat := 0xffffffff00000001000000000000000000000000ffffffffffffffffffffffff
/-- The group order of P-256. -/
def p256N : Nat := 0xffffffff00000000ffffffffffffffffbce6faada7179e84f3b9cac2fc632551
/-- The coefficient b of P-256. -/
def p256B : Nat := 0x5ac635d8aa3a93e7b3ebbd55769886bc651d06b0cc53b0f63bce3c3e27d2604b
/-- The base point of P-256. -/
def p256G : Nat × Nat :=
  (0x6b17d1f2e12c4247f8bce6e563a440f277037d812deb33a0f4a13945d898c296,
   0x4fe342e2fe1a7f9b8ee7eb4a7c0f9e162bce33576b315ececbb6406837bf51f5)

/-- x to the power e modulo m, over the lowest `k` bits of e. -/
def powMod (m : Nat) : Nat → Nat → Nat → Nat
  | 0, _, _ => 1 % m
  | k + 1, x, e =>
    let r := powMod m k (x * x % m) (e / 2)
    if e % 2 = 1 then r * x % m else r

/-- The inverse modulo a prime below 2^256. -/
def invMod (m x : Nat) : Nat := powMod m 256 (x % m) (m - 2)

/-- Addition on the curve; none is the point at infinity. -/
def ecAdd (p q : Option (Nat × Nat)) : Option (Nat × Nat) :=
  match p, q with
  | none, q => q
  | p, none => p
  | some (x1, y1), some (x2, y2) =>
    if x1 = x2 ∧ (y1 + y2) % p256P = 0 then none
    else
      let l := if x1 = x2 then (3 * x1 * x1 + 3 * (p256P - 1)) * invMod p256P (2 * y1) % p256P
        else (y2 + p256P - y1) * invMod p256P (x2 + p256P - x1) % p256P
      let x3 := (l * l + 2 * p256P - x1 - x2) % p256P
      some (x3, (l * (x1 + p256P - x3) + p256P - y1) % p256P)

/-- k times a point, over the lowest `n` bits of k. -/
def ecMul : Nat → Nat → Option (Nat × Nat) → Option (Nat × Nat)
  | 0, _, _ => none
  | n + 1, k, p =>
    let r := ecMul n (k / 2) (ecAdd p p)
    if k % 2 = 1 then ecAdd r p else r

/-- Whether a pair is a point of P-256 (R478). -/
def onCurve (x y : Nat) : Bool :=
  decide (x < p256P ∧ y < p256P ∧ (y * y) % p256P = (x * x * x + (p256P - 3) * x + p256B) % p256P)

/-- ECDSA verification of a hash with r, s and the public key (x, y): R478. -/
def ecdsaVerify (hash r s x y : Nat) : Bool :=
  if onCurve x y && decide (0 < r ∧ r < p256N ∧ 0 < s ∧ s < p256N) then
    let w := invMod p256N s
    match ecAdd (ecMul 256 (hash * w % p256N) (some p256G)) (ecMul 256 (r * w % p256N) (some (x, y))) with
    | none => false
    | some (px, _) => decide (px % p256N = r)
  else false

end Sys2Proof.Machine
end

