-- ==== Sys2Proof/Machine/Ops.lean ====
section
/-! DEFINITION. The shared operations: memory, access to ports and cores, events and wait sources, and the fixed facts
about ports and cores. -/

namespace Sys2Proof.Machine

/-- What a step answers. -/
abbrev Out := Host.Outcome State Fault Refusal

/-! ## Memory -/

/-- The memory: address and byte, in canonical form. -/
abbrev Memory := List Host.Cell

/-- What an unlisted address reads as: 0xFF in the image store (erased NOR flash, R473), 0 everywhere else (R481 for
loaded memory; DESIGN CHOICE, log entry 7 for RAM nothing has written). -/
def memDefault (a : Nat) : Byte := if 0x60000000 ≤ a ∧ a < 0x60400000 then 0xFF else 0

/-- The byte at an address. -/
def memRead : Memory → Nat → Byte
  | [], a => memDefault a
  | (k, b) :: m, a => if k = a then b else memRead m a

/-- Puts a cell into its place of the sorted list, in place of one with the same address. -/
def memInsert (a : Nat) (b : Byte) : Memory → Memory
  | [] => [(a, b)]
  | (k, c) :: m => if a < k then (a, b) :: (k, c) :: m else if k = a then (a, b) :: m else (k, c) :: memInsert a b m

/-- Takes the cell of an address out. -/
def memErase (a : Nat) : Memory → Memory
  | [] => []
  | (k, c) :: m => if k = a then m else (k, c) :: memErase a m

/-- Writes one byte, keeping the canonical form. -/
def memWrite (m : Memory) (a : Nat) (b : Byte) : Memory := if b = memDefault a then memErase a m else memInsert a b m

/-- The canonical form: addresses strictly rising, no entry equal to what an unlisted address reads as. -/
abbrev Memory.wf (m : Memory) : Prop := m.Pairwise (fun x y => x.1 < y.1) ∧ ∀ c ∈ m, c.2 ≠ memDefault c.1

/-- k bytes from an address upwards. -/
def memReadN (m : Memory) (a : Nat) : Nat → List Byte
  | 0 => []
  | k + 1 => memRead m a :: memReadN m (a + 1) k

/-- Bytes to an address upwards. -/
def memWriteN (m : Memory) (a : Nat) : List Byte → Memory
  | [] => m
  | b :: bs => memWriteN (memWrite m a b) (a + 1) bs

/-- A little-endian number of k bytes (R543). -/
def memNat (m : Memory) (a k : Nat) : Nat := natLE (memReadN m a k)

/-- A little-endian 32-bit word (R543). -/
def memWord (m : Memory) (a : Nat) : Word := BitVec.ofNat 32 (memNat m a 4)

/-- Writes a 32-bit word, least significant byte first. -/
def memWriteWord (m : Memory) (a : Nat) (w : Word) : Memory := memWriteN m a (bytesLE w)

/-- Exchanges what two blocks of len bytes hold (R344, R345). -/
def memExchange (m : Memory) (a b len : Nat) : Memory :=
  memWriteN (memWriteN m a (memReadN m b len)) b (memReadN m a len)

/-- Bytes of the hub's memory. -/
def State.readMem (s : State) (a k : Nat) : List Byte := memReadN s.mem a k

/-- Writes bytes of the hub's memory. -/
def State.writeMem (s : State) (a : Nat) (bs : List Byte) : State := { s with mem := memWriteN s.mem a bs }

/-! ## Ports and cores -/

/-- Port n. -/
def State.port (s : State) (n : Port) : PortSt := s.ports[n]

/-- Port n replaced by f of it. -/
def State.updPort (s : State) (n : Port) (f : PortSt → PortSt) : State :=
  { s with ports := s.ports.set n (f s.ports[n]) }

/-- Core c. -/
def State.core (s : State) (c : Core) : CoreSt := s.cores[c]

/-- Core c replaced by f of it. -/
def State.updCore (s : State) (c : Core) (f : CoreSt → CoreSt) : State :=
  { s with cores := s.cores.set c (f s.cores[c]) }

/-- Switch and breaker of port n. -/
def State.updPw (s : State) (n : Port) (f : PowerSt → PowerSt) : State :=
  s.updPort n fun p => { p with pw := f p.pw }

/-- Configuration wires of port n. -/
def State.updCf (s : State) (n : Port) (f : CfSt → CfSt) : State := s.updPort n fun p => { p with cf := f p.cf }

/-- Line PHY of port n. -/
def State.updLn (s : State) (n : Port) (f : LineSt → LineSt) : State := s.updPort n fun p => { p with ln := f p.ln }

/-- Contract of port n. -/
def State.updCt (s : State) (n : Port) (f : ContractSt → ContractSt) : State :=
  s.updPort n fun p => { p with ct := f p.ct }

/-- Stage of port n. -/
def State.updSt (s : State) (n : Port) (f : StageSt → StageSt) : State := s.updPort n fun p => { p with st := f p.st }

/-- Wheel of port n. -/
def State.updWh (s : State) (n : Port) (f : WheelSt → WheelSt) : State := s.updPort n fun p => { p with wh := f p.wh }

/-- Moisture of port n. -/
def State.updMo (s : State) (n : Port) (f : MoistSt → MoistSt) : State := s.updPort n fun p => { p with mo := f p.mo }

/-- Metering of port n. -/
def State.updMe (s : State) (n : Port) (f : MeterSt → MeterSt) : State := s.updPort n fun p => { p with me := f p.me }

/-- All sixteen ports, in ascending order. -/
def allPorts : List Port := List.finRange 16

/-- All seven cores, in ascending order. -/
def allCores : List Core := List.finRange 7

/-- A W port. -/
def isW (n : Port) : Bool := decide (n.val < 12)

/-- Whether the variant populates the port (R1, R85); straps 0b00 count as DMH-16 (R468). -/
def populated (strap : BitVec 2) (n : Port) : Bool :=
  if strap = 1 then decide (n.val < 4) || decide (n = portKU) || decide (n = portB)
  else if strap = 2 then decide (n.val < 8) || decide (n = portKU) || decide (n = portB)
  else true

/-- The effective variant (R468); before BOOT has decided it, what the straps say (DEDUCED, log entry 121). -/
def State.variant (s : State) : BitVec 2 := if s.stone.variant = 0 then s.dev.strap else s.stone.variant

/-- Whether this hub populates the port (R1, R3). -/
def State.has (s : State) (n : Port) : Bool := populated s.variant n

/-- A signalling port of this hub (R87). -/
def State.signals (s : State) (n : Port) : Bool := s.has n && decide (n ≠ portB)

/-- Whether the hub is a DMH-16 (R1). -/
def State.isDmh16 (s : State) : Bool := decide (s.variant = 3) || decide (s.variant = 0)

/-- Whether every port is inert whatever is written: no set is loaded (R7, R44, R469, R481), and in vendor mode no core runs a
program that could enable one. -/
def State.portsInert (s : State) : Bool :=
  match s.dev.mode with
  | .noset | .restrictive | .scrapped => true
  | .vendor => !s.cores.toList.any fun k => (decide (k.run = .run) || decide (k.run = .wait)) && !k.inRom
  | _ => false

/-- HBUS is inside its limits (R219). -/
def State.hbusOk (s : State) : Bool := s.fd.uv.valid && !s.fd.uv.out && s.fd.ov.valid && !s.fd.ov.out

/-- PGOOD_N is driven low (R78, R79, R80, R225). -/
def State.pgoodLow (s : State) : Bool := s.fd.vhost && s.hbusOk && !s.fd.testBusy

/-- FAULT_N is driven low (R78, R80): held for a cause other than RESET_N, or in thermal shutdown. -/
def State.faultLow (s : State) : Bool :=
  s.fd.vhost && (decide (s.dev.hold = .brownOut) || decide (s.dev.mode = .integrity) || decide (s.dev.mode = .shutdown))

/-- The loop engine that owns the port (R21). -/
def leOf (n : Port) : Core := if n.val < 4 then 0 else if n.val < 8 then 1 else if n.val < 12 then 2 else 3

/-- The port's local index on its loop engine (R288). -/
def leLocal (n : Port) : Nat := n.val % 4

/-- The policy core that owns the port (R21). -/
def pcOf (n : Port) : Core := if n.val < 12 then corePC0 else corePC1

/-- The port's local index on its policy core (R288). -/
def pcLocal (n : Port) : Nat := if n.val < 12 then n.val else n.val - 12

/-- A loop engine. -/
def isLe (c : Core) : Bool := decide (c.val < 4)

/-- A policy core. -/
def isPc (c : Core) : Bool := decide (c.val = 4) || decide (c.val = 5)

/-- The port a loop engine calls local port k (R288). -/
def lePort (c : Core) (k : Fin 4) : Port := ⟨(c.val % 4) * 4 + k.val, by omega⟩

/-- Whether an engine has a populated port (R22): LE2 on DMH-10, LE1 and LE2 on DMH-06 have none. -/
def engineUsed (strap : BitVec 2) (c : Core) : Bool :=
  !(decide (strap = 2) && decide (c.val = 2)) && !(decide (strap = 1) && (decide (c.val = 1) || decide (c.val = 2)))

/-- The feed's port. -/
def Feed.port : Feed → Option Port
  | .none => .none | .ku => some portKU | .g => some portG | .b => some portB

/-- Whether port n is the selected feed. -/
def State.isFeed (s : State) (n : Port) : Bool := decide (s.fd.feed.port = some n)

/-- Whether port n is attached (R106). -/
def CfSt.attached (c : CfSt) : Bool := decide (c.attach = .attachedSrc) || decide (c.attach = .attachedSnk)

/-- Whether the PHY of a port sends and receives: LINECTL.EN with the port attached as source or sink (R115, R137). -/
def PortSt.phyOn (p : PortSt) : Bool := bitOf p.ln.linectl 0 && p.cf.attached

/-- Time in µs since the last boot, modulo 2^32 (R515). -/
def State.timeUs (s : State) : Nat := (s.cc / 300) % 2 ^ 32

/-- Moves the clock on to the cc of an event; a cc that has passed leaves it (DESIGN CHOICE, log entry 2). -/
def State.at (s : State) (t : Nat) : State := if s.cc < t then { s with cc := t } else s

/-- A fresh open byte (DESIGN CHOICE, log entry 6). -/
def State.free (s : State) : Byte × State := (Config.freeByte s.freeCtr, { s with freeCtr := s.freeCtr + 1 })

/-- A fresh open truth value (DESIGN CHOICE, log entry 6). -/
def State.freeB (s : State) : Bool × State := (Config.freeBool s.freeCtr, { s with freeCtr := s.freeCtr + 1 })

/-! ## Wait sources and events -/

/-- The sources noted as fired in this cc (R289), with source b. -/
def CoreSt.noteFired (k : CoreSt) (cc b : Nat) : CoreSt :=
  { k with evtFired := setFld (if k.evtFiredCc = cc then k.evtFired else 0) b b 1, evtFiredCc := cc }

/-- Fires wait source b of core c: the pending bit, or with it already set the OVF bit too (R289). -/
def State.fireSrc (s : State) (c : Core) (b : Nat) : State :=
  s.updCore c fun k =>
    { k.noteFired s.cc b with evtOvf := if bitOf k.evtPend b then setFld k.evtOvf b b 1 else k.evtOvf
                              evtPend := setFld k.evtPend b b 1 }

/-- The wait sources that go with a global event (R288, R443). -/
def State.globalSrc (s : State) (e : Nat) : State :=
  if 128 ≤ e ∧ e ≤ 133 then s.fireSrc coreSV 1
  else if e = 135 ∨ e = 136 ∨ e = 138 then ((s.fireSrc coreSV 2).fireSrc corePC0 24).fireSrc corePC1 24
  else if e = 139 then (s.fireSrc corePC0 14).fireSrc corePC1 14
  else if e = 145 ∨ e = 146 then s.fireSrc coreSV 4
  else if e = 148 then s.fireSrc coreSV 5
  else if e = 150 then s.fireSrc coreSV 3
  else s

/-- Whether the hub fires events now: not in thermal shutdown, not held in reset or for integrity (R448, R469). -/
def State.eventsOn (s : State) : Bool :=
  decide (s.dev.mode ≠ .shutdown) && decide (s.dev.mode ≠ .integrity) && decide (s.dev.hold = .none)

/-- Fires a global event (R537) with its ARG of R516. -/
def State.fire (s : State) (e arg : Nat) : State :=
  if s.eventsOn then { s.globalSrc e with evq := s.evq ++ [(e, arg)] } else s

/-- Fires port event k of port n (R11, R536): never on a port the variant does not populate (R3), and on B only FAULT
and PGOOD. Its policy core sees it through PORTk and EVT.PGET (R287, R289). -/
def State.firePort (s : State) (n : Port) (k : Nat) (arg : Nat) : State :=
  if s.eventsOn && s.has n && (decide (n ≠ portB) || decide (k = 2) || decide (k = 3)) then
    let s1 := s.updCore (pcOf n) fun c =>
      let old := c.portEv[pcLocal n % 16]'(by omega)
      { c with portEv := c.portEv.set (pcLocal n % 16) (setFld old k k 1) (by omega)
               evtOvf := if old = 0 then c.evtOvf else setFld c.evtOvf (pcLocal n) (pcLocal n) 1 }
    { s1 with evq := s1.evq ++ [(8 * n.val + k, arg)] }
  else s

/-- A ring entry of R515: the event number, its argument and the time. -/
def eventBytes (e arg time : Nat) : List Byte := toBytesLE 1 e ++ toBytesLE 3 arg ++ toBytesLE 4 time

/-- Writes one event to the log ring, and to the host ring if its G.EVENk bit is 1 (R517). -/
def State.writeEvent (s : State) (e arg : Nat) : State :=
  let bs := eventBytes e arg s.timeUs
  let s1 := { s.writeMem (0x3000B000 + 8 * s.host.loghead.toNat) bs with
              host := { s.host with loghead := s.host.loghead + 1 } }
  if bitOf (s.host.even[(e / 32) % 5]'(by omega)) (e % 32) then
    if 512 ≤ s.host.evcount then { s1 with host := { s1.host with lost := satInc s1.host.lost } }
    else { s1.writeMem (0x3000A000 + 8 * ((s.host.evhead + s.host.evcount) % 512)) bs with
           host := { s1.host with evcount := s.host.evcount + 1 } }
  else s1

/-- Puts an event into its place by ascending number (R517, R538). -/
def insertEvent (x : Nat × Nat) : List (Nat × Nat) → List (Nat × Nat)
  | [] => [x]
  | y :: ys => if x.1 < y.1 then x :: y :: ys else y :: insertEvent x ys

/-- Events in ascending number. -/
def sortEvents (l : List (Nat × Nat)) : List (Nat × Nat) := l.foldl (fun acc x => insertEvent x acc) []

/-- Writes the events a command has fired to the rings, in ascending number (R517). -/
def State.flush (s : State) : State :=
  (sortEvents s.evq).foldl (fun t x => t.writeEvent x.1 x.2) { s with evq := [] }

/-- The end of every command: its events are written and the machine goes on. -/
def done (s : State) : Out := .next s.flush

/-! ## Refusals of register writes -/

/-- A bus error (R533): BUSERR takes the code and the command, ERRCNT advances, and every error but SETUP fires event
148. -/
def State.busError (s : State) (cmd : Byte) (code : BitVec 4) : State :=
  let s1 := { s with host := { s.host with errcode := code, errcmd := cmd, errcnt := satInc s.host.errcnt } }
  if code = 9 then s1 else s1.fire 148 code.toNat

/-- A register write refused whole: REFUSED of LSU.FLAG for a core (R307), a bus error for the host (R511), whose command
byte is that of MEMWR (DEDUCED, log entry 11). -/
def State.refuseWrite (s : State) (w : Writer) (code : BitVec 4) : State :=
  match w with
  | .core c => s.updCore c fun k => { k with lsuFlag := k.lsuFlag ||| 1 }
  | .host => s.busError 0xD2 code

/-- Whether the writer is SV. -/
def writerIsSv (w : Writer) : Bool := decide (w = .core coreSV)

/-- Whether the writer is the port's policy core, SV or the host (R397). -/
def writerPolicy (w : Writer) (n : Port) : Bool :=
  decide (w = .host) || decide (w = .core coreSV) || decide (w = .core (pcOf n))

/-- Whether the writer is PC1, SV or the host (R436). -/
def writerFeed (w : Writer) : Bool := decide (w = .host) || decide (w = .core coreSV) || decide (w = .core corePC1)

/-! ## Fields that many families read -/

/-- CTRPOL.DEFEN of a ripe set (R139). -/
def GwSet.defen (g : GwSet) : Bool := bitOf g.ctrpol 0
/-- CTRPOL.SSWAPEN (R178). -/
def GwSet.sswapen (g : GwSet) : Bool := bitOf g.ctrpol 1
/-- CTRPOL.PSWAPEN (R174). -/
def GwSet.pswapen (g : GwSet) : Bool := bitOf g.ctrpol 2
/-- CTRPOL.LEGEN (R183). -/
def GwSet.legen (g : GwSet) : Bool := bitOf g.ctrpol 3
/-- CTRPOL.WINPCT (R154). -/
def GwSet.winpct (g : GwSet) : Nat := fld g.ctrpol 7 4
/-- CTRPOL.SLEW (R153). -/
def GwSet.slew (g : GwSet) : Nat := fld g.ctrpol 15 8
/-- CTRPOL.NWAIT (R158). -/
def GwSet.nwait (g : GwSet) : Nat := fld g.ctrpol 27 24
/-- CTRPOL.SHEDPRI (R173). -/
def GwSet.shedpri (g : GwSet) : Nat := fld g.ctrpol 31 28
/-- CTRDEF.DEFVOLT, 50 mV units (R139). -/
def GwSet.defvolt (g : GwSet) : Nat := fld g.ctrdef 26 16
/-- CTRDEF.DEFCUR, 100 mA units (R139). -/
def GwSet.defcur (g : GwSet) : Nat := fld g.ctrdef 8 0
/-- CTRDEF.ILEG, 0.5 A units (R183). -/
def GwSet.ileg (g : GwSet) : Nat := fld g.ctrdef 15 9
/-- FUSECFG.FTIME, ms (R406). -/
def GwSet.ftime (g : GwSet) : Nat := fld g.fusecfg 31 24
/-- FUSECFG.DUTY, 0.5 % units (R410). -/
def GwSet.duty (g : GwSet) : Nat := fld g.fusecfg 23 16
/-- FUSECFG.RETRY (R410). -/
def GwSet.retry (g : GwSet) : Byte := BitVec.ofNat 8 (fld g.fusecfg 15 8)
/-- STARTCFG.RAMPE, mJ (R402). -/
def GwSet.rampe (g : GwSet) : Nat := fld g.startcfg 15 0
/-- MOISTCTL.MVLIM, V (R433). -/
def GwSet.mvlim (g : GwSet) : Nat := fld g.moistctl 15 8
/-- PKCFG.ILIMPK (R207). -/
def GwSet.ilimpk (g : GwSet) : Nat := fld g.pkcfg 31 22
/-- PKCFG.IBURSTPK (R207). -/
def GwSet.iburstpk (g : GwSet) : Nat := fld g.pkcfg 21 12

/-- A contract voltage of 50 mV units in mV. -/
def mvOf (v : BitVec 11) : Nat := 50 * v.toNat

/-- Contract power in ledger units, rounded down (R140). -/
def powerDown (v : BitVec 11) (i : BitVec 9) : Nat := v.toNat * i.toNat / 20

/-- Contract power in ledger units, rounded up (R140). -/
def powerUp (v : BitVec 11) (i : BitVec 9) : Nat := (v.toNat * i.toNat + 19) / 20

/-- The port's default contract from its ripe CTRDEF (R139). -/
def GwSet.defaultContract (g : GwSet) : BitVec 11 × BitVec 9 := (BitVec.ofNat 11 g.defvolt, BitVec.ofNat 9 g.defcur)

/-- The window of a contract: ±WINPCT (R154), or on KU and KD under the default contract the fixed 20.0-32.0 V while
DEFVOLT lies in it (R139). -/
def windowOf (n : Port) (g : GwSet) (isDefault : Bool) (v : BitVec 11) : Window :=
  if isDefault && (decide (n = portKU) || decide (n = portKD)) && decide (400 ≤ v.toNat ∧ v.toNat ≤ 640) then ⟨20000, 32000⟩
  else ⟨mvOf v * (100 - g.winpct) / 100, mvOf v * (100 + g.winpct) / 100⟩

/-- The window that spans two windows (R154). -/
def Window.span (a b : Window) : Window := ⟨min a.lo b.lo, max a.hi b.hi⟩

/-- Whether a voltage lies in a window. -/
def Window.has (w : Window) (mv : Nat) : Bool := decide (w.lo ≤ mv ∧ mv ≤ w.hi)

/-- Whether a contract voltage lies above the moisture limit (R433). -/
def aboveMvlim (g : GwSet) (v : BitVec 11) : Bool := decide (1000 * g.mvlim < mvOf v)

end Sys2Proof.Machine
end

