-- ==== Sys2Proof/Machine/Power.lean ====
section
/-! DEFINITION. What several families share about power: the ledger's books, force-off, opening a switch, contracts and
BYE, the breaker's trip, shedding, the TX rings, and the choice and the loss of a feed (R133 to R136, R164 to R173, R199, R200,
R403, R408 to R410, R420 to R428). -/

namespace Sys2Proof.Machine

/-! ## The TX ring (R133 to R136) -/

/-- Address of entry e of message ring r (R133). -/
def ringAddr (r e : Nat) : Nat := 0x30000000 + r * 0x500 + e * 0x50

/-- CTL of an entry (R135). -/
def entryCtl (s : State) (a : Nat) : BitVec 16 := BitVec.ofNat 16 (memNat s.mem a 2)

/-- Entries held in the TX ring (R136, R137). -/
def LineSt.txCount (l : LineSt) : Nat := l.tx.length

/-- The entry the next push takes (R137): the first free one, since a finished entry leaves the ring at once (R136). -/
def LineSt.txTail (l : LineSt) : Nat :=
  ((List.range 16).find? fun i => !l.tx.contains ((l.txNext + i) % 16)).elim (l.txNext % 16) fun i => (l.txNext + i) % 16

/-- The oldest entry held (R137). -/
def LineSt.txHead (l : LineSt) : Nat := l.tx.headD l.txTail

/-- The ring with its next entry taken. -/
def LineSt.pushed (l : LineSt) : LineSt :=
  { l with tx := l.tx ++ [l.txTail], txNext := (l.txTail + 1) % 16, begun := l.begun.erase l.txTail }

/-- The ring without entry e (R136). -/
def LineSt.without (l : LineSt) (e : Nat) : LineSt := { l with tx := l.tx.erase e, begun := l.begun.erase e }

/-- The addressee byte of context c (R113). -/
def addrOf (c : Nat) : Byte := BitVec.ofNat 8 (if c < 4 then 16 * (c + 1) else 16 * (c + 4))

/-- The 80 bytes of an entry image (R135). -/
def entryImage (ctl : BitVec 16) (ctx : Nat) (a : Byte) (h : BitVec 16) (time : Nat) (objs : List Word) (crc : Word) :
    List Byte :=
  toBytesLE 2 ctl.toNat ++ [BitVec.ofNat 8 ctx, a] ++ toBytesLE 2 h.toNat ++ [0, 0] ++ toBytesLE 4 time
    ++ ((objs.take 15) ++ List.replicate (15 - objs.length) 0).flatMap bytesLE ++ bytesLE crc ++ [0, 0, 0, 0]

/-- Appends an entry image to the TX ring of port n (R322, R513): PEND is set, RESULT and TRIES clear. The ring must have
room. -/
def pushEntry (n : Port) (img : List Byte) (s : State) : State :=
  let a := ringAddr (2 * n.val) (s.port n).ln.txTail
  let s1 := s.writeMem a img
  let ctl := setFld (setFld (setFld (entryCtl s1 a) 15 15 1) 11 8 0) 7 4 0
  (s1.writeMem a (toBytesLE 2 ctl.toNat)).updLn n LineSt.pushed

/-- The policy program pushes a message of context PART (R146), if the TX ring has room. -/
def pushMsg (n : Port) (start : Bool) (type : BitVec 5) (objs : List Word) (s : State) : State :=
  if 16 ≤ (s.port n).ln.txCount then s
  else pushEntry n (entryImage (if start then 0x4000 else 0) 0 (addrOf 0)
    (BitVec.ofNat 16 (type.toNat * 2048 + objs.length % 16)) 0 objs 0) s

/-- A reference object (R144). -/
def refObj (rtype : BitVec 5) (rid : BitVec 3) (code : Nat) (arg : Nat) : Word :=
  place rtype.toNat 27 ||| place rid.toNat 24 ||| place code 16 ||| place (arg % 65536) 0

/-! ## Books (R164, R168) -/

/-- GRANTSUM (R164). -/
def LedgerSt.grantSum (l : LedgerSt) : Nat := l.held.toList.sum

/-- TOKPWRMAX (R168). -/
def LedgerSt.tokPwrMax (l : LedgerSt) : Nat := l.tokpwr.toList.foldl max 0

/-- TOKRES: 0 while CUT is set (R164, R171). -/
def LedgerSt.tokRes (l : LedgerSt) : Nat := if l.cut then 0 else l.tokens.toNat * l.tokPwrMax

/-- G.LEDCTL.RESERVE (R187). -/
def LedgerSt.reserve (l : LedgerSt) : Nat := fld l.ledctl 31 16

/-- G.LEDCTL.SHEDMARGIN (R187). -/
def LedgerSt.shedMargin (l : LedgerSt) : Nat := fld l.ledctl 15 4

/-- The feed's contract power for AVAIL (R165), in 100 mW units: legacy 24.0 V × ILEG; between GRANT and READY the
lower of old and new; B 500 W, a program's lower limit being what it puts in RESERVE (DEDUCED, log entry 122). -/
def State.powerOf (s : State) (f : Feed) : Nat :=
  match f with
  | .none => 0
  | .b => 5000
  | .ku | .g =>
    let p := s.port (if f = .ku then portKU else portG)
    if p.cf.attach = .legacy ∨ p.ct.state = .legacy then 120 * p.ripe.ileg
    else if p.ct.trans then min (powerDown p.ct.volt p.ct.icont) (powerDown p.ct.newVolt p.ct.newIcont)
    else powerDown p.ct.volt p.ct.icont

/-- AVAIL for a feed (R164, R165). -/
def State.availOf (s : State) (f : Feed) : Nat := if f = .none then 0 else s.powerOf f - s.led.reserve

/-- HARD for a feed (R164, R165). -/
def State.hardOf (s : State) (f : Feed) : Nat := if f = .none then 0 else s.powerOf f - s.led.shedMargin

/-! ## Burst windows -/

/-- Whether the burst clamp is in force in a cc (R207, R388, R389): a change acts from the next cc. -/
def StageSt.burstAt (t : StageSt) (cc : Nat) : Bool :=
  match t.clampOld with
  | some (at_, old) => if cc ≤ at_ then old else t.burstClamp
  | none => t.burstClamp

/-- The burst clamp changed in a cc. -/
def StageSt.setBurst (t : StageSt) (cc : Nat) (b : Bool) : StageSt := { t with clampOld := some (cc, t.burstAt cc), burstClamp := b }

/-- Ends an open window: the clamp returns to ILIMPK, an OPEN mark still waiting is withdrawn, and the token is on its
way back (R389, R390, R391). -/
def closeWindow (n : Port) (s : State) : State :=
  let w := (s.port n).wh
  let s1 := s.updWh n fun w =>
    { w with burstOpen := false, markPend := false, tmaxRun := false, returning := w.token }
  let s2 := s1.updSt n fun t => t.setBurst s.cc false
  if w.markPend then s2.updLn n fun l => { l with mark := none } else s2

/-- A forced close (R391): once per window, counted in FORCED, no CLOSE mark. -/
def forcedClose (n : Port) (s : State) : State :=
  if (s.port n).wh.burstOpen then (closeWindow n s).updWh n fun w => { w with forced := satInc w.forced } else s

/-! ## Force-off (R199, R200) -/

/-- Adds a source to a list of force-off sources. -/
def addForce (x : ForceSource) (l : List ForceSource) : List ForceSource := if l.contains x then l else x :: l

/-- Asserts force-off on port n: every switch off, mode OFF, a pending mode write discarded, FOFFk fired on the owning
engine (R200, R288), an open burst window closed by force (R391). -/
def forceOff (x : ForceSource) (n : Port) (s : State) : State :=
  let s1 := s.updSt n fun t =>
    { t with force := addForce x t.force, mode := .off, pendMode := none, prevMode := none, bypExit := none, bypBack := false,
             active := false }
  forcedClose n (s1.fireSrc (leOf n) (12 + leLocal n))

/-- Takes force-off sources away; the stage stays OFF (R200). -/
def liftForce (xs : List ForceSource) (n : Port) (s : State) : State :=
  s.updSt n fun t => { t with force := t.force.filter fun y => !xs.contains y }

/-! ## Power-good, switch, contract -/

/-- PG falls (R415). -/
def dropPg (n : Port) (s : State) : State :=
  if (s.port n).pw.pg then (s.updPw n fun p => { p with pg := false }).firePort n 3 0 else s

/-- Whether a port is in pre-charge or ramp. -/
def PowerSt.starting (p : PowerSt) : Bool := decide (p.sw = .prechg) || decide (p.sw = .ramp)

/-- The W group of a port: W0-W5 or W6-W11 (R400). -/
def sameGroup (a b : Port) : Bool := isW a && isW b && decide (a.val / 6 = b.val / 6)

/-- Whether a waiting port's pre-charge may begin (R398 to R401): seated for tSEAT, and on a W port fewer than two of its
group in pre-charge or ramp. -/
def mayPrecharge (s : State) (n : Port) : Bool :=
  decide ((s.port n).pw.sw = .wait) && (s.port n).pw.settled
    && (!isW n || decide ((allPorts.filter fun m => sameGroup m n && (s.port m).pw.starting).length < 2))

/-- Begins the pre-charge of every waiting port that may, in ascending port number (R400, R401 step 2). -/
def promoteWaiting (s : State) : State :=
  allPorts.foldl (fun t n =>
    if mayPrecharge t n then t.updPw n fun p => { p with sw := .prechg, preStart := t.cc } else t) s

/-- Opens the port's main and pre-charge switches (R403): STATE becomes DISCH and then `next`. A port in WAIT, whose
switch was never closed, passes DISCH too. Ports that waited for the group's place go on (R400). -/
def openSwitch (next : SwState) (n : Port) (s : State) : State :=
  let sw := (s.port n).pw.sw
  if sw = .wait ∨ sw = .prechg ∨ sw = .ramp ∨ sw = .on then
    promoteWaiting (dropPg n (s.updPw n fun p =>
      { p with sw := .disch, after := next, discharging := decide (n ≠ portB), startHeld := false }))
  else s

/-- The FAULT event of a port with its cause in SWSTAT.CAUSE (R408). -/
def fault (n : Port) (cause : BitVec 4) (s : State) : State :=
  (s.updPw n fun p => { p with cause := cause }).firePort n 2 cause.toNat

/-- Code of CTRCUR.STATE (R186). -/
def CtrState.code : CtrState → Nat
  | .none => 0 | .default => 1 | .negotiated => 2 | .legacy => 3 | .swap => 4

/-- Puts a contract in force; CONTRACT fires when STATE, VOLT or ICONT changes (R547). -/
def setContract (n : Port) (st : CtrState) (v : BitVec 11) (i : BitVec 9) (src : Bool) (s : State) : State :=
  let c := (s.port n).ct
  let s1 := s.updCt n fun c => { c with state := st, volt := v, icont := i, asSource := src }
  if c.state ≠ st ∨ c.volt ≠ v ∨ c.icont ≠ i then s1.firePort n 1 st.code else s1

/-- A PSWAP is open on the port whose roles have not changed places yet (R175). -/
def ContractSt.beforeExchange (c : ContractSt) : Bool :=
  match c.seq with
  | some q => (decide (q.kind = .pswapIn) || decide (q.kind = .pswapOut)) && decide (q.phase ≠ .ready1)
  | none => false

/-- A PSWAP that ends before its role exchange has no new presentation to wait for: CF detach detection resumes (R100; DEDUCED, log
entry 60). -/
def resumeDetach (n : Port) (s : State) : State :=
  if (s.port n).cf.suspended && (s.port n).ct.beforeExchange then s.updCf n fun c => { c with suspended := false } else s

/-- Ends the port's contract and every sequence, transition and profile with it (R138, R391); the port's switch opens
(R403). -/
def endContract (n : Port) (s : State) : State :=
  let s1 := forcedClose n (setContract n .none 0 0 false (resumeDetach n s))
  openSwitch .off n (s1.updCt n fun c =>
    { c with trans := false, prof := false, newProf := false, slewing := false, seq := none, narrowing := false,
             askNewRun := false, first := false, profGranted := false, ownSwap := none })

/-- The PHY queues a BYE ahead of the TX ring (R163), whether or not a contract is in force. Where it can send none, with its PHY
disabled or the port unattached, a contract that was to end ends at once, one that was to fall to its default stands, and KU's
legacy limits stand (DESIGN CHOICE, log entry 90). -/
def sendBye (n : Port) (code : Nat) (dflt : Bool) (s : State) : State :=
  let p := s.port n
  if p.phyOn then
    s.updLn n fun l => { l with own := l.own ++ [{ ctx := 0, type := 0x10, objs := [refObj 0 0 code (b2n dflt)] }] }
  else if dflt ∨ p.ct.state = .none ∨ p.ct.state = .legacy then s
  else endContract n s

/-! ## Shedding (R171 to R173) -/

/-- Whether a port has already been commanded off and counts as 0 for shedding (R172). -/
def PowerSt.commandedOff (p : PowerSt) : Bool :=
  decide (p.sw = .disch) || decide (p.sw = .offtime) || decide (p.sw = .giveup)

/-- The sum of the grants of the ports not commanded off, with TOKRES (R172). -/
def State.liveSum (s : State) : Nat :=
  (allPorts.map fun n => if (s.port n).pw.commandedOff then 0 else s.led.held[n]).sum + s.led.tokRes

/-- Whether a comes before b in shed order: lower SHEDPRI, then higher port number (R173). -/
def shedBefore (s : State) (a b : Port) : Bool :=
  let pa := (s.port a).ripe.shedpri
  let pb := (s.port b).ripe.shedpri
  decide (pa < pb) || (decide (pa = pb) && decide (b.val < a.val))

/-- The next port to shed: a port with a grant, not commanded off (R173). -/
def nextShed (s : State) : Option Port :=
  (allPorts.filter fun n => decide (0 < s.led.held[n]) && !(s.port n).pw.commandedOff).foldl
    (fun best n => match best with
      | none => some n
      | some b => if shedBefore s n b then some n else some b) none

/-- Sheds one port (R172, R412): off without a retry, FAULT SHED, BYE SHED, counted. -/
def shedPort (n : Port) (s : State) : State :=
  let s1 := forceOff .trip n s
  let s2 := promoteWaiting (dropPg n (s1.updPw n fun p =>
    { p with sw := .disch, after := .off, discharging := decide (n ≠ portB), startHeld := false }))
  let s3 := { s2 with led := { s2.led with shedCnt := satInc s2.led.shedCnt } }
  sendBye n 0x14 false (fault n 7 s3)

/-- Sheds in shed order until the sum fits the limit; `fuel` is the number of ports. -/
def shedLoop (limit : Nat) : Nat → State → State
  | 0, s => s
  | k + 1, s =>
    if s.liveSum ≤ limit then s
    else match nextShed s with
      | none => s
      | some n => shedLoop limit k (shedPort n s)

/-- What the ledger does after any change of AVAIL, HARD, GRANTSUM or TOKRES (R171): above HARD it sets CUT and sheds until the
sum, ports commanded off counting as 0 (R172), fits HARD; where that sum still exceeds AVAIL, OVER fires and tSHED starts, once an
excursion. -/
def ledgerAct (s : State) : State :=
  if s.led.grantSum + s.led.tokRes ≤ s.led.avail then
    { s with led := { s.led with shedRun := false, excursion := false } }
  else
    let s1 := if s.led.hard < s.led.grantSum + s.led.tokRes then
        shedLoop s.led.hard 16 { s with led := { s.led with cut := true } } else s
    if s1.liveSum ≤ s1.led.avail ∨ s1.led.excursion = true then s1
    else
      let s2 := { s1 with led := { s1.led with excursion := true, shedRun := true } }
      (s2.fire 140 0x30).fireSrc corePC1 13

/-- AVAIL and HARD taken anew from the selected feed, then R171. -/
def ledgerRefresh (s : State) : State :=
  ledgerAct { s with led := { s.led with avail := s.availOf s.fd.feed, hard := s.hardOf s.fd.feed } }

/-! ## Ledger operations (R166 to R168) -/

/-- Writes the grant record of port n (R167). -/
def writeGrant (n : Port) (old new : Nat) (s : State) : State :=
  s.writeMem (0x3000C100 + 16 * n.val)
    (toBytesLE 2 s.led.held[n] ++ toBytesLE 2 old ++ toBytesLE 2 new ++ toBytesLE 2 s.led.tokpwr[n]
      ++ toBytesLE 4 s.timeUs ++ toBytesLE 4 0)

/-- Appends a journal entry (R167): port, OP, RESULT, HELD and GRANTSUM after it, the time. -/
def journal (n : Port) (op result : Nat) (s : State) : State :=
  let s1 := s.writeMem (0x3000C200 + 16 * (s.led.jhead % 32))
    (toBytesLE 2 (n.val * 4096 + op * 1024 + result * 256) ++ toBytesLE 2 s.led.held[n]
      ++ toBytesLE 2 s.led.grantSum ++ toBytesLE 2 0 ++ toBytesLE 4 s.timeUs ++ toBytesLE 4 0)
  { s1 with led := { s1.led with jhead := (s1.led.jhead + 1) % 32 } }

/-- Sets a port's held grant and tokpwr. A tokpwr that would end while the port's window holds its token ends when the
token returns (R168). -/
def setHeld (n : Port) (h tok : Nat) (s : State) : State :=
  if tok = 0 ∧ (s.port n).wh.token then
    { s with led := { s.led with held := s.led.held.set n h } }.updCt n fun c => { c with tokAfter := some 0 }
  else
    { s with led := { s.led with held := s.led.held.set n h, tokpwr := s.led.tokpwr.set n tok } }.updCt n fun c =>
      { c with tokAfter := none }

/-- TOKPWRMAX if port n held `tok`. -/
def LedgerSt.tokMaxWith (l : LedgerSt) (n : Port) (tok : Nat) : Nat := (l.tokpwr.set n tok).toList.foldl max 0

/-- Whether RAISE(new, tok) on port n is refused (R166, R168): one that grants a profile counts every token at the greatest
tokpwr then held, CUT or not. -/
def raiseRefused (l : LedgerSt) (n : Port) (new tok : Nat) : Bool :=
  let h := l.held[n]
  let t := max l.tokpwr[n] tok
  let res := if 0 < tok then l.tokens.toNat * l.tokMaxWith n t else l.tokRes
  decide (l.avail < l.grantSum - h + max h new + res)

/-- RAISE (R166): H = max(H, new) unless the books cannot cover it; the grant record and the journal are written; a
refusal fires event 140. Answers the RESULT too. -/
def opRaise (n : Port) (new tok : Nat) (s : State) : Nat × State :=
  let h := s.led.held[n]
  if raiseRefused s.led n new tok then
    let s1 := journal n 0 2 { s with led := { s.led with refuse := satInc s.led.refuse } }
    (2, s1.fire 140 (n.val + 0x10))
  else
    (1, ledgerAct (journal n 0 1 (writeGrant n h new (setHeld n (max h new) (max s.led.tokpwr[n] tok) s))))

/-- SETTLE (R166): H = new, never refused. -/
def opSettle (n : Port) (new tok : Nat) (s : State) : State :=
  ledgerAct (journal n 1 1 (writeGrant n s.led.held[n] new (setHeld n new tok s)))

/-- RELEASE (R166, R168): H = 0 and tokpwr = 0, never refused. -/
def opRelease (n : Port) (s : State) : State :=
  ledgerAct (journal n 2 1 (writeGrant n s.led.held[n] 0 (setHeld n 0 0 s)))

/-! ## Request slots (R167) -/

/-- Address of the request slot of port n (R167). -/
def slotAddr (n : Port) : Nat := 0x3000C000 + 16 * n.val

/-- CTL of a slot. -/
def slotCtl (n : Port) (s : State) : BitVec 16 := BitVec.ofNat 16 (memNat s.mem (slotAddr n) 2)

/-- Whether a slot is pending. -/
def slotPending (n : Port) (s : State) : Bool := bitOf (slotCtl n s) 15

/-- Serves the pending slot of port n (R166, R167, R324): the operation, then RESULT and DONE, PEND cleared (DEDUCED, log entry 15);
PC0 hears of a slot of its ports (R288). -/
def serveSlot (n : Port) (s : State) : Nat × State :=
  let new := memNat s.mem (slotAddr n + 2) 2
  let tok := memNat s.mem (slotAddr n + 4) 2
  let op := fld (slotCtl n s) 13 12
  let r : Nat × State :=
    if op = 0 then opRaise n new tok s
    else if op = 1 then (1, opSettle n new tok s)
    else if op = 2 then (1, opRelease n s)
    else (3, journal n 3 3 s)
  let ctl := setFld (setFld (setFld (slotCtl n s) 15 15 0) 14 14 1) 11 8 r.1
  let s1 := r.2.writeMem (slotAddr n) (toBytesLE 2 ctl.toNat)
  (r.1, { (if isW n then s1.fireSrc corePC0 12 else s1) with led := { s1.led with lastServed := n.val } })

/-- PC1 serves request slots: not while a trap has halted it (R268). -/
def State.pc1Serves (s : State) : Bool := decide ((s.core corePC1).run ≠ .halted)

/-- A policy program posts an operation in the request slot of its port, and PC1 serves it (R23, R167): PEND with the operation, NEW
and TOKPWR, LEDREQ on PC1. What was pending there goes first. While PC1 is halted the request stays pending, with RESULT 0. The
service is taken in the step of the post (DESIGN CHOICE, log entry 114). -/
def ledgerPost (n : Port) (op new tok : Nat) (s : State) : Nat × State :=
  let s0 := if slotPending n s && s.pc1Serves then (serveSlot n s).2 else s
  let s1 := (s0.writeMem (slotAddr n) (toBytesLE 2 (0x8000 + op % 4 * 0x1000) ++ toBytesLE 2 new ++ toBytesLE 2 tok)).fireSrc
    corePC1 12
  if s1.pc1Serves then serveSlot n s1 else (0, s1)

/-- A write of TOKENS (R168, R171, R324): whether it is accepted, whether it cleared CUT, and the state. -/
def opTokens (v : BitVec 4) (s : State) : Bool × Bool × State :=
  let need := s.led.grantSum + v.toNat * s.led.tokPwrMax
  if 12 < v.toNat ∨ (s.led.tokens.toNat < v.toNat ∧ s.led.avail < need) then
    (false, false, { s with led := { s.led with refuse := satInc s.led.refuse } }.fire 140 0x2F)
  else
    let clears := s.led.cut && decide (need ≤ s.led.avail)
    (true, clears, ledgerAct { s with led := { s.led with tokens := v, cut := s.led.cut && !clears } })

/-! ## Feed selection (R14, R420, R421, R424 to R427) -/

/-- The candidate a two-bit code names (R436). -/
def feedOfCode (c : Nat) : Feed := if c = 1 then .ku else if c = 2 then .g else if c = 3 then .b else .none

/-- Code of a feed (R436). -/
def Feed.code : Feed → Nat
  | .none => 0 | .ku => 1 | .g => 2 | .b => 3

/-- B_PWR in 16.0-36.0 V, or up to 60 V for at most 500 ms (R62, R420); `bHigh` is the cc at which it passed 36.0 V. -/
def State.bWithin (s : State) : Bool :=
  decide (16000 ≤ s.fd.bMv)
    && (decide (s.fd.bMv ≤ 36000)
        || (decide (s.fd.bMv ≤ 60000) && (match s.fd.bHigh with
              | some t => decide (s.cc - t ≤ 150000000)
              | none => true)))

/-- A port's OV or UV comparator says that it stands outside its window (R407). -/
def PortSt.windowOut (p : PortSt) : Bool := (p.st.ov.valid && p.st.ov.out) || (p.st.uv.valid && p.st.uv.out)

/-- KU under its legacy limits is a candidate (R62, R183, R184): LEGEN = 1 and KU_PWR in 12.0-60.0 V. The limits stand through the
debounce that follows a departure from LEGACY. -/
def State.legacyFeed (s : State) : Bool :=
  let p := s.port portKU
  decide (p.ct.state = .legacy) && p.ripe.legen && decide (12000 ≤ s.fd.kuMv ∧ s.fd.kuMv ≤ 60000)

/-- Whether a candidate is eligible with PROG = 1 (R420). -/
def State.eligProg (s : State) (f : Feed) : Bool :=
  match f with
  | .none => false
  | .ku =>
    let p := s.port portKU
    s.has portKU && !p.pw.failed &&
      ((decide (p.cf.attach = .attachedSnk) && (decide (p.ct.state = .default) || decide (p.ct.state = .negotiated))
          && p.ct.window.has s.fd.kuMv && !p.windowOut && p.pw.settled && !(p.mo.wet && aboveMvlim p.ripe p.ct.volt))
        || s.legacyFeed)
  | .g =>
    let p := s.port portG
    s.has portG && !p.pw.failed && decide (p.cf.attach = .attachedSnk)
      && (decide (p.ct.state = .default) || decide (p.ct.state = .negotiated)) && p.ct.window.has s.fd.gMv
      && !p.windowOut && p.pw.settled && !(p.mo.wet && aboveMvlim p.ripe p.ct.volt)
  | .b => s.fd.ben && !(s.port portB).pw.failed && s.bWithin

/-- Whether a candidate is eligible to the hardware start path (R176, R182, R421, R433). The former feed of an LE3 trap needs only
its supply between its stop threshold and 56.0 V. A port in the source role is no candidate. -/
def State.eligStart (s : State) (f : Feed) : Bool :=
  match f with
  | .none => false
  | .ku =>
    let p := s.port portKU
    s.has portKU && !p.pw.failed &&
      ((decide (p.ct.state ≠ .legacy) && decide (p.cf.attach ≠ .attachedSrc) && p.pw.settled
          && !(p.mo.wet && aboveMvlim p.ripe p.ct.volt)
          && ((decide (20000 ≤ s.fd.kuMv ∧ s.fd.kuMv ≤ 32000) && !p.windowOut)
            || (decide (s.fd.exempt = .ku) && s.fd.kuUp && decide (s.fd.kuMv ≤ 56000))))
        || s.legacyFeed)
  | .g =>
    let p := s.port portG
    s.has portG && !p.pw.failed && decide (p.cf.attach ≠ .attachedSrc) && p.pw.settled
      && !(p.mo.wet && aboveMvlim p.ripe p.ct.volt)
      && ((decide (45600 ≤ s.fd.gMv ∧ s.fd.gMv ≤ 50400) && !p.windowOut)
          || (decide (s.fd.exempt = .g) && s.fd.gUp && decide (s.fd.gMv ≤ 56000)))
  | .b => !(s.port portB).pw.failed && s.fd.bUp
      && decide (s.fd.bMv ≤ (if s.fd.exempt = .b then 56000 else 36000))

/-- Eligibility under the present PROG. -/
def State.eligible (s : State) (f : Feed) : Bool := if s.fd.prog then s.eligProg f else s.eligStart f

/-- The order of the candidates: PRIO, or KU > G > B while PROG = 0 (R421, R424). -/
def State.feedOrder (s : State) : List Feed :=
  if s.fd.prog then [feedOfCode (fld s.fd.prio 5 4), feedOfCode (fld s.fd.prio 3 2), feedOfCode (fld s.fd.prio 1 0)]
  else [.ku, .g, .b]

/-- The first eligible candidate. -/
def State.firstFeed (s : State) : Feed := (s.feedOrder.find? fun f => s.eligible f).getD .none

/-- KD draws as sink (R177). -/
def State.kdSinks (s : State) : Bool :=
  decide ((s.port portKD).cf.attach = .attachedSnk) && decide ((s.port portKD).pw.sw = .on)

/-- Selects a candidate after the 20 µs of R15: AVAIL and HARD take its value now (R165). When HBUS has not been
carried since it was below 18.0 V, it pre-charges HBUS first (R422) and is selected when that ends. -/
def selectFeed (f : Feed) (s : State) : State :=
  if s.fd.hbusLow then
    { s with fd := { s.fd with target := f, pre := true, gap := false, planned := false } }
  else ledgerRefresh { s with fd := { s.fd with feed := f, target := f, gap := true, planned := false } }

/-- No candidate is left (R427): force-off on every port, FAULT NOFEED on the ports that were active, AVAIL 0. -/
def noFeed (s : State) : State :=
  let active := allPorts.filter fun n =>
    let w := (s.port n).pw.sw
    decide (w = .wait) || decide (w = .prechg) || decide (w = .ramp) || decide (w = .on) || decide (w = .offtime)
  let s1 := allPorts.foldl (fun t n => forceOff .noFeed n t) s
  let s2 := active.foldl (fun t n => openSwitch .off n (fault n 9 t)) s1
  ledgerRefresh { s2 with fd := { s2.fd with feed := .none, target := .none, gap := false, pre := false } }

/-- START_REG ends when B's path opens (R227). -/
def endStartReg (s : State) : State :=
  s.updSt portB fun t => if t.mode = .startReg then { t with mode := .off } else t

/-- A role swap whose step 3 has not begun: granted by the hub, or to it (R175, R180). -/
def Seq.swapGranted (q : Seq) : Bool :=
  (decide (q.kind = .pswapIn) && (decide (q.phase = .requested) || decide (q.phase = .granted)))
    || (decide (q.kind = .pswapOut) && decide (q.phase = .granted))

/-- A swap of port n that was granted and whose step 3 has not begun meets the loss of the feed (R180): the hub sends ABORT
FEEDCHANGE. -/
def abortFeedSwap (n : Port) (s : State) : State :=
  match (s.port n).ct.seq with
  | some q => if (s.port n).phyOn && q.swapGranted then pushMsg n false 0xA [refObj 8 q.rid 0x16 0] s else s
  | none => s

/-- The swaps of KU and G that the loss of the feed ends (R180). -/
def abortFeedSwaps (s : State) : State := abortFeedSwap portG (abortFeedSwap portKU s)

/-- The selected feed is lost (R424): its path opens, a KD drawing as sink stops (R177), and the selector takes what `pick`
gives, or none. No path closes while the HBUS OV comparator is tripped (R426). -/
def feedLossBy (pick : State → Feed) (cause : BitVec 4) (s : State) : State :=
  if s.fd.feed = .none then s
  else
    let lost := s.fd.feed
    let s0 := abortFeedSwaps (endStartReg (if s.kdSinks then openSwitch .off portKD s else s))
    let s1 := match lost.port with
      | some n => dropPg n s0
      | none => s0
    let s2 := { s1 with fd := { s1.fd with feed := .none, last := lost, cause := cause, lossCause := cause,
                                           gap := false, planned := false, chgcnt := satInc s1.fd.chgcnt } }
    if s2.fd.ov.valid && s2.fd.ov.out then
      ledgerRefresh ((s2.fire 139 cause.toNat))
    else
      match pick s2 with
      | .none => noFeed (s2.fire 139 cause.toNat)
      | f => selectFeed f (s2.fire 139 (cause.toNat + 16 * f.code))

/-- The selected feed is lost and the first eligible candidate follows (R424). -/
def feedLoss (cause : BitVec 4) (s : State) : State := feedLossBy State.firstFeed cause s

/-- With no feed selected, the selector takes the first eligible candidate (R14, R69, R420, R421); the change carries the
cause START (R422). Nothing is taken while a pre-charge runs, while the HBUS OV comparator is tripped (R426) or while the
hub is held. -/
def feedSeek (s : State) : State :=
  if s.fd.feed ≠ .none ∨ s.fd.pre = true ∨ (s.fd.ov.valid && s.fd.ov.out) = true then s
  else
    match s.firstFeed with
    | .none => s
    | f =>
      if s.fd.hbusLow then selectFeed f { s with fd := { s.fd with cause := 9 } }
      else
        selectFeed f ({ s with fd := { s.fd with cause := 9, chgcnt := satInc s.fd.chgcnt } }.fire 139 (9 + 16 * f.code))

/-- The candidate that pre-charges HBUS fails or is lost (R422, R428): with `failed` it is marked FAILED; the next eligible
candidate pre-charges in its turn. -/
def preLost (failed : Bool) (s : State) : State :=
  let s1 := match s.fd.target.port with
    | some n => if failed then s.updPw n fun p => { p with failed := true } else s
    | none => s
  feedSeek { s1 with fd := { s1.fd with pre := false, target := .none } }

/-- The candidates looked at anew: one that pre-charges HBUS and is eligible no more gives way to the next (R182, R428); with no feed
selected the first eligible one is taken. -/
def feedReview (s : State) : State := if s.fd.pre && !s.eligible s.fd.target then preLost false s else feedSeek s

/-- What follows a change of the contract of port n: AVAIL and HARD when n is the feed (R165), and a choice of feed where
none is selected. -/
def contractChanged (n : Port) (s : State) : State := feedReview (if s.isFeed n then ledgerRefresh s else s)

/-- Ends the contract of port n for good: as endContract, and the ledger releases a grant of a port whose switch is open
and whose output stands below 5 V already (R39, R403). -/
def finishContract (n : Port) (s : State) : State :=
  let s1 := endContract n s
  let w := (s1.port n).pw.sw
  if (w = .off ∨ w = .giveup) ∧ 0 < s1.led.held[n] then opRelease n s1 else s1

/-! ## The breaker's trip (R408 to R412) -/

/-- The on-attempt in µs (R410). -/
def onAttemptUs (s : State) (n : Port) : Nat :=
  let p := (s.port n).pw
  let start := if p.sw = .wait ∨ p.sw = .off then s.cc else if p.onReached then (if 0 < p.ftCount then p.ftStart else s.cc) else p.preStart
  (s.cc - start) / 300

/-- The off-time in µs: max(100 ms, on_attempt × (1 / duty − 1)), DUTY in 0.5 % (R410). -/
def offTimeUs (onUs duty : Nat) : Nat := max 100000 (onUs * (200 - duty) / duty)

/-- Whether the breaker retries port n (R409). -/
def State.retries (s : State) (n : Port) : Bool :=
  let p := s.port n
  decide (n ≠ portB) && decide (p.cf.attach = .attachedSrc) && p.ripe.defen
    && (decide (p.ripe.retry = 255) || decide (0 < p.pw.retryLeft.toNat))

/-- Opens the switch of a port that trips; one whose switch was open already, its stage running, passes DISCH too, so that the
breaker decides on it as on any trip (R213, R403). -/
def openTripped (next : SwState) (n : Port) (s : State) : State :=
  if (s.port n).pw.sw = .off then
    dropPg n (s.updPw n fun p =>
      { p with sw := .disch, after := next, discharging := decide (n ≠ portB), startHeld := false })
  else openSwitch next n s

/-- Whether a port's first contract is under way with its switch still starting (R546). -/
def PortSt.firstStart (p : PortSt) : Bool := p.ct.trans && p.ct.first && (p.pw.starting || decide (p.pw.sw = .wait))

/-- A trip of port n with its cause (R408): force-off, which a hard-short has asserted already (R199), the switch opens, TRIPCNT,
FAULT, BYE; then the off-time of the retry or GIVEUP. In the cc of a SEAT break there is no trip (R412). On the selected feed the
feed is lost and the candidate marked FAILED (R409, R425). The start of a first contract that fails so counts in TRANSFAIL and
ends with BYE TRANSFAIL, as a READY not sent does (R546; DEDUCED, log entry 91). -/
def trip (n : Port) (cause : BitVec 4) (s : State) : State :=
  if (s.port n).st.force.contains .seatBreak then s
  else
    let on := onAttemptUs s n
    let retry := s.retries n
    let firstStart := (s.port n).firstStart
    let code := if firstStart then 0x10 else if cause = 6 then 0x09 else 0x15
    let s0 := if (s.port n).st.force.contains .hardShort then s else forceOff .trip n s
    let s1 := s0.updPw n fun p => { p with tripCnt := satInc p.tripCnt }
    let s2 := fault n cause (if firstStart then s1.updCt n fun c => { c with transfail := satInc c.transfail } else s1)
    if s.isFeed n then
      let s3 := fault n 0xB (s2.updPw n fun p => { p with failed := true, sw := .giveup })
      feedLoss (if cause = 2 then 2 else 3) (sendBye n code false s3)
    else
      let s3 := s2.updPw n fun p =>
        { p with offTimeUs := offTimeUs on (s.port n).ripe.duty, offStart := s.cc, ripenedSinceTrip := false,
                 offElapsed := false, retrying := false }
      sendBye n code false (openTripped (if retry then .offtime else .giveup) n s3)

end Sys2Proof.Machine
end

