-- ==== Sys2Proof/Machine/Line.lean ====
section
/-! DEFINITION. Configuration wires: readings, the attach machine, detach, CSUP and the CFCTL register (R87 to R110,
R127, R137). -/

namespace Sys2Proof.Machine

/-! ## Readings and presentations -/

/-- CFCTL.LEVEL (R137). -/
def CfSt.level (c : CfSt) : Nat := fld c.cfctl 11 10

/-- CFCTL.CSUP (R137). -/
def CfSt.csup (c : CfSt) : Nat := fld c.cfctl 9 8

/-- CFCTL.ROLEMODE (R137). -/
def CfSt.rolemode (c : CfSt) : BitVec 3 := c.cfctl.extractLsb' 0 3

/-- Whether a source presents OPEN: an attached source with LEVEL = OPEN. An unattached source presents HOLD (R101,
R127). -/
def CfSt.presentsOpen (c : CfSt) : Bool := decide (c.attach = .attachedSrc) && decide (c.level = 1)

/-- Whether a reading is that of a sink under the presented level (R91). During the 100 µs after a change of the level presented
the other band counts as the match it was. -/
def CfSt.isSink (c : CfSt) (cc : Nat) (r : Reading) : Bool :=
  let fresh := decide (0 < c.levelCc) && decide (cc ≤ c.levelCc + 30000)
  if c.presentsOpen then decide (r = .openBand) || (fresh && decide (r = .hold))
  else decide (r = .hold) || (fresh && decide (r = .openBand))

/-- Whether a reading is HOLD or OPEN (R95). -/
def readsSource (r : Reading) : Bool := decide (r = .hold) || decide (r = .openBand)

/-- Sink seen (R106). -/
def CfSt.sinkSeen (c : CfSt) (cc : Nat) : Bool := c.isSink cc c.cf1 || c.isSink cc c.cf2

/-- Source seen (R106). -/
def CfSt.sourceSeen (c : CfSt) : Bool := readsSource c.cf1 || readsSource c.cf2

/-- The reading of the active wire. -/
def CfSt.activeReading (c : CfSt) : Reading := if c.active then c.cf2 else c.cf1

/-- The reading of the other wire. -/
def CfSt.otherReading (c : CfSt) : Reading := if c.active then c.cf1 else c.cf2

/-- tCF_DETACH runs: the active wire reads FLOAT as source or MARK as sink (R96), unless R100 suspends it. -/
def CfSt.detachRun (c : CfSt) : Bool :=
  !c.suspended &&
    ((decide (c.attach = .attachedSrc) && decide (c.activeReading = .floatBand))
      || (decide (c.attach = .attachedSnk) && decide (c.activeReading = .mark)))

/-- tCF_UNDEC runs: the active wire reads Undecided, a source's mismatched band counted as such (R91, R96). -/
def CfSt.undecRun (c : CfSt) (cc : Nat) : Bool :=
  !c.suspended && c.attached &&
    (decide (c.activeReading = .undecided)
      || (decide (c.attach = .attachedSrc) && readsSource c.activeReading && !c.isSink cc c.activeReading))

/-- The active wire of a source's row of R94 that attaches, if the readings match one: false CF1, true CF2. -/
def CfSt.sourceRow (c : CfSt) (cc : Nat) : Option Bool :=
  let s1 := c.isSink cc c.cf1
  let s2 := c.isSink cc c.cf2
  let quiet (r : Reading) : Bool := decide (r = .floatBand) || decide (r = .mark)
  if s1 && s2 then some false
  else if s1 && quiet c.cf2 then some false
  else if s2 && quiet c.cf1 then some true
  else none

/-- The active wire of a sink by R95: exactly one wire reads HOLD or OPEN. -/
def CfSt.sinkRow (c : CfSt) : Option Bool :=
  if readsSource c.cf1 && !readsSource c.cf2 then some false
  else if readsSource c.cf2 && !readsSource c.cf1 then some true
  else none

/-- Whether the port presents anything while unattached: every mode but OFF, and the dead-battery pull-downs of KU and G
(R101, R104). -/
def CfSt.presents (c : CfSt) (n : Port) : Bool := decide (c.effMode ≠ 0) || decide (n = portKU) || decide (n = portG)

/-- CFSTAT.STATE code (R137). -/
def AttachState.code : AttachState → Nat
  | .unattached => 0 | .attachWait => 1 | .attachedSrc => 2 | .attachedSnk => 3 | .trySrc => 4
  | .tryWaitSnk => 5 | .trySnk => 6 | .tryWaitSrc => 7 | .legacy => 8

/-- CFCTL.LEVEL written. On an attached source, the one that presents it, a change starts the 100 µs of R91. -/
def CfSt.setLevel (c : CfSt) (cc : Nat) (v : Nat) : CfSt :=
  if c.level = v then c
  else { c with cfctl := setFld c.cfctl 11 10 v, levelCc := if c.attach = .attachedSrc then cc else c.levelCc }

/-- The ATTACH event with its cause (R108, R516): the cause is kept in CFSTAT.CAUSE. -/
def attachEvent (n : Port) (cause : BitVec 2) (s : State) : State :=
  let s1 := s.updCf n fun c => { c with cause := cause }
  s1.firePort n 0 (cause.toNat + 16 * (s1.port n).cf.attach.code)

/-! ## CSUP (R109, R110) -/

/-- Whether the hub should supply CSUP on an attached port: held on, held off, or by role, which is the source where the
other wire read MARK at attach, and after an SSWAP the sink (R178). Two trips, or a failed SSWAP, leave it off until
detach. -/
def CfSt.wantsCsup (c : CfSt) : Bool :=
  c.attached && decide (c.csupTrips < 2) &&
    (if c.csup = 1 then true else if c.csup = 2 then false
     else if c.csupSwapped then decide (c.attach = .attachedSnk)
     else decide (c.attach = .attachedSrc) && c.marker)

/-! ## Entering states (R102 to R107) -/

/-- The ROLEMODE that takes effect: OFF while every port is inert (R7, R481). -/
def effectiveRole (s : State) (c : CfSt) : BitVec 3 := if s.portsInert then 0 else c.rolemode

/-- An entry to UNATTACHED: the held ROLEMODE takes effect (R102) and the port presents what it selects; a toggling port
begins as source (DEDUCED, log entry 13). A tLEGACY that has run on KU does not outlast the entry, be it a ROLEMODE write on a KU
that was UNATTACHED already (DESIGN CHOICE, log entry 92). -/
def enterUnattached (n : Port) (s : State) : State :=
  s.updCf n fun c =>
    { c with attach := .unattached, effMode := effectiveRole s c,
             asSource := decide (2 ≤ (effectiveRole s c).toNat), active := false,
             marker := false, csupOn := false, csupIn := false, csupOc := false, csupTrips := 0, csupSwapped := false,
             fromLegacy := false, legacyDue := false, attachRun := false, debounced := false, suspended := false }

/-- Whether the restrictive boot keeps even the pull-downs of port n away: it leaves only KU's (R469). -/
def State.muted (s : State) (n : Port) : Bool :=
  (decide (s.dev.mode = .restrictive) || decide (s.dev.mode = .scrapped)) && decide (n ≠ portKU)

/-- From UNATTACHED to ATTACH_WAIT where the readings show a partner (R106). The debounce of a source runs only while the
readings match an attaching row of R94. -/
def seekPartner (n : Port) (s : State) : State :=
  let c := (s.port n).cf
  if c.attach ≠ .unattached ∨ s.signals n = false ∨ c.presents n = false ∨ s.muted n = true then s
  else if c.asSource then
    if c.sinkSeen s.cc then
      s.updCf n fun c => { c with attach := .attachWait, attachRun := (c.sourceRow s.cc).isSome, debounced := false,
                                  startRow := (c.cf1, c.cf2) }
    else s
  else if c.sourceSeen then
    s.updCf n fun c => { c with attach := .attachWait, attachRun := true, debounced := false, startRow := (c.cf1, c.cf2) }
  else s

/-- Whether R105 holds for KU: KU_PWR in 20.0-32.0 V and neither wire in the HOLD or OPEN band. -/
def State.legacyCond (s : State) : Bool :=
  decide (20000 ≤ s.fd.kuMv ∧ s.fd.kuMv ≤ 32000) && !(s.port portKU).cf.sourceSeen

/-- KU enters LEGACY (R105, R106): it presents sink, ATTACH fires with cause LEGACY and CTRCUR.STATE becomes LEGACY. -/
def enterLegacy (s : State) : State :=
  let s1 := s.updCf portKU fun c =>
    { c with attach := .legacy, asSource := false, active := false, fromLegacy := false, legacyDue := false,
             attachRun := false, debounced := false }
  contractChanged portKU (setContract portKU .legacy 0 0 false (attachEvent portKU 2 s1))

/-- A source applies its default contract once the RAISE that its policy program posts has covered it (R139, R166, R167); without it,
it has none. -/
def applyDefault (n : Port) (s : State) : State :=
  let g := (s.port n).ripe
  let d := g.defaultContract
  let r := ledgerPost n 0 (powerUp d.1 d.2) 0 s
  if r.1 = 1 then
    (setContract n .default d.1 d.2 true r.2).updCt n fun c => { c with window := windowOf n g true d.1 }
  else setContract n .none 0 0 true r.2

/-- The end of an attach (R106): orientation, role and CSUP by R109, PART open, the ATTACH event; a source with DEFEN = 1 holds its
default contract from here, a sink accepts it (R139), and owes its GETCAPS where its PHY is enabled (R151). LEVEL stands as it was
written while the port was unattached (DESIGN CHOICE, log entry 93). -/
def attachAs (n : Port) (source : Bool) (active : Bool) (s : State) : State :=
  let s1 := s.updCf n fun c =>
    let c1 := { c with attach := if source then .attachedSrc else .attachedSnk, asSource := source, active := active,
                       attachRun := false, debounced := false, fromLegacy := false, legacyDue := false
                       levelCc := if source && decide (c.level = 1) then s.cc else c.levelCc }
    let c2 := { c1 with marker := source && decide (c1.otherReading = Reading.mark),
                        csupIn := !source && decide (c1.otherReading = Reading.floatBand) }
    { c2 with csupOn := c2.wantsCsup && !s.portsInert }
  let s2 := attachEvent n 0 s1
  let g := (s.port n).ripe
  if source then
    contractChanged n (if g.defen then applyDefault n s2 else setContract n .none 0 0 true s2)
  else
    let d := g.defaultContract
    contractChanged n ((setContract n .default d.1 d.2 false s2).updCt n fun c =>
      { c with window := windowOf n g true d.1, trans := false, seq := none, getcapsDue := bitOf (s.port n).ln.linectl 0 })

/-- A state of a try (R106, R107): the presentation changes with it. -/
def enterTry (n : Port) (a : AttachState) (source : Bool) (s : State) : State :=
  s.updCf n fun c => { c with attach := a, asSource := source, attachRun := false, debounced := false }

/-- What follows a completed attach debounce (R106): attach, or a try. -/
def debounceDone (n : Port) (s : State) : State :=
  let c := (s.port n).cf
  if c.asSource then
    match c.sourceRow s.cc with
    | none => s
    | some a => if c.effMode = 5 then enterTry n .trySnk false s else attachAs n true a s
  else
    match c.sinkRow with
    | some a => if c.effMode = 4 then enterTry n .trySrc true s else attachAs n false a s
    | none => if c.sourceSeen then s.updCf n fun c => { c with attachRun := false, debounced := true } else s

/-! ## Detach (R96 to R98) -/

/-- Ends one TX entry (R136): RESULT and TRIES are written, PEND clears, TX fires, and the entry leaves the ring. -/
def endEntry (n : Port) (e : Nat) (result tries : Nat) (s : State) : State :=
  let a := ringAddr (2 * n.val) e
  let ctl := setFld (setFld (setFld (entryCtl s a) 11 8 result) 7 4 tries) 15 15 0
  ((s.writeMem a (toBytesLE 2 ctl.toNat)).firePort n 6 (result + 16 * (memRead s.mem (a + 2)).toNat)).updLn n
    fun l => l.without e

/-- The entries held in the TX ring that are still pending, oldest first. -/
def pendingTx (n : Port) (s : State) : List Nat :=
  (s.port n).ln.tx.filter fun e => bitOf (entryCtl s (ringAddr (2 * n.val) e)) 15

/-- The tries entry e has had (R135): those counted on the line while it is the frame under way, else those it keeps. -/
def triesOf (n : Port) (e : Nat) (s : State) : Nat :=
  let l := (s.port n).ln
  if l.cur = some (.ring e) then l.tries else fld (entryCtl s (ringAddr (2 * n.val) e)) 7 4

/-- Ends every pending TX entry with a result (R97). -/
def flushTx (n : Port) (result : Nat) (s : State) : State :=
  (pendingTx n s).foldl (fun t e => endEntry n e result (triesOf n e t) t) s

/-- The PHY and the contexts closed (R97, R98): nothing is sent or received, nothing waits, every context is as after reset. -/
def LineSt.closed (l : LineSt) : LineSt :=
  { l with ctxs := .replicate 12 .reset, phase := .idle, cur := none, tries := 0, receiving := false, nodOwed := none,
           notsupDue := none, own := [], mark := none, markOnLine := none, holdStood := false, holdWait := false,
           startOut := false, sinkStart := false }

/-- The PHY and the contexts of a port that detaches (R97, R98): nothing is sent or received, pending entries end with
DETACH, contexts close, their ID counters and records clear. With LINECTL.EN = 0 the entries end so too, and TX fires
(DESIGN CHOICE, log entry 94). -/
def closeLine (n : Port) (s : State) : State := (flushTx n 3 s).updLn n LineSt.closed

/-- Detach (R96 to R98, R106, R108, R138, R425): the contract ends, the switch opens, an off-time ends, FAILED clears, the
line closes, LEVEL returns to HOLD, the port enters UNATTACHED or ATTACH_WAIT, ATTACH fires; a feed is lost. -/
def detach (n : Port) (cause : BitVec 2) (feedCause : BitVec 4) (s : State) : State :=
  let feed := s.isFeed n
  let s1 := finishContract n s
  let s2 := s1.updPw n fun p =>
    { p with failed := false, startHeld := false, after := .off,
             sw := if p.sw = .offtime ∨ (p.sw = .giveup ∧ p.failed = true) then .off else p.sw }
  let s3 := closeLine n s2
  let s4 := enterUnattached n (s3.updCf n fun c => c.setLevel s.cc 0)
  let s5 := s4.updCt n fun c =>
    { c with caps := [], capsSent := 0, capsNodded := false, seq := none, waiting := [], getcapsDue := false }
  let s6 := attachEvent n cause (seekPartner n s5)
  if feed then feedLoss feedCause s6 else s6

/-- A departure from LEGACY for ATTACH_WAIT (R105, R106, R184): a detach by R108, so the line closes and LEVEL returns to HOLD
(R127); the legacy limits are kept. -/
def leaveLegacy (s : State) : State :=
  attachEvent portKU 1 ((closeLine portKU s).updCf portKU fun c =>
    { c.setLevel s.cc 0 with
        attach := .attachWait, asSource := false, attachRun := true, debounced := false, fromLegacy := true
        startRow := (c.cf1, c.cf2) })

/-- The end of the legacy limits with KU unattached (R127, R183, R184, R547); a partner still seen is sought anew (R106). -/
def endLegacy (s : State) : State :=
  let feed := s.isFeed portKU
  let s0 := (closeLine portKU (setContract portKU .none 0 0 false s)).updCf portKU fun c => c.setLevel s.cc 0
  let s1 := seekPartner portKU (enterUnattached portKU s0)
  if feed then feedLoss 6 s1 else s1

/-! ## Commands: readings, debounces and timers -/

/-- CF_READING_CHANGE: both readings as they now stand; the attach machine follows (R89 to R92, R95, R105 to R107). -/
def onReading (n : Port) (r1 r2 : Reading) (s : State) : State :=
  let s0 := s.updCf n fun c => { c with cf1 := r1, cf2 := r2 }
  let c := (s0.port n).cf
  match c.attach with
  | .unattached =>
    seekPartner n (if n = portKU ∧ s0.legacyCond = false then s0.updCf n fun c => { c with legacyDue := false } else s0)
  | .attachWait =>
    if c.asSource then
      s0.updCf n fun c => { c with attachRun := (c.sourceRow s0.cc).isSome, startRow := (r1, r2) }
    else if c.sourceSeen = false then s0.updCf n fun c => { c with attachRun := false, debounced := false }
    else if c.debounced && c.sinkRow.isSome then debounceDone n s0
    else s0.updCf n fun c => { c with attachRun := !c.debounced }
  | .legacy => if c.sourceSeen then leaveLegacy s0 else s0
  | .attachedSnk =>
    if c.csupOn then s0 else s0.updCf n fun c => { c with csupIn := decide (c.otherReading = .floatBand) }
  | _ => s0

/-- CF_READING_CHANGE (R106); while a moisture measurement runs the detectors hold their last output (R429). -/
def execCfReadingChange (n : Port) (r1 r2 : Reading) (s : State) : Out :=
  if s.signals n && !(s.port n).mo.measuring then done (onReading n r1 r2 s) else done s

/-- CF_ATTACH_DONE (R94, R95, R106): tCF_ATTACH has run. -/
def execCfAttachDone (n : Port) (s : State) : Out :=
  let c := (s.port n).cf
  if s.signals n && decide (c.attach = .attachWait) && c.attachRun then done (debounceDone n s) else done s

/-- CF_DETACH_TIMEOUT (R96, R105, R106): an attached port whose active wire reads detach detaches; in ATTACH_WAIT with
nobody seen the machine returns to LEGACY, if it came from there and KU_PWR is in 12.0-60.0 V, and else to
UNATTACHED. -/
def execCfDetachTimeout (n : Port) (s : State) : Out :=
  let c := (s.port n).cf
  if c.detachRun then done (detach n 1 0xB s)
  else if c.attach = .attachWait then
    if (if c.asSource then c.sinkSeen s.cc else c.sourceSeen) then done s
    else if c.fromLegacy then
      if 12000 ≤ s.fd.kuMv ∧ s.fd.kuMv ≤ 60000 then done (enterLegacy s) else done (endLegacy s)
    else done (seekPartner n (enterUnattached n s))
  else done s

/-- CF_UNDECIDED_TIMEOUT (R96). -/
def execCfUndecidedTimeout (n : Port) (s : State) : Out :=
  if (s.port n).cf.undecRun s.cc then done (detach n 1 0xB s) else done s

/-- DRP_TOGGLE (R103, R105): an unattached toggling port changes its presentation; KU whose tLEGACY has run enters LEGACY
with its next sink presentation if the conditions still hold. -/
def execDrpToggle (n : Port) (s : State) : Out :=
  let c := (s.port n).cf
  if c.attach = .unattached ∧ 3 ≤ c.effMode.toNat ∧ s.signals n = true then
    let s1 := s.updCf n fun c => { c with asSource := !c.asSource }
    if n = portKU ∧ c.legacyDue = true ∧ c.asSource = true ∧ s.legacyCond = true then done (enterLegacy s1) else done s1
  else done s

/-- TRY_DEBOUNCE_DONE (R106): a try or its wait state has seen the partner for tTRY_DEB, on one wire or on both. Where R94 or R95
names no active wire, it is the first one that shows the partner (DESIGN CHOICE, log entry 95). -/
def execTryDebounceDone (n : Port) (s : State) : Out :=
  let c := (s.port n).cf
  match c.attach with
  | .trySrc | .tryWaitSrc =>
    if c.sinkSeen s.cc then done (attachAs n true ((c.sourceRow s.cc).getD !c.isSink s.cc c.cf1) s) else done s
  | .trySnk | .tryWaitSnk =>
    if c.sourceSeen then done (attachAs n false (c.sinkRow.getD !readsSource c.cf1) s) else done s
  | _ => done s

/-- TRY_TIMEOUT (R106): tTRY expires. -/
def execTryTimeout (n : Port) (s : State) : Out :=
  match (s.port n).cf.attach with
  | .trySrc => done (enterTry n .tryWaitSnk false s)
  | .trySnk => done (enterTry n .tryWaitSrc true s)
  | _ => done s

/-- TRY_WAIT_TIMEOUT (R106): tTRY_WAIT expires; a partner still seen is sought anew. -/
def execTryWaitTimeout (n : Port) (s : State) : Out :=
  match (s.port n).cf.attach with
  | .tryWaitSnk | .tryWaitSrc => done (seekPartner n (enterUnattached n s))
  | _ => done s

/-- LEGACY_TIMEOUT (R105): tLEGACY has run on KU; it enters LEGACY if it presents sink, and else with its next sink
presentation. -/
def execLegacyTimeout (n : Port) (s : State) : Out :=
  let c := (s.port n).cf
  if n = portKU ∧ c.attach = .unattached ∧ s.legacyCond = true then
    if c.asSource then done (s.updCf n fun c => { c with legacyDue := true }) else done (enterLegacy s)
  else done s

/-- SWAP_PRESENTATION_TIMEOUT (R100): 500 ms without the new presentation: the port detaches. -/
def execSwapPresentationTimeout (n : Port) (s : State) : Out :=
  if (s.port n).cf.suspended then done (detach n 1 0xB s) else done s

/-- Whether the active wire reads the presentation of the port's partner in its band (R91, R95). -/
def CfSt.readsPartner (c : CfSt) (cc : Nat) : Bool :=
  if c.attach = .attachedSrc then c.isSink cc c.activeReading else readsSource c.activeReading

/-- SWAP_PRESENTATION_READ (R100): the new presentation, that after the role exchange, has been read in its band for 5 ms; detach
detection resumes. -/
def execSwapPresentationRead (n : Port) (s : State) : Out :=
  let p := s.port n
  if p.cf.suspended && !p.ct.beforeExchange && p.cf.readsPartner s.cc then
    done (s.updCf n fun c => { c with suspended := false })
  else done s

/-! ## Commands: SEAT and CSUP -/

/-- What a SEAT break does (R97, R185, R391, R398, R403, R404, R412): force-off, the detach at once with cause SEAT, the
end of an off-time, no trip and no retry; a feed is lost with cause SEAT; unattached too, what waits in the TX ring ends with
DETACH. KU under its legacy limits needs no SEAT, and a cable pull there shows as the loss of KU_PWR (R183, R185). -/
def seatBroken (n : Port) (s : State) : State :=
  let s1 := s.updPw n fun p => { p with settled := false, seat := { valid := true, out := false } }
  if (s.port n).ct.state = .legacy then closeLine n s1
  else
    let s2 := dropPg n (forceOff .seatBreak n s1)
    let s3 := openSwitch .off n s2
    let s4 := s3.updPw n fun p =>
      { p with after := .off, startHeld := false, sw := if p.sw = .offtime then .off else p.sw }
    let c := (s4.port n).cf
    if c.attached then detach n 3 4 s4
    else
      let s5 := closeLine n s4
      if s.isFeed n then feedLoss 4 s5 else feedReview s5

/-- SEAT_BREAK (R97): SEAT reads unseated. -/
def execSeatBreak (n : Port) (s : State) : Out := if s.signals n then done (seatBroken n s) else done s

/-- SEAT_SEATED (R398): SEAT reads seated; the force-off of a break ends (R199), the count of tSEAT begins. -/
def execSeatSeated (n : Port) (s : State) : Out :=
  if s.signals n then
    done (liftForce [.seatBreak] n (s.updPw n fun p => { p with seat := { valid := true, out := true } }))
  else done s

/-- CSUP_OVERCURRENT (R110): CSUP is switched off, FAULT fires with cause CSUP, NEAR and FAR close with it; the second trip
leaves it off until detach with CSUP_OC set. -/
def execCsupOvercurrent (n : Port) (s : State) : Out :=
  if (s.port n).cf.csupOn then
    done (fault n 8 (s.updCf n fun c =>
      { c with csupOn := false, csupTrips := c.csupTrips + 1, csupOc := decide (1 ≤ c.csupTrips) }))
  else done s

/-- CSUP_RETRY (R110): 100 ms after the first trip the hub tries once more. -/
def execCsupRetry (n : Port) (s : State) : Out :=
  let c := (s.port n).cf
  if c.csupTrips = 1 ∧ c.csupOn = false ∧ c.wantsCsup = true then
    done (s.updCf n fun c => { c with csupOn := true })
  else done s

/-! ## CFCTL (R101, R102, R137) -/

/-- Whether a port may hold a ROLEMODE (R101). -/
def roleAllowed (s : State) (n : Port) (m : BitVec 3) : Bool :=
  if isW n then decide (m = 0) || decide (m = 2)
  else if s.isDmh16 then decide (m.toNat ≤ 5)
  else decide (m.toNat ≤ 1)

/-- Whether a CFCTL write is refused as reserved (R87, R101, R137). -/
def cfctlReserved (s : State) (n : Port) (v : Word) : Bool :=
  !s.signals n || decide (8 < fld v 19 16) || decide (1 < fld v 11 10) || decide (fld v 9 8 = 3)
    || !roleAllowed s n (v.extractLsb' 0 3)

/-- The fields of CFCTL that a write may set. -/
def cfctlFields (v : Word) : Word := v &&& 0x000F0F07

/-- A CFCTL write that is not refused (R102, R109, R127): LEVEL, CSUP and SHARE act at once; a changed ROLEMODE acts at
once to OFF, which detaches an attached port, or on an UNATTACHED port, and else at the next entry to UNATTACHED. OFF written in an
ATTACH_WAIT entered from LEGACY ends the legacy limits, and with them the feed (DESIGN CHOICE, log entry 96). -/
def cfctlApply (n : Port) (v : Word) (s : State) : State :=
  let c := (s.port n).cf
  let lv := fld v 11 10
  let s1 := s.updCf n fun c =>
    let c1 := { c.setLevel s.cc lv with cfctl := cfctlFields v }
    { c1 with csupOn := if c1.csup = c.csup then c1.csupOn else c1.wantsCsup && !s.portsInert }
  let s2 := if lv = c.level then s1 else s1.updLn n fun l =>
    { l with holdStood := false, startOut := l.startOut && decide (lv = 0), holdWait := l.holdWait && decide (lv = 0) }
  if c.rolemode = v.extractLsb' 0 3 then s2
  else if v.extractLsb' 0 3 = (0 : BitVec 3) then
    if c.attached then detach n 1 0xB s2
    else if c.attach = .legacy then s2.updCf n fun c => { c with effMode := 0 }
    else if c.fromLegacy then endLegacy s2
    else seekPartner n (enterUnattached n s2)
  else if c.attach = .unattached then seekPartner n (enterUnattached n s2)
  else s2

/-- ROLEMODE_WRITE (R102): a CFCTL write that changes ROLEMODE; one that keeps it acts through its other fields. -/
def execRolemodeWrite (n : Port) (w : Writer) (v : Word) (s : State) : Out :=
  if cfctlReserved s n v then done (s.refuseWrite w 2) else done (cfctlApply n v s)

/-- CFCTL_LEVEL_WRITE (R102, R127): a CFCTL write that keeps ROLEMODE and changes LEVEL, CSUP or SHARE. -/
def execCfctlLevelWrite (n : Port) (w : Writer) (v : Word) (s : State) : Out :=
  if cfctlReserved s n v then done (s.refuseWrite w 2) else done (cfctlApply n v s)

end Sys2Proof.Machine
end

