-- ==== Sys2Proof/Machine/Timers.lean ====
section
/-! DEFINITION. Claims, the timer array, SYNC_IN and the wait bindings (R356 to R375, R392 to R395, R482). -/

namespace Sys2Proof.Machine

/-! ## Claims (R482, R483) -/

/-- The owner code of a writer (R482). -/
def ownerOf : Writer → Byte
  | .core c => BitVec.ofNat 8 c.val
  | .host => 0x0F

/-- The kind of image a core runs (R476): 1 LE, 2 PC, 3 SV. -/
def kindOf (c : Core) : Nat := if c.val < 4 then 1 else if c.val < 6 then 2 else 3

/-- The claims in force for an owner (R482, R488): those that name it in the images the ripe banks came from; an image of the
owner's own kind counts through the owner's own bank. The host's include those of the PARAM image. -/
def State.claimsOf (s : State) (o : Byte) : List Claim :=
  let from_ (c : Core) : List Claim :=
    if h : o.toNat < 7 then
      if kindOf ⟨o.toNat, h⟩ = kindOf c ∧ c.val ≠ o.toNat then [] else (s.core c).ripeMeta.claims
    else (s.core c).ripeMeta.claims
  ((allCores.flatMap from_) ++ s.bt.paramMeta.claims).filter fun k => decide (k.owner = o)

/-- Whether an owner claims an item of a type (R483). -/
def State.claims (s : State) (o : Byte) (ty : Byte) (item : Nat) : Bool :=
  (s.claimsOf o).any fun k => decide (k.type = ty ∧ k.first.toNat ≤ item ∧ item ≤ k.last.toNat)

/-! ## Wait bindings (R371) -/

/-- The wait-source bit of TMRj on core c (R288). -/
def tmrBit (c : Core) (j : Nat) : Nat := if c = coreSV then 8 + j else 16 + j

/-- Fires every wait line bound to an event of a channel (R371). -/
def fireBound (ch evt : Nat) (s : State) : State :=
  (List.range 56).foldl (fun t i =>
    let b := s.tim.tbind[i % 56]'(by omega)
    if fld b 2 0 = evt ∧ fld b 15 8 = ch ∧ evt ≠ 0 then t.fireSrc ⟨(i / 8) % 7, by omega⟩ (tmrBit ⟨(i / 8) % 7, by omega⟩ (i % 8))
    else t) s

/-! ## General counters (R359 to R366) -/

/-- Counter k replaced by f of it. -/
def State.updCounter (s : State) (k : Fin 24) (f : Counter → Counter) : State :=
  { s with tim := { s.tim with counters := s.tim.counters.set k (f s.tim.counters[k]) } }

/-- CTL fields (R392). -/
def Counter.clksrc (c : Counter) : Nat := fld c.ctl 9 8
/-- CTL.ZSTOP. -/
def Counter.zstop (c : Counter) : Bool := bitOf c.ctl 10
/-- CTL.MSELF. -/
def Counter.mself (c : Counter) : Nat := fld c.ctl 12 11
/-- LINK.LACT. -/
def Counter.lact (c : Counter) : Nat := fld c.link 14 12
/-- LINK.LEVT. -/
def Counter.levt (c : Counter) : Nat := fld c.link 11 10
/-- LINK.TARGET. -/
def Counter.target (c : Counter) : Nat := fld c.link 7 0

/-- The counter a channel number names (R314). -/
def counterOf (ch : Nat) : Option (Fin 24) := if h : 16 ≤ ch ∧ ch ≤ 39 then some ⟨ch - 16, by omega⟩ else none

/-- Register i of a counter takes a value (R392). -/
def Counter.write (c : Counter) (i : Nat) (v : Word) : Counter :=
  match i with
  | 0 => { c with ctl := v &&& 0x000F1F0F }
  | 1 => { c with count := v.setWidth 16 }
  | 2 => { c with reload := v.setWidth 16 }
  | 3 => { c with cmp := v.setWidth 16 }
  | 4 => { c with link := v &&& 0x00007CFF }
  | 5 => { c with zerof := w1c1 c.zerof v 9, matchf := w1c1 c.matchf v 8 }
  | _ => c

/-- What START, STOP, FORCE_RELOAD (R359, R361) and a write do when they take effect. -/
def Counter.perform (c : Counter) (op : CtOp) : Counter :=
  match op with
  | .write i v => c.write i v
  | .start => { c with run := true }
  | .stop => { c with run := false }
  | .reload => { c with count := c.reload }

/-- Puts an operation into its place by the cc in which it takes effect. -/
def insertOp (x : Nat × CtOp) : List (Nat × CtOp) → List (Nat × CtOp)
  | [] => [x]
  | y :: ys => if x.1 < y.1 then x :: y :: ys else y :: insertOp x ys

/-- Asks something of counter k for cc t. -/
def askCounter (k : Fin 24) (t : Nat) (op : CtOp) (s : State) : State :=
  s.updCounter k fun c => { c with due := insertOp (t, op) c.due }

/-- A write of a register, which a tick of its own cc meets already (R360, R362). -/
def CtOp.isWrite : CtOp → Bool
  | .write _ _ => true
  | _ => false

/-- An operation on a counter beside the others of its cc: a START gives way to a STOP (R366, row 4). -/
def Counter.meet (ops : List (Nat × CtOp)) (c : Counter) (x : Nat × CtOp) : Counter :=
  if x.2 = .start ∧ (x.1, CtOp.stop) ∈ ops then c else c.perform x.2

/-- The counter with every operation performed that takes effect at cc t or before. -/
def Counter.now (c : Counter) (t : Nat) : Counter :=
  (c.due.filter fun x => decide (x.1 ≤ t)).foldl (Counter.meet c.due) { c with due := c.due.filter fun x => decide (t < x.1) }

/-- The counter as a tick of cc t meets it (R360, R362, R366): what took effect before t is done, and the register writes of t;
a start, stop or reset of t itself still waits. -/
def Counter.atTick (c : Counter) (t : Nat) : Counter :=
  let early := fun x : Nat × CtOp => decide (x.1 < t) || (decide (x.1 = t) && x.2.isWrite)
  (c.due.filter early).foldl (Counter.meet c.due) { c with due := c.due.filter fun x => !early x }

/-- Whether a stop or a reset of this cc takes the counter's tick away, where that is no zero (R366, rows 1 and 2). -/
def Counter.preEmpted (c : Counter) (t : Nat) : Bool :=
  c.due.any fun x => decide (x.1 = t) && (decide (x.2 = .stop) || decide (x.2 = .reload))

/-- Counter k as it stands in this cc. -/
def State.counter (s : State) (k : Fin 24) : Counter := (s.tim.counters[k]).now s.cc

/-- FORCE_RELOAD in this cc (R361). -/
def forceReload (k : Fin 24) (s : State) : State := askCounter k s.cc .reload s

/-- START in this cc (R359). -/
def startCounter (k : Fin 24) (s : State) : State := askCounter k s.cc .start s

/-- STOP in this cc (R359). -/
def stopCounter (k : Fin 24) (s : State) : State := askCounter k s.cc .stop s

/-- Whether a master gates counter k off: its LACT is gate and its OUT is 0 (R364). -/
def gatedOff (s : State) (k : Fin 24) : Bool :=
  s.tim.counters.toList.any fun x =>
    let m := x.now s.cc
    decide (m.lact = 5) && decide (m.target = k.val + 16) && !m.out

/-- What counter k's link does at one of its events (R363, R364): start, stop, reload or tick its target; `next` is what a
tick of the target does. -/
def followLink (next : Fin 24 → State → State) (k : Fin 24) (evt : Nat) (s : State) : State :=
  let m := s.counter k
  if m.levt = evt then
    match counterOf m.target with
    | none => s
    | some j =>
      if m.lact = 1 then startCounter j s
      else if m.lact = 2 then stopCounter j s
      else if m.lact = 3 then forceReload j s
      else if m.lact = 4 ∧ (s.counter j).clksrc = 1 then next j s
      else s
  else s

/-- A match of counter k with what follows in its cc (R362, R366). -/
def counterMatches (next : Fin 24 → State → State) (k : Fin 24) (s : State) : State :=
  let s1 := fireBound (k.val + 16) 2 (s.updCounter k fun c => { c with matchf := true, out := false })
  let m := (s1.counter k).mself
  followLink next k 2 (if m = 1 then s1.updCounter k fun c => c.perform .reload
    else if m = 2 then s1.updCounter k fun c => c.perform .stop else s1)

/-- One tick of counter k with what follows in its cc (R360, R362 to R364, R366): a stop or a reset of the same cc leaves room for
a zero only. -/
def tickOnce (next : Fin 24 → State → State) (k : Fin 24) (s : State) : State :=
  let c := (s.tim.counters[k]).atTick s.cc
  if c.run = false ∨ gatedOff s k = true then s
  else if c.count = 0 then
    let s1 := s.updCounter k fun _ =>
      { c with count := c.reload, zerof := true, zcnt := c.zcnt + 1, out := true, run := !c.zstop }
    let s2 := followLink next k 1 (fireBound (k.val + 16) 1 s1)
    if c.reload = c.cmp then counterMatches next k s2 else s2
  else if c.preEmpted s.cc then s
  else
    let s1 := s.updCounter k fun _ => { c with count := c.count - 1 }
    if c.count - 1 = c.cmp then counterMatches next k s1 else s1

/-- Ticks along a chain of links; `fuel` bounds the chain, which R364 keeps free of cycles. -/
def tickCounter : Nat → Fin 24 → State → State
  | 0, _, s => s
  | fuel + 1, k, s => tickOnce (tickCounter fuel) k s

/-! ## General inputs (R369, R370) -/

/-- What general input k selects (R395): 0 nothing, 1-16 a route line, 17 SYNC_IN. -/
def giSource (s : State) (k : Fin 4) : Nat := fld s.tim.gisel (8 * k.val + 7) (8 * k.val)

/-- Whether an edge can come from a route line: its comparator is selected and VALID (R216, R221, R228). -/
def routeLive (s : State) (n : Port) : Bool :=
  let t := (s.port n).st
  match fld t.cmproute 10 8 with
  | 1 => t.pk.valid
  | 2 => t.hsCmp.valid
  | 3 => t.ov.valid
  | 4 => t.uv.valid
  | _ => false

/-- Whether general input k can show an edge (R370). -/
def giLive (s : State) (k : Fin 4) : Bool :=
  let g := giSource s k
  if g = 17 then true
  else if h : 1 ≤ g ∧ g ≤ 16 then routeLive s ⟨g - 1, by omega⟩ else false

/-! ## Ticks -/

/-- Whether counter k takes ticks of its own (R359): those of the prescaler, or the edges of a general input that can show any. A
counter clocked by its master ticks with the master's event (R364), by no command of its own. -/
def tickLive (s : State) (k : Fin 24) : Bool :=
  let c := (s.tim.counters[k]).atTick s.cc
  match c.clksrc with
  | 0 => true
  | 2 => giLive s ⟨fld c.ctl 19 18 % 4, by omega⟩
  | _ => false

/-- Counter k takes a tick of its own in this cc whose counter satisfies `which`. -/
def ownTick (k : Fin 24) (which : Counter → Bool) (s : State) : Out :=
  let c := (s.tim.counters[k]).atTick s.cc
  if c.run && which c && tickLive s k then done (tickCounter 24 k s) else done s

/-- ZERO (R360): a tick of a running counter at count 0. -/
def execZero (k : Fin 24) (s : State) : Out := ownTick k (fun c => decide (c.count = 0)) s

/-- MATCH (R362): a tick brings COUNT to CMP. -/
def execMatch (k : Fin 24) (s : State) : Out :=
  ownTick k (fun c => decide (c.count ≠ 0) && decide (c.count - 1 = c.cmp)) s

/-- COUNTER_TICK (R359): a tick with no zero and no match. -/
def execCounterTick (k : Fin 24) (s : State) : Out :=
  ownTick k (fun c => decide (c.count ≠ 0) && decide (c.count - 1 ≠ c.cmp)) s

/-- Whether following links from channel `ch` meets channel `goal` (R364). -/
def linkReaches (s : State) (goal : Nat) : Nat → Nat → Bool
  | 0, _ => false
  | fuel + 1, ch =>
    if ch = goal then true
    else match counterOf ch with
      | none => false
      | some k =>
        let c := (s.tim.counters[k]).now (s.cc + 1)
        if c.lact = 0 then false else linkReaches s goal fuel c.target

/-- Whether a LINK write is refused (R364, R392), whatever action it selects; writes on their way count. A counter with LACT = 0 has
no link (DEDUCED, log entry 67). -/
def linkRefused (s : State) (o : Byte) (k : Fin 24) (v : Word) : Bool :=
  let lact := fld v 14 12
  let tgt := fld v 7 0
  decide (5 < lact) || decide (fld v 11 10 = 3) || decide (tgt < 16 ∨ 39 < tgt) || decide (tgt = k.val + 16)
    || ((List.finRange 24).any fun j =>
          let c := (s.tim.counters[j]).now (s.cc + 1)
          decide (j ≠ k) && decide (c.lact ≠ 0) && decide (c.target = tgt))
    || linkReaches s (k.val + 16) 25 tgt || !s.claims o 2 tgt

/-! ## Timer registers (R356, R358, R392 to R394) -/

/-- The period of a port's timebase (R201). -/
def periodOf (n : Port) : Nat := if n.val < 12 then 150 else 600

/-- The phase offset of a port's timebase (R393). -/
def offsetOf (n : Port) : Nat :=
  match n.val with
  | 0 => 0 | 1 => 38 | 2 => 75 | 3 => 113 | 4 => 13 | 5 => 51 | 6 => 88 | 7 => 126
  | 8 => 25 | 9 => 63 | 10 => 100 | 11 => 138 | 12 => 0 | 13 => 150 | 14 => 300 | _ => 450

/-- A cherry pair with a CTL write performed that lands at cc t or before (R315, R394): a pair disabled or turned round forgets the
edge it had. -/
def Cherry.now (c : Cherry) (t : Nat) : Cherry :=
  match c.due with
  | some (d, v) =>
    if d ≤ t then
      { c with ctl := v &&& 3, other := c.other && bitOf v 0 && decide (bitOf v 1 = bitOf c.ctl 1), due := none }
    else c
  | none => c

/-- Register i of channel ch, 0 where the channel lists none (R356, R392 to R394). -/
def timRead (s : State) (ch i : Nat) : Word :=
  if h : ch < 16 then
    let n : Port := ⟨ch, h⟩
    match i with
    | 0 => BitVec.ofNat 32 ((s.cc - (s.port n).st.startCc) % periodOf n)
    | 1 => BitVec.ofNat 32 (periodOf n)
    | 2 => BitVec.ofNat 32 (offsetOf n)
    | _ => 0
  else if h2 : ch < 40 then
    let c := s.counter ⟨ch - 16, by omega⟩
    match i with
    | 0 => placeB c.run 31 ||| placeB c.out 30 ||| c.ctl
    | 1 => c.count.setWidth 32
    | 2 => c.reload.setWidth 32
    | 3 => c.cmp.setWidth 32
    | 4 => c.link
    | 5 => placeB c.zerof 9 ||| placeB c.matchf 8 ||| c.zcnt.setWidth 32
    | _ => 0
  else if h3 : ch < 52 then
    let w := (s.port ⟨ch - 40, by omega⟩).wh
    match i with
    | 0 => placeB (bitOf w.angctl 31) 0
    | 1 => w.rise
    | 2 => w.fall
    | 3 => w.width
    | 4 => w.pulses.setWidth 32
    | _ => 0
  else if h4 : ch < 56 then
    let c := (s.tim.cherries[ch - 52]).now s.cc
    match i with
    | 0 => c.ctl
    | 1 => c.rise
    | 2 => c.fall
    | 3 => c.width
    | 4 => c.pulses.setWidth 32
    | _ => 0
  else 0

/-- Whether a channel lists a register (R356). -/
def timListed (ch i : Nat) : Bool :=
  if ch < 16 then decide (i < 3) else if ch < 40 then decide (i < 6) else decide (ch < 56) && decide (i < 5)

/-- Whether a write of a listed channel register by an owner is refused (R315, R358, R359, R361, R364). -/
def timRefused (s : State) (o : Byte) (ch i : Nat) (v : Word) : Bool :=
  !timListed ch i || !s.claims o 2 ch ||
    (match counterOf ch with
    | none => decide (ch < 52)
    | some k =>
      let c := s.counter k
      match i with
      | 0 => c.run || decide (fld v 17 16 = 3) || decide (fld v 12 11 = 3) || decide (fld v 9 8 = 3)
      | 1 => c.run
      | 4 => linkRefused s o k v
      | _ => false)

/-- A write of a channel register that is not refused and takes effect in cc t (R315). -/
def timWrite (t ch i : Nat) (v : Word) (s : State) : State :=
  match counterOf ch with
  | some k => askCounter k t (.write i v) s
  | none =>
    if h : 52 ≤ ch ∧ ch < 56 ∧ i = 0 then
      let k : Fin 4 := ⟨ch - 52, by omega⟩
      { s with tim := { s.tim with cherries := s.tim.cherries.set k { (s.tim.cherries[k]).now s.cc with due := some (t, v) } } }
    else s

/-- Whether a TIM.CMD is refused (R314, R315, R358). -/
def timCmdRefused (s : State) (o : Byte) (ch cmd : Nat) : Bool :=
  (counterOf ch).isNone || !s.claims o 2 ch || decide (cmd = 0) || decide (3 < cmd)

/-- A TIM.CMD that is not refused: START, STOP or FORCE_RELOAD (R314), in the cc after issue (R358). -/
def timCmd (ch cmd : Nat) (s : State) : State :=
  match counterOf ch with
  | none => s
  | some k =>
    if cmd = 1 then askCounter k (s.cc + 1) .start s
    else if cmd = 2 then askCounter k (s.cc + 1) .stop s
    else if cmd = 3 then askCounter k (s.cc + 1) .reload s
    else s

/-! ## Cherry pairs on general inputs (R369, R370) -/

/-- CHERRY_CAPTURE (R369): RISE or FALL takes G.TBASE; at the edge that ends a pulse whose other edge was captured with
EN = 1, WIDTH and PULSES follow; the bound wait lines fire (R371). -/
def execCherryCapture (k : Fin 4) (rising : Bool) (t : Nat) (s : State) : Out :=
  let s0 := s.at t
  let c := (s0.tim.cherries[k]).now s0.cc
  if bitOf c.ctl 0 && giLive s0 k then
    let now : Word := BitVec.ofNat 32 s0.cc
    let c1 := if rising then { c with rise := now } else { c with fall := now }
    let ends := decide (rising = !bitOf c.ctl 1)
    let pulse := ends && c.other
    let c2 := if pulse then
        { c1 with width := if rising then c1.rise - c1.fall else c1.fall - c1.rise, pulses := c1.pulses + 1 }
      else c1
    let c3 := { c2 with other := !ends }
    let s1 := { s0 with tim := { s0.tim with cherries := s0.tim.cherries.set k c3 } }
    let s2 := fireBound (52 + k.val) (if rising then 3 else 4) s1
    done (if pulse then fireBound (52 + k.val) 5 s2 else s2)
  else done s0

/-! ## SYNC_IN and SYNC_OUT (R31, R77, R368) -/

/-- SYNC_OUT is high (R31, R77): a 2.00 MHz square wave whose rising edge marks the start of port 0's period, high for its first
half (DEDUCED, log entry 97). -/
def State.syncOut (s : State) : Bool := decide ((s.cc - (s.port 0).st.startCc) % 150 < 75)

/-- The cc of the sending hub's last SYNC_OUT rising edge while the hub is locked to it (R31, R368): 19 cc before its own W0 period
start. -/
def State.syncInEdge (s : State) : Option Nat := if s.tim.lock then some ((s.port 0).st.startCc - 19) else none

/-- SYNC_ACQUISITION: eight good edges in a row begin acquisition. -/
def execSyncAcquisition (s : State) : Out :=
  if s.tim.syncEn && !s.tim.lock then done { s with tim := { s.tim with acq := true } } else done s

/-- SYNC_LOCK: W0's period start lies within 1 cc of its place. -/
def execSyncLock (s : State) : Out :=
  if s.tim.syncEn && s.tim.acq then done { s with tim := { s.tim with acq := false, lock := true } } else done s

/-- SYNC_LOSS: LOCK clears and LOSSCNT counts; a new lock needs a new acquisition. -/
def execSyncLoss (s : State) : Out :=
  if s.tim.lock then
    done { s with tim := { s.tim with acq := false, lock := false, losscnt := satInc s.tim.losscnt } }
  else done { s with tim := { s.tim with acq := false } }

end Sys2Proof.Machine
end

