-- ==== Sys2Proof/Machine/Wheel.lean ====
section
/-! DEFINITION. Wheel trackers, the pip scheduler and burst windows (R376 to R391, R396). -/

namespace Sys2Proof.Machine

/-! ## Angles (R376, R378, R380) -/

/-- ANGCTL.EN. -/
def WheelSt.en (w : WheelSt) : Bool := bitOf w.angctl 31
/-- ANGCTL.TEETH. -/
def WheelSt.teeth (w : WheelSt) : Nat := fld w.angctl 23 16
/-- ANGCTL.MINRATE. -/
def WheelSt.minrate (w : WheelSt) : Nat := fld w.angctl 15 0
/-- PMAX in cc (R380). -/
def WheelSt.pmax (w : WheelSt) : Nat := 3000000000 / w.minrate
/-- TINT in cc (R396). -/
def WheelSt.tintCc (w : WheelSt) : Nat := (fld w.angtint 13 0) * 300000

/-- base(k) = 65536 k / N, rounded half up (R376). -/
def toothBase (teeth k : Nat) : Nat := (2 * 65536 * k + teeth) / (2 * teeth)

/-- The tooth angle with its interpolation (R378): e cc after the leading edge of tooth TPOS. -/
def WheelSt.toothTu (w : WheelSt) (e : Nat) : Nat :=
  let b := toothBase w.teeth w.tpos
  let b1 := toothBase w.teeth (w.tpos + 1)
  if w.angper.toNat = 0 then b else min (b + (b1 - b) * e / w.angper.toNat) (b1 - 1)

/-- cc since the last leading edge captured, modulo 2^32 (R378). -/
def WheelSt.sinceLead (w : WheelSt) (cc : Nat) : Nat := (BitVec.ofNat 32 cc - w.fall).toNat

/-- P[n].ANGLE: turn and position; 0 in OFF (R380, R396). -/
def WheelSt.angle (w : WheelSt) : Word :=
  if w.mode = .off then 0 else place w.turn.toNat 16 ||| w.tu.setWidth 32

/-- Whether the angle follows the teeth: ANGLE mode, or SUSP entered from it (R380). -/
def WheelSt.byTeeth (w : WheelSt) : Bool :=
  decide (w.mode = .angle) || (decide (w.mode = .susp) && decide (w.before = .angle))

/-! ## The pip table (R382) -/

/-- Address of entry e. -/
def pipAddr (e : Nat) : Nat := 0x3000B800 + 8 * e

/-- Word 0 of entry e. -/
def pipW0 (s : State) (e : Nat) : Word := memWord s.mem (pipAddr e)

/-- Word 1 of entry e. -/
def pipW1 (s : State) (e : Nat) : Word := memWord s.mem (pipAddr e + 4)

/-- Word 0 fields. -/
def pipAngleOf (w0 : Word) : Nat := fld w0 31 16
/-- WHEEL. -/
def pipWheel (w0 : Word) : Nat := fld w0 15 12
/-- ACTION. -/
def pipAction (w0 : Word) : Nat := fld w0 11 8
/-- ARG. -/
def pipArg (w0 : Word) : Nat := fld w0 7 0
/-- LAST of word 1. -/
def pipLast (w1 : Word) : Nat := fld w1 29 22

/-- Writes word 1 of entry e. -/
def setPipW1 (e : Nat) (w : Word) (s : State) : State := { s with mem := memWriteWord s.mem (pipAddr e + 4) w }

/-- What an entry was before this cc, where PIP.ARM or PIP.DIS has changed it in this cc (R319). -/
def pipShadow (s : State) (e : Fin 256) : Option PipShadow :=
  if s.tim.pipOldCc = s.cc then s.tim.pipOld.find? fun x => decide (x.entry = e) else none

/-- The two words under which entry e fires in this cc (R319). -/
def pipSeen (s : State) (e : Fin 256) : Word × Word :=
  match pipShadow s e with
  | some x => (x.w0, x.w1)
  | none => (pipW0 s e.val, pipW1 s e.val)

/-- Keeps what entry e was before this cc (R319). -/
def keepShadow (e : Fin 256) (rewritten : Bool) (s : State) : State :=
  let l := if s.tim.pipOldCc = s.cc then s.tim.pipOld else []
  let x : PipShadow := match l.find? fun x => decide (x.entry = e) with
    | some x => { x with rewritten := x.rewritten || rewritten }
    | none => { entry := e, w0 := pipW0 s e.val, w1 := pipW1 s e.val, rewritten := rewritten }
  { s with tim := { s.tim with pipOldCc := s.cc, pipOld := x :: l.filter fun x => decide (x.entry ≠ e) } }

/-- Whether PIP.ARM has rewritten entry e in this cc: what a firing keeps of the old contents is lost then (R319). -/
def pipRewritten (s : State) (e : Fin 256) : Bool := (pipShadow s e).any fun x => x.rewritten

/-- Sets LAST of entry e. -/
def setPipLast (e turn : Nat) (s : State) : State := setPipW1 e (setFld (pipW1 s e) 29 22 (turn % 256)) s

/-- The armed entries of wheel n. -/
def armedOf (s : State) (n : Nat) : List (Fin 256) :=
  (List.finRange 256).filter fun e => bitOf (pipW1 s e.val) 31 && decide (pipWheel (pipW0 s e.val) = n)

/-- Puts an entry into its place by ascending angle, then index. -/
def insertByAngle (s : State) (e : Fin 256) : List (Fin 256) → List (Fin 256)
  | [] => [e]
  | x :: xs =>
    if pipAngleOf (pipW0 s e.val) < pipAngleOf (pipW0 s x.val) then e :: x :: xs else x :: insertByAngle s e xs

/-- Entries in ascending angle. -/
def byAngle (s : State) (l : List (Fin 256)) : List (Fin 256) := l.foldl (fun acc e => insertByAngle s e acc) []

/-- Puts entries into the sweep queue (R385): LAST is set at once; entries beyond its 32 places are skipped for the turn,
counted, and fire event 142. -/
def enqueue (n : Port) (items : List (Fin 256 × Nat × Bool)) (late : Bool) (s : State) : State :=
  let s1 := items.foldl (fun t x => setPipLast x.1.val x.2.1 t) s
  let room := 32 - s.tim.queue.length
  let put := (items.take room).map fun x => { entry := x.1, late := late, crossed := x.2.2 : SweepItem }
  let lost := items.length - room
  let s2 := { s1 with tim := { s1.tim with queue := s1.tim.queue ++ put, ovfcnt := satAdd s1.tim.ovfcnt lost } }
  if lost = 0 then s2 else s2.fire 142 (n.val + 256 * lost)

/-- The turn count has risen by continuous advance (R385): every entry still undue in the old turn is queued. -/
def sweepTurn (n : Port) (oldTurn : Nat) (s : State) : State :=
  let es := byAngle s ((armedOf s n.val).filter fun e => decide (pipLast (pipW1 s e.val) ≠ oldTurn % 256))
  enqueue n (es.map fun e => (e, oldTurn, false)) false s

/-- A forward jump from (oldTurn, oldTu) to the wheel's present angle (R385): every entry crossed is queued, late; an OPEN
whose CLOSE is crossed by the same jump carries that mark (R388). -/
def sweepJump (n : Port) (oldTurn oldTu : Nat) (s : State) : State :=
  let w := (s.port n).wh
  let newTurn := w.turn.toNat
  let armed := armedOf s n.val
  let unfired (t : Nat) (e : Fin 256) : Bool := decide (pipLast (pipW1 s e.val) ≠ t % 256)
  let ang (e : Fin 256) : Nat := pipAngleOf (pipW0 s e.val)
  let old :=
    if newTurn = oldTurn then
      armed.filter fun e => unfired oldTurn e && decide (oldTu < ang e) && decide (ang e ≤ w.tu.toNat)
    else armed.filter fun e => unfired oldTurn e
  let new := if newTurn = oldTurn then [] else armed.filter fun e => decide (ang e ≤ w.tu.toNat)
  let es := ((byAngle s old).map fun e => (e, oldTurn)) ++ ((byAngle s new).map fun e => (e, newTurn))
  let closes := es.any fun x => decide (pipAction (pipW0 s x.1.val) = 2)
  enqueue n (es.map fun x => (x.1, x.2, closes)) true s

/-! ## Moving the angle (R377 to R381) -/

/-- Moves TPOS one tooth forward. While the angle follows the teeth a wrap raises the turn count (R378). -/
def stepForward (n : Port) (s : State) : State :=
  let w := (s.port n).wh
  let wrap := decide (w.teeth ≤ w.tpos + 1)
  let tpos := if wrap then 0 else w.tpos + 1
  let s1 := s.updWh n fun w =>
    { w with tpos := tpos, tu := if w.byTeeth then BitVec.ofNat 16 (toothBase w.teeth tpos) else w.tu
             turn := if w.byTeeth && wrap then w.turn + 1 else w.turn }
  if w.byTeeth && wrap then sweepTurn n w.turn.toNat s1 else s1

/-- Moves TPOS one tooth backward; a backward jump fires nothing (R385). -/
def stepBackward (n : Port) (s : State) : State :=
  s.updWh n fun w =>
    let wrap := decide (w.tpos = 0)
    let tpos := if wrap then w.teeth - 1 else w.tpos - 1
    { w with tpos := tpos, tu := if w.byTeeth then BitVec.ofNat 16 (toothBase w.teeth tpos) else w.tu
             turn := if w.byTeeth && wrap then w.turn - 1 else w.turn }

/-- Records a jump of the angle (R379, R396). -/
def recordJump (n : Port) (j : Int) (s : State) : State :=
  s.updWh n fun w => { w with angjump := BitVec.ofInt 32 j }

/-- The mode the wheel should hold (R380): ANGLE while SYNC = 1, not suspended, and the last two forward periods are each
at most 0.9 PMAX. -/
def WheelSt.wanted (w : WheelSt) (susp : Bool) : WheelMode :=
  if !w.en then .off
  else if susp then .susp
  else if w.sync && decide (w.runs.length = 2) && w.runs.all (fun p => decide (10 * p ≤ 9 * w.pmax)) then .angle
  else .time

/-- Moves the wheel to a mode (R381, R391): into TIME the synthetic angle starts from the present angle; from TIME, or SUSP
entered from it, into ANGLE the angle takes the tooth angle, one turn on if that lies behind; into SUSP or OFF an open window
closes by force. -/
def setWheelMode (n : Port) (m : WheelMode) (s : State) : State :=
  let w := (s.port n).wh
  if w.mode = m then s
  else
    match m with
    | .time =>
      s.updWh n fun w =>
        { w with mode := .time, synthCc := s.cc, synthRem := 0, turn := if w.mode = .off then 0 else w.turn
                 tu := if w.mode = .off then 0 else w.tu }
    | .angle =>
      if w.byTeeth then s.updWh n fun w => { w with mode := .angle }
      else
        let tu := w.toothTu (w.sinceLead s.cc)
        let up := decide (tu < w.tu.toNat)
        let s1 := s.updWh n fun w =>
          { w with mode := .angle, tu := BitVec.ofNat 16 tu, turn := if up then w.turn + 1 else w.turn }
        let j : Int := (tu : Int) - w.tu.toNat + (if up then 65536 else 0)
        if j = 0 then s1 else sweepJump n w.turn.toNat w.tu.toNat (recordJump n j s1)
    | .susp => forcedClose n (s.updWh n fun w => { w with mode := .susp, before := w.mode })
    | .off => forcedClose n (s.updWh n fun w => { w with mode := .off, turn := 0, tu := 0 })

/-- The index tooth (R379). In a SUSP entered from ANGLE mode the angle follows the teeth and jumps as in ANGLE mode (DEDUCED, log
entry 68). -/
def resync (n : Port) (s : State) : State :=
  let w := (s.port n).wh
  if w.sync = false then
    s.updWh n fun w => { w with tpos := 0, sync := true, sinceIndex := 0, resync := satInc w.resync }
  else if w.tpos = 0 then s.updWh n fun w => { w with sinceIndex := 0 }
  else
    let fwd := decide (w.teeth / 2 ≤ w.tpos)
    let s1 := s.updWh n fun w => { w with tpos := 0, sinceIndex := 0, resync := satInc w.resync }
    if w.byTeeth then
      let s2 := s1.updWh n fun w => { w with tu := 0, turn := if fwd then w.turn + 1 else w.turn }
      if fwd then sweepJump n w.turn.toNat w.tu.toNat (recordJump n (65536 - w.tu.toNat) s2)
      else recordJump n (-(w.tu.toNat : Int)) s2
    else s1

/-- TONE_LEADING_EDGE (R221, R369, R377): nothing while the receiver's VALID is 0; FALL takes G.TBASE and TPOS advances one tooth in the last direction. -/
def execToneLeadingEdge (n : Port) (t : Nat) (s : State) : Out :=
  let s0 := s.at t
  let w := (s0.port n).wh
  if isW n && s0.has n && w.en && w.tone.valid then
    let s1 := fireBound (40 + n.val) 4 (s0.updWh n fun w => { w with fall := BitVec.ofNat 32 s0.cc, fallSeen := true })
    done (if w.dir then stepBackward n s1 else stepForward n s1)
  else done s0

/-- A tooth classified forward or index (R377, R379, R380). -/
def toothForward (n : Port) (index : Bool) (s : State) : State :=
  let w := (s.port n).wh
  let s1 :=
    if w.dir then (stepForward n (stepForward n s)).updWh n fun w => { w with angper := 0, dir := false }
    else
      match w.lastLead with
      | none => s
      | some l =>
        let p := w.fall.toNat + (if w.fall.toNat < l then 2 ^ 32 else 0) - l
        s.updWh n fun w =>
          { w with angper := BitVec.ofNat 32 p, gapped := false,
                   runs := (if w.gapped then [] else w.runs.drop (w.runs.length - 1)) ++ [p] }
  let s2 := s1.updWh n fun w => { w with lastLead := some w.fall.toNat }
  if index then resync n s2
  else s2.updWh n fun w =>
    { w with sinceIndex := w.sinceIndex + 1, sync := w.sync && decide (w.sinceIndex + 1 < 2 * w.teeth) }

/-- A tooth classified reverse (R377). -/
def toothReverse (n : Port) (s : State) : State :=
  let w := (s.port n).wh
  let s1 := if w.dir then s else (stepBackward n (stepBackward n s)).updWh n fun w => { w with angper := 0 }
  s1.updWh n fun w => { w with dir := true, gapped := true }

/-- An invalid pulse: the provisional step is undone (R377). -/
def toothInvalid (n : Port) (s : State) : State :=
  let w := (s.port n).wh
  let s1 := if w.dir then stepForward n s else stepBackward n s
  s1.updWh n fun w => { w with angper := 0, gapped := true, errcnt := satInc w.errcnt }

/-- TONE_TRAILING_EDGE (R221, R369, R377, R379 to R381): nothing while the receiver's VALID is 0; RISE, WIDTH and PULSES; the pulse is classified by its width and moves
the tracker; the mode follows. -/
def execToneTrailingEdge (n : Port) (t : Nat) (s : State) : Out :=
  let s0 := s.at t
  let w := (s0.port n).wh
  if isW n && s0.has n && w.en && w.tone.valid then
    let now : Word := BitVec.ofNat 32 s0.cc
    let s1 := fireBound (40 + n.val) 3 (s0.updWh n fun w => { w with rise := now })
    if w.fallSeen then
      let width := (now - w.fall).toNat
      let s2 := fireBound (40 + n.val) 5 (s1.updWh n fun w =>
        { w with width := now - w.fall, pulses := w.pulses + 1, fallSeen := false })
      if 12000 ≤ width ∧ width ≤ 18000 then
        let s3 := toothForward n false s2
        done (setWheelMode n ((s3.port n).wh.wanted false) s3)
      else if 54000 ≤ width ∧ width ≤ 66000 then
        let s3 := toothForward n true s2
        done (setWheelMode n ((s3.port n).wh.wanted false) s3)
      else if 27000 ≤ width ∧ width ≤ 33000 then
        done (setWheelMode n .susp (toothReverse n s2))
      else
        let s3 := toothInvalid n s2
        done (setWheelMode n ((s3.port n).wh.wanted (decide (w.mode = .susp))) s3)
    else done s1
  else done s0

/-- Whether an ANGCTL write is refused as reserved (R396). -/
def angctlReserved (s : State) (n : Port) (v : Word) : Bool :=
  !isW n || !s.has n || decide (fld v 23 16 < 8) || decide (fld v 15 0 = 0)
    || ((s.port n).wh.en && decide (fld v 23 16 ≠ (s.port n).wh.teeth))

/-- TPOS without the provisional step of a pulse that has begun and will not count (R369, R377). -/
def WheelSt.undone (w : WheelSt) : Nat :=
  if !w.fallSeen then w.tpos
  else if w.dir then (if w.teeth ≤ w.tpos + 1 then 0 else w.tpos + 1)
  else if w.tpos = 0 then w.teeth - 1 else w.tpos - 1

/-- An ANGCTL write that is not refused (R369, R377, R379 to R381): EN set starts TIME mode at angle 0; EN cleared ends SYNC, takes back
the step of a pulse under way and closes an open window by force. -/
def angctlApply (n : Port) (v : Word) (s : State) : State :=
  let was := (s.port n).wh.en
  let s1 := s.updWh n fun w => { w with angctl := v &&& 0x80FFFFFF }
  if was = bitOf v 31 then s1
  else
    setWheelMode n (if bitOf v 31 then .time else .off) (s1.updWh n fun w =>
      { w with sync := false, tpos := w.undone, fallSeen := false, lastLead := none, runs := [], gapped := false, sinceIndex := 0 })

/-- ANGCTL_WRITE (R396). -/
def execAngctlWrite (n : Port) (w : Writer) (v : Word) (s : State) : Out :=
  if angctlReserved s n v then done (s.refuseWrite w 2) else done (angctlApply n v s)

/-- ANGLE_MODE_TIMEOUT (R380): no forward leading edge for PMAX. -/
def execAngleModeTimeout (n : Port) (s : State) : Out :=
  if (s.port n).wh.mode = .angle then
    done (setWheelMode n .time (s.updWh n fun w => { w with runs := [] }))
  else done s

/-- SUSP_TIMEOUT (R381): no tooth for TINT in SUSP. -/
def execSuspTimeout (n : Port) (s : State) : Out :=
  if (s.port n).wh.mode = .susp then
    done (setWheelMode n .time (s.updWh n fun w => { w with runs := [] }))
  else done s

/-- ANGLE_UPDATE (R378, R380, R385): the angle is recomputed, in ANGLE mode by interpolation, in TIME mode by 65536 tu per
TINT; a rise of the turn count sweeps the old turn's entries. -/
def execAngleUpdate (n : Port) (t : Nat) (s : State) : Out :=
  let s0 := s.at t
  let w := (s0.port n).wh
  match w.mode with
  | .angle => done (s0.updWh n fun w => { w with tu := BitVec.ofNat 16 (w.toothTu (w.sinceLead s0.cc)) })
  | .time =>
    let num := (s0.cc - w.synthCc) * 65536 + w.synthRem
    let a := w.turn.toNat * 65536 + w.tu.toNat + num / w.tintCc
    let s1 := s0.updWh n fun w =>
      { w with synthCc := s0.cc, synthRem := num % w.tintCc, tu := BitVec.ofNat 16 a,
               turn := BitVec.ofNat 16 (a / 65536) }
    done (if a / 65536 = w.turn.toNat then s1 else sweepTurn n w.turn.toNat s1)
  | _ => done s0

/-! ## Burst windows (R388 to R391) -/

/-- Whether the line is free for a mark (R123): no frame, NOD or mark is sent, none is received and no NOD awaited. -/
def LineSt.freeForMark (l : LineSt) : Bool := (decide (l.phase = .idle) || decide (l.phase = .retryWait)) && !l.receiving

/-- A burst skipped late (R388, R389): SKIPLATE counts and event 141 fires. -/
def skipLate (n : Port) (s : State) : State :=
  (s.updWh n fun w => { w with skipLate := satInc w.skipLate }).fire 141 (n.val + 16)

/-- A granted profile arms at the first opening pip, whether or not that pip's burst is skipped (R169). -/
def armProfile (n : Port) (s : State) : State := s.updCt n fun c => { c with prof := c.profGranted }

/-- An OPEN pip on port n (R388): the checks in order, then the window opens. -/
def openPip (n : Port) (late crossed : Bool) (s0 : State) : State :=
  let p := s0.port n
  let s := armProfile n s0
  if bitOf p.ripe.burstctl 31 = false then s0
  else if p.wh.burstOpen ∨ p.cf.attach ≠ .attachedSrc ∨ bitOf p.ln.linectl 0 = false ∨ p.st.mode = .off
      ∨ p.st.force ≠ [] then
    s.updWh n fun w => { w with skipState := satInc w.skipState }
  else if late ∧ crossed then skipLate n s
  else if s.led.tokens ≤ s.led.tokout ∨ s.led.cut = true then
    (s.updWh n fun w => { w with skipTok := satInc w.skipTok }).fire 143 n.val
  else
    let s1 := { s with led := { s.led with tokout := s.led.tokout + 1 } }
    let s2 := s1.updWh n fun w =>
      { w with burstOpen := true, token := true, markPend := true, tmaxRun := true, opens := w.opens + 1 }
    let s3 := s2.updSt n fun t => t.setBurst s.cc true
    s3.updLn n fun l => { l with mark := some { isOpen := true, turn := p.wh.turn.setWidth 6 } }

/-- A CLOSE pip on port n (R389, R390): an open window closes with a CLOSE mark if the line is free; while the OPEN mark
still waits, the burst is skipped instead. While the OPEN mark is on the line the line is not free, and no CLOSE mark follows
(DESIGN CHOICE, log entry 98). -/
def closePip (n : Port) (s : State) : State :=
  let p := s.port n
  if p.wh.burstOpen = false then s
  else if p.wh.markPend then skipLate n (closeWindow n s)
  else
    let s1 := closeWindow n s
    if p.ln.freeForMark then
      s1.updLn n fun l => { l with mark := some { isOpen := false, turn := p.wh.turn.setWidth 6 } }
    else s1

/-- A NOTIFY pip (R387, R395): the wait source and G.PIPNOTEc of the core named. -/
def notifyPip (n : Port) (e : Fin 256) (arg : Nat) (late : Bool) (s : State) : State :=
  if h : arg % 4 < 3 then
    let c : Core := ⟨arg % 4 + 4, by omega⟩
    let old := s.tim.pipnote[arg % 4]
    let w : Word := place ((fld old 23 16 + 1) % 256) 16 ||| placeB late 15
      ||| place ((s.port n).wh.turn.toNat % 64) 8 ||| place e.val 0
    { s with tim := { s.tim with pipnote := s.tim.pipnote.set (arg % 4) w } }.fireSrc c (if c = coreSV then 16 else 15)
  else s

/-- LATE and FIRES of an entry that fires (R384, R385). -/
def countFiring (e : Fin 256) (late : Bool) (s : State) : State :=
  let w1 := pipW1 s e.val
  if pipRewritten s e then s
  else setPipW1 e.val (setFld (setFld w1 30 30 (b2n late)) 15 0 ((fld w1 15 0 + 1) % 65536)) s

/-- The action of entry e with word 0 w0 (R387). -/
def pipAct (e : Fin 256) (w0 : Word) (late crossed : Bool) (s : State) : State :=
  let s2 := if late then { s with tim := { s.tim with latecnt := satInc s.tim.latecnt } }.fire 141 (pipWheel w0) else s
  let n : Port := ⟨pipWheel w0 % 16, by omega⟩
  match pipAction w0 with
  | 1 => openPip n late crossed s2
  | 2 => closePip n s2
  | 3 => notifyPip n e (pipArg w0) late s2
  | 4 => match counterOf (pipArg w0) with
    | some k => startCounter k s2
    | none => s2
  | 5 => match counterOf (pipArg w0) with
    | some k => forceReload k s2
    | none => s2
  | 6 => match counterOf (pipArg w0) with
    | some k => stopCounter k s2
    | none => s2
  | _ => s2

/-- A pip fires under the contents its entry had before this cc (R319, R384, R385): its count and its action; an entry that was
disarmed in an earlier cc does not. -/
def firePip (e : Fin 256) (late crossed : Bool) (s : State) : State :=
  let x := pipSeen s e
  if bitOf x.2 31 then pipAct e x.1 late crossed (countFiring e late s) else s

/-- Whether entry e is due (R319, R384): armed, its wheel in ANGLE or TIME mode, not yet fired in this turn, its angle reached,
and no entry of its wheel waiting in the sweep queue (R385). -/
def pipDue (s : State) (e : Fin 256) : Bool :=
  let w0 := (pipSeen s e).1
  let w1 := (pipSeen s e).2
  let w := (s.port ⟨pipWheel w0 % 16, by omega⟩).wh
  bitOf w1 31 && decide (pipWheel w0 < 12) && (decide (w.mode = .angle) || decide (w.mode = .time))
    && decide (pipLast w1 ≠ w.turn.toNat % 256) && decide (pipAngleOf w0 ≤ w.tu.toNat)
    && !(s.tim.queue.any fun q => decide (pipWheel (pipSeen s q.entry).1 = pipWheel w0))

/-- PIP_FIRE (R384): a due entry fires; LAST takes the wheel's turn bits. -/
def execPipFire (e : Fin 256) (s : State) : Out :=
  if pipDue s e then
    let w := (s.port ⟨pipWheel (pipSeen s e).1 % 16, by omega⟩).wh
    done (firePip e false false (if pipRewritten s e then s else setPipLast e.val w.turn.toNat s))
  else done s

/-- SWEEP_QUEUE_EXECUTE (R385): the oldest entry leaves the queue and its action executes. -/
def execSweepQueueExecute (s : State) : Out :=
  match s.tim.queue with
  | [] => done s
  | q :: qs => done (firePip q.entry q.late q.crossed { s with tim := { s.tim with queue := qs } })

/-- TOKEN_RETURN (R37, R167, R168): the token goes back to the pool; a tokpwr that waited for it ends, with the grant record
written. -/
def execTokenReturn (n : Port) (s : State) : Out :=
  let p := s.port n
  if p.wh.returning then
    let s1 := { s with led := { s.led with tokout := s.led.tokout - 1 } }.updWh n fun w =>
      { w with returning := false, token := w.burstOpen }
    match p.ct.tokAfter with
    | some t =>
      if p.wh.burstOpen then done s1
      else
        let s2 := { s1 with led := { s1.led with tokpwr := s1.led.tokpwr.set n t } }.updCt n fun c => { c with tokAfter := none }
        done (ledgerAct (writeGrant n s2.led.held[n] s2.led.held[n] s2))
    | none => done s1
  else done s

/-- BURST_TOL_EXPIRY (R389): the OPEN mark has not started by TOL: the burst is skipped. -/
def execBurstTolExpiry (n : Port) (s : State) : Out :=
  let w := (s.port n).wh
  if w.burstOpen && w.markPend then done (skipLate n (closeWindow n s)) else done s

/-- BURST_TMAX_EXPIRY (R390): the clamp returns to ILIMPK, the window keeps its token. -/
def execBurstTmaxExpiry (n : Port) (s : State) : Out :=
  let w := (s.port n).wh
  if w.burstOpen && w.tmaxRun then
    done ((s.updWh n fun w => { w with tmaxRun := false }).updSt n fun t => t.setBurst s.cc false)
  else done s

/-! ## Arming and disarming (R318, R383, R391) -/

/-- Whether a PIP.ARM by core c is refused (R318, R383, R387). -/
def pipArmRefused (s : State) (c : Core) (e : Fin 256) (w0 v : Word) : Bool :=
  let o := ownerOf (.core c)
  let wheel := pipWheel w0
  let act := pipAction w0
  let arg := pipArg w0
  !s.claims o 6 e.val || decide (11 < wheel) || !s.has ⟨wheel, by unfold wheel pipWheel fld; omega⟩
    || decide (act = 0 ∨ 6 < act)
    || (decide (act = 1 ∨ act = 2) && (decide (arg ≠ 0) || decide (c ≠ corePC0)))
    || (decide (act = 3) && decide (3 ≤ arg))
    || (decide (4 ≤ act) && (decide (arg < 16 ∨ 39 < arg) || !s.claims o 2 arg))
    || (bitOf v 31 && decide (act = 1 ∨ act = 2)
        && (armedOf s wheel).any fun x => decide (x ≠ e) && decide (pipAction (pipW0 s x.val) = act))

/-- The forced close that the disarming of an armed CLOSE entry brings (R391). -/
def closeDisarmed (w0 w1 : Word) (s : State) : State :=
  if bitOf w1 31 ∧ pipAction w0 = 2 then forcedClose ⟨pipWheel w0 % 16, by omega⟩ s else s

/-- A PIP.ARM that is not refused (R319, R383). -/
def pipArm (e : Fin 256) (w0 v : Word) (s0 : State) : State :=
  let s := keepShadow e true s0
  let w := (s.port ⟨pipWheel w0 % 16, by omega⟩).wh
  let last := if pipAngleOf w0 ≤ w.tu.toNat then w.turn.toNat else w.turn.toNat + 65535
  let old0 := pipW0 s e.val
  let old1 := pipW1 s e.val
  let s1 := { s with mem := memWriteWord s.mem (pipAddr e.val) w0 }
  let s2 := setPipW1 e.val (placeB (bitOf v 31) 31 ||| place (last % 256) 22) s1
  if bitOf v 31 ∧ pipAction w0 = 2 ∧ pipWheel w0 = pipWheel old0 then s2 else closeDisarmed old0 old1 s2

/-- A PIP.DIS that is not refused (R318, R319, R391). -/
def pipDis (e : Fin 256) (s0 : State) : State :=
  let s := keepShadow e false s0
  let w1 := pipW1 s e.val
  closeDisarmed (pipW0 s e.val) w1 (setPipW1 e.val (setFld w1 31 31 0) s)

/-- The tracker's prediction of the next opening pip in cc (R381). -/
def nextOpenPip (s : State) (n : Port) : Option Nat :=
  let w := (s.port n).wh
  match (armedOf s n.val).find? fun e => decide (pipAction (pipW0 s e.val) = 1) with
  | none => none
  | some e =>
    let a := pipAngleOf (pipW0 s e.val)
    let d := if w.tu.toNat < a then a - w.tu.toNat else 65536 + a - w.tu.toNat
    match w.mode with
    | .angle => if w.angper = 0 then none else some (d * w.teeth * w.angper.toNat / 65536)
    | .time => some (d * w.tintCc / 65536)
    | _ => none

end Sys2Proof.Machine
end

