-- ==== Sys2Proof/Machine/Rings.lean ====
section
/-! DEFINITION. Contexts, frames and the message rings in shared SRAM (R112 to R117, R127 to R136, R146). -/

namespace Sys2Proof.Machine

/-! ## Frames (R112, R113, R116) -/

/-- The context an addressee byte names (R113): none where the class is reserved or [3:0] is not 0. -/
def contextOf (a : Byte) : Option Nat :=
  let h := fld a 7 4
  if fld a 3 0 ≠ 0 then none else if 1 ≤ h ∧ h ≤ 4 then some (h - 1) else if 8 ≤ h then some (h - 4) else none

/-- Header fields (R113). -/
def hdrType (h : BitVec 16) : BitVec 5 := h.extractLsb' 11 5
/-- ID. -/
def hdrId (h : BitVec 16) : BitVec 3 := h.extractLsb' 8 3
/-- REV. -/
def hdrRev (h : BitVec 16) : Nat := fld h 5 4
/-- COUNT. -/
def hdrCount (h : BitVec 16) : Nat := fld h 3 0

/-- A header (R113). -/
def mkHdr (type : BitVec 5) (id : BitVec 3) (role csup : Bool) (count : Nat) : BitVec 16 :=
  BitVec.ofNat 16 (type.toNat * 2048 + id.toNat * 256 + b2n role * 128 + b2n csup * 64 + 16 + count % 16)

/-- The bytes a frame's CRC covers, in line order (R114). -/
def frameBytes (a : Byte) (h : BitVec 16) (objs : List Word) : List Byte :=
  a :: BitVec.ofNat 8 (h.toNat / 256) :: BitVec.ofNat 8 h.toNat :: objs.flatMap bytesBE

/-- The CRC of a frame (R114). -/
def frameCrc (a : Byte) (h : BitVec 16) (objs : List Word) : Word := crc32 (frameBytes a h objs)

/-- A defined message type (R116). -/
def typeDefined (t : BitVec 5) : Bool := decide (1 ≤ t.toNat ∧ t.toNat ≤ 0x11)

/-! ## Contexts (R129) -/

/-- Whether context c of a port is open: PART at attach, NEAR and FAR while the hub supplies CSUP and read a marker, SVC
and X0-X7 by CTXEN. -/
def PortSt.ctxOpen (p : PortSt) (c : Nat) : Bool :=
  p.cf.attached && (if c = 0 then true else if c ≤ 2 then p.cf.csupOn && p.cf.marker else bitOf p.ln.ctxen c)

/-! ## Entries (R135) -/

/-- Header of an entry. -/
def entryHdr (s : State) (a : Nat) : BitVec 16 := BitVec.ofNat 16 (memNat s.mem (a + 4) 2)

/-- Type of a TX entry. -/
def entryType (s : State) (a : Nat) : BitVec 5 := hdrType (entryHdr s a)

/-- The objects of an entry, as many as COUNT says. -/
def entryObjs (s : State) (a : Nat) : List Word :=
  (List.range (hdrCount (entryHdr s a))).map fun i => memWord s.mem (a + 12 + 4 * i)

/-- Delivers a received frame to the RX ring (R135, R136): the entry, COUNT, the RX event. The ring must have room. -/
def deliver (n : Port) (ctx : Nat) (f : FrameRx) (holdviol overtaken : Bool) (s : State) : State :=
  let l := (s.port n).ln
  let a := ringAddr (2 * n.val + 1) ((l.rxHead + l.rxCount) % 16)
  let ctl : BitVec 16 := BitVec.ofNat 16 (32768 + b2n holdviol * 16384 + b2n overtaken * 8192)
  let s1 := s.writeMem a (entryImage ctl ctx f.addr f.hdr s.timeUs f.objs f.crc)
  let s2 := s1.updLn n fun l =>
    { l with rxCount := l.rxCount + 1, holdviol := if holdviol then satInc l.holdviol else l.holdviol }
  s2.firePort n 5 ctx

/-- The oldest RX entry leaves the ring (R322, R514). -/
def popRx (n : Port) (s : State) : State :=
  s.updLn n fun l => { l with rxHead := (l.rxHead + 1) % 16, rxCount := l.rxCount - 1 }

/-! ## START frames and swaps (R127, R128, R146) -/

/-- Types that open a sequence, sent with START (R146). -/
def startType (t : BitVec 5) : Bool :=
  decide (t = 2 ∨ t = 3 ∨ t = 8 ∨ t = 9 ∨ t = 0xB ∨ t = 0xE)

/-- Whether a received frame is a START frame: its type is one sent with START and it is no answer within a sequence the
hub has opened (R127), which only context PART has. -/
def PortSt.startFrame (p : PortSt) (t : BitVec 5) : Bool :=
  startType t &&
    !(match p.ct.seq with
      | some q => (decide (q.kind = .capsOut) && decide (t = 3)) || (decide (q.kind = .getcapsOut) && decide (t = 2))
      | none => false)

/-- A swap request. -/
def isSwap (t : BitVec 5) : Bool := decide (t = 8 ∨ t = 9)

/-- Whether a swap request of the hub waits in the TX ring, not yet NODded (R128). -/
def swapPending (n : Port) (s : State) : List Nat :=
  (pendingTx n s).filter fun e => isSwap (entryType s (ringAddr (2 * n.val) e))

/-- Whether a swap the hub asked for is open (R128). -/
def PortSt.swapOpen (p : PortSt) : Bool :=
  match p.ct.seq with
  | some q => decide (q.kind = .pswapOut) || decide (q.kind = .sswapOut)
  | none => false

/-- Whether a swap the hub asked for is open and its request has been NODded (R128). -/
def PortSt.swapNodded (p : PortSt) : Bool := p.swapOpen && p.ct.seq.any fun q => q.nodded

end Sys2Proof.Machine
end

