-- ==== Sys2Proof/Machine/Contract.lean ====
section
/-! DEFINITION. Contracts, swaps and the ledger's commands (R138 to R187, R546, R547). The messages' answers are those the
manual gives; what it leaves to the policy program is an operand of the command (DESIGN CHOICE, log entry 14). -/

namespace Sys2Proof.Machine

/-! ## Message types (R116) -/

/-- CAPS. -/
abbrev tCaps : BitVec 5 := 2
/-- ASK. -/
abbrev tAsk : BitVec 5 := 3
/-- GRANT. -/
abbrev tGrant : BitVec 5 := 4
/-- DENY. -/
abbrev tDeny : BitVec 5 := 5
/-- WAIT. -/
abbrev tWait : BitVec 5 := 6
/-- READY. -/
abbrev tReady : BitVec 5 := 7
/-- PSWAP. -/
abbrev tPswap : BitVec 5 := 8
/-- SSWAP. -/
abbrev tSswap : BitVec 5 := 9
/-- ABORT. -/
abbrev tAbort : BitVec 5 := 0xA
/-- PROFILE. -/
abbrev tProfile : BitVec 5 := 0xB
/-- INFO. -/
abbrev tInfo : BitVec 5 := 0xC
/-- STATUS. -/
abbrev tStatus : BitVec 5 := 0xD
/-- GETCAPS. -/
abbrev tGetcaps : BitVec 5 := 0xE
/-- BYE. -/
abbrev tBye : BitVec 5 := 0x10

/-! ## Reading messages -/

/-- Object 0 of an answer, its reference object (R144). -/
def refWord (objs : List Word) : Word := objs.headD 0
/-- RTYPE. -/
def refType (objs : List Word) : BitVec 5 := (refWord objs).extractLsb' 27 5
/-- RID. -/
def refId (objs : List Word) : BitVec 3 := (refWord objs).extractLsb' 24 3
/-- ARG. -/
def refArg (objs : List Word) : Nat := fld (refWord objs) 15 0

/-- A sequence that a request of the hub opens. -/
def SeqKind.byHub (k : SeqKind) : Bool :=
  match k with
  | .capsOut | .getcapsOut | .askOut | .profileOut | .pswapOut | .sswapOut => true
  | .capsIn | .getcapsIn | .askIn | .profileIn | .pswapIn | .sswapIn => false

/-- Whether an answer belongs to the hub's open request (R149): its RTYPE and RID are those of the request. -/
def ContractSt.awaits (c : ContractSt) (rtype : BitVec 5) (rid : BitVec 3) : Bool :=
  match c.seq with
  | some q => q.kind.byHub && decide (q.rtype = rtype) && decide (q.rid = rid)
  | none => false

/-- Whether an answer belongs to the swap request of the hub that the source's request has overtaken (R179). -/
def ContractSt.overtook (c : ContractSt) (rtype : BitVec 5) (rid : BitVec 3) : Bool :=
  match c.ownSwap with
  | some q => decide (q.rtype = rtype) && decide (q.rid = rid)
  | none => false

/-- Whether a message belongs to the open sequence (R149): its RTYPE and RID are those of the request. -/
def ContractSt.answers (c : ContractSt) (rtype : BitVec 5) (rid : BitVec 3) : Bool :=
  match c.seq with
  | some q => decide (q.rtype = rtype) && decide (q.rid = rid)
  | none => false

/-- Kind of the open sequence. -/
def ContractSt.isSeq (c : ContractSt) (k : SeqKind) : Bool :=
  match c.seq with
  | some q => decide (q.kind = k)
  | none => false

/-- Phase of the open sequence. -/
def ContractSt.atPhase (c : ContractSt) (f : SeqPhase) : Bool :=
  match c.seq with
  | some q => decide (q.phase = f)
  | none => false

/-- Closes the open sequence. -/
def closeSeq (n : Port) (s : State) : State := (resumeDetach n s).updCt n fun c => { c with seq := none }

/-- Opens a sequence for a request that the port has received (R147). -/
def openSeq (n : Port) (k : SeqKind) (t : BitVec 5) (id : BitVec 3) (s : State) : State :=
  s.updCt n fun c => { c with seq := some { kind := k, rtype := t, rid := id, phase := .requested, nodded := true } }

/-- The last request counts no WAITs any more and goes out no more by itself (R158). -/
def clearWait (n : Port) (s : State) : State :=
  s.updCt n fun c => { c with waiting := c.waiting.filter fun w => decide (¬ (w.type = c.lastType ∧ w.objs = c.lastReq)) }

/-- Whether an answer that carries a reference object alone has its layout (R146). -/
def refOnly (objs : List Word) : Bool := decide (objs.length = 1)

/-- Moves the open sequence on. -/
def setPhase (n : Port) (f : SeqPhase) (s : State) : State :=
  s.updCt n fun c => { c with seq := c.seq.map fun q => { q with phase := f } }

/-- Counts a stale or malformed answer (R146, R149). -/
def countStale (n : Port) (s : State) : State := s.updCt n fun c => { c with stale := satInc c.stale }

/-- Pushes an answer with a reference object (R144, R146). -/
def answer (n : Port) (type rtype : BitVec 5) (rid : BitVec 3) (code arg : Nat) (rest : List Word) (s : State) : State :=
  pushMsg n false type (refObj rtype rid code arg :: rest) s

/-- DENY with a reason. -/
def denyWith (n : Port) (rtype : BitVec 5) (m : Msg) (code : Nat) (s : State) : State :=
  answer n tDeny rtype m.id code 0 [] s

/-- WAIT to a request with ARG, the retry wait in ms (R144, R176): the program's, and where its choice names none a free value (DESIGN
CHOICE, log entry 103). -/
def answerWait (n : Port) (rtype : BitVec 5) (m : Msg) (ms : Option (BitVec 16)) (s : State) : State :=
  match ms with
  | some v => answer n tWait rtype m.id 0 v.toNat [] s
  | none => answer n tWait rtype m.id 0 (256 * s.free.1.toNat + s.free.2.free.1.toNat) [] s.free.2.free.2

/-- The hub is the port's source. -/
def PortSt.isSource (p : PortSt) : Bool := decide (p.cf.attach = .attachedSrc)

/-- Whether a message of PART can be handled: the port is attached with its PHY enabled (R115). -/
def PortSt.partOpen (p : PortSt) : Bool := p.phyOn

/-- Whether the policy program of port n handles requests: its core is not halted by a trap (R22, R268). -/
def State.policyOpen (s : State) (n : Port) : Bool :=
  (s.port n).partOpen && decide ((s.core (pcOf n)).run ≠ .halted)

/-! ## Supply objects and requests (R141 to R143) -/

/-- FIXED, RANGE, BURST (R141). -/
def objKind (w : Word) : Nat := fld w 31 30

/-- The default contract's supply object (R141), POS 1: a FIXED object with DEFAULT = 1 and the flags of the port's
policy; DRP where the port toggles, BYPASS on KU, KD and G, whose stages pass 44-56 V unconverted (R66). -/
def defaultObject (n : Port) (p : PortSt) : Word :=
  place p.ripe.defvolt 19 ||| place p.ripe.defcur 10 ||| placeB true 9 ||| placeB (decide (3 ≤ p.cf.rolemode.toNat)) 8
    ||| placeB p.ripe.pswapen 7 ||| placeB p.ripe.sswapen 6 ||| placeB (decide (n = portKU ∨ n = portKD ∨ n = portG)) 5

/-- A port's limits (R64, R66): voltage in 50 mV units, current in 100 mA units, power in 5 mW units. -/
def inLimits (n : Port) (v : BitVec 11) (i : BitVec 9) : Bool :=
  let vv := v.toNat
  let ii := i.toNat
  if n.val < 12 then decide (100 ≤ vv ∧ vv ≤ 560 ∧ ii ≤ 30 ∧ vv * ii ≤ 12000)
  else if n = portG then decide (720 ≤ vv ∧ vv ≤ 1120 ∧ ii ≤ 450 ∧ vv * ii ≤ 480000)
  else decide (240 ≤ vv ∧ vv ≤ 1120 ∧ ii ≤ 450 ∧ vv * ii ≤ 480000)

/-- Whether a supply object gives a request (R142). -/
def objGives (w : Word) (v : BitVec 11) (i : BitVec 9) : Bool :=
  if objKind w = 0 then decide (fld w 29 19 = v.toNat) && decide (i.toNat ≤ fld w 18 10)
  else if objKind w = 1 then
    decide (2 * fld w 29 20 ≤ v.toNat ∧ v.toNat ≤ 2 * fld w 19 10) && decide (i.toNat ≤ fld w 9 1)
  else false

/-- IBURST of the BURST object in the last CAPS, 0 without one. -/
def burstOffer (caps : List Word) : Nat := ((caps.find? fun w => decide (objKind w = 2)).map fun w => fld w 29 21).getD 0

/-- Whether a burst profile is valid beside a continuous current (R143). -/
def profileValid (n : Port) (caps : List Word) (ireq : BitVec 9) (a b : Word) : Bool :=
  isW n && decide (fld a 31 16 ≠ fld a 15 0) && decide (ireq.toNat < fld b 31 23)
    && decide (fld b 31 23 ≤ burstOffer caps) && decide (fld b 31 23 ≤ 50)
    && (decide (fld b 22 13 = 0) || decide (10 ≤ fld b 22 13 ∧ fld b 22 13 ≤ 1000))

/-- tokpwr of a profile (R168). -/
def tokOf (v : BitVec 11) (i : BitVec 9) (b : Word) : Nat := (v.toNat * fld b 31 23 + 19) / 20 - powerUp v i

/-- A received ASK's fields (R142). -/
def askVolt (w : Word) : BitVec 11 := w.extractLsb' 17 11
/-- IREQ. -/
def askCur (w : Word) : BitVec 9 := w.extractLsb' 8 9
/-- POS. -/
def askPos (w : Word) : Nat := fld w 31 28
/-- PROF. -/
def askProf (w : Word) : Bool := bitOf w 7

/-- Whether POS names an object of the last CAPS (R142). -/
def posKnown (caps : List Word) (pos : Nat) : Bool := decide (1 ≤ pos ∧ pos ≤ caps.length)

/-- Whether an ASK's objects pass R142 and R143, POS apart. -/
def askValid (n : Port) (caps : List Word) (objs : List Word) : Bool :=
  let r := objs.headD 0
  let v := askVolt r
  let i := askCur r
  objGives (caps.getD (askPos r - 1) 0) v i && decide (1 ≤ i.toNat) && (isW n || decide (v.toNat % 2 = 0))
    && inLimits n v i
    && (if askProf r then decide (objs.length = 3) && profileValid n caps i (objs.getD 1 0) (objs.getD 2 0)
        else decide (objs.length = 1))

/-- tokpwr that an ASK's profile brings. -/
def askTok (objs : List Word) : Nat :=
  let r := objs.headD 0
  if askProf r then tokOf (askVolt r) (askCur r) (objs.getD 2 0) else 0

/-- Whether the hub answers a request that the ledger refuses with WAIT (R158): a feed change, a shed, a shed port's discharge
included, or another port's transition is under way. -/
def powerMayFree (n : Port) (s : State) : Bool :=
  s.fd.gap || s.fd.pre || s.led.shedRun || allPorts.any fun k =>
    (decide (k ≠ n) && (s.port k).ct.trans)
      || (decide ((s.port k).pw.sw = .disch) && decide ((s.port k).pw.cause = 7) && decide (0 < s.led.held[k]))

/-! ## Bypass across a change of the feed's contract voltage (R16, R156) -/

/-- A voltage at which a feed or KD may stand in bypass: 44.0-56.0 V (R156). -/
def inBypassRange (v : BitVec 11) : Bool := decide (880 ≤ v.toNat ∧ v.toNat ≤ 1120)

/-- Takes a stage out of BYPASS at its next period start, into mode m. -/
def leaveBypass (n : Port) (m : StageMode) (s : State) : State :=
  if (s.port n).st.mode = .bypass then
    s.updSt n fun t => { t with pendMode := some m, prevMode := none, pendCc := s.cc, lastMode := m, bypBack := true }
  else s

/-- Before the contract voltage of the feed port n changes, that port and KD leave bypass and convert (R156): the feed port toward
HBUS, KD by its role (DESIGN CHOICE, log entry 100). Before PROG = 1 the start path holds its own mode (R421). -/
def convertFeed (n : Port) (v : BitVec 11) (s : State) : State :=
  if s.isFeed n && s.fd.prog && decide (v ≠ (s.port n).ct.volt) then
    let mv := if n = portKU then s.fd.kuMv else s.fd.gMv
    leaveBypass portKD (if (s.port portKD).cf.attach = .attachedSnk then .buckIn else .buckOut)
      (leaveBypass n (if mv < s.fd.hbusMv then .boostIn else .buckIn) s)
  else s

/-- A stage that R156 took out of BYPASS goes back at its next period start where `may`, and else stays as it is. -/
def enterBypassAgain (n : Port) (may : Bool) (s : State) : State :=
  if (s.port n).st.bypBack then
    s.updSt n fun t =>
      if may then { t with pendMode := some .bypass, prevMode := none, pendCc := s.cc, lastMode := .bypass, bypBack := false }
      else { t with bypBack := false }
  else s

/-- Whether the sequence that changes the contract voltage of port n is still open. -/
def PortSt.changing (p : PortSt) : Bool := p.ct.trans || p.ct.seq.any fun q => decide (q.kind = .askOut)

/-- After the sequence of the feed port n has closed, by READY or without a transition, that port and KD re-enter bypass at their next
period starts: only with the contract in force in 44.0-56.0 V, and KD only at the feed's voltage (R156). -/
def rebypass (n : Port) (s : State) : State :=
  let p := s.port n
  let k := (s.port portKD).ct
  if s.isFeed n && !p.changing then
    enterBypassAgain portKD (inBypassRange k.volt && decide (k.volt = p.ct.volt))
      (enterBypassAgain n (inBypassRange p.ct.volt) s)
  else s

/-! ## Windows and transitions (R154, R155, R546) -/

/-- The window of the contract in force (R139, R154). -/
def inForceWindow (n : Port) (p : PortSt) : Window := windowOf n p.ripe (decide (p.ct.state = .default)) p.ct.volt

/-- From the GRANT (R152, R154, R546): CTRNEW holds the target, TRANS is set and the window spans both contracts; with no
contract in force the granted one has the window alone, and on a source counts as in force from here. -/
def beginTransition (n : Port) (v : BitVec 11) (i : BitVec 9) (prof : Bool) (s : State) : State :=
  let p := s.port n
  let w := windowOf n p.ripe false v
  let s1 := s.updCt n fun c =>
    { c with trans := true, newVolt := v, newIcont := i, newProf := prof, slewing := false,
             first := p.isSource && decide (c.state = .none),
             window := if c.state = .none then w else Window.span (inForceWindow n p) w }
  let s2 := if p.isSource ∧ p.ct.state = .none then setContract n .negotiated v i true s1 else s1
  contractChanged n (setPhase n .granted s2)

/-- A slew ends: the active discharge of a falling one ends with it (R153); that of an opened switch runs on (R403). -/
def stopSlew (n : Port) (s : State) : State :=
  if (s.port n).pw.discharging = true ∧ (s.port n).pw.sw ≠ .disch then s.updPw n fun p => { p with discharging := false } else s

/-- A slew begins: a falling one discharges the output actively (R153). -/
def startSlew (n : Port) (falling : Bool) (s : State) : State :=
  if falling = true ∧ (s.port n).pw.sw ≠ .disch then s.updPw n fun p => { p with discharging := true } else s

/-- The current limit that the contract sets on a port, in 100 mA units (R155, R183): on a source, from GRANT to READY, the higher of
the old and the new current; on a sink, the feed KU included, the old one until READY; ILEG under KU's legacy limits. -/
def PortSt.currentLimit (p : PortSt) : Nat :=
  if p.ct.state = .legacy then 5 * p.ripe.ileg
  else if p.ct.trans && p.isSource then max p.ct.icont.toNat p.ct.newIcont.toNat
  else p.ct.icont.toNat

/-- Ends a transition with the old contract standing (R152, R161). A first contract of R546 that never came ends. -/
def dropTransition (n : Port) (first : Bool) (s : State) : State :=
  let s1 := stopSlew n (s.updCt n fun c =>
    { c with trans := false, slewing := false, newProf := false, seq := none, first := false })
  if first then finishContract n s1
  else contractChanged n (s1.updCt n fun c => { c with window := inForceWindow n (s1.port n) })

/-- Whether the contract in transition is a source's first one (R546). -/
def ContractSt.firstContract (c : ContractSt) : Bool := c.trans && c.first

/-- The new contract in force (R152, step 7): CTRCUR, the narrowed window, TRANS cleared, the event; the hub as source
settles the ledger (R166, R168). -/
def completeTransition (n : Port) (s : State) : State :=
  let c := (s.port n).ct
  let src := (s.port n).isSource
  let s1 := setContract n .negotiated c.newVolt c.newIcont src ((stopSlew n s).updCt n fun c =>
    { c with trans := false, slewing := false, narrowing := false, prof := false, seq := none, first := false,
             profGranted := c.newProf
             window := windowOf n (s.port n).ripe false c.newVolt })
  let s2 := if src then (ledgerPost n 1 (powerUp c.newVolt c.newIcont) c.newTok s1).2 else s1
  rebypass n (contractChanged n s2)

/-- A fall to the default contract at a BYE with DEFAULT = 1 (R153, R162, R166): the source slews at its ripe rate, and the window
spans old and default until it narrows. -/
def fallToDefault (n : Port) (s : State) : State :=
  let p := s.port n
  let d := p.ripe.defaultContract
  let w := Window.span p.ct.window (windowOf n p.ripe true d.1)
  let s1 := forcedClose n (setContract n .default d.1 d.2 p.isSource (resumeDetach n s))
  let s2 := startSlew n (p.isSource && decide (d.1.toNat < p.ct.volt.toNat)) (s1.updCt n fun c =>
    { c with trans := false, prof := false, newProf := false, slewing := p.isSource, slew := BitVec.ofNat 16 p.ripe.slew,
             seq := none, narrowing := true, window := w, first := false, profGranted := false, ownSwap := none })
  rebypass n (contractChanged n (if p.isSource then (ledgerPost n 1 (powerUp d.1 d.2) 0 s2).2 else s2))

/-! ## What the line tells a sequence -/

/-- A message of context PART goes to the line for the first time. A request opens a sequence, or stands in for the CAPS or
GETCAPS it answers; INFO and STATUS close the GETCAPS they answer (R147). A CAPS sent is the one an ASK refers to (R142). An ASK of
the feed port for another voltage takes it and KD out of bypass (R156). A PSWAP opens nothing where the hub has none to send
(R174). -/
def requestSent (n : Port) (type : BitVec 5) (id : BitVec 3) (objs : List Word) (s : State) : State :=
  let k : Option SeqKind :=
    if type = tCaps then some .capsOut else if type = tAsk then some .askOut
    else if type = tPswap then (if s.isDmh16 && !isW n then some .pswapOut else none)
    else if type = tSswap then some .sswapOut else if type = tProfile then some .profileOut
    else if type = tGetcaps then some .getcapsOut else none
  let free := match (s.port n).ct.seq with
    | none => true
    | some q =>
      decide (q.phase = .requested) && decide (q.kind ≠ .askIn) && decide (q.kind ≠ .profileIn)
        && decide (q.kind ≠ .pswapIn) && decide (q.kind ≠ .sswapIn)
  let s0 :=
    if type = tCaps then s.updCt n fun c => { c with capsOut := objs, capsSent := c.capsSent + 1 }
    else if type = tAsk then convertFeed n (askVolt (objs.headD 0)) s
    else if (type = tInfo ∨ type = tStatus) ∧ (s.port n).ct.isSeq .getcapsIn = true then closeSeq n s
    else s
  match k with
  | none => s0
  | some k =>
    if !free then s0
    else s0.updCt n fun c =>
      { c with seq := some { kind := k, rtype := type, rid := id, phase := .requested, nodded := false },
               lastReq := objs, lastType := type }

/-- Whether a CAPS contains the sink's present contract (R157). -/
def capsHolds (c : ContractSt) (objs : List Word) : Bool := objs.any fun w => objGives w c.volt c.icont

/-- A granted ASK gives its RAISE back (R39, R152, R166): SETTLE at the old contract's power. Where there was none the grant goes
with the output, at once if that is off and else when it has discharged below 5 V. -/
def settleBack (n : Port) (none_ : Bool) (power tok : Nat) (s : State) : State :=
  let w := (s.port n).pw.sw
  if none_ then (if w = .off ∨ w = .giveup then (ledgerPost n 1 0 tok s).2 else s) else (ledgerPost n 1 power tok s).2

/-- An effective ABORT (R152, R161): the old contract stands, with the grant and the tokpwr it had. -/
def abortSeq (n : Port) (s : State) : State :=
  let p := s.port n
  if p.ct.isSeq .askIn then
    settleBack n (decide (p.ct.state = .none) || p.ct.firstContract) (powerUp p.ct.volt p.ct.icont) p.ct.oldTok
      (dropTransition n p.ct.firstContract s)
  else if p.ct.isSeq .profileIn then closeSeq n (ledgerPost n 1 s.led.held[n] p.ct.oldTok s).2
  else if p.ct.isSeq .askOut ∧ p.ct.trans = true then dropTransition n p.ct.firstContract s
  else closeSeq n s

/-- Whether the hub is the end that acts in a port's open sequence (R161): the source in a voltage transition, the old source
in a PSWAP, the present supplier in an SSWAP. -/
def PortSt.actsIn (p : PortSt) (q : Seq) : Bool :=
  match q.kind with
  | .askIn => true
  | .pswapIn | .pswapOut => p.isSource
  | .sswapIn | .sswapOut => p.cf.csupOn || (decide (q.phase = .acting) && !p.cf.csupIn)
  | _ => false

/-- The NOD of an ABORT of the hub (R161): effective on a request that has had no answer, and on one where the hub is the end
that acts and has not acted. Whether the other end had acted is not known to the hub, and the sequence then runs on. -/
def ownAbort (n : Port) (s : State) : State :=
  match (s.port n).ct.seq with
  | none => s
  | some q => if q.phase = .requested ∨ (q.phase = .granted ∧ (s.port n).actsIn q = true) then abortSeq n s else s

/-- CF detach detection is suspended from the NOD of the GRANT of a PSWAP (R100). -/
def suspendDetach (n : Port) (s : State) : State := s.updCf n fun c => { c with suspended := true }

/-- The open request of the hub has had its NOD (R128, R150). -/
def noteNod (n : Port) (type : BitVec 5) (s : State) : State :=
  s.updCt n fun c =>
    { c with seq := c.seq.map fun q =>
        { q with nodded := q.nodded || (q.kind.byHub && decide (q.rtype = type) && decide (q.rid = (s.port n).ln.curId)) } }

/-- What the NOD of a message of the hub in context PART brings about (R100, R152, R154, R157, R161, R169, R546). READY and BYE have
commands of their own. -/
def messageNodded (n : Port) (type : BitVec 5) (objs : List Word) (s0 : State) : State :=
  let s := noteNod n type s0
  let c := (s.port n).ct
  if type = tCaps then
    s.updCt n fun c =>
      { c with capsOut := objs, capsNodded := true
               askNewRun := decide (c.state = .negotiated) && !capsHolds c objs }
  else if type = tGrant then
    match c.seq with
    | none => s
    | some q =>
      if c.answers (refType objs) (refId objs) then
        match q.kind with
        | .askIn => beginTransition n c.newVolt c.newIcont c.newProf s
        | .profileIn =>
          closeSeq n (ledgerPost n 1 s.led.held[n] c.newTok (s.updCt n fun c =>
            { c with prof := c.prof && c.newProf, profGranted := c.newProf })).2
        | .pswapIn => setPhase n .granted (suspendDetach n s)
        | .sswapIn => setPhase n .granted s
        | _ => s
      else s
  else if type = tAbort ∧ c.answers (refType objs) (refId objs) = true then ownAbort n s
  else s

/-- What the third unanswered try of a message of the hub in context PART brings about (R150, R152): a GRANT is withdrawn
with ABORT TIMEOUT and SETTLE at the old value, a READY counts as not sent. -/
def messageFailed (n : Port) (type : BitVec 5) (objs : List Word) (s : State) : State :=
  let c := (s.port n).ct
  if type = tGrant ∧ c.answers (refType objs) (refId objs) = true then
    let s1 := closeSeq n (answer n tAbort (refType objs) (refId objs) 0x11 0 [] s)
    if c.isSeq .askIn then settleBack n (decide (c.state = .none)) (powerUp c.volt c.icont) c.oldTok s1
    else if c.isSeq .profileIn then (ledgerPost n 1 s.led.held[n] c.oldTok s1).2
    else s1
  else if type = tReady ∧ c.isSeq .askIn = true then
    let s1 := stopSlew n (s.updCt n fun c => { c with transfail := satInc c.transfail, seq := none, slewing := false, trans := false })
    openSwitch .off n (answer n tBye 0 0 0x10 0 [] s1)
  else s

/-! ## Negotiation (R141 to R160) -/

/-- A received CAPS (R141, R146, R147, R151, R152): refused with ROLE or BUSY, and else kept; its sequence stays open until the ASK
goes out, and ends where the sink's program denies it or lets it lie. One without objects is no CAPS: as an answer it counts as
stale, as a request it is denied RANGE (DEDUCED, log entry 101). -/
def onCaps (n : Port) (m : Msg) (choice : CapsChoice) (s : State) : State :=
  let p := s.port n
  if p.isSource ∨ m.role = false then denyWith n tCaps m 0x05 s
  else if p.ct.seq.isSome ∧ (p.ct.isSeq .getcapsOut && decide (p.ct.lastReq.headD 0 >>> 28 = 1)) = false then
    denyWith n tCaps m 0x04 s
  else if m.objs = [] then (if p.ct.seq.isSome then countStale n s else denyWith n tCaps m 0x02 s)
  else
    let s1 := openSeq n .capsIn tCaps m.id (s.updCt n fun c => { c with caps := m.objs, waiting := [], getcapsDue := false })
    match choice with
    | .nothing => closeSeq n s1
    | .deny code => closeSeq n (denyWith n tCaps m code.toNat s1)
    | .ask pos v i prof =>
      let r : Word := place pos.toNat 28 ||| place v.toNat 17 ||| place i.toNat 8 ||| placeB prof.isSome 7
      pushMsg n false tAsk (r :: (match prof with
        | some ab => [ab.1, ab.2]
        | none => [])) s1

/-- CAPS. -/
def execCaps (n : Port) (m : Msg) (choice : CapsChoice) (s : State) : Out :=
  if s.policyOpen n then done (onCaps n m choice s) else done s

/-- GETCAPS (R145, R147): answered with the named message without START, its sequence open until that goes out, or with DENY ROLE,
BUSY or RANGE, in the order of R152. -/
def execGetcaps (n : Port) (m : Msg) (ans : List Word) (s : State) : Out :=
  let p := s.port n
  let what := fld (m.objs.headD 0) 31 28
  if !s.policyOpen n then done s
  else if what = 1 ∧ p.isSource = false then done (denyWith n tGetcaps m 0x05 s)
  else if p.ct.seq.isSome then done (denyWith n tGetcaps m 0x04 s)
  else if what = 0 ∨ 3 < what ∨ refOnly m.objs = false then done (denyWith n tGetcaps m 0x02 s)
  else
    done (pushMsg n false (if what = 1 then tCaps else if what = 2 then tStatus else tInfo) ans
      (openSeq n .getcapsIn tGetcaps m.id s))

/-- The source has been asked (R150, R157): the wait of tASK_NEW ends, and a CAPS that the ASK answers counts as NODded. -/
def noteAsk (n : Port) (s : State) : State :=
  s.updCt n fun c => { c with askNewRun := false, capsNodded := c.capsNodded || c.isSeq .capsOut }

/-- A received ASK (R23, R142, R150, R152, R153, R157, R158): the checks in order, RAISE, and GRANT with the slew rate, DENY or WAIT;
no answer while PC1 is halted and decides nothing. -/
def onAsk (n : Port) (m : Msg) (s0 : State) : State :=
  let s := noteAsk n s0
  let p := s.port n
  let c := p.ct
  let r := m.objs.headD 0
  if p.isSource = false ∨ m.role = true then denyWith n tAsk m 0x05 s0
  else if (c.seq.isSome ∧ c.isSeq .capsOut = false) ∨ c.trans = true then denyWith n tAsk m 0x04 s
  else if posKnown c.capsOut (askPos r) = false then closeSeq n (denyWith n tAsk m 0x03 s)
  else if askValid n c.capsOut m.objs = false then closeSeq n (denyWith n tAsk m 0x02 s)
  else if p.mo.wet ∧ aboveMvlim p.ripe (askVolt r) = true then closeSeq n (denyWith n tAsk m 0x08 s)
  else
    let tok := askTok m.objs
    let res := ledgerPost n 0 (powerUp (askVolt r) (askCur r)) tok s
    if res.1 = 0 then closeSeq n res.2
    else if res.1 = 2 then
      closeSeq n (if powerMayFree n s then answerWait n tAsk m none res.2 else denyWith n tAsk m 0x01 res.2)
    else
      let s1 := answer n tGrant tAsk m.id 0 p.ripe.slew m.objs res.2
      s1.updCt n fun c =>
        { c with seq := some { kind := .askIn, rtype := tAsk, rid := m.id, phase := .requested, nodded := true },
                 newVolt := askVolt r, newIcont := askCur r, newProf := askProf r, newTok := tok,
                 oldTok := s.led.tokpwr[n], slew := BitVec.ofNat 16 p.ripe.slew }

/-- ASK. -/
def execAsk (n : Port) (m : Msg) (s : State) : Out :=
  if s.policyOpen n then done (onAsk n m s) else done s

/-- GRANT (R100, R149, R152, R154 to R156): an answer to the hub's open request begins its transition, the feed and KD out of bypass;
any other is stale, and one to an ASK or PROFILE is answered with ABORT STALE. -/
def onGrant (n : Port) (m : Msg) (s : State) : State :=
  let c := (s.port n).ct
  if c.awaits (refType m.objs) (refId m.objs) = false then
    let s1 := countStale n s
    if (refType m.objs) = tAsk ∨ (refType m.objs) = tProfile then answer n tAbort (refType m.objs) (refId m.objs) 0x03 0 [] s1 else s1
  else if m.objs.tail ≠ c.lastReq then countStale n s
  else
    let s1 := clearWait n s
    let r := c.lastReq.headD 0
    if c.isSeq .askOut then beginTransition n (askVolt r) (askCur r) (askProf r) (convertFeed n (askVolt r) s1)
    else if c.isSeq .profileOut then closeSeq n s1
    else if c.isSeq .pswapOut then setPhase n .granted (suspendDetach n s1)
    else if c.isSeq .sswapOut then setPhase n .granted s1
    else s1

/-- GRANT. -/
def execGrant (n : Port) (m : Msg) (s : State) : Out :=
  if (s.port n).partOpen then done (onGrant n m s) else done s

/-- An answer to the hub's CAPS shows that it was received (R150). -/
def noteCapsAnswer (n : Port) (s : State) : State :=
  s.updCt n fun c => { c with capsNodded := c.capsNodded || c.isSeq .capsOut }

/-- DENY (R146, R149, R150, R156, R160, R179): closes the request it answers, be it the swap request that the source's has
overtaken; any other, and one with more than its reference object, is stale. -/
def execDeny (n : Port) (m : Msg) (s : State) : Out :=
  let c := (s.port n).ct
  if !(s.port n).partOpen then done s
  else if refOnly m.objs && c.awaits (refType m.objs) (refId m.objs) then
    done (rebypass n (closeSeq n (clearWait n (noteCapsAnswer n s))))
  else if refOnly m.objs && c.overtook (refType m.objs) (refId m.objs) then done (s.updCt n fun c => { c with ownSwap := none })
  else done (countStale n s)

/-- WAITs that the last request has had (R158). -/
def ContractSt.waits (c : ContractSt) : Nat :=
  ((c.waiting.find? fun w => decide (w.type = c.lastType ∧ w.objs = c.lastReq)).map fun w => w.count).getD 0

/-- The last request is put off by one WAIT more (R158). -/
def putOff (n : Port) (s : State) : State :=
  (clearWait n s).updCt n fun c =>
    { c with waiting := c.waiting ++ [{ type := c.lastType, objs := c.lastReq, count := (s.port n).ct.waits + 1, due := true }] }

/-- WAIT (R146, R149, R150, R156, R158): closes the sequence and schedules the same request again; at NWAIT the request counts as
denied. -/
def execWaitMessage (n : Port) (m : Msg) (s : State) : Out :=
  let p := s.port n
  if !p.partOpen then done s
  else if refOnly m.objs && p.ct.awaits (refType m.objs) (refId m.objs) then
    let s1 := noteCapsAnswer n s
    let s2 := if p.ripe.nwait ≤ p.ct.waits + 1 then (clearWait n s1).updCt n fun c => { c with waitout := satInc c.waitout }
      else putOff n s1
    done (rebypass n (closeSeq n s2))
  else if refOnly m.objs && p.ct.overtook (refType m.objs) (refId m.objs) then done (s.updCt n fun c => { c with ownSwap := none })
  else done (countStale n s)

/-- RETRY_WAIT_DONE (R158): the request that was put off first goes out again, under a new ID. -/
def execRetryWaitDone (n : Port) (s : State) : Out :=
  let p := s.port n
  match p.ct.waiting.find? fun w => w.due with
  | none => done s
  | some w =>
    if s.policyOpen n && p.ct.seq.isNone then
      done (pushMsg n true w.type w.objs (s.updCt n fun c =>
        { c with waiting := c.waiting.map fun x => if x = w then { x with due := false } else x }))
    else done s

/-- ANSWER_TIMEOUT (R147, R150, R152, R156): no answer within tANSWER: the request closes and TIMEOUT counts; a CAPS that had its NOD
only closes, and so does a request of the other end that the hub has left without answer. -/
def execAnswerTimeout (n : Port) (s : State) : Out :=
  match (s.port n).ct.seq with
  | none => done s
  | some q =>
    if q.phase ≠ .requested then done s
    else
      match q.kind with
      | .capsOut =>
        done (closeSeq n (if q.nodded then s else s.updCt n fun c => { c with timeout := satInc c.timeout }))
      | .capsIn | .getcapsIn => done (closeSeq n s)
      | .getcapsOut | .askOut | .profileOut | .pswapOut | .sswapOut =>
        done (rebypass n (closeSeq n (s.updCt n fun c => { c with timeout := satInc c.timeout })))
      | _ => done s

/-- CAPS_REPEAT (R141, R151): a source none of whose CAPS has been NODded sends CAPS again, ten in all. -/
def execCapsRepeat (n : Port) (s : State) : Out :=
  let p := s.port n
  if s.policyOpen n && p.isSource && !p.ct.capsNodded && decide (p.ct.capsSent < 10) then
    done (pushMsg n true tCaps (if p.ct.capsOut = [] then [defaultObject n p] else p.ct.capsOut) s)
  else done s

/-- The hub as old source of a PSWAP has its output below 5 V: it posts RELEASE and sends READY (R175 step 4). -/
def oldSourceOff (n : Port) (s : State) : State :=
  let p := s.port n
  match p.ct.seq with
  | none => s
  | some q =>
    if (p.ct.isSeq .pswapIn || p.ct.isSeq .pswapOut) && p.isSource && decide (q.phase = .acting) then
      let s1 := if 0 < s.led.held[n] then (ledgerPost n 2 0 0 s).2 else s
      answer n tReady tPswap q.rid 0 (p.pw.vPort / 10) [] s1
    else s

/-- SLEW_START (R152, R153, R161, R175, R178): the acting end begins: the source slews at its granted rate, discharging where it
falls; the old source of a PSWAP switches its output off; the CSUP supplier of an SSWAP switches CSUP off and sends its READY, the
wire taken as below 0.5 V from here (DESIGN CHOICE, log entry 102). -/
def execSlewStart (n : Port) (s : State) : Out :=
  let p := s.port n
  if p.ct.atPhase .granted then
    if p.ct.isSeq .askIn then
      done (setPhase n .acting (startSlew n (!p.ct.firstContract && decide (p.ct.newVolt.toNat < p.ct.volt.toNat))
        (s.updCt n fun c => { c with slewing := !c.firstContract })))
    else if (p.ct.isSeq .pswapIn || p.ct.isSeq .pswapOut) && p.isSource then
      let s1 := setPhase n .acting (openSwitch .off n s)
      done (if (s1.port n).pw.sw = .disch then s1 else oldSourceOff n s1)
    else if (p.ct.isSeq .sswapIn || p.ct.isSeq .sswapOut) && p.cf.csupOn then
      done (answer n tReady tSswap ((p.ct.seq.map fun q => q.rid).getD 0) 0 0 []
        (setPhase n .acting (s.updCf n fun c => { c with csupOn := false })))
    else done s
  else done s

/-- Whether a voltage lies within ±3 % of a contract voltage (R148). -/
def within3 (mv : Nat) (v : BitVec 11) : Bool := decide (97 * mvOf v ≤ 100 * mv ∧ 100 * mv ≤ 103 * mvOf v)

/-- READY_HOLD_DONE (R148, R152, R175): the output has stood within ±3 % for tREADY_HOLD: the source sends READY with the
voltage measured, answering the ASK, or the PSWAP whose new source it is. -/
def execReadyHoldDone (n : Port) (mv : Nat) (s : State) : Out :=
  let p := s.port n
  match p.ct.seq with
  | none => done s
  | some q =>
    if p.ct.isSeq .askIn && decide (q.phase = .acting) && within3 mv p.ct.newVolt then
      done (answer n tReady tAsk q.rid 0 (mv / 10) [] s)
    else if (p.ct.isSeq .pswapIn || p.ct.isSeq .pswapOut) && decide (q.phase = .ready1) && p.isSource
        && within3 mv p.ripe.defaultContract.1 then
      done (answer n tReady tPswap q.rid 0 (mv / 10) [] s)
    else done s

/-- TRANS_TIMEOUT (R152, R546): the source that has not sent READY switches off and sends BYE TRANSFAIL; the sink restores
the old window. -/
def execTransTimeout (n : Port) (s : State) : Out :=
  let p := s.port n
  if p.ct.trans && p.ct.isSeq .askIn then
    let s1 := stopSlew n (s.updCt n fun c => { c with transfail := satInc c.transfail, seq := none, slewing := false, trans := false })
    done (openSwitch .off n (answer n tBye 0 0 0x10 0 [] s1))
  else if p.ct.trans && p.ct.isSeq .askOut then
    done (rebypass n (dropTransition n p.ct.firstContract (s.updCt n fun c => { c with transfail := satInc c.transfail })))
  else done s

/-- DEFAULT_WINDOW_NARROW (R162). -/
def execDefaultWindowNarrow (n : Port) (s : State) : Out :=
  let p := s.port n
  if p.ct.narrowing then
    done (stopSlew n (s.updCt n fun c => { c with narrowing := false, slewing := false, window := windowOf n p.ripe true c.volt }))
  else done s

/-- ASK_NEW_TIMEOUT (R157): the sink has not asked: the source sends BYE with DEFAULT = 1. -/
def execAskNewTimeout (n : Port) (s : State) : Out :=
  let p := s.port n
  if p.ct.askNewRun && p.isSource && p.partOpen then
    done (answer n tBye 0 0 0x17 1 [] (s.updCt n fun c => { c with askNewRun := false }))
  else done s

/-! ## Swaps (R174 to R180) -/

/-- Whether another sequence stands in the way of a swap request (R147, R174, R179): as source, one of the hub's own swaps,
pending or open, does; as sink the hub's own swap gives way as long as it has no answer. -/
def swapBusy (n : Port) (s : State) : Bool :=
  let p := s.port n
  p.ct.trans ||
    (if p.isSource then p.ct.seq.isSome || !(swapPending n s).isEmpty
     else p.ct.seq.isSome && !(p.swapOpen && p.ct.atPhase .requested))

/-- A swap request granted: the sequence stands open until its final READY. A request of the hub's own that it crossed waits on the
side for its DENY BUSY (R179). -/
def grantSwap (n : Port) (k : SeqKind) (t : BitVec 5) (m : Msg) (s : State) : State :=
  (answer n tGrant t m.id 0 0 [] s).updCt n fun c =>
    { c with ownSwap := if (s.port n).swapOpen then c.seq else c.ownSwap,
             seq := some { kind := k, rtype := t, rid := m.id, phase := .requested, nodded := true } }

/-- Whether another feed can carry the load (R176). -/
def otherFeedCarries (s : State) : Bool :=
  [Feed.ku, Feed.g, Feed.b].any fun f =>
    decide (f ≠ s.fd.feed) && s.eligible f && decide (s.led.grantSum + s.led.tokRes ≤ s.availOf f)

/-- WAIT to a PSWAP with ARG, the time the feed change is expected to take (R176), as the program's choice names it. -/
def swapWait (n : Port) (m : Msg) (choice : SwapChoice) (s : State) : State :=
  match choice with
  | .wait ms => answerWait n tPswap m (some ms) s
  | _ => answerWait n tPswap m none s

/-- PSWAP (R158, R174 to R176, R180): DENY VARIANT, ROLE, POLICY or BUSY in that order; WAIT on KU and G while a planned feed change
is under way; on the selected feed WAIT until the load has moved, or DENY FEED where no other feed can carry it; every other is
granted, unless the program denies it: the hub answers WAIT nowhere else (R158; the program's DENY is POLICY: DESIGN CHOICE, log entry
14). -/
def execPswap (n : Port) (m : Msg) (choice : SwapChoice) (s : State) : Out :=
  let p := s.port n
  if !s.policyOpen n then done s
  else if !s.isDmh16 then done (denyWith n tPswap m 0x06 s)
  else if p.ct.state = .none ∨ p.ct.state = .swap then done (denyWith n tPswap m 0x05 s)
  else if !p.ripe.pswapen then done (denyWith n tPswap m 0x0A s)
  else if swapBusy n s then done (denyWith n tPswap m 0x04 s)
  else if (n = portKU ∨ n = portG) ∧ s.fd.planned = true ∧ s.fd.gap = true then done (swapWait n m choice s)
  else if s.isFeed n then
    if otherFeedCarries s then done (swapWait n m choice s) else done (denyWith n tPswap m 0x07 s)
  else
    match choice with
    | .grant | .wait _ => done (grantSwap n .pswapIn tPswap m s)
    | .deny => done (denyWith n tPswap m 0x0A s)

/-- SSWAP (R158, R178): DENY POLICY unless SSWAPEN = 1 and CFCTL.CSUP = by role, DENY BUSY, or granted, unless the program denies it
(DESIGN CHOICE, log entry 14). -/
def execSswap (n : Port) (m : Msg) (choice : SwapChoice) (s : State) : Out :=
  let p := s.port n
  if !s.policyOpen n then done s
  else if !p.ripe.sswapen || decide (p.cf.csup ≠ 0) then done (denyWith n tSswap m 0x0A s)
  else if swapBusy n s then done (denyWith n tSswap m 0x04 s)
  else
    match choice with
    | .grant | .wait _ => done (grantSwap n .sswapIn tSswap m s)
    | .deny => done (denyWith n tSswap m 0x0A s)

/-- A grant that an old source still holds at the role exchange is released where its output is off and below 5 V; else it goes
with the discharge (R39, R175 step 4). -/
def releaseIfOff (n : Port) (s : State) : State :=
  let w := (s.port n).pw.sw
  if (w = .off ∨ w = .giveup) ∧ 0 < s.led.held[n] then opRelease n s else s

/-- The hub as new source posts the RAISE of its default contract (R166, R175 step 6). Refused, it cannot become one: no contract
follows, and the new sink ends the swap with its BYE. -/
def raiseDefault (n : Port) (s : State) : State :=
  let d := (s.port n).ripe.defaultContract
  let r := ledgerPost n 0 (powerUp d.1 d.2) 0 s
  if r.1 = 1 then r.2 else setContract n .none 0 0 true (r.2.updCt n fun c => { c with seq := none })

/-- The role exchange of a PSWAP (R100, R127, R138, R166, R175 steps 5 and 6): the contract ends, with it the draw or the output of
the port; the presentations change places, LEVEL returns to HOLD, SWAP fires, and ATTACH does not (DESIGN CHOICE, log entry 104); the
window is that of the default contract to come, for which a new source holds its grant. A feed that is swapped away is lost. -/
def exchangeRoles (n : Port) (s : State) : State :=
  let p := s.port n
  let feed := s.isFeed n
  let src := !p.isSource
  let s1 := releaseIfOff n (openSwitch .off n s)
  let s2 := setContract n .swap 0 0 src (forcedClose n s1)
  let s3 := s2.updCf n fun c =>
    { c.setLevel s.cc 0 with attach := if src then .attachedSrc else .attachedSnk, asSource := src }
  let s4 := s3.updLn n fun l => { l with holdStood := false, holdWait := false, startOut := false, sinkStart := false }
  let s5 := s4.updCt n fun c =>
    { c with prof := false, profGranted := false, ownSwap := none, caps := [], capsSent := 0, capsNodded := false,
             askNewRun := false, getcapsDue := false,
             window := windowOf n p.ripe true p.ripe.defaultContract.1 }
  let s6 := (setPhase n .ready1 s5).firePort n 7 0
  let s7 := if src then raiseDefault n s6 else s6
  if feed then feedLoss 0xB s7 else s7

/-- The end of a PSWAP (R175 step 7): the default contract in force. -/
def completeSwap (n : Port) (s : State) : State :=
  let p := s.port n
  let d := p.ripe.defaultContract
  contractChanged n (setContract n .default d.1 d.2 p.isSource (closeSeq n s))

/-- The end of an SSWAP (R178 step 5): CSUP_ON and CSUP_IN exchange, by role means the new role, SWAP fires. -/
def completeSswap (n : Port) (byHub : Bool) (s : State) : State :=
  ((closeSeq n s).updCf n fun c =>
    { c with csupOn := byHub, csupIn := !byHub, csupSwapped := !c.csupSwapped }).firePort n 7 1

/-- The NOD of the present supplier's READY (R178 steps 3 and 4): the hub has switched CSUP off and waits for the new supplier; or
the hub is the new supplier and sends its READY, CSUP taken as in range from here (DESIGN CHOICE, log entry 102). -/
def cedeCsup (n : Port) (q : Seq) (byHub : Bool) (s : State) : State :=
  if byHub then setPhase n .gaveReady s else setPhase n .ready1 (answer n tReady tSswap q.rid 0 0 [] s)

/-- READY at its NOD (R146, R152 step 7, R175 steps 5 and 7, R178 steps 3 and 5): `byHub` says that the hub sent it. The first READY
of a swap comes from the old source, or the present supplier, and the second from the new one. -/
def onReady (n : Port) (m : Msg) (byHub : Bool) (s : State) : State :=
  let p := s.port n
  match p.ct.seq with
  | none => if byHub then s else countStale n s
  | some q =>
    if p.ct.answers (refType m.objs) (refId m.objs) = false ∨ refOnly m.objs = false then (if byHub then s else countStale n s)
    else if q.kind = .askIn ∧ byHub = true ∧ p.ct.trans = true then completeTransition n s
    else if q.kind = .askOut ∧ byHub = false ∧ p.ct.trans = true then completeTransition n s
    else if q.kind = .pswapIn ∨ q.kind = .pswapOut then
      if q.phase = (if byHub then .acting else .granted) ∧ byHub = p.isSource then exchangeRoles n s
      else if q.phase = .ready1 ∧ byHub = p.isSource then completeSwap n s
      else s
    else if q.kind = .sswapIn ∨ q.kind = .sswapOut then
      if q.phase = (if byHub then .acting else .granted) ∧ (byHub = true ∨ p.cf.csupOn = false) then cedeCsup n q byHub s
      else if q.phase = (if byHub then .ready1 else .gaveReady) then completeSswap n byHub s
      else s
    else s

/-- READY. -/
def execReady (n : Port) (m : Msg) (byHub : Bool) (s : State) : Out :=
  if (s.port n).partOpen then done (onReady n m byHub s) else done s

/-- ABORT (R146, R149, R156, R158, R161): effective before the acting end has acted; the other end takes it as effective until that
end's READY. One that belongs to no open sequence, or breaks its layout, is stale. -/
def onAbort (n : Port) (m : Msg) (s : State) : State :=
  let p := s.port n
  match p.ct.seq with
  | none => countStale n s
  | some q =>
    if p.ct.answers (refType m.objs) (refId m.objs) = false ∨ refOnly m.objs = false then countStale n s
    else if q.phase = .ready1 ∨ q.phase = .gaveReady ∨ (p.actsIn q = true ∧ q.phase = .acting) then s
    else rebypass n (abortSeq n (if q.kind.byHub then clearWait n s else s))

/-- ABORT. -/
def execAbort (n : Port) (m : Msg) (s : State) : Out :=
  if (s.port n).partOpen then done (onAbort n m s) else done s

/-- A received PROFILE (R143, R146, R147, R168, R169): DENY ROLE, BUSY, RANGE or LEDGER (or WAIT), or GRANT. -/
def onProfile (n : Port) (m : Msg) (s : State) : State :=
  let p := s.port n
  let c := p.ct
  if p.isSource = false ∨ m.role = true then denyWith n tProfile m 0x05 s
  else if c.seq.isSome ∨ c.trans = true then denyWith n tProfile m 0x04 s
  else if isW n = false ∨ c.state = .none
      ∨ (m.objs ≠ [] ∧ (m.objs.length ≠ 2 ∨ profileValid n c.capsOut c.icont (m.objs.headD 0) (m.objs.getD 1 0) = false)) then
    denyWith n tProfile m 0x02 s
  else
    let tok := if m.objs = [] then 0 else tokOf c.volt c.icont (m.objs.getD 1 0)
    let res := if m.objs = [] then (1, s) else ledgerPost n 0 s.led.held[n] tok s
    if res.1 = 0 then res.2
    else if res.1 = 2 then
      if powerMayFree n s then answerWait n tProfile m none res.2 else denyWith n tProfile m 0x01 res.2
    else
      (answer n tGrant tProfile m.id 0 0 m.objs res.2).updCt n fun c =>
        { c with seq := some { kind := .profileIn, rtype := tProfile, rid := m.id, phase := .requested, nodded := true },
                 newTok := tok, oldTok := s.led.tokpwr[n], newProf := decide (m.objs ≠ []) }

/-- PROFILE. -/
def execProfile (n : Port) (m : Msg) (s : State) : Out :=
  if s.policyOpen n then done (onProfile n m s) else done s

/-- A message that answers the hub's GETCAPS for `what` closes that sequence; without objects it breaks its layout and is stale
(R145, R146). -/
def answersGetcaps (n : Port) (what : Nat) (m : Msg) (s : State) : State :=
  let c := (s.port n).ct
  if c.isSeq .getcapsOut && decide (fld (c.lastReq.headD 0) 31 28 = what) then
    (if m.objs = [] then countStale n s else closeSeq n (clearWait n s))
  else s

/-- INFO (R145): its topics are the policy program's; as the answer to the hub's GETCAPS it closes that sequence. -/
def execInfo (n : Port) (m : Msg) (s : State) : Out :=
  if (s.port n).partOpen then done (answersGetcaps n 3 m s) else done s

/-- STATUS (R145): its quantities are the policy program's; as the answer to the hub's GETCAPS it closes that sequence. -/
def execStatusMessage (n : Port) (m : Msg) (s : State) : Out :=
  if (s.port n).partOpen then done (answersGetcaps n 2 m s) else done s

/-- BYE at its NOD (R138, R162, R391, R424): with DEFAULT = 1 both ends fall to the default contract; with DEFAULT = 0 the
contract ends, the switch opens, and a feed is lost with cause CONTRACT. -/
def onBye (n : Port) (m : Msg) (s : State) : State :=
  let p := s.port n
  if p.ct.state = .none ∨ p.ct.state = .legacy then closeSeq n s
  else if refArg m.objs % 2 = 1 ∧ p.ct.state ≠ .swap then fallToDefault n s
  else
    let s1 := finishContract n s
    if s.isFeed n then feedLoss 0xB s1 else s1

/-- BYE. -/
def execBye (n : Port) (m : Msg) (_byHub : Bool) (s : State) : Out :=
  if (s.port n).partOpen then done (onBye n m s) else done s

/-- SWAP_OFF_TIMEOUT (R175): the hub as old source is not below 5 V: BYE FAULT, port off, no role exchange. -/
def execSwapOffTimeout (n : Port) (s : State) : Out :=
  let p := s.port n
  if (p.ct.isSeq .pswapIn || p.ct.isSeq .pswapOut) && p.isSource && p.ct.atPhase .acting && decide (p.pw.sw = .disch) then
    done (answer n tBye 0 0 0x15 0 [] (closeSeq n s))
  else done s

/-- SWAP_ON_TIMEOUT (R175): the new source is not in its window: the hub as new sink sends BYE TRANSFAIL; both hold their
new presentations with no contract. -/
def execSwapOnTimeout (n : Port) (s : State) : Out :=
  let p := s.port n
  if (p.ct.isSeq .pswapIn || p.ct.isSeq .pswapOut) && !p.isSource && p.ct.atPhase .ready1 then
    done (answer n tBye 0 0 0x10 0 [] (contractChanged n (setContract n .none 0 0 false (closeSeq n s))))
  else done s

/-- SSWAP_TIMEOUT (R178): the supplier missed its time: CSUP stays off until detach. -/
def execSswapTimeout (n : Port) (s : State) : Out :=
  let p := s.port n
  if (p.ct.isSeq .sswapIn || p.ct.isSeq .sswapOut) && !p.ct.atPhase .requested then
    done ((closeSeq n s).updCf n fun c => { c with csupOn := false, csupTrips := 2 })
  else done s

/-- SHED_TIMEOUT (R171, R172): tSHED expires with the sum still above AVAIL: CUT is set and ports are shed until it fits, which ends
the excursion. -/
def execShedTimeout (s : State) : Out :=
  if s.led.shedRun then
    let s1 := { s with led := { s.led with shedRun := false } }
    if s.led.grantSum + s.led.tokRes ≤ s.led.avail then done s1
    else
      let s2 := shedLoop s.led.avail 16 { s1 with led := { s1.led with cut := true } }
      done { s2 with led := { s2.led with excursion := s2.led.excursion && decide (s2.led.avail < s2.liveSum) } }
  else done s

/-! ## Ledger commands (R166 to R168, R187, R323 to R325) -/

/-- LED.OUT after a SERVE (R323). -/
def ledOutWord (n : Port) (r : Nat) (none_ : Bool) (s : State) : Word :=
  place n.val 0 ||| place r 4 ||| placeB none_ 8 ||| place s.led.held[n] 16

/-- PC1 at the end of a LED.SERVE: LED.OUT takes its result, unless PC1 has restarted since the trigger (R270, R324). -/
def endServe (x : Nat × Port) (w : Word) (c : CoreSt) : CoreSt :=
  { c with ledServe := c.ledServe.erase x, ledOut := if x.1 < c.startCc + 12 then c.ledOut else w }

/-- A LED.SERVE in flight for port n ends with this operation (R324). -/
def commitServe (n : Port) (r : Nat × State) : State :=
  match (r.2.core corePC1).ledServe.find? fun x => decide (x.2 = n) with
  | some x => r.2.updCore corePC1 (endServe x (ledOutWord n r.1 false r.2))
  | none => r.2

/-- Whether the pending operation `op` of slot n is served now (R166, R268): by PC1, and by a LED.SERVE in flight though PC1 has
halted. -/
def servedNow (n : Port) (op : Nat) (s : State) : Bool :=
  slotPending n s && decide (fld (slotCtl n s) 13 12 = op)
    && (s.pc1Serves || (s.core corePC1).ledServe.any fun x => decide (x.2 = n))

/-- RAISE (R166): the pending RAISE of port n's slot. -/
def execRaise (n : Port) (s : State) : Out :=
  if servedNow n 0 s then done (commitServe n (serveSlot n s)) else done s

/-- SETTLE (R166): the pending SETTLE of port n's slot. -/
def execSettle (n : Port) (s : State) : Out :=
  if servedNow n 1 s then done (commitServe n (serveSlot n s)) else done s

/-- RELEASE (R166): the pending RELEASE of port n's slot. -/
def execRelease (n : Port) (s : State) : Out :=
  if servedNow n 2 s then done (commitServe n (serveSlot n s)) else done s

/-- A LED.TOKW of PC1 performed (R270, R323 to R325): the write, its answer in LED.TOKR unless PC1 has restarted since the trigger,
the operation no longer in flight. -/
def commitTokw (v : BitVec 4) (s : State) : State :=
  let r := opTokens v s
  r.2.2.updCore corePC1 fun k =>
    { k with ledTokr := if (k.ledTokw.find? fun x => decide (x.2 = v)).any fun x => decide (x.1 < k.startCc + 4) then k.ledTokr
                        else placeB r.1 0 ||| placeB r.2.1 1
             ledTokw := k.ledTokw.eraseP fun x => decide (x.2 = v) }

/-- TOKENS_WRITE (R168, R171, R187, R324): LED.TOKW on PC1 answers in LED.TOKR; a register write of 13-15 is refused as
reserved; a refused TOKENS leaves the pool and fires event 140. -/
def execTokensWrite (w : Writer) (v : BitVec 4) (s : State) : Out :=
  let r := opTokens v s
  if w = .core corePC1 then
    done (commitTokw v s)
  else if 12 < v.toNat then done (s.refuseWrite w 2)
  else done r.2.2

/-- Whether a LEDCTL write is refused as reserved (R187). -/
def ledctlReserved (v : Word) : Bool := decide (fld v 31 16 < fld v 15 4)

/-- LEDCTL_WRITE (R171, R187): RESERVE and SHEDMARGIN; AVAIL and HARD follow. -/
def execLedctlWrite (w : Writer) (v : Word) (s : State) : Out :=
  if ledctlReserved v then done (s.refuseWrite w 2)
  else done (ledgerRefresh { s with led := { s.led with ledctl := v &&& 0xFFFFFFF0 } })

end Sys2Proof.Machine
end

