-- ==== Sys2Proof/Machine/Stage.lean ====
section
/-! DEFINITION. Power stages, comparators and sampling (R188 to R229, R308 to R313, R329 to R335). -/

namespace Sys2Proof.Machine

/-! ## Fields of the ripe set -/

/-- PWMCFG.DMAX, cc (R202). -/
def GwSet.dmax (g : GwSet) : Nat := fld g.pwmcfg 31 22
/-- PWMCFG.BLANK, cc (R202). -/
def GwSet.blank (g : GwSet) : Nat := fld g.pwmcfg 11 6
/-- PKCFG.LATCH: HOLD (R209). -/
def GwSet.latchHold (g : GwSet) : Bool := bitOf g.pkcfg 5
/-- ADCSET.DEC (R333). -/
def GwSet.adcDec (g : GwSet) : Nat := fld g.adcset 23 20
/-- ADCSET.PHASE (R333). -/
def GwSet.adcPhase (g : GwSet) : Nat := fld g.adcset 18 16

/-- The smallest DMAX of R202. -/
def dmaxMin (n : Port) : Nat := if n.val < 12 then 30 else 60

/-- The DMAX in force: the lower of PWMCFG.DMAX and the run-time limit of R312. -/
def PortSt.dmaxNow (p : PortSt) (n : Port) : Nat :=
  if p.st.dmaxRun = 0 then p.ripe.dmax else min (max p.st.dmaxRun (dmaxMin n)) p.ripe.dmax

/-- The clamp in a cc (R207). -/
def PortSt.clamp (p : PortSt) (cc : Nat) : Nat := if p.st.burstAt cc then p.ripe.iburstpk else p.ripe.ilimpk

/-- The reference code at the DAC input in a cc (R197, R311): one written in this cc arrives in the next. -/
def StageSt.codeAt (t : StageSt) (cc : Nat) : BitVec 10 :=
  match t.refOld with
  | some (at_, old) => if cc ≤ at_ then old else t.refCode
  | none => t.refCode

/-- The reference in use after the clamp (R207); START_REG's is fixed at code 80 (R227). -/
def PortSt.refInUse (p : PortSt) (cc : Nat) : Nat :=
  if p.st.mode = .startReg then 80 else min (p.st.codeAt cc).toNat (p.clamp cc)

/-- A mode in which the stage switches under its comparator (R191). -/
def StageMode.converting (m : StageMode) : Bool :=
  decide (m = .buckOut) || decide (m = .boostOut) || decide (m = .buckIn) || decide (m = .boostIn)

/-- Code of a mode (R191, R227). -/
def StageMode.code : StageMode → Nat
  | .off => 0 | .buckOut => 1 | .boostOut => 2 | .buckIn => 3 | .boostIn => 4 | .bypass => 5 | .startReg => 6

/-- The mode a written value names on port n; reserved values have none (R191, R226, R227). -/
def modeOfCode (n : Port) (v : Nat) : Option StageMode :=
  if v = 0 then some .off
  else if v = 1 then some .buckOut
  else if n.val < 12 then none
  else if v = 2 then some .boostOut
  else if v = 3 then some .buckIn
  else if v = 4 then some .boostIn
  else if v = 5 ∧ n ≠ portB then some .bypass
  else none

/-- A port's switch, pre-charge and feed path are all open (R212, R224). -/
def State.pathOpen (s : State) (n : Port) : Bool :=
  let w := (s.port n).pw.sw
  decide (w ≠ .prechg) && decide (w ≠ .ramp) && decide (w ≠ .on) && !(s.port n).pw.stuck
    && !(s.isFeed n && !s.fd.gap) && !(s.fd.pre && decide (s.fd.target.port = some n))

/-! ## What a loop engine writes (R195 to R197, R310 to R313) -/

/-- A reference write, in force from the next cc (R197, R311, R313, R340). -/
def stageRef (n : Port) (code : BitVec 10) (s : State) : State :=
  s.updSt n fun t => { t with refOld := some (s.cc, t.codeAt s.cc), refCode := code }

/-- A DMAX write, for the next period start (R312). -/
def stageDmax (n : Port) (d : Nat) (s : State) : State := s.updSt n fun t => { t with dmaxPend := some d }

/-- A mode write (R195, R196, R200, R211, R313): the last one before a period start counts, one in the cc of a period start only for
the following one, so the one before it is kept; OFF closes an open burst window by force (R391). A reserved value sets BADMODE under
force-off too (DESIGN CHOICE, log entry 106). -/
def stageMode (n : Port) (v : Nat) (s : State) : State :=
  match modeOfCode n v with
  | none => s.updSt n fun t => { t with badMode := true }
  | some m =>
    if (s.port n).st.force.isEmpty then
      if m = .off then
        forcedClose n
          (s.updSt n fun t =>
            { t with mode := .off, lastMode := .off, pendMode := none, prevMode := none, bypExit := none, bypBack := false,
                     active := false })
      else
        s.updSt n fun t =>
          { t with lastMode := m, pendMode := some m, pendCc := s.cc, bypBack := false,
                   prevMode := if t.pendMode.isSome ∧ t.pendCc = s.cc then t.prevMode else t.pendMode }
    else s

/-- The peak latch as it stands in a cc (R209, R210): a software clear releases it from the next cc. -/
def StageSt.latched (t : StageSt) (cc : Nat) : Bool := t.pkLat && t.clrCc.all fun c => decide (cc ≤ c)

/-- A software clear of the peak latch (R210, R211): a trip in the same cc stands. The active switch turns on at a period start alone,
so that a latch that is released lets it on at the next one; an on-time that runs is left to run. -/
def pkClear (n : Port) (s : State) : State :=
  s.updSt n fun t => if t.pkTripCc = some s.cc then t else { t with pkLat := t.latched s.cc, clrCc := some s.cc }

/-- PEAK_LATCH_CLEAR (R210, R211): from the owning engine or the host; any other writer is refused. -/
def execPeakLatchClear (n : Port) (w : Writer) (s : State) : Out :=
  if s.has n && (decide (w = .host) || decide (w = .core (leOf n))) then done (pkClear n s) else done (s.refuseWrite w 2)

/-! ## The switching period -/

/-- A mode write landed in this cc and waits for the following period start (R195). -/
def StageSt.lateMode (t : StageSt) (cc : Nat) : Bool := t.pendMode.isSome && decide (t.pendCc = cc)

/-- The mode write that a period start in this cc meets (R195). -/
def StageSt.dueMode (t : StageSt) (cc : Nat) : Option StageMode := if t.lateMode cc then t.prevMode else t.pendMode

/-- The mode at a period start and whether a BYPASS write was void (R183, R193 to R195): BYPASS is entered only where it `may` be and
below 1.0 V across the path; a stage that a trip takes out of BYPASS converts. -/
def modeAtStart (t : StageSt) (cc pathMv : Nat) (may : Bool) : StageMode × Bool :=
  let stay : StageMode := match t.bypExit with
    | some true => .buckIn
    | some false => .buckOut
    | none => t.mode
  match t.dueMode cc with
  | none => (stay, false)
  | some m =>
    if m = .bypass then
      if t.bypExit.isSome then (stay, false) else if may = true ∧ pathMv < 1000 then (.bypass, false) else (t.mode, true)
    else (m, false)

/-- Whether BYPASS may be entered on port n: never on KU under its legacy limits once PROG = 1 (R183). -/
def State.mayBypass (s : State) (n : Port) : Bool :=
  !(decide (n = portKU) && decide ((s.port n).ct.state = .legacy) && s.fd.prog)

/-- The start path holds the port's path closed: it answers only a hard-short and an HBUS OV trip (R199, R421). -/
def State.startPathHeld (s : State) (n : Port) : Bool :=
  !s.fd.prog && s.isFeed n && !s.fd.gap && !(s.port n).st.force.contains .hardShort
    && !(s.port n).st.force.contains .hbusOv

/-- PERIOD_START (R77, R189, R193 to R195, R198, R201, R207, R209, R211, R288, R312, R333, R367): the period that ended
leaves its LIMIT; the PERIOD latch clears; a held latch, or one cleared in this cc, skips the period; the mode and the
run-time DMAX that wait take effect; the raw outputs of the peak and hard-short comparators release here at the latest (DESIGN CHOICE,
log entry 105); PERk and the bound ZERO event fire. `pathMv` is the voltage across the stage. -/
def execPeriodStart (n : Port) (pathMv : Nat) (t : Nat) (s : State) : Out :=
  let s0 := s.at t
  if s0.has n && decide (s0.dev.hold = .none) && !s0.dev.asleep then
    let p := s0.port n
    let hold := p.ripe.latchHold
    let skip := hold && (p.st.latched s0.cc || decide (p.st.clrCc = some s0.cc))
    let mv := modeAtStart p.st s0.cc pathMv (s0.mayBypass n)
    let m : StageMode := if p.st.force.isEmpty || s0.startPathHeld n then mv.1 else .off
    let s1 := s0.updSt n fun t =>
      { t with limit := t.limitSeen || decide (p.clamp s0.cc ≤ (t.codeAt s0.cc).toNat), limitSeen := false
               pkLat := hold && t.latched s0.cc
               mode := m, bypRef := t.bypRef || mv.2, bypExit := none
               pendMode := if t.lateMode s0.cc then t.pendMode else none, prevMode := none
               pk := { t.pk with out := false }, hsCmp := { t.hsCmp with out := false }
               active := m.converting && !skip, ended := false
               dmaxRun := t.dmaxPend.getD t.dmaxRun, dmaxPend := none
               periods := t.periods + 1, startCc := s0.cc }
    let s2 := if n = 0 ∧ s1.tim.lock = true ∧ s0.cc - p.st.startCc ≠ 150 then
        { s1 with tim := { s1.tim with corrcnt := satInc s1.tim.corrcnt } } else s1
    done (fireBound n.val 1 (s2.fireSrc (leOf n) (8 + leLocal n)))
  else done s0

/-- PEAK_TRIP (R193, R203, R209, R211, R228): ignored while the stage is OFF, and during blanking, when only the raw output shows it;
ends the on-time and sets the latch. In BYPASS it sets LIMIT, and the stage leaves BYPASS at the next period start in the direction of
its flow. -/
def execPeakTrip (n : Port) (importing : Bool) (s : State) : Out :=
  let p := s.port n
  if p.st.mode.converting || decide (p.st.mode = .bypass) then
    if p.ripe.blank ≤ s.cc - p.st.startCc then
      done (s.updSt n fun t =>
        let t1 := { t with pkLat := true, clrCc := none, pkTripCc := some s.cc, pk := { valid := true, out := true }, ended := true }
        if t.mode = .bypass then { t1 with limit := true, limitSeen := true, bypExit := some importing } else t1)
    else done (s.updSt n fun t => { t with pk := { t.pk with out := t.pk.valid } })
  else done s

/-- DMAX_REACHED (R189, R204): the on-time ends without a trip and DMAXCNT counts. -/
def execDmaxReached (n : Port) (s : State) : Out :=
  let p := s.port n
  if p.st.active && !p.st.ended && decide (p.dmaxNow n ≤ s.cc - p.st.startCc) then
    done (s.updSt n fun t => { t with ended := true, dmaxCnt := satInc t.dmaxCnt })
  else done s

/-! ## Hard-short and window comparators -/

/-- What a hard-short trip does (R199, R200, R211 to R214): force-off, the path open, HS, and a trip of the breaker with
cause HSHORT; on a candidate that pre-charges HBUS the next one takes its turn (R428). -/
def hardShort (n : Port) (s : State) : State :=
  let s1 := forceOff .hardShort n (s.updSt n fun t => { t with hs := true, hsCmp := { valid := true, out := true } })
  if s.fd.pre && decide (s.fd.target.port = some n) then
    preLost true (fault n 2 (s1.updPw n fun p => { p with tripCnt := satInc p.tripCnt }))
  else trip n 2 s1

/-- Whether the hard-short comparator is armed (R212, R401). -/
def State.hsArmed (s : State) (n : Port) : Bool :=
  decide ((s.port n).st.mode ≠ .off) || !s.pathOpen n || decide ((s.port n).pw.sw = .wait)

/-- HARD_SHORT_TRIP (R212, R213). -/
def execHardShortTrip (n : Port) (s : State) : Out := if s.has n && s.hsArmed n then done (hardShort n s) else done s

/-- The contract of the KU feed ends where its supply has left the window (R83). -/
def endKuContract (s : State) : State :=
  let k := (s.port portKU).ct.state
  if s.isFeed portKU ∧ (k = .default ∨ k = .negotiated) then finishContract portKU s else s

/-- A feed whose supply leaves its window is lost with cause WINDOW; KU loses its contract with it, so that KU is no candidate for
what follows (R83, R420). -/
def windowLoss (s : State) : State := feedLoss 5 (endKuContract s)

/-- A filtered OV crossing (R407, R415, R428): PG falls; a feed path opens, or is not closed, with cause WINDOW; KD drawing as sink opens
without a trip; a source that is ON, and any port in PRECHG or RAMP, trips with cause OV. -/
def ovTripped (n : Port) (s : State) : State :=
  let s1 := dropPg n (s.updSt n fun t => { t with ov := { valid := true, out := true } })
  let p := s.port n
  if s.isFeed n then windowLoss s1
  else if n = portKD ∧ p.cf.attach = .attachedSnk ∧ p.pw.sw = .on then openSwitch .off n s1
  else if p.pw.sw = .on ∨ p.pw.sw = .prechg ∨ p.pw.sw = .ramp then trip n 3 s1
  else feedReview s1

/-- A filtered UV crossing (R407): on a source that is ON it is an input of the fault timer (R406). -/
def uvTripped (n : Port) (s : State) : State :=
  let s1 := s.updSt n fun t => { t with uv := { valid := true, out := true } }
  let p := s.port n
  if s.isFeed n then windowLoss s1
  else if n = portKD ∧ p.cf.attach = .attachedSnk ∧ p.pw.sw = .on then openSwitch .off n s1
  else feedReview s1

/-- OV_TRIP (R218, R407). -/
def execOvTrip (n : Port) (s : State) : Out :=
  if s.has n && !((s.port n).st.ov.valid && (s.port n).st.ov.out) then done (ovTripped n s) else done s

/-- UV_TRIP (R218, R407). -/
def execUvTrip (n : Port) (s : State) : Out :=
  if s.has n && !((s.port n).st.uv.valid && (s.port n).st.uv.out) then done (uvTripped n s) else done s

/-- OV_RELEASE (R220, R413). -/
def execOvRelease (n : Port) (s : State) : Out :=
  if s.has n then done (s.updSt n fun t => { t with ov := { valid := true, out := false } }) else done s

/-- UV_RELEASE (R220, R406, R413). -/
def execUvRelease (n : Port) (s : State) : Out :=
  if s.has n then done (s.updSt n fun t => { t with uv := { valid := true, out := false } }) else done s

/-! ## Self-test (R222 to R225) -/

/-- Whether a test of port n is refused (R224). -/
def testRefused (s : State) (n : Port) (sel mode : Nat) : Bool :=
  let p := s.port n
  p.st.testBusy || decide (3 < mode) || decide (5 < sel) || (decide (n = portB) && decide (3 < sel))
    || (decide (sel < 4) && (decide (p.st.mode ≠ .off) || !s.pathOpen n))
    || (decide (3 < sel) && (decide (p.cf.attach ≠ .unattached) || decide (p.cf.effMode ≠ 0)))

/-- CMPTEST_START (R222 to R224, R228): a write of CMPTEST. A TMODE that is not 0 starts the test or is refused with DONE
and REFUSED; a CF detector under test reads Undecided. PASS is 0 from the start of a test, DONE and OUT keep what they hold until its
end (DESIGN CHOICE, log entry 107). -/
def cmptestWrite (n : Port) (v : Word) (s : State) : State :=
  let mode := fld v 18 16
  let sel := fld v 11 8
  let s1 := s.updSt n fun t => { t with testDone := w1c1 t.testDone v 30, testRefused := w1c1 t.testRefused v 29 }
  let keep := (s.port n).st.testBusy
  let s2 := if keep then s1 else
    s1.updSt n fun t => { t with testSel := BitVec.ofNat 4 sel, testMode := BitVec.ofNat 3 mode }
  if mode = 0 then s2
  else if testRefused s n sel mode then
    s2.updSt n fun t => { t with testDone := true, testRefused := true, testPass := false }
  else
    let s3 := s2.updSt n fun t => { t with testBusy := true, testPass := false }
    if sel = 4 then s3.updCf n fun c => { c with cf1 := .undecided }
    else if sel = 5 then s3.updCf n fun c => { c with cf2 := .undecided }
    else s3

/-- CMPTEST_START: on a port the variant does not populate the write is refused (R228). -/
def execCmptestStart (n : Port) (w : Writer) (v : Word) (s : State) : Out :=
  if s.has n then done (cmptestWrite n v s) else done (s.refuseWrite w 2)

/-- A write of G.HBUSWIN (R225, R229). PASS is 0 from the start of a test, DONE keeps what it holds until its end (DESIGN CHOICE, log
entry 107). -/
def hbuswinWrite (v : Word) (s : State) : State :=
  let mode := fld v 18 16
  let f := s.fd
  let f1 := { f with testDone := w1c1 f.testDone v 30, testRefused := w1c1 f.testRefused v 29 }
  let f2 := if f.testBusy then f1 else { f1 with testSel := bitOf v 8, testMode := BitVec.ofNat 3 mode }
  if mode = 0 then { s with fd := f2 }
  else if f.testBusy ∨ 3 < mode then { s with fd := { f2 with testDone := true, testRefused := true, testPass := false } }
  else { s with fd := { f2 with testBusy := true, testPass := false } }

/-- HBUSWIN_TEST_START (R225, R229). -/
def execHbuswinTestStart (_w : Writer) (v : Word) (s : State) : Out := done (hbuswinWrite v s)

/-- The output a test expects (R222): `wide` for the three outputs of a CF detector. -/
def testExpected (mode : BitVec 3) (wide : Bool) (untested : BitVec 3) : BitVec 3 :=
  let mask : BitVec 3 := if wide then 7 else 1
  if mode = 1 then ~~~untested &&& mask else if mode = 2 then mask else 0

/-- SELF_TEST_DONE (R220, R222, R223, R225): OUT, PASS, DONE; the tested comparator starts anew with VALID = 0. -/
def execSelfTestDone (k : TestTarget) (untested out : BitVec 3) (s : State) : Out :=
  match k with
  | .port n =>
    let t := (s.port n).st
    if t.testBusy then
      let wide := decide (3 < t.testSel.toNat)
      let o : BitVec 3 := if wide then out else out &&& 1
      done (s.updSt n fun t =>
        { t with testBusy := false, testDone := true, testOut := o
                 testPass := decide (o = testExpected t.testMode wide untested)
                 pk := if t.testSel = 0 then .reset else t.pk
                 hsCmp := if t.testSel = 1 then .reset else t.hsCmp
                 ov := if t.testSel = 2 then .reset else t.ov
                 uv := if t.testSel = 3 then .reset else t.uv })
    else done s
  | .hbus =>
    if s.fd.testBusy then
      done { s with fd := { s.fd with
        testBusy := false, testDone := true
        testPass := decide (out &&& 1 = testExpected s.fd.testMode false untested)
        uv := if s.fd.testSel then s.fd.uv else .reset
        ov := if s.fd.testSel then .reset else s.fd.ov } }
    else done s

/-! ## Samples (R308, R309, R329 to R335) -/

/-- CORE.CYC of a core (R243). -/
def CoreSt.cyc (k : CoreSt) (cc : Nat) : Word := BitVec.ofNat 32 (cc - k.startCc)

/-- A slot takes a new value: NEW, and MISS when NEW stood (R308, R309). -/
def putSlot (c : Core) (m : Nat) (code : BitVec 12) (s : State) : State :=
  s.updCore c fun k =>
    { k with adcr := k.adcr.set (m % 32) code (by omega)
             adcrMiss := if bitOf k.adcrNew m then setFld k.adcrMiss m m 1 else k.adcrMiss
             adcrNew := setFld k.adcrNew m m 1
             adcrFresh := setFld (if k.adcrFreshCc = s.cc then k.adcrFresh else 0) m m 1, adcrFreshCc := s.cc }

/-- Whether the set is taken in the period that runs (R333, R400). -/
def setTaken (n : Port) (p : PortSt) : Bool :=
  decide (p.ripe.adcset &&& 0xFE ≠ 0)
    && (decide (p.st.periods % 2 ^ p.ripe.adcDec = p.ripe.adcPhase)
        || (isW n && (decide (p.pw.sw = .prechg) || decide (p.pw.sw = .ramp))))

/-- SAMPLE_TRIGGER (R330, R333): STAMPk takes CORE.CYC; the set's conversions queue behind those that are not done. -/
def execSampleTrigger (n : Port) (t : Nat) (s : State) : Out :=
  let s0 := s.at t
  if s0.has n then
    let s1 := s0.updCore (leOf n) fun k =>
      { k with adcrStamp := k.adcrStamp.set (leLocal n % 4) (k.cyc s0.cc) (by omega) }
    let p := s0.port n
    done (s1.updSt n fun t => { t with setDue := if setTaken n p then t.setDue ++ [p.ripe.adcset.setWidth 8] else t.setDue })
  else done s0

/-- SAMPLE_READY (R283, R289, R330, R335): slot 0 changes and SMPk fires; with SMPk still pending the sample before is
lost and SMPOVF counts. -/
def execSampleReady (n : Port) (code : BitVec 12) (s : State) : Out :=
  if s.has n then
    let c := leOf n
    let lost := bitOf (s.core c).evtPend (leLocal n)
    let s1 := putSlot c (8 * leLocal n) code s
    let s2 := if lost then s1.updSt n fun t => { t with smpOvf := satInc t.smpOvf } else s1
    done (s2.fireSrc c (leLocal n))
  else done s

/-- SET_READY (R331, R333, R334): every slot of the oldest set that waits, as it stood when it was triggered, takes its value in one
cc, SETk fires, LAGMAX and SETCNT follow. A set lags at most 150 cc on a W port and not at all elsewhere. -/
def execSetReady (n : Port) (v1 v2 v3 : BitVec 12) (lag : Nat) (s : State) : Out :=
  match (s.port n).st.setDue with
  | [] => done s
  | slots :: rest =>
    if s.has n then
      let c := leOf n
      let put := fun (j : Nat) (v : BitVec 12) (t : State) =>
        if bitOf slots j then putSlot c (8 * leLocal n + j) v t else t
      let s1 := put 3 v3 (put 2 v2 (put 1 v1 s))
      let l := min lag (if isW n then 150 else 0)
      let s2 := s1.updSt n fun t =>
        { t with setDue := rest, setCnt := t.setCnt + 1
                 lagMax := if t.lagMax.toNat < l then BitVec.ofNat 8 l else t.lagMax }
      done (s2.fireSrc c (4 + leLocal n))
    else done s

end Sys2Proof.Machine
end

