-- ==== Sys2Proof/Machine/Seating.lean ====
section
/-! DEFINITION. Seating, the start and stop of a port's switch, the breaker and power-good (R397 to R415). The 1 µs work of
R402, R406 and R417 is in Telemetry.lean. -/

namespace Sys2Proof.Machine

/-- Code of P[n].SWSTAT.STATE (R435). -/
def SwState.code : SwState → Nat
  | .off => 0 | .wait => 1 | .prechg => 2 | .ramp => 3 | .on => 4 | .offtime => 5 | .giveup => 6 | .disch => 7

/-- P[n].SWSTAT (R435). -/
def swstat (p : PowerSt) : Word :=
  place p.sw.code 28 ||| place p.cause.toNat 24 ||| place p.retryLeft.toNat 16 ||| placeB p.pg 15 ||| placeB p.settled 14
    ||| placeB (decide (0 < p.ftCount)) 13 ||| placeB p.failed 12 ||| placeB p.refused 11 ||| place p.reason.toNat 8
    ||| place p.tripCnt.toNat 0

/-! ## START (R397) -/

/-- Whether a port's attach and contract allow START: an output under a default or negotiated contract (from its GRANT's NOD
for a first one, R546) or as the new source of a PSWAP; KD drawing as sink; B while it is not the feed (DEDUCED, log entry 21). An
inert port starts nothing (R7, R44, R481). -/
def startRole (s : State) (n : Port) : Bool :=
  let p := s.port n
  let contract := decide (p.ct.state = .default) || decide (p.ct.state = .negotiated)
  !s.portsInert && ((decide (p.cf.attach = .attachedSrc)
      && (contract || (decide (p.ct.state = .swap) && p.ct.atPhase .ready1)))
    || (decide (n = portKD) && decide (p.cf.attach = .attachedSnk) && contract)
    || (decide (n = portB) && !s.isFeed portB))

/-- The voltage of the contract a START serves. -/
def startVolt (p : PortSt) : BitVec 11 := if p.ct.state = .swap then p.ripe.defaultContract.1 else p.ct.volt

/-- Why a START is refused, with the REASON code of R435, or nothing (R397, R405, R433). -/
def startReason (s : State) (n : Port) : Option (BitVec 3) :=
  let p := s.port n
  let sink := decide (n = portKD) && decide (p.cf.attach = .attachedSnk)
  if !startRole s n || p.pw.stuck then some 1
  else if p.mo.wet && aboveMvlim p.ripe (startVolt p) then some 2
  else if !sink && (decide (s.fd.feed = .none) || !s.hbusOk) then some 3
  else if !p.st.force.isEmpty || p.pw.thermHold then some 4
  else none

/-- Refuses the last command with a reason (R397). -/
def refuseStart (n : Port) (r : BitVec 3) (s : State) : State :=
  s.updPw n fun p => { p with refused := true, reason := r }

/-- START checked against R397 and carried out or refused. -/
def checkStart (n : Port) (s : State) : State :=
  match startReason s n with
  | some r => refuseStart n r s
  | none =>
    let s1 := s.updPw n fun p =>
      { p with sw := .wait, startHeld := false, retryLeft := (s.port n).ripe.retry, retrying := false, onReached := false }
    promoteWaiting (s1.updSt n fun t => { t with hs := false })

/-- The command START (R397, R401 step 1, R405): no effect on a port that is ON or starting; held in an off-time and in
DISCH; refused while R405 holds the port as STUCK. -/
def startCmd (n : Port) (s : State) : State :=
  let p := (s.port n).pw
  match p.sw with
  | .on | .wait | .prechg | .ramp => s
  | .offtime => s.updPw n fun p => { p with startHeld := true }
  | .disch => if p.stuck then refuseStart n 1 s else s.updPw n fun p => { p with startHeld := true }
  | .off | .giveup => checkStart n s

/-- The command STOP (R403, R411, R412): opens the switch and ends the retries. -/
def stopCmd (n : Port) (s : State) : State :=
  match (s.port n).pw.sw with
  | .offtime => s.updPw n fun p => { p with sw := .off, startHeld := false }
  | .disch => s.updPw n fun p => { p with after := .off, startHeld := false }
  | _ => openSwitch .off n s

/-- The command READMIT (R425): FAILED clears, and the candidate may be taken again. -/
def readmitCmd (n : Port) (s : State) : State :=
  if (s.port n).pw.failed then
    let s1 := s.updPw n fun p => { p with failed := false, sw := if p.sw = .giveup then .off else p.sw }
    feedSeek (liftForce [.trip, .hardShort] n (s1.updSt n fun t => { t with hs := false }))
  else s

/-- SWCTL_START (R397): from the port's policy core, SV or the host. -/
def execSwctlStart (n : Port) (w : Writer) (s : State) : Out :=
  if s.has n && writerPolicy w n then done (startCmd n s) else done (s.refuseWrite w 2)

/-- SWCTL_STOP (R403). -/
def execSwctlStop (n : Port) (w : Writer) (s : State) : Out :=
  if s.has n && writerPolicy w n then done (stopCmd n s) else done (s.refuseWrite w 2)

/-- READMIT (R425). -/
def execReadmit (n : Port) (w : Writer) (s : State) : Out :=
  if s.has n && writerPolicy w n then done (readmitCmd n s) else done (s.refuseWrite w 2)

/-! ## Seating -/

/-- SEAT_SETTLED (R398 to R401, R420): SEAT has read seated for tSEAT, or B_PWR has met R399 for 5.0 ms: waiting starts begin
their pre-charge, and a feed candidate may have become eligible. -/
def execSeatSettled (n : Port) (s : State) : Out :=
  let p := (s.port n).pw
  let ok := if n = portB then decide (18000 ≤ s.fd.bMv ∧ s.fd.bMv ≤ 32000) else s.signals n && p.seat.valid && p.seat.out
  if ok then
    let s1 := s.updPw n fun p => { p with settled := true }
    let s2 := if n = portB then liftForce [.seatBreak] portB s1 else s1
    done (feedSeek (promoteWaiting s2))
  else done s

/-- What B_PWR outside 18.0-32.0 V does to B as an output (R399): as a SEAT break, with no trip and no retry. The feed B keeps
the range of R420 (DEDUCED, log entry 22). -/
def bBroken (s : State) : State :=
  let s1 := s.updPw portB fun p => { p with settled := false, startHeld := false }
  if s.isFeed portB || decide ((s.port portB).pw.sw = .off) then s1
  else
    let s2 := openSwitch .off portB (dropPg portB (forceOff .seatBreak portB s1))
    s2.updPw portB fun p => { p with after := .off, sw := if p.sw = .offtime then .off else p.sw }

/-- B_SUPPLY_BREAK (R399). -/
def execBSupplyBreak (s : State) : Out := done (bBroken s)

/-! ## The start sequence -/

/-- PRETIME_EXPIRY (R401): the pre-charge has not come within 1.5 V in PRETIME. -/
def execPretimeExpiry (n : Port) (s : State) : Out :=
  if (s.port n).pw.sw = .prechg then done (trip n 5 s) else done s

/-- RAMP_DONE (R400, R401 step 4, R411): the gate is fully enhanced: ON; a retry has restored the default contract, and the
source's CAPS may begin anew. -/
def execRampDone (n : Port) (s : State) : Out :=
  let p := s.port n
  if p.pw.sw = .ramp then
    let s1 := s.updPw n fun p => { p with sw := .on, onReached := true, retrying := false }
    let d := p.ripe.defaultContract
    let s2 := if p.pw.retrying then
        contractChanged n ((setContract n .default d.1 d.2 true s1).updCt n fun c =>
          { c with window := windowOf n p.ripe true d.1, trans := false, seq := none, capsSent := 0, capsNodded := false })
      else s1
    done (promoteWaiting s2)
  else done s

/-! ## The breaker -/

/-- FAULT_TIMER_EXPIRY (R406, R408): the count has reached FTIME. The count goes up by 8 each microsecond and down by 1;
a port that is off does not trip. -/
def execFaultTimerExpiry (n : Port) (s : State) : Out :=
  let p := s.port n
  if s.hsArmed n && decide (8000 * p.ripe.ftime ≤ p.pw.ftCount) then done (trip n 1 s) else done s

/-- The end of DISCH (R39, R175, R397, R403, R405, R409): the force-off of the trip ends, the ledger releases the grant, the
old source of a PSWAP sends its READY, the port takes the state that follows; GIVEUP fires its second FAULT, and a START that
was held is checked when the port enters OFF. -/
def endDisch (n : Port) (s : State) : State :=
  let p := (s.port n).pw
  let s1 := liftForce [.trip, .hardShort, .pcTrap, .stuck] n (s.updPw n fun p =>
    { p with sw := p.after, discharging := false, stuck := false })
  let s2 := oldSourceOff n (if 0 < s1.led.held[n] then opRelease n s1 else s1)
  match p.after with
  | .giveup => fault n 0xB (s2.updPw n fun p => { p with startHeld := false })
  | .offtime => s2
  | _ => if p.startHeld then checkStart n (s2.updPw n fun p => { p with startHeld := false }) else s2

/-- DISCHARGE_DONE (R403): the output is below 5 V. -/
def execDischargeDone (n : Port) (s : State) : Out :=
  if (s.port n).pw.sw = .disch ∧ n ≠ portB then done (endDisch n s) else done s

/-- DISCHARGE_TIMEOUT (R405): 50 ms after the opening the output is still above 5 V: active discharge ends. -/
def execDischargeTimeout (n : Port) (s : State) : Out :=
  if (s.port n).pw.sw = .disch then done (s.updPw n fun p => { p with discharging := false }) else done s

/-- The level of R405 below which a current counts as none, in mA. -/
def backfedLevel (n : Port) : Nat := if isW n then 50 else 500

/-- BACKFED_CHECK (R405): a current below the level for 1 ms: the output is held up from outside; else the switch has not
opened: force-off is held and FAULT STUCK fires once. -/
def execBackfedCheck (n : Port) (ma : Int) (s : State) : Out :=
  let p := (s.port n).pw
  if p.sw = .disch ∧ p.discharging = false then
    if ma.natAbs < backfedLevel n then
      done (endDisch n (if n = portB then s else fault n 0xC s))
    else if p.stuck then done s
    else done (fault n 0xD (forceOff .stuck n (s.updPw n fun p => { p with stuck := true })))
  else done s

/-- Gives up: GIVEUP with its FAULT (R409). -/
def giveUp (n : Port) (s : State) : State :=
  fault n 0xB (s.updPw n fun p => { p with sw := .giveup, startHeld := false })

/-- The end of an off-time (R397, R409 to R412, R444): it waits for a RIPEN of the port's set, for a trapped engine's restart
and for a hot sensor; then RETRYLEFT counts the retry, or is reloaded for a START that was held, and the ledger raises the
default contract. Refused, the attempt counts with an on-attempt of 0; granted, the mode is restored and R401 runs. -/
def endOffTime (n : Port) (s : State) : State :=
  let p := s.port n
  if p.pw.sw ≠ .offtime then s
  else if p.cf.attach ≠ .attachedSrc then s.updPw n fun q => { q with sw := .off, startHeld := false }
  else if !p.pw.ripenedSinceTrip || p.st.force.contains .leTrap || p.pw.thermHold then
    s.updPw n fun q => { q with offElapsed := true }
  else if !p.pw.startHeld && !s.retries n then giveUp n s
  else
    let left := if p.pw.startHeld then p.ripe.retry else if p.ripe.retry = 255 then 255 else p.pw.retryLeft - 1
    let d := p.ripe.defaultContract
    let s1 := s.updPw n fun q => { q with retryLeft := left, startHeld := false }
    let r := opRaise n (powerUp d.1 d.2) 0 s1
    if r.1 = 1 then
      let s2 := r.2.updPw n fun q => { q with sw := .wait, onReached := false, retrying := true, offElapsed := false }
      promoteWaiting (s2.updSt n fun t =>
        { t with hs := false, pendMode := if t.lastMode = .off then none else some t.lastMode, prevMode := none, pendCc := s.cc })
    else
      let s2 := r.2.updPw n fun q => { q with offTimeUs := 100000, offStart := s.cc, offElapsed := false }
      if s2.retries n then s2 else giveUp n s2

/-- OFFTIME_END (R411). -/
def execOfftimeEnd (n : Port) (s : State) : Out := done (endOffTime n s)

/-- A held-up retry goes on when what it waited for has come (R411, R412). -/
def resumeOffTime (n : Port) (s : State) : State := if (s.port n).pw.offElapsed then endOffTime n s else s

/-! ## Power-good -/

/-- Whether the conditions of R413 hold. -/
def pgHolds (s : State) (n : Port) : Bool :=
  let p := s.port n
  (decide (p.pw.sw = .on) || (s.isFeed n && !s.fd.gap)) && p.st.ov.valid && !p.st.ov.out && p.st.uv.valid && !p.st.uv.out
    && decide (p.pw.ftCount = 0)

/-- PG_DEGLITCH_DONE (R413, R414). -/
def execPgDeglitchDone (n : Port) (s : State) : Out :=
  if s.has n && pgHolds s n && !(s.port n).pw.pg then
    done ((s.updPw n fun p => { p with pg := true }).firePort n 3 1)
  else done s

end Sys2Proof.Machine
end

