-- ==== Sys2Proof/Machine/Feeds.lean ====
section
/-! DEFINITION. Feeds: supplies, the gap, the HBUS pre-charge, planned changes, PROG, BEN and HBUS OV (R14 to R17, R69,
R182, R420 to R428). The brown-out is in Boot.lean. -/

namespace Sys2Proof.Machine

/-! ## Supplies -/

/-- The voltage of a candidate's supply. -/
def State.supplyMv (s : State) (f : Feed) : Nat :=
  match f with
  | .none => 0 | .ku => s.fd.kuMv | .g => s.fd.gMv | .b => s.fd.bMv

/-- Notes a supply reading; B's passing of 36.0 V is timed (R62). -/
def setSupply (p : Supply) (mv : Nat) (s : State) : State :=
  match p with
  | .ku => { s with fd := { s.fd with kuMv := mv } }
  | .g => { s with fd := { s.fd with gMv := mv } }
  | .b => { s with fd := { s.fd with
      bMv := mv, bHigh := if mv ≤ 36000 then none else if s.fd.bHigh.isSome then s.fd.bHigh else some s.cc } }

/-- A supply reading as it acts: a B_PWR outside 18.0-32.0 V breaks B's seating (R399). -/
def noteSupply (p : Supply) (mv : Nat) (s : State) : State :=
  let s1 := setSupply p mv s
  if p = .b ∧ ¬(18000 ≤ mv ∧ mv ≤ 32000) then bBroken s1 else s1

/-- Marks a supply above its start threshold, or below its stop threshold (R69). -/
def setUp (p : Supply) (up : Bool) (s : State) : State :=
  match p with
  | .ku => { s with fd := { s.fd with kuUp := up } }
  | .g => { s with fd := { s.fd with gUp := up } }
  | .b => { s with fd := { s.fd with bUp := up } }

/-- The feed of a supply pin. -/
def feedOfSupply : Supply → Feed
  | .ku => .ku | .g => .g | .b => .b

/-- The cause with which the selected feed is lost for its supply, if it is (R62, R81, R182 to R184, R421): KU under its legacy limits
outside 12.0-60.0 V, or with LEGEN cleared (DESIGN CHOICE, log entry 108), and B outside R62 with cause SUPPLY; KU outside
20.0-32.0 V and G outside 45.6-50.4 V before PROG = 1 with cause WINDOW, the former feed of an LE3 trap excepted up to 56.0 V. -/
def supplyLoss (s : State) : Option (BitVec 4) :=
  match s.fd.feed with
  | .none => none
  | .ku =>
    let v := s.fd.kuMv
    if (s.port portKU).ct.state = .legacy then (if s.legacyFeed then none else some 6)
    else if s.fd.prog then none
    else if 20000 ≤ v ∧ v ≤ 32000 then none
    else if s.fd.exempt = .ku ∧ s.fd.kuUp = true ∧ v ≤ 56000 then none
    else some 5
  | .g =>
    let v := s.fd.gMv
    if s.fd.prog then none
    else if 45600 ≤ v ∧ v ≤ 50400 then none
    else if s.fd.exempt = .g ∧ s.fd.gUp = true ∧ v ≤ 56000 then none
    else some 5
  | .b =>
    if s.fd.prog then (if s.bWithin then none else some 6)
    else if s.fd.bUp ∧ s.fd.bMv ≤ 60000 then none else some 6

/-- The selected feed is lost for its supply, a KU outside its window with its contract (R83, R424). -/
def supplyLost (c : BitVec 4) (s : State) : State := feedLoss c (if c = 5 then endKuContract s else s)

/-- What follows a change of a supply: the selected feed is lost; a candidate that pre-charges HBUS and is eligible no more gives way to
the next (R182, R428); or a candidate is taken where none is selected. -/
def supplyChanged (s : State) : State :=
  match supplyLoss s with
  | some c => supplyLost c s
  | none => feedReview s

/-- The always-on domain has lost its power too: every comparator and receiver starts anew at the next power-up (R220, R427). The
HBUS UV comparator reads tripped at once. -/
def coldComparators (s : State) : State :=
  let s1 := allPorts.foldl (fun t n => t.updPort n fun p =>
    { p with pw := { p.pw with seat := .reset, settled := false }, cf := { p.cf with cf1 := .undecided, cf2 := .undecided }
             st := { p.st with pk := .reset, hsCmp := .reset, ov := .reset, uv := .reset }, wh := { p.wh with tone := .reset } }) s
  { s1 with fd := { s1.fd with ov := .reset } }

/-- SUPPLY_RISE (R69, R181, R421, R422): the start path takes the supply if it is eligible. -/
def execSupplyRise (p : Supply) (mv : Nat) (s : State) : Out := done (supplyChanged (setUp p true (noteSupply p mv s)))

/-- A supply below its stop threshold (R69, R83, R105, R184, R424, R428): KU leaves LEGACY, and in the debounce after it keeps its legacy
limits; a selected feed is lost with cause SUPPLY, a KU with its contract; a candidate in its pre-charge gives way to the next. B
falling while the hub is browned out takes the always-on domain with it (R427, R471). -/
def supplyFell (p : Supply) (mv : Nat) (s : State) : State :=
  let s1 := setUp p false (noteSupply p mv s)
  let f := feedOfSupply p
  let s2 := if p = .ku ∧ (s.port portKU).cf.attach = .legacy then
      attachEvent portKU 1 (endLegacy s1)
    else s1
  let s3 := if p = .b ∧ s2.dev.hold = .brownOut then
      coldComparators { s2 with bt := { s2.bt with rcause := 0, feedcause := 0, rsensor := 0, rpeak := 0 } }
    else s2
  if s3.fd.pre && decide (s3.fd.target = f) then preLost false s3
  else if s3.fd.feed = f then feedLoss 6 (if p = .ku then endKuContract s3 else s3)
  else s3

/-- SUPPLY_FALL (R424). -/
def execSupplyFall (p : Supply) (mv : Nat) (s : State) : Out := done (supplyFell p mv s)

/-- SUPPLY_RANGE_CHANGE (R62, R105, R182, R399): the reading enters or leaves a range; tLEGACY starts anew outside
20.0-32.0 V. -/
def execSupplyRangeChange (p : Supply) (mv : Nat) (s : State) : Out :=
  let s1 := noteSupply p mv s
  let s2 := if p = .ku ∧ s1.legacyCond = false then s1.updCf portKU fun c => { c with legacyDue := false } else s1
  done (supplyChanged s2)

/-! ## Closing a path -/

/-- The mode in which the selected path closes (R421, R423, R424): under the start path KU and G in BYPASS and B in START_REG;
else BOOST_IN where the supply is below HBUS and BUCK_IN otherwise. -/
def closeMode (s : State) (f : Feed) : StageMode :=
  if s.fd.prog then (if s.supplyMv f < s.fd.hbusMv then .boostIn else .buckIn)
  else if f = .b then .startReg else .bypass

/-- Closes the selected path: its mode is set with the reference at ILIMPK, HS clears, and the force-off that NOFEED put on
every port ends (R421 to R424, R427). -/
def closePath (s : State) : State :=
  let f := s.fd.feed
  match f.port with
  | none => s
  | some n =>
    let m := closeMode s f
    let s1 := { s with fd := { s.fd with gap := false, planned := false, pre := false, hbusLow := false } }
    let s2 := allPorts.foldl (fun t k => liftForce [.noFeed] k t) s1
    let s3 := liftForce [.trip, .hardShort, .seatBreak] n s2
    s3.updSt n fun t =>
      { t with hs := false, pendMode := none, prevMode := none, bypExit := none, bypBack := false
               mode := if t.force.isEmpty || !s.fd.prog then m else .off
               refCode := if s.fd.prog then BitVec.ofNat 10 (s.port n).ripe.ilimpk else t.refCode, refOld := none }

/-- FEED_GAP_END (R15, R423, R424): 20 µs after the opening the incoming path closes. -/
def execFeedGapEnd (s : State) : Out := if s.fd.gap then done (closePath s) else done s

/-- The HBUS pre-charge ends within 1.5 V of the supply (R422): the candidate is the feed and its path closes. -/
def preDone (s : State) : State :=
  let f := s.fd.target
  let s1 := { s with fd := { s.fd with feed := f, pre := false, cause := 9, chgcnt := satInc s.fd.chgcnt } }
  closePath ((ledgerRefresh s1).fire 139 (9 + 16 * f.code))

/-- HBUS_PRECHARGE_TIMEOUT (R422): the candidate is marked FAILED and the next one pre-charges. -/
def execHbusPrechargeTimeout (s : State) : Out := if s.fd.pre then done (preLost true s) else done s

/-! ## Planned changes, PROG and BEN -/

/-- Why a planned change is refused, in the order of R423. -/
def planRefused (s : State) (f : Feed) : Option (BitVec 4) :=
  if s.fd.gap ∨ s.fd.pre = true then some 4
  else if s.fd.prog = false ∨ s.eligible f = false then some 1
  else if allPorts.any (fun n => decide ((s.port n).st.mode = .bypass) && !s.isFeed n) then some 2
  else if s.availOf f < s.led.grantSum + s.led.tokRes then some 3
  else none

/-- A request for a planned change (R423): naming the present feed has no effect; an accepted one opens the present path, and
with it stops a KD drawing as sink (R177), and selects the target. -/
def planChange (f : Feed) (s : State) : State :=
  if f = .none ∨ f = s.fd.feed then s
  else match planRefused s f with
    | some c => { s with fd := { s.fd with refused := true, refcause := c } }
    | none =>
      let s1 := endStartReg (if s.kdSinks then openSwitch .off portKD s else s)
      let s2 := match s.fd.feed.port with
        | some n => dropPg n s1
        | none => s1
      let s3 := { s2 with fd := { s2.fd with last := s2.fd.feed, cause := 1, chgcnt := satInc s2.fd.chgcnt } }
      let s4 := selectFeed f (s3.fire 139 (1 + 16 * f.code))
      { s4 with fd := { s4.fd with planned := true } }

/-- PLAN (R423): from PC1, SV or the host. -/
def execPlan (w : Writer) (target : BitVec 2) (s : State) : Out :=
  if writerFeed w then done (planChange (feedOfCode target.toNat) s) else done (s.refuseWrite w 2)

/-- PROG clears (R268, R421, R447, R545): the start path holds the selected path in its own mode, or loses it. -/
def progClear (s : State) : State :=
  let s1 := { s with fd := { s.fd with prog := false } }
  match s1.fd.feed.port with
  | none => feedSeek s1
  | some n =>
    match supplyLoss s1 with
    | some c => supplyLost c s1
    | none =>
      if s1.fd.gap then s1
      else s1.updSt n fun t =>
        { t with mode := closeMode s1 s1.fd.feed, pendMode := none, prevMode := none, bypExit := none, bypBack := false }

/-- A write of PROG (R421): with 1 the stage stays as the start path left it. -/
def progSet (v : Bool) (s : State) : State :=
  if v = s.fd.prog then s
  else if v then feedSeek { s with fd := { s.fd with prog := true, exempt := .none } }
  else progClear s

/-- PROG_WRITE (R421). -/
def execProgWrite (w : Writer) (v : Bool) (s : State) : Out :=
  if writerFeed w then done (progSet v s) else done (s.refuseWrite w 2)

/-- A write of BEN (R424, R436): clearing it under PROG = 1 with B the feed is a feed loss with cause DISABLED. -/
def benSet (v : Bool) (s : State) : State :=
  let s1 := { s with fd := { s.fd with ben := v } }
  if !v && s.fd.ben && s.fd.prog && decide (s.fd.feed = .b) then feedLoss 12 s1 else feedSeek s1

/-- BEN_CLEAR (R424). -/
def execBenClear (w : Writer) (s : State) : Out :=
  if writerFeed w then done (benSet false s) else done (s.refuseWrite w 2)

/-! ## HBUS OV (R219, R426) -/

/-- The HBUS OV comparator trips. -/
def hbusOvTripped (s : State) : State :=
  let s1 := { s with fd := { s.fd with ov := { valid := true, out := true } } }
  let s2 := match s.fd.feed.port with
    | some n => forceOff .hbusOv n s1
    | none => s1
  feedLoss 7 (if s.kdSinks then forceOff .hbusOv portKD s2 else s2)

/-- HBUS_OV_TRIP (R426). -/
def execHbusOvTrip (s : State) : Out :=
  if s.fd.ov.valid && s.fd.ov.out then done s else done (hbusOvTripped s)

/-- HBUS_OV_RELEASE (R426, R427): the selector chooses as on a loss. -/
def execHbusOvRelease (s : State) : Out :=
  let was := s.fd.ov.valid && s.fd.ov.out
  let s1 := { s with fd := { s.fd with ov := { valid := true, out := false } } }
  let s2 := allPorts.foldl (fun t n => liftForce [.hbusOv] n t) s1
  if was && decide (s2.fd.feed = .none) && !s2.fd.pre then
    done (match s2.firstFeed with
      | .none => noFeed s2
      | _ => feedSeek s2)
  else done s2

end Sys2Proof.Machine
end

