-- ==== Sys2Proof/Machine/Telemetry.lean ====
section
/-! DEFINITION. Telemetry: the work of each microsecond on every port (pre-charge, ramp energy, fault timer, metering) and
the records of each millisecond (R401, R402, R406, R416 to R419, R422). -/

namespace Sys2Proof.Machine

/-- A quotient as a whole number: an exact one itself, of an inexact one the whole number below or above it, which is open
(DESIGN CHOICE, log entry 24). -/
def openQuot (a : Int) (d : Nat) : Int := a / d + (if a % d ≠ 0 ∧ Config.roundsUp a d = true then 1 else 0)

/-- Takes a port's newest conversions. -/
def takeSample (x : PortSample) (s : State) : State :=
  s.updPw x.port fun p => { p with vPort := x.vPort, vStage := x.vStage, iPort := x.iPort }

/-- Whether the fault timer counts up (R406, R407): LIMIT, or UV on a port that is ON. -/
def PortSt.faultInput (p : PortSt) : Bool :=
  p.st.limit || (decide (p.pw.sw = .on) && p.st.uv.valid && p.st.uv.out)

/-- One microsecond of a port's fault timer (R406): up by 8, stopping at FTIME, or down by 1. -/
def tickFault (n : Port) (s : State) : State :=
  let p := s.port n
  let top := 8000 * p.ripe.ftime
  if p.faultInput then
    s.updPw n fun q => { q with ftStart := if q.ftCount = 0 then s.cc else q.ftStart, ftCount := min top (q.ftCount + 8) }
  else s.updPw n fun q => { q with ftCount := q.ftCount - 1 }

/-- An accumulator and its remainder after `units` of 1/1024 µJ more, and whether it wrapped (R417). -/
def addEnergy (acc : BitVec 48) (rem units : Nat) : BitVec 48 × Nat × Bool :=
  let t := acc.toNat + (rem + units) / 1024
  (BitVec.ofNat 48 t, (rem + units) % 1024, decide (2 ^ 48 ≤ t))

/-- A wrap of an accumulator (R417, R436). -/
def energyWrap (n : Port) (imp : Bool) (s : State) : State :=
  { s with fd := { s.fd with wrapcnt := satInc s.fd.wrapcnt, wrapImp := imp, wrapPort := BitVec.ofNat 4 n.val } }.fire 151
    (n.val + 16 * b2n imp)

/-- One microsecond of a port's metering (R416, R417): the sums of the mean and the energy. -/
def tickMeter (n : Port) (s : State) : State :=
  let q := (s.port n).pw
  let m := (s.port n).me
  let pw : Int := q.vPort * q.iPort
  let units := (openQuot (pw.natAbs * 1024) 1000000).toNat
  let s1 := s.updMe n fun m =>
    { m with sumV := m.sumV + q.vPort, sumI := m.sumI + q.iPort, sumP := m.sumP + pw, count := m.count + 1 }
  if 0 ≤ pw then
    let e := addEnergy m.eexp m.remExp units
    let s2 := s1.updMe n fun m => { m with eexp := e.1, remExp := e.2.1 }
    if e.2.2 then energyWrap n false s2 else s2
  else if isW n then s1
  else
    let e := addEnergy m.eimp m.remImp units
    let s2 := s1.updMe n fun m => { m with eimp := e.1, remImp := e.2.1 }
    if e.2.2 then energyWrap n true s2 else s2

/-- One microsecond of a port's start (R401, R402): below 1.5 V across the main switch the ramp begins; in the ramp the energy
in pJ is summed, and at RAMPE the port trips. -/
def tickStart (n : Port) (s : State) : State :=
  let p := s.port n
  let dv := ((p.pw.vStage : Int) - p.pw.vPort).natAbs
  if p.pw.sw = .prechg then
    if dv < 1500 then s.updPw n fun q => { q with sw := .ramp, rampPj := 0 } else s
  else if p.pw.sw = .ramp then
    let e := p.pw.rampPj + dv * p.pw.iPort.natAbs
    let s1 := s.updPw n fun q => { q with rampPj := e }
    if 1000000000 * p.ripe.rampe ≤ e then trip n 4 s1 else s1
  else s

/-- One microsecond of a port. -/
def tickPort (n : Port) (s : State) : State := if s.has n then tickStart n (tickFault n (tickMeter n s)) else s

/-- HBUS of this microsecond (R422, R436): a pre-charge that has come within 1.5 V of its supply ends; HBUS below 18.0 V with no
feed asks for a pre-charge next time. -/
def tickHbus (mv : Nat) (s : State) : State :=
  let s1 := { s with fd := { s.fd with
    hbusMv := mv, hbusSum := s.fd.hbusSum + mv, hbusN := s.fd.hbusN + 1
    hbusLow := s.fd.hbusLow || (decide (mv < 18000) && decide (s.fd.feed = .none)) } }
  if s1.fd.pre && decide (s1.supplyMv s1.fd.target < mv + 1500) && !(s1.fd.ov.valid && s1.fd.ov.out) then preDone s1 else s1

/-- TELEMETRY_TICK (R402, R406, R416, R417, R422). -/
def execTelemetryTick (smp : List PortSample) (hbusMv : Nat) (s : State) : Out :=
  let s1 := smp.foldl (fun t x => if t.has x.port then takeSample x t else t) s
  done (tickHbus hbusMv (allPorts.foldl (fun t n => tickPort n t) s1))

/-- The means of the last millisecond (R416). -/
def updateMeans (n : Port) (s : State) : State :=
  s.updMe n fun m =>
    { m with vmeas := BitVec.ofInt 16 (openQuot m.sumV (10 * m.count))
             imeas := BitVec.ofInt 32 (openQuot m.sumI m.count)
             pmeas := BitVec.ofInt 32 (openQuot m.sumP (10000 * m.count))
             sumV := 0, sumI := 0, sumP := 0, count := 0 }

/-- The record of port n (R419): SEQ, the fields, the SEQ copy. -/
def portRecord (n : Port) (seq : Word) (s : State) : State :=
  let p := s.port n
  s.writeMem (0x30014400 + 64 * n.val)
    (bytesLE seq ++ bytesLE (setFld (swstat p.pw) 15 0 p.me.vmeas.toNat) ++ bytesLE p.me.imeas ++ bytesLE p.me.pmeas
      ++ toBytesLE 6 p.me.eexp.toNat ++ [0, 0] ++ toBytesLE 6 p.me.eimp.toNat ++ [0, 0] ++ List.replicate 28 0 ++ bytesLE seq)

/-- The HBUS record (R419). -/
def hbusRecord (seq : Word) (s : State) : State :=
  let m : MeterSt := match s.fd.feed.port with
    | some n => (s.port n).me
    | none => .reset
  s.writeMem 0x30014800
    (bytesLE seq ++ bytesLE (place s.fd.hbusmeas.toNat 0 ||| place s.fd.feed.code 16) ++ bytesLE m.imeas ++ bytesLE m.pmeas
      ++ List.replicate 44 0 ++ bytesLE seq)

/-- TELEMETRY_UPDATE (R416, R419). -/
def execTelemetryUpdate (s : State) : Out :=
  let s1 := allPorts.foldl (fun t n => if t.has n ∧ 0 < (t.port n).me.count then updateMeans n t else t) s
  let s2 := { s1 with fd := { s1.fd with
    telSeq := s1.fd.telSeq + 1
    hbusmeas := if 0 < s1.fd.hbusN then BitVec.ofInt 16 (openQuot s1.fd.hbusSum (10 * s1.fd.hbusN)) else s1.fd.hbusmeas
    hbusSum := 0, hbusN := 0 } }
  done (hbusRecord s2.fd.telSeq (allPorts.foldl (fun t n => if t.has n then portRecord n t.fd.telSeq t else t) s2))

end Sys2Proof.Machine
end

