-- ==== Sys2Proof/Machine/Moisture.lean ====
section
/-! DEFINITION. Moisture (R429 to R434). -/

namespace Sys2Proof.Machine

/-- MOISTCTL.EN (R435). -/
def GwSet.moistEn (g : GwSet) : Bool := bitOf g.moistctl 31
/-- MOISTCTL.MDG, µS (R430). -/
def GwSet.mdg (g : GwSet) : Nat := fld g.moistctl 7 3

/-- A port is unpowered (R429): its switch is open and discharged, it is not the feed, no CSUP is on. -/
def State.unpowered (s : State) (n : Port) : Bool :=
  let p := s.port n
  (decide (p.pw.sw = .off) || decide (p.pw.sw = .giveup) || decide (p.pw.sw = .offtime))
    && !s.isFeed n && !p.cf.csupOn && !p.cf.csupIn

/-- Whether signalling lets a measurement start (R431). -/
def State.lineQuiet (s : State) (n : Port) : Bool :=
  let p := s.port n
  let l := p.ln
  (decide (l.phase = .idle) || decide (l.phase = .retryWait)) && !l.receiving && l.nodOwed.isNone && l.notsupDue.isNone
    && (pendingTx n s).isEmpty && l.own.isEmpty && l.mark.isNone
    && (match nextOpenPip s n with
        | some d => !isW n || decide (900000 ≤ d)
        | none => true)
    && !p.st.testBusy

/-- MOISTURE_MEASUREMENT_START (R224, R429, R431): the presentations are removed for 2.5 ms, or nothing happens while
signalling needs the wires. -/
def execMoistureMeasurementStart (n : Port) (s : State) : Out :=
  if s.signals n && (s.port n).ripe.moistEn && s.unpowered n && s.lineQuiet n && !(s.port n).mo.measuring then
    done (s.updMo n fun m => { m with measuring := true })
  else done s

/-- The MOISTURE event of a port (R516). -/
def moistEvent (n : Port) (s : State) : State :=
  let m := (s.port n).mo
  s.firePort n 4 (b2n m.wet + 2 * m.pins.toNat)

/-- Flags a port wet (R433): MOISTURE fires as WET sets; a candidate in its pre-charge may be eligible no more (R428). -/
def flagWet (n : Port) (pins : BitVec 3) (s : State) : State :=
  let was := (s.port n).mo.wet
  let s1 := s.updMo n fun m => { m with wet := true, pins := pins, dryRuns := 0 }
  if was then s1 else feedReview (moistEvent n s1)

/-- Clears WET (R434). -/
def clearWet (n : Port) (s : State) : State :=
  let was := (s.port n).mo.wet
  let s1 := s.updMo n fun m => { m with wet := false, pins := 0 }
  if was then feedReview (moistEvent n s1) else s1

/-- The pins a measurement finds wet (R430): a rise of at least MDG, and on SEAT unseated at least 20 µS at 20 kHz. -/
def wetPins (p : PortSt) (r : MoistSample) : BitVec 3 :=
  let a := decide (p.ripe.mdg ≤ r.cf1G20 - r.cf1G1) && decide (r.cf1G1 ≤ r.cf1G20)
  let b := decide (p.ripe.mdg ≤ r.cf2G20 - r.cf2G1) && decide (r.cf2G1 ≤ r.cf2G20)
  let c := (decide (p.ripe.mdg ≤ r.seatG20 - r.seatG1) && decide (r.seatG1 ≤ r.seatG20))
    || (p.pw.seat.valid && !p.pw.seat.out && decide (20 ≤ r.seatG20))
  BitVec.ofNat 3 (b2n a + 2 * b2n b + 4 * b2n c)

/-- MOISTURE_MEASUREMENT_DONE (R429, R430, R433, R434). -/
def execMoistureMeasurementDone (n : Port) (r : MoistSample) (s : State) : Out :=
  let p := s.port n
  if p.mo.measuring then
    let pins := wetPins p r
    let dg := max (r.cf1G20 - r.cf1G1) (max (r.cf2G20 - r.cf2G1) (r.seatG20 - r.seatG1))
    let s1 := s.updMo n fun m =>
      { m with measuring := false, mcnt := m.mcnt + 1, dgmax := BitVec.ofNat 8 (min 255 dg) }
    if pins ≠ 0 then done (flagWet n pins s1)
    else
      let s2 := s1.updMo n fun m => { m with dryRuns := m.dryRuns + 1 }
      done (if 3 ≤ p.mo.dryRuns + 1 then clearWet n s2 else s2)
  else done s

/-- MOISTURE_YIELD (R431): the measurement ends, its result is discarded and YIELD counts. -/
def execMoistureYield (n : Port) (s : State) : Out :=
  if (s.port n).mo.measuring then done (s.updMo n fun m => { m with measuring := false, yield := satInc m.yield })
  else done s

/-- Whether leakage can be tracked on the wire that is not active (R432). -/
def State.tracks (s : State) (n : Port) : Bool :=
  let p := s.port n
  s.signals n && p.ripe.moistEn && (decide (p.pw.sw = .on) || s.isFeed n)
    && !p.cf.csupOn && !p.cf.csupIn && !p.cf.marker

/-- LEAKAGE_WET (R432, R433): the wire that is not active is the pin found wet. -/
def execLeakageWet (n : Port) (s : State) : Out :=
  if s.tracks n then done (flagWet n (if (s.port n).cf.active then 1 else 2) s) else done s

/-- LEAKAGE_DRY (R434). -/
def execLeakageDry (n : Port) (s : State) : Out := if s.tracks n then done (clearWet n s) else done s

/-- WET_TIMEOUT (R424, R433): 500 ms after the flag, a switch still ON above MVLIM opens with FAULT WET; a feed is lost with
cause WET. -/
def execWetTimeout (n : Port) (s : State) : Out :=
  let p := s.port n
  if p.mo.wet && aboveMvlim p.ripe p.ct.volt then
    if s.isFeed n then done (feedLoss 8 (fault n 0xA s))
    else if p.pw.sw = .on then done (openSwitch .off n (fault n 0xA s))
    else done s
  else done s

end Sys2Proof.Machine
end

