-- ==== Sys2Proof/Machine/Reset.lean ====
section
/-! DEFINITION. What a reset of the hub keeps and what it clears (R70, R104, R220, R421, R447, R466, R471, R474, R524, R545).
A reset leaves the hub in BOOTING, at cc 0; the command BOOT then runs the sequence of R472. -/

namespace Sys2Proof.Machine

/-! ## Operations cut off -/

/-- One read of a fuse word with one bit replaced. -/
def withBit (w : Word) (i : Nat) (b : Bool) : Word := setFld w i i (b2n b)

/-- A Stone word as it was programmed; unprogrammed words read 0 (R453). -/
def StoneSt.fuse (t : StoneSt) (w : Nat) : FuseWord :=
  (t.fuses.find? fun f => decide (f.word = w)).getD { word := w, normal := 0, low := 0, high := 0 }

/-- Replaces a Stone word. -/
def StoneSt.setFuse (t : StoneSt) (f : FuseWord) : StoneSt :=
  { t with fuses := t.fuses.filter (fun g => decide (g.word ≠ f.word)) ++ [f] }

/-- A Stone bit left partly programmed (R466): each of its three reads is open (DESIGN CHOICE, log entry 6). -/
def partBit (bit : Nat) (s : State) : State :=
  let a := s.freeB
  let b := a.2.freeB
  let c := b.2.freeB
  let f := s.stone.fuse (bit / 32)
  let i := bit % 32
  let g : FuseWord :=
    { f with normal := f.normal ||| withBit 0 i a.1, low := f.low ||| withBit 0 i b.1, high := f.high ||| withBit 0 i c.1 }
  { c.2 with stone := c.2.stone.setFuse g }

/-- The bits an operation of the Stone programs (R460 to R465, R467), as bit addresses. -/
def stoneBits (o : StoneOp) (life : BitVec 3) : List Nat :=
  if o.op = 1 then [o.arg.toNat]
  else if o.op = 2 then (List.range 4).map fun k => 32 + 8 * (o.arg.toNat % 4) + k
  else if o.op = 3 then (List.range 8).map fun k => 8 * life.toNat + k
  else (List.range 8).map fun k => 24 + k

/-- A Stone operation cut off (R466). -/
def cutStone (s : State) : State :=
  match s.stone.busy with
  | none => s
  | some o => (stoneBits o s.stone.life).foldl (fun t b => partBit b t) s

/-- One byte of a cut-off WRITE: each bit still to be cleared is cleared or not (R474, DESIGN CHOICE, log entry 6). -/
def cutByte (a : Nat) (new : Byte) (s : State) : State :=
  let f := s.free
  { f.2 with mem := memWrite f.2.mem a (memRead s.mem a &&& (new ||| f.1)) }

/-- The base of a slot (R473). -/
def slotBase (slot : Nat) : Nat := 0x60000000 + slot * 0x200000

/-- Bytes of a cut-off WRITE. -/
def cutBytes (a : Nat) : List Byte → State → State
  | [], s => s
  | b :: bs, s => cutBytes (a + 1) bs (cutByte a b s)

/-- One listed byte of a cut-off ERASE: each bit is set or not. -/
def cutErased (c : Host.Cell) (s : State) : State :=
  let f := s.free
  { f.2 with mem := memWrite f.2.mem c.1 (memRead s.mem c.1 ||| f.1) }

/-- An image-store operation cut off (R450, R474). -/
def cutImage (s : State) : State :=
  match s.bt.img with
  | none => s
  | some o =>
    if o.op = 1 then
      (s.mem.filter fun c => decide (slotBase o.slot ≤ c.1 ∧ c.1 < slotBase o.slot + 0x200000)).foldl
        (fun t c => cutErased c t) s
    else if o.op = 2 then cutBytes (slotBase o.slot + o.offset) (s.readMem o.src o.len) s
    else s

/-! ## The reset -/

/-- Port n after a reset: what the pins and the comparators show stays (R220), and the stage of a feed that the start path
holds (R70, R421). The attach machine of KU and G begins anew on what the wires read (R104). -/
def keepPort (s : State) (n : Port) : PortSt :=
  let p := s.port n
  let q := PortSt.reset n
  { q with
    pw := { q.pw with seat := p.pw.seat, settled := p.pw.settled, vPort := p.pw.vPort, vStage := p.pw.vStage,
                      iPort := p.pw.iPort }
    cf := { q.cf with cf1 := p.cf.cf1, cf2 := p.cf.cf2 }
    st := { q.st with pk := p.st.pk, hsCmp := p.st.hsCmp, ov := p.st.ov, uv := p.st.uv,
                      mode := if s.isFeed n then p.st.mode else .off }
    wh := { q.wh with tone := p.wh.tone } }

/-- A reset of the whole hub (R70, R524, R545): the start path takes the feed, operations under way are cut off, memory outside
the image store is lost, and every unit returns to its reset state. -/
def resetHub (s : State) : State :=
  let k := progClear (cutImage (cutStone s))
  let r := State.reset
  seekPartner portG (seekPartner portKU { r with
    freeCtr := k.freeCtr, pending := k.pending
    mem := k.mem.filter fun c => decide (0x60000000 ≤ c.1)
    dev := { k.dev with mode := .booting, hold := .none, asleep := false, sleepDue := false }
    stone := { r.stone with fuses := k.stone.fuses }
    bt := { r.bt with rcause := k.bt.rcause, feedcause := k.bt.feedcause, rsensor := k.bt.rsensor, rpeak := k.bt.rpeak }
    th := { r.th with sensors := k.th.sensors, fast := k.th.fast, calm := k.th.calm, now := k.th.now,
                      maxTemp := k.th.maxTemp, maxSensor := k.th.maxSensor }
    fd := { r.fd with feed := k.fd.feed, last := k.fd.last, cause := k.fd.cause, lossCause := k.fd.lossCause, gap := k.fd.gap,
                      pre := k.fd.pre, target := k.fd.target, hbusMv := k.fd.hbusMv, hbusLow := k.fd.hbusLow,
                      kuMv := k.fd.kuMv, gMv := k.fd.gMv, bMv := k.fd.bMv, bHigh := k.fd.bHigh, kuUp := k.fd.kuUp,
                      gUp := k.fd.gUp, bUp := k.fd.bUp, uv := k.fd.uv, ov := k.fd.ov, vhost := k.fd.vhost }
    ports := Vector.ofFn (keepPort k) })

/-- A reset with the cause it leaves in G.RSTCAUSE (R471). -/
def resetWith (cause : BitVec 4) (s : State) : State :=
  let k := resetHub s
  { k with bt := { k.bt with rcause := cause, feedcause := 0, rsensor := 0, rpeak := 0 } }

/-- RESET_N_LOW (R70, R448): below 100 ns ignored, from 1 µs a reset; between them one or the other, which is open (log
entry 6). In thermal shutdown a pulse changes nothing. -/
def execResetNLow (ns : Nat) (s : State) : Out :=
  if s.dev.mode = .shutdown ∨ s.dev.hold ≠ .none ∨ ns < 100 then done s
  else if 1000 ≤ ns then done (resetWith 1 s)
  else
    let f := s.freeB
    if f.1 then done (resetWith 1 f.2) else done f.2

/-- BROWN_OUT (R17, R427, R471, R545): the HBUS UV comparator trips: VHOST goes down, everything is held in reset, and the cause
with that of the last feed loss is kept while the always-on domain lives; without it the comparators start anew (R220). -/
def brownOut (s : State) : State :=
  if s.dev.hold = .brownOut then s
  else
    let thermal := decide (s.dev.mode = .shutdown)
    let loss := s.fd.lossCause
    let k := resetHub { s with fd := { s.fd with uv := { valid := true, out := true }, vhost := false, hbusLow := true } }
    let b := if k.fd.bUp then
        (if thermal then { k.bt with feedcause := loss } else { k.bt with rcause := 5, feedcause := loss, rsensor := 0, rpeak := 0 })
      else { k.bt with rcause := 0, feedcause := 0, rsensor := 0, rpeak := 0 }
    let h := { k with bt := b, dev := { k.dev with hold := .brownOut } }
    if k.fd.bUp then h else coldComparators h

/-- BROWN_OUT. -/
def execBrownOut (s : State) : Out := done (brownOut s)

/-- HBUS_UV_RELEASE (R17, R545): VHOST comes up, and a hub that was held boots in full. -/
def execHbusUvRelease (s : State) : Out :=
  let s1 := { s with fd := { s.fd with uv := { valid := true, out := false }, vhost := true } }
  if s.dev.hold = .brownOut then
    done { s1 with cc := 0, dev := { s1.dev with hold := .none, mode := .booting } }
  else done s1

/-! ## VALID (R220, R221) -/

/-- COMPARATOR_VALID: VALID becomes 1 and the output follows the input; a comparator whose first reading is tripped acts as on its
trip, SEAT unseated as a break (R398) and HBUS below 18.0 V as a brown-out (R545). The VALID of a CF detector is carried by its
reading (DEDUCED, log entry 23). For SEAT `tripped` says seated. VHOST comes up with the HBUS UV comparator valid and released
(R17). -/
def execComparatorValid (k : CmpName) (tripped : Bool) (s : State) : Out :=
  let c : Comparator := { valid := true, out := tripped }
  match k with
  | .pk n => done (s.updSt n fun t => { t with pk := c })
  | .hs n => if tripped && s.has n && s.hsArmed n then done (hardShort n s) else done (s.updSt n fun t => { t with hsCmp := c })
  | .ov n => if tripped then done (ovTripped n s) else done (s.updSt n fun t => { t with ov := c })
  | .uv n => if tripped then done (uvTripped n s) else done (s.updSt n fun t => { t with uv := c })
  | .cf1 _ => done s
  | .cf2 _ => done s
  | .seat n =>
    if tripped then done (liftForce [.seatBreak] n (s.updPw n fun p => { p with seat := c }))
    else if s.signals n then done (seatBroken n s)
    else done (s.updPw n fun p => { p with seat := c })
  | .tone n => done (s.updWh n fun w => { w with tone := c })
  | .hbusUv =>
    if tripped then done (brownOut s)
    else execHbusUvRelease s
  | .hbusOv => if tripped then done (hbusOvTripped s) else done { s with fd := { s.fd with ov := c } }

end Sys2Proof.Machine
end

