-- ==== Sys2Proof/Machine/Thermal.lean ====
section
/-! DEFINITION. The thermal guard (R437 to R452). Readings are in 1/16 °C. -/

namespace Sys2Proof.Machine

/-! ## Sensors and limits -/

/-- The classes of R437. -/
inductive SensorClass where
  | port | plate | device | store
deriving DecidableEq, Repr

/-- Class of a sensor (R437, R443): T18 and T19 have their own warning level. -/
def classOf (i : Nat) : SensorClass :=
  if i < 16 then .port else if i = 18 ∨ i = 19 then .plate else if i = 22 then .store else .device

/-- A sensor is present unless it is the stage sensor of a port the variant does not populate (R439). -/
def State.sensorPresent (s : State) (i : Fin 24) : Bool := if h : i.val < 16 then s.has ⟨i.val, h⟩ else true

/-- Absolute limit (R443, R452). -/
def absLimit (ctl : Word) (i : Nat) : Int :=
  16 * (match classOf i with
    | .port => (fld ctl 31 24 : Int)
    | .store => (fld ctl 7 0 : Int)
    | _ => 150)

/-- Warning level (R443, R452). -/
def warnLevel (ctl : Word) (i : Nat) : Int :=
  16 * (match classOf i with
    | .port => (fld ctl 23 16 : Int)
    | .plate => (fld ctl 15 8 : Int)
    | .store => (fld ctl 7 0 : Int) - 10
    | .device => 135)

/-- A sensor's reading as a number (R438). -/
def Sensor.reading (x : Sensor) : Int := x.temp.toInt

/-- Sensor i replaced by f of it. -/
def State.updSensor (s : State) (i : Fin 24) (f : Sensor → Sensor) : State :=
  { s with th := { s.th with sensors := s.th.sensors.set i (f s.th.sensors[i]) } }

/-- A reading is bad: open, short, or outside −55 to +200 °C (R438). -/
def badReading (r : Option Int) : Bool :=
  match r with
  | none => true
  | some v => decide (v < -880) || decide (3200 < v)

/-- A sensor after a sample (R438): whether it became broken or valid with it too. -/
def sampleSensor (x : Sensor) (r : Option Int) : Sensor × Bool :=
  if badReading r then
    let y := { x with bad := x.bad + 1, good := 0 }
    if x.broken then (y, false)
    else if 2 ≤ x.bad + 1 then ({ y with broken := true, temp := 0x0C80 }, true)
    else (y, false)
  else
    let v : BitVec 16 := BitVec.ofInt 16 (r.getD 0)
    let y := { x with good := x.good + 1, bad := 0 }
    if x.broken then (if 2 ≤ x.good + 1 then ({ y with broken := false, temp := v }, true) else (y, false))
    else ({ y with temp := v }, false)

/-- Whether this round's rate of rise exceeds 8 °C/s (R442): the reading less the newest one at least 20 ms old, over 20 ms;
8 °C/s is 2.56 units of 1/16 °C in 20 ms. -/
def rateHigh (x : Sensor) (now : Nat) : Bool :=
  match x.hist.find? fun h => decide (h.1 + 40 ≤ now) with
  | some h => !x.broken && decide (256 < 100 * (x.reading - h.2))
  | none => false

/-- The rate judgement of a round (R442): exceeded when every evaluation of the last 50 ms is high. `changed` says that the
sensor became broken or valid in this round, which gives no rate. -/
def judgeRate (x : Sensor) (changed : Bool) (now : Nat) : Sensor × Bool :=
  let high := !changed && rateHigh x now
  let last := if high then x.rateLastNo else now
  let keep := (if changed then [] else x.hist).takeWhile fun h => decide (now < h.1 + 80)
  let older := ((if changed then [] else x.hist).dropWhile fun h => decide (now < h.1 + 80)).take 1
  ({ x with rate := high && decide (100 ≤ now - last), rateLastNo := last, hist := (now, x.reading) :: keep ++ older }, high)

/-! ## Shutdown (R447) -/

/-- Device thermal shutdown (R447 to R450): force-off on every port, cores, line PHYs, pip scheduler and ledger in reset, PROG
cleared, operations cut off, a pending RIPEN cancelled, the cause retained; from this cc no event fires. -/
def enterShutdown (i : Fin 24) (s : State) : State :=
  let s1 := allPorts.foldl (fun t n => openSwitch .off n (forceOff .thermal n t)) (cutImage (cutStone s))
  let s2 := allPorts.foldl (fun t n =>
    (t.updLn n fun _ => .reset).updPort n fun p =>
      { p with wh := { WheelSt.reset with tone := p.wh.tone }, st := { p.st with ripPend := false } }) s1
  let r := State.reset
  let s3 := { s2 with
    cores := r.cores, led := r.led
    tim := { s2.tim with queue := [], pipnote := r.tim.pipnote }
    stone := { s2.stone with busy := none }
    bt := { s2.bt with img := none, rcause := 4, feedcause := 0, rsensor := BitVec.ofNat 5 i.val,
                       rpeak := s.th.sensors[i].temp } }
  { progClear { s3 with dev := { s3.dev with mode := .shutdown } } with evq := s.evq, cores := r.cores, led := r.led }

/-! ## A sampling round (R441) -/

/-- Fires EV_THERMAL_WARNING, EV_THERMAL_RATE or EV_SENSOR_BROKEN with the sensor and its reading (R443, R516). -/
def thermEvent (e : Nat) (i : Fin 24) (s : State) : State :=
  s.fire e (i.val + (if e = 138 then 0 else 256 * (s.th.sensors[i]).temp.toNat))

/-- A port trip by its stage sensor (R444): a port that is off is held off; KD drawing as sink opens without a trip. -/
def thermTrip (n : Port) (s : State) : State :=
  let s1 := s.updPw n fun p => { p with thermHold := true }
  if !s.hsArmed n then s1
  else
    let s2 := { s1 with th := { s1.th with ptrip := satInc s1.th.ptrip } }
    if n = portKD ∧ (s.port n).cf.attach = .attachedSnk then openSwitch .off n s2 else trip n 6 s2

/-- What one sensor's sample does to the sensor itself: its reading, its counts and bits, and whether it warns, begins a rate
excess or passes its limit for the second time. -/
def roundSensor (ctl : Word) (i : Nat) (now : Nat) (x : Sensor) (r : Option Int) :
    Sensor × (Bool × Bool × Bool × Bool × Bool) :=
  let a := sampleSensor x r
  let j := judgeRate a.1 a.2 now
  let y := j.1
  let above := decide (absLimit ctl i ≤ y.reading)
  let warm := decide (warnLevel ctl i ≤ y.reading)
  let single := badReading r && !y.broken
  let ol := if above then (if single then x.overLim else x.overLim + 1) else 0
  let ow := if warm then (if single then x.overWarn else x.overWarn + 1) else 0
  let fires := x.warnArmed && decide (2 ≤ ow)
  let armed := if fires then false else x.warnArmed || decide (y.reading ≤ warnLevel ctl i - 80)
  ({ y with overLim := ol, overWarn := ow, limit := above, warn := warm, warnArmed := armed },
   (a.2 && y.broken, fires, y.rate && !x.rate, decide (ol = 2) && decide (x.overLim = 1), j.2))

/-- One sensor of a round (R438 to R444). -/
def stepSensor (i : Fin 24) (r : Option Int) (s : State) : State :=
  if !s.sensorPresent i then s
  else
    let o := roundSensor s.th.thermctl i.val s.th.now s.th.sensors[i] r
    let s1 := s.updSensor i fun _ => o.1
    let s2 := if o.2.1 then thermEvent 138 i s1 else s1
    let s3 := if o.2.2.1 then
        thermEvent 135 i { s2 with th := { s2.th with warncnt := satInc s2.th.warncnt } } else s2
    let s4 := if o.2.2.2.1 then
        thermEvent 136 i { s3 with th := { s3.th with ratecnt := satInc s3.th.ratecnt } } else s3
    if h : i.val < 16 then
      if o.2.2.2.1 || o.2.2.2.2.1 then thermTrip ⟨i.val, h⟩ s4 else s4
    else s4

/-- A device sensor has stood beyond 150 °C on two consecutive samples (R443, R447). -/
def deviceOver (s : State) : Option (Fin 24) :=
  (List.finRange 24).find? fun i =>
    decide (classOf i.val = .device ∨ classOf i.val = .plate) && decide (2 ≤ s.th.sensors[i].overLim)

/-- Whether a sensor asks for the fast rate (R441). -/
def State.sensorHot (s : State) (i : Fin 24) : Bool :=
  let x := s.th.sensors[i]
  s.sensorPresent i && (decide (absLimit s.th.thermctl i.val - 240 ≤ x.reading) || decide (x.rateLastNo < s.th.now))

/-- TEMP_MAX: the highest reading among the sensors present, the lowest index on a tie (R440). -/
def State.hottest (s : State) : Fin 24 :=
  ((List.finRange 24).filter fun i => s.sensorPresent i).foldl
    (fun b i => if s.sensorPresent b = false ∨ s.th.sensors[b].reading < s.th.sensors[i].reading then i else b) 0

/-- G.TEMPMAX (R452). -/
def tempMaxWord (t : ThermalSt) : Word := place t.maxSensor.toNat 16 ||| place t.maxTemp.toNat 0

/-- G.THERMSTAT (R452). -/
def thermstat (s : State) : Word :=
  placeB (decide (s.dev.mode = .shutdown)) 31 ||| placeB s.th.fast 30
    ||| (List.finRange 24).foldl (fun w i => w ||| placeB s.th.sensors[i].broken i.val) 0

/-- The thermal record (R451), at most once per 1 ms. -/
def thermRecord (s : State) : State :=
  if s.th.fast ∧ s.th.now % 2 = 1 then s
  else
    let seq := s.th.seq + 1
    { s with th := { s.th with seq := seq } }.writeMem 0x30014840
      (bytesLE seq ++ bytesLE (tempMaxWord s.th)
        ++ (s.th.sensors.toList.flatMap fun (x : Sensor) => toBytesLE 2 x.temp.toNat)
        ++ bytesLE (thermstat s) ++ bytesLE seq)

/-- A hot or broken stage sensor lets its port go (R444): the off-time that waited for it ends. -/
def releaseHold (n : Port) (s : State) : State :=
  let x := s.th.sensors[n.val]
  if (s.port n).pw.thermHold && !x.broken && !x.rate && decide (x.reading < absLimit s.th.thermctl n.val - 160) then
    resumeOffTime n (s.updPw n fun p => { p with thermHold := false })
  else s

/-- One sampling round (R438 to R451). -/
def thermalRound (readings : List (Option Int)) (s : State) : State :=
  let s0 := { s with th := { s.th with now := s.th.now + (if s.th.fast then 1 else 40) } }
  let s1 := (List.finRange 24).foldl (fun t i =>
    match readings[i.val]? with
    | some r => stepSensor i r t
    | none => t) s0
  let hot := (List.finRange 24).any fun i => s1.sensorHot i
  let m := s1.hottest
  let s2 := { s1 with th := { s1.th with
    fast := hot || (s1.th.fast && decide (s1.th.calm + 1 < 100))
    calm := if hot then 0 else s1.th.calm + 1
    maxTemp := s1.th.sensors[m].temp, maxSensor := BitVec.ofNat 5 m.val } }
  let s3 := if s2.dev.mode = .shutdown then
      let p := s2.th.sensors[s2.bt.rsensor.toNat % 24]'(by omega)
      if (s2.bt.rpeak.toInt) < p.reading then { s2 with bt := { s2.bt with rpeak := p.temp } } else s2
    else match deviceOver s2 with
      | some i => enterShutdown i s2
      | none => s2
  let s4 := thermRecord s3
  if s4.dev.mode = .shutdown then s4
  else allPorts.foldl (fun t n => releaseHold n t) s4

/-- THERMAL_ROUND: every sensor is sampled; `readings` are in sensor order, none for open or short. A hub without HBUS samples nothing
(R427). -/
def execThermalRound (readings : List (Option Int)) (s : State) : Out :=
  if s.dev.hold = .brownOut then done s else done (thermalRound readings s)

/-- THERMAL_SHUTDOWN_END (R449): TEMP_MAX has stayed below 125 °C for 3.0 s; the hub boots in full. -/
def execThermalShutdownEnd (s : State) : Out :=
  if s.dev.mode = .shutdown ∧ s.th.maxTemp.toInt < 2000 then done (resetHub s) else done s

end Sys2Proof.Machine
end

