-- ==== Sys2Proof/Machine/Stone.lean ====
section
/-! DEFINITION. Operations of the Stone: programming, LOCK, ADVANCE, SCRAP and their end (R326, R327, R454, R462 to R467).
The requests of SV come through OTPU, those of the host through OTPCMD (Machine/HostBus.lean). -/

namespace Sys2Proof.Machine

/-- The area of a Stone word (R453): 0 LIFE, 1 VEND, 2 CUST, 3 RSVD. -/
def areaOf (w : Nat) : Nat := if w < 64 then 0 else if w < 512 then 1 else if w < 1536 then 2 else 3

/-- First covered word and integrity word of an area (R453). -/
def areaRange (a : Nat) : Nat × Nat :=
  if a = 0 then (2, 63) else if a = 1 then (64, 511) else if a = 2 then (512, 1535) else (1536, 2047)

/-- The integrity word over words read at one reference (R454). -/
def integrityOf (rd : Nat → Word) (a : Nat) : Word :=
  let r := areaRange a
  crc32 ((List.range (r.2 - r.1)).flatMap fun k => bytesBE (rd (r.1 + k)))

/-- Whether one read of an area matches its integrity word (R454). -/
def integrityHolds (rd : Nat → Word) (a : Nat) : Bool := decide (integrityOf rd a = rd (areaRange a).2)

/-- The fresh margin reads of an area both match (R464). -/
def StoneSt.freshMatch (t : StoneSt) (a : Nat) : Bool :=
  integrityHolds (fun w => (t.fuse w).low) a && integrityHolds (fun w => (t.fuse w).high) a

/-- The lock copies of an area, in one read of word 1 (R461). -/
def lockRead (w : Word) (a : Nat) : Bool := decide (fld w (8 * a + 3) (8 * a) ≠ 0)

/-- An area is locked in a fresh margin read (R461, R465). -/
def StoneSt.freshLocked (t : StoneSt) (a : Nat) : Bool := lockRead (t.fuse 1).low a || lockRead (t.fuse 1).high a

/-- An area is locked and GOOD in fresh margin reads (R458, R465): no word differs between them, and both match. -/
def StoneSt.freshGood (t : StoneSt) (a : Nat) : Bool :=
  t.freshLocked a && t.freshMatch a &&
    t.fuses.all fun f => decide (f.word < 2) || decide (areaOf f.word ≠ a) || decide (f.low = f.high)

/-- Temperature and supply for programming (R463): T16 and T17 within 0-85 °C, HBUS not below 20.0 V. -/
def State.stoneConditions (s : State) : Bool :=
  let ok (i : Fin 24) : Bool := decide (0 ≤ s.th.sensors[i].temp.toInt ∧ s.th.sensors[i].temp.toInt ≤ 1360)
  ok 16 && ok 17 && decide (20000 ≤ s.fd.hbusMv)

/-- The state of R462 allows PGM of a word: LIFE words 2-63, VEND and RSVD in VENDOR, CUST in PROVISION. -/
def pgmAllowed (life : BitVec 3) (w : Nat) : Bool :=
  (decide (life = 1) && decide (2 ≤ w) && decide (areaOf w ≠ 2)) || (decide (life = 2) && decide (areaOf w = 2))

/-- The state of R462 allows LOCK of an area. -/
def lockAllowed (life : BitVec 3) (a : Nat) : Bool :=
  (decide (life = 1) && decide (a ≠ 2)) || (decide (life = 2) && decide (a = 2))

/-- The code with which a request ends before anything is programmed (R463 to R465), none if it runs. -/
def stoneRefusal (s : State) (o : StoneOp) : Option (BitVec 4) :=
  let t := s.stone
  let a := o.arg.toNat % 4
  if t.restrict ∨ ¬ s.stoneConditions then some 3
  else if o.op = 1 then
    let w := o.arg.toNat / 32
    let f := t.fuse w
    if !pgmAllowed t.life w then some 3
    else if bitOf t.locks (areaOf w) then some 4
    else if bitOf f.low (o.arg.toNat % 32) && bitOf f.high (o.arg.toNat % 32) then some 1
    else none
  else if o.op = 2 then
    if !lockAllowed t.life a then some 3
    else if bitOf t.locks a then some 4
    else if !t.freshMatch a then some 5
    else none
  else if o.op = 3 then
    if t.life = 1 then (if t.freshGood 0 && t.freshGood 1 && t.freshGood 3 then none else some 5)
    else if t.life = 2 then (if t.freshGood 2 then none else some 5)
    else some 3
  else if t.life = 0 then some 3
  else none

/-- A Stone operation ends with a code (R327, R467): the result is recorded, event 147 and SV's source 6 fire. -/
def stoneEnd (code : BitVec 4) (s : State) : State :=
  let t := s.stone
  let sv := decide (t.src = 2)
  let s1 := { s with stone := { t with busy := none, done := true, code := code
                                       otpuDone := t.otpuDone || sv
                                       otpuCode := if sv then code else t.otpuCode } }
  (s1.fireSrc coreSV 6).fire 147 code.toNat

/-- A request while an operation runs (R327, R463): not performed, BUSY recorded. -/
def stoneBusy (src : BitVec 2) (s : State) : State :=
  let t := s.stone
  let s1 := { s with stone := { t with done := true, code := 2
                                       otpuDone := t.otpuDone || decide (src = 2)
                                       otpuCode := if src = 2 then 2 else t.otpuCode } }
  (s1.fireSrc coreSV 6).fire 147 2

/-- A request for a Stone operation (R463 to R467) from requester 1 (host) or 2 (SV). -/
def stoneRequest (src : BitVec 2) (o : StoneOp) (s : State) : State :=
  let t := s.stone
  if t.busy.isSome then stoneBusy src s
  else
    let s1 := { s with stone := { t with src := src, op := o.op, arg := o.arg
                                         otpuDone := t.otpuDone && decide (src ≠ 2) } }
    match stoneRefusal s o with
    | some code => stoneEnd code s1
    | none => { s1 with stone := { s1.stone with busy := some o } }

/-- A bit programmed in full: it reads 1 at all three references (R463). -/
def setFuseBit (bit : Nat) (t : StoneSt) : StoneSt :=
  let f := t.fuse (bit / 32)
  let m := withBit 0 (bit % 32) true
  t.setFuse { f with normal := f.normal ||| m, low := f.low ||| m, high := f.high ||| m }

/-- A bit that failed after eight pulses (R463): it does not read 1 at both margins; what each read gives is otherwise open
(DESIGN CHOICE, log entry 6). -/
def failFuseBit (bit : Nat) (s : State) : State :=
  let a := s.freeB
  let b := a.2.freeB
  let c := b.2.freeB
  let f := s.stone.fuse (bit / 32)
  let i := bit % 32
  let g : FuseWord :=
    { f with normal := f.normal ||| withBit 0 i a.1, low := withBit f.low i b.1, high := withBit f.high i (!b.1 && c.1) }
  { c.2 with stone := c.2.stone.setFuse g }

/-- STONE_OPERATION_DONE (R463 to R465): `ok` says whether every bit passed. Of a LOCK, ADVANCE or SCRAP that ends with
VERIFY it is open which bits took (DESIGN CHOICE, log entry 6). -/
def execStoneOperationDone (ok : Bool) (s : State) : Out :=
  match s.stone.busy with
  | none => done s
  | some o =>
    let bits := stoneBits o s.stone.life
    if ok then done (stoneEnd 1 { s with stone := bits.foldl (fun t b => setFuseBit b t) s.stone })
    else if o.op = 1 then done (stoneEnd 6 (failFuseBit o.arg.toNat s))
    else done (stoneEnd 6 (bits.foldl (fun t b => partBit b t) s))

/-- A trigger on OTPU.PGM (R326): bit address in [15:0]. -/
def otpuPgm (v : Word) (s : State) : State := stoneRequest 2 ⟨1, v.extractLsb' 0 16⟩ s

/-- A trigger on OTPU.LOCK (R326): area in [1:0]. -/
def otpuLock (v : Word) (s : State) : State := stoneRequest 2 ⟨2, BitVec.ofNat 16 (v.toNat % 4)⟩ s

end Sys2Proof.Machine
end

