-- ==== Sys2Proof/Machine/Gw.lean ====
section
/-! DEFINITION. The green and ripe registers of a port (R12, R186, R202, R228, R344, R354, R396, R435): their places, their
writable bits and what they refuse. -/

namespace Sys2Proof.Machine

/-- The offsets of the green registers in a port page; the ripe copy of each stands 4 bytes above it. -/
def gwOffsets : List Nat := [0x000, 0x008, 0x060, 0x208, 0x210, 0x300, 0x308, 0x310, 0x400, 0x520]

/-- The register at a green offset. -/
def gwGet (g : GwSet) (off : Nat) : Word :=
  match off with
  | 0x000 => g.startcfg | 0x008 => g.fusecfg | 0x060 => g.moistctl | 0x208 => g.ctrpol | 0x210 => g.ctrdef
  | 0x300 => g.pwmcfg | 0x308 => g.pkcfg | 0x310 => g.winth | 0x400 => g.adcset | 0x520 => g.burstctl | _ => 0

/-- A set with the register at a green offset replaced. -/
def gwPut (g : GwSet) (off : Nat) (w : Word) : GwSet :=
  match off with
  | 0x000 => { g with startcfg := w } | 0x008 => { g with fusecfg := w } | 0x060 => { g with moistctl := w }
  | 0x208 => { g with ctrpol := w } | 0x210 => { g with ctrdef := w } | 0x300 => { g with pwmcfg := w }
  | 0x308 => { g with pkcfg := w } | 0x310 => { g with winth := w } | 0x400 => { g with adcset := w }
  | 0x520 => { g with burstctl := w } | _ => g

/-- What a write of a value leaves in a green register: reserved bits read 0 (R511), SLOT0 reads 1 (R354). -/
def gwValue (off : Nat) (v : Word) : Word :=
  match off with
  | 0x008 => v &&& 0xFFFFFF00 | 0x060 => v &&& 0x80FFFFF8 | 0x210 => v &&& 0x07FFFFFF | 0x308 => v &&& 0xFFFFFFE0
  | 0x310 => v &&& 0xFFFFFFC0 | 0x400 => (v &&& 0x00F701FE) ||| 1 | 0x520 => v &&& 0xBFFFE000 | _ => v

/-- A field of a value outside a range. -/
def outside (v : Word) (hi lo a b : Nat) : Bool := decide (fld v hi lo < a) || decide (b < fld v hi lo)

/-- Whether a value for the green register of port n is reserved (R186, R202, R207, R228, R354, R396, R435). -/
def gwReserved (s : State) (n : Port) (off : Nat) (v : Word) : Bool :=
  let w := isW n
  match off with
  | 0x000 => outside v 31 24 1 255 || outside v 23 16 5 200 || outside v 15 0 1 2000
  | 0x008 => outside v 31 24 1 100 || outside v 23 16 1 20
  | 0x060 => decide (n = portB) || outside v 23 16 1 255 || outside v 15 8 5 56 || outside v 7 3 1 31
  | 0x208 =>
    if n = portB then decide (fld v 27 0 ≠ 0)
    else outside v 27 24 1 15 || outside v 23 16 10 200 || outside v 15 8 5 200 || outside v 7 4 3 10
      || (bitOf v 3 && decide (n ≠ portKU)) || (bitOf v 2 && (w || !s.isDmh16))
  | 0x210 =>
    decide (n = portB)
      || (if w then outside v 26 16 100 560 else outside v 26 16 (if n = portG then 720 else 240) 1120 || bitOf v 16)
      || (if n = portKU then outside v 15 9 4 40 else decide (fld v 15 9 ≠ 0))
      || outside v 8 0 1 (if w then 5 else if n = portG then 50 else 100)
  | 0x300 =>
    if w then outside v 31 22 30 141 || outside v 21 12 0 149 || outside v 11 6 6 63 || outside v 5 0 1 15
    else outside v 31 22 60 570 || outside v 21 12 0 599 || outside v 11 6 15 63 || outside v 5 0 6 60
  | 0x308 => if w then decide (fld v 21 12 < fld v 31 22) else decide (fld v 21 12 ≠ 0)
  | 0x310 => decide (fld v 31 22 ≤ fld v 21 12) || decide (fld v 11 6 = 0)
  | 0x400 =>
    decide (7 < fld v 23 20) || decide (2 ^ fld v 23 20 ≤ fld v 18 16) || (w && bitOf v 8)
      || decide ((if w then fld v 7 2 else fld v 7 4) ≠ 0)
  | 0x520 =>
    !w || (bitOf v 31 && decide (fld v 19 13 = 0))
      || (decide (fld v 29 20 ≠ 0) && outside v 29 20 10 1000) || decide (100 < fld v 19 13)
  | _ => true

/-- A write of a green register that is not refused. -/
def gwWrite (n : Port) (off : Nat) (v : Word) (s : State) : State :=
  s.updPort n fun p => { p with green := gwPut p.green off (gwValue off v) }

end Sys2Proof.Machine
end

