-- ==== Sys2Proof/Machine/Image.lean ====
section
/-! DEFINITION. The image store: records, manifests, set acceptance, resource claims, the load of a set, LOADGREEN and the
operations of IMGCMD (R473 to R491). -/

namespace Sys2Proof.Machine

/-! ## Records (R473 to R475) -/

/-- One record. -/
structure Rec where
  kind : Nat
  payload : List Byte
  next : Nat

/-- The record at an offset of a slot: none where it runs past the slot or its CRC fails (R473, R474). -/
def recAt (s : State) (base off : Nat) : Option Rec :=
  let tag := s.readMem (base + off) 4
  let len := natBE (tag.drop 1)
  if 0x200000 < off + 8 + len then none
  else
    let pay := s.readMem (base + off + 4) len
    if (crc32 (tag ++ pay)).toNat = natBE (s.readMem (base + off + 4 + len) 4) then
      some { kind := natBE (tag.take 1), payload := pay, next := (off + 8 + len + 15) / 16 * 16 }
    else none

/-- One image: its manifest and its body. -/
structure Img where
  man : List Byte
  body : List Byte

/-- The images of a slot after its header, up to END; none where the order is broken (R474). -/
def imagesAt (s : State) (base : Nat) : Nat → Nat → Option (List Img)
  | 0, _ => none
  | fuel + 1, off =>
    match recAt s base off with
    | none => none
    | some r =>
      if r.kind = 0x7F then some []
      else if r.kind = 2 then
        match recAt s base r.next with
        | none => none
        | some b =>
          if b.kind = 3 then
            match imagesAt s base fuel b.next with
            | none => none
            | some l => some ({ man := r.payload, body := b.payload } :: l)
          else none
      else none

/-- Bytes [a, a + k) of a list. -/
def sub (bs : List Byte) (a k : Nat) : List Byte := (bs.drop a).take k

/-- A SLOTHDR that is intact (R475). -/
def headerAt (s : State) (base : Nat) : Option Rec :=
  match recAt s base 0 with
  | none => none
  | some r =>
    if r.kind = 1 ∧ r.payload.length = 76 ∧ natBE (sub r.payload 0 4) = 0xD3160001 ∧ natBE (sub r.payload 72 4) = 0 then some r
    else none

/-- GEN of a SLOTHDR. -/
def genOf (r : Rec) : Nat := natBE (sub r.payload 4 4)

/-! ## Manifests and bodies (R476, R481) -/

/-- The kind of an image (R476). -/
def Img.kind (i : Img) : Nat := natBE (sub i.man 0 1)

/-- What a manifest provides and requires, and how many claims stand where. -/
def Img.req (i : Img) : List (BitVec 16) := (List.range 8).map fun k => BitVec.ofNat 16 (natLE (sub i.man (12 + 2 * k) 2))
/-- PROV. -/
def Img.prov (i : Img) : Word := BitVec.ofNat 32 (natBE (sub i.man 8 4))
/-- STEPMASK. -/
def Img.stepmask (i : Img) : Word := BitVec.ofNat 32 (natBE (sub i.man 28 4))
/-- Offset of the claim list in the body. -/
def Img.claimOff (i : Img) : Nat := natBE (sub i.man 68 2)
/-- Number of claims. -/
def Img.claimCount (i : Img) : Nat := natBE (sub i.man 70 2)

/-- A body section. -/
structure Section_ where
  target : Nat
  area : Nat
  off : Nat
  data : List Byte

/-- The sections of a body from a position on, the claim list left out; none where one runs past the body or a byte of 0 is
not 0. -/
def sectionsFrom (i : Img) : Nat → Nat → Option (List Section_)
  | 0, _ => none
  | fuel + 1, pos =>
    if i.body.length ≤ pos then some []
    else if i.claimCount ≠ 0 ∧ pos = i.claimOff then sectionsFrom i fuel (pos + 16 * i.claimCount)
    else
      let h := sub i.body pos 16
      let len := natBE (sub h 8 4)
      if i.body.length < pos + 16 + len ∨ natBE (sub h 2 2) ≠ 0 ∨ natBE (sub h 12 4) ≠ 0 then none
      else
        match sectionsFrom i fuel ((pos + 16 + len + 15) / 16 * 16) with
        | none => none
        | some l => some ({ target := natBE (sub h 0 1), area := natBE (sub h 1 1), off := natBE (sub h 4 4),
                            data := sub i.body (pos + 16) len } :: l)

/-- The sections of a body. -/
def Img.sections (i : Img) : Option (List Section_) := sectionsFrom i (i.body.length / 16 + 2) 0

/-- The claims of a body (R482); none where the list runs past the body. -/
def Img.claimList (i : Img) : Option (List (Claim × Bool)) :=
  if i.body.length < i.claimOff + 16 * i.claimCount ∧ i.claimCount ≠ 0 then none
  else some ((List.range i.claimCount).map fun k =>
    let b := sub i.body (i.claimOff + 16 * k) 16
    ({ type := b.getD 0 0, owner := b.getD 1 0, index := b.getD 2 0, rights := b.getD 3 0,
       first := BitVec.ofNat 32 (natBE (sub b 4 4)), last := BitVec.ofNat 32 (natBE (sub b 8 4)) },
     decide (natBE (sub b 12 4) = 0)))

/-- What an image of a slot brings besides its bytes. -/
def Img.toMeta (slot : Nat) (i : Img) : ImageMeta :=
  { prov := i.prov, req := i.req, claims := (i.claimList.getD []).map (·.1), slot := some (decide (slot = 1)) }

/-- Size of an area of a target core (R257, R342, R481). DMEM of a loop engine is its data window, the X bank. -/
def areaSize (target area : Nat) : Nat :=
  match area with
  | 1 => if target < 4 then 0x4000 else if target < 6 then 0x8000 else 0x10000
  | 2 => 0x2000
  | 3 => 0x2000
  | 4 => if target < 4 then 0x2000 else 0x10000
  | 5 => 0x400
  | _ => 0x600

/-- Whether a section is allowed in an image of its kind, and stays in its area (R481). -/
def sectionAllowed (s : State) (kind : Nat) (x : Section_) : Bool :=
  let place := match kind with
    | 1 => decide (x.target < 4) && decide (1 ≤ x.area ∧ x.area ≤ 4)
    | 2 => decide (x.target = 4 ∨ x.target = 5) && decide (x.area = 1 ∨ x.area = 4)
    | 3 => decide (x.target = 6) && decide (x.area = 1 ∨ x.area = 4)
    | 4 => decide (16 ≤ x.target ∧ x.target < 32) && decide (x.area = 5 ∨ x.area = 6)
    | _ => false
  let regs := if h : x.area = 6 ∧ x.target < 32 ∧ 16 ≤ x.target then
      let n : Port := ⟨x.target - 16, by omega⟩
      decide (x.off % 4 = 0) && decide (x.data.length % 4 = 0) &&
        (List.range (x.data.length / 4)).all fun k =>
          gwOffsets.contains (x.off + 4 * k) &&
            (!s.has n || !gwReserved s n (x.off + 4 * k) (BitVec.ofNat 32 (natBE (sub x.data (4 * k) 4))))
    else true
  place && decide (x.off + x.data.length ≤ areaSize x.target x.area) && regs

/-- Whether a manifest and its body are as R476 and R481 say. -/
def imageWf (s : State) (i : Img) : Bool :=
  decide (i.man.length = 176) && decide (natBE (sub i.man 1 3) = 0) && i.req.all (fun r => !bitOf r 0)
    && (sub i.man 72 40).all (fun b => decide (b = 0)) && i.claimList.isSome
    && (match i.sections with
        | none => false
        | some l => decide (i.kind = 0) || decide (4 < i.kind) || l.all fun x => sectionAllowed s i.kind x)

/-! ## Acceptance of a set (R477 to R479) -/

/-- Every body matches HASH and BODYLEN. -/
def hashHolds (i : Img) : Bool :=
  decide (natBE (sub i.man 32 4) = i.body.length) && decide (sha256Nat i.body = natBE (sub i.man 36 32))

/-- A manifest's signature verifies under a key (R478). -/
def signHolds (key : List Byte) (i : Img) : Bool :=
  ecdsaVerify (sha256Nat (sub i.man 0 112)) (natBE (sub i.man 112 32)) (natBE (sub i.man 144 32)) (natBE (sub key 0 32))
    (natBE (sub key 32 32))

/-- The epoch of interface k that a word of PROV names (R476). -/
def epochOf (prov : Word) (k : Nat) : Nat := fld prov (4 * k + 3) (4 * k)

/-- The EPOCH check of R479 over the images of a set (R477). -/
def epochsHold (l : List ImageMeta) : Bool :=
  (List.range 8).all fun k =>
    let prov := (l.map fun m => epochOf m.prov k).filter fun e => decide (e ≠ 0)
    decide (prov.length ≤ 1) && l.all fun m =>
      let r := (m.req[k]?).getD 0
      (decide (k < 4) || (decide (r = 0) && decide (epochOf m.prov k = 0))) &&
        (decide (r = 0) || prov.any fun e => bitOf r e)

/-- Whether a port index is one the variant populates. -/
def portHas (s : State) (n : Nat) : Bool := if h : n < 16 then s.has ⟨n, h⟩ else true

/-- Whether a core index is one the variant uses (R22). -/
def coreUsed (s : State) (c : Nat) : Bool := if h : c < 7 then engineUsed s.stone.variant ⟨c, h⟩ else true

/-- The port that a timer channel belongs to: the timebase of port n, or the tone pair of W port n (R357). -/
def portOfChannel (ch : Nat) : Option Nat :=
  if ch < 16 then some ch else if 40 ≤ ch ∧ ch < 52 then some (ch - 40) else none

/-- The VARIANT check of one image (R3, R22, R479). -/
def variantHolds (s : State) (i : Img) : Bool :=
  ((i.sections.getD []).all fun x => if x.target < 16 then coreUsed s x.target else portHas s (x.target - 16)) &&
  ((i.claimList.getD []).all fun k =>
    let c := k.1
    coreUsed s c.owner.toNat &&
      (if c.type = 4 ∨ c.type = 7 then
        (allPorts.all fun n => decide (n.val < c.first.toNat ∨ c.last.toNat < n.val) || s.has n)
       else if c.type = 3 then decide (c.index = 0) || portHas s (c.index.toNat - 1)
       else if c.type = 5 then portOfChannel c.first.toNat |>.all fun n => portHas s n
       else true))

/-! ## The ownership map (R482 to R484) -/

/-- Whether core c owns port n (R21). -/
def ownsPort (c n : Nat) : Bool :=
  if h : n < 16 then decide (c = (leOf ⟨n, h⟩).val) || decide (c = (pcOf ⟨n, h⟩).val) else false

/-- The last address of the writable place of shared SRAM that holds address a, for an owner (R484). -/
def writableEnd (c a : Nat) : Option Nat :=
  if 0x30015400 ≤ a ∧ a ≤ 0x3001FFFF then some 0x3001FFFF
  else if 0x3000C000 ≤ a ∧ a < 0x3000C100 ∧ ownsPort c ((a - 0x3000C000) / 16) then some (a / 16 * 16 + 15)
  else if 0x3000C400 ≤ a ∧ a < 0x30014400 then
    let n := (a - 0x3000C400) / 0x800
    let b := 0x3000C400 + n * 0x800
    if a < b + 0x400 ∧ ownsPort c n then some (b + 0x3FF) else none
  else none

/-- Whether a range of shared SRAM lies whole in places an owner may write (R484). -/
def writableRange (c last : Nat) : Nat → Nat → Bool
  | 0, _ => false
  | fuel + 1, a =>
    if last < a then true
    else match writableEnd c a with
      | none => false
      | some e => writableRange c last fuel (e + 1)

/-- A segment claim that breaks R253 or R255, or writes shared SRAM elsewhere than R484 allows. -/
def segmentBad (k : Claim) : Bool :=
  let b := k.first.toNat
  let l := k.last.toNat
  let c := k.owner.toNat
  let meets (x y : Nat) : Bool := decide (b ≤ y ∧ x ≤ l)
  let own := 0x20000000 + c * 0x20000
  decide (b % 16 ≠ 0) || decide ((l + 1) % 16 ≠ 0) || decide (l ≤ b) || decide (3 < k.rights.toNat)
    || (decide (c ≠ 6) &&
        (meets 0 0x1FFFFFFF || meets 0x50000000 0x6FFFFFFF || meets 0x20000000 (own - 1) && decide (c ≠ 0)
          || meets (own + 0x20000) 0x2FFFFFFF))
    || (bitOf k.rights 1 && meets 0x30000000 0x3001FFFF
          && !writableRange c (min l 0x3001FFFF) 40 (max b 0x30000000))

/-- A claim that names a reserved item or value (R483, R484), in an image of a kind. -/
def claimBad (kind : Nat) (k : Claim × Bool) : Bool :=
  let c := k.1
  let f := c.first.toNat
  let l := c.last.toNat
  let one := decide (f = l)
  let isCore := decide (c.owner.toNat < 7)
  !k.2 || !(isCore || decide (c.owner = 0x0F)) || decide ((kind = 4) ≠ (c.type = 7)) ||
    !(match c.type.toNat with
      | 1 => isCore && decide (c.index.toNat ≤ 3) && !segmentBad c
      | 2 => decide (f ≤ l) && (decide (16 ≤ f ∧ l ≤ 39) || decide (52 ≤ f ∧ l ≤ 55))
      | 3 => one && decide (f ≤ 3) && decide (c.index.toNat ≤ 0x11)
      | 4 => one && decide (f ≤ 15) && decide (c.index.toNat ≤ 4) && decide (c.rights.toNat ≤ 3)
              && !(decide (f = 14) && bitOf c.rights 0)
      | 5 => isCore && one && decide (c.index.toNat ≤ 7) &&
              (match c.rights.toNat with
               | 1 => decide (f < 40)
               | 2 => decide (16 ≤ f ∧ f < 40)
               | 3 | 4 | 5 => decide (40 ≤ f ∧ f < 56)
               | _ => false)
      | 6 => isCore && decide (f ≤ l) && decide (l ≤ 255)
      | 7 => decide (c.owner = 0x0F) && decide (f ≤ l) && decide (l ≤ 15) && decide (l < 14 ∨ 14 < f)
      | _ => false)

/-- Whether two claims clash (R484). -/
def claimsClash (a b : Claim) : Bool :=
  let meet := decide (a.first.toNat ≤ b.last.toNat ∧ b.first.toNat ≤ a.last.toNat)
  let other := decide (a.owner ≠ b.owner)
  decide (a.type = b.type) && (match a.type.toNat with
    | 1 => other && bitOf a.rights 1 && bitOf b.rights 1 && meet
            && decide (max a.first.toNat b.first.toNat ≤ 0x3001FFFF ∧ 0x30000000 ≤ min a.last.toNat b.last.toNat)
    | 2 | 6 | 7 => other && meet
    | 3 => meet && (other || decide (a.index ≠ b.index))
    | 4 => meet && (other || decide (a.index ≠ b.index) || decide (a.rights ≠ b.rights))
    | 5 => decide (a.owner = b.owner) && decide (a.index = b.index)
            && (decide (a.rights ≠ b.rights) || decide (a.first ≠ b.first))
    | _ => false)

/-- Whether the claims of a set make an ownership map (R484): `bad` says that one of them names a reserved item or value. -/
def mapHolds (bad : Bool) (l : List Claim) : Bool :=
  !bad && l.all (fun a => l.all fun b => !claimsClash a b) &&
    l.all fun a => !(decide (a.type = 3) && decide (1 ≤ a.index.toNat ∧ a.index.toNat ≤ 16)) ||
      l.any fun b => decide (b.type = 4) && decide (b.first.toNat + 1 = a.index.toNat) && decide (b.index ≠ 0)

/-- The CLAIM check over whole images. -/
def claimsHold (l : List Img) : Bool :=
  mapHolds (l.any fun i => (i.claimList.getD []).any fun k => claimBad i.kind k)
    (l.flatMap fun i => (i.claimList.getD []).map (·.1))

/-! ## A slot's check code (R479) -/

/-- Whether KEY and SIGN are skipped: PROVISION or vendor mode with no key hash in force (R479). -/
def State.unsignedOk (s : State) : Bool := s.bt.keyHash.isNone && decide (s.stone.life.toNat ≤ 2)

/-- The SLOTHDR key matches the key hash (R479). -/
def keyHolds (s : State) (key : List Byte) : Bool := decide (s.bt.keyHash = some (sha256 key))

/-- What a slot holds once EMPTY and RECORD have passed. -/
structure SlotSet where
  key : List Byte
  imgs : List Img

/-- A slot is EMPTY: its first 16 bytes read 0xFF (R474). -/
def slotEmpty (s : State) (slot : Nat) : Bool := (s.readMem (slotBase slot) 16).all fun b => decide (b = 0xFF)

/-- The records of a slot (R474 to R476). -/
def slotSet (s : State) (slot : Nat) : Option SlotSet :=
  match headerAt s (slotBase slot) with
  | none => none
  | some h =>
    match imagesAt s (slotBase slot) 0x10000 h.next with
    | none => none
    | some l => if l.all fun i => imageWf s i then some { key := sub h.payload 8 64, imgs := l } else none

/-- Exactly one image of each kind. -/
def kindsHold (l : List Img) : Bool :=
  decide (l.length = 4) && [1, 2, 3, 4].all fun k => decide ((l.filter fun i => decide (i.kind = k)).length = 1)

/-- The check code of a slot (R479), and its images where it is OK. -/
def checkSlot (s : State) (slot : Nat) : BitVec 4 × List Img :=
  if slotEmpty s slot then (2, [])
  else match slotSet s slot with
    | none => (3, [])
    | some t =>
      if !kindsHold t.imgs then (7, [])
      else if !s.unsignedOk && !keyHolds s t.key then (4, [])
      else if !t.imgs.all hashHolds then (6, [])
      else if !s.unsignedOk && !t.imgs.all (signHolds t.key) then (5, [])
      else if !t.imgs.all (fun i => bitOf i.stepmask s.dev.stepping.toNat) then (9, [])
      else if !epochsHold (t.imgs.map (Img.toMeta slot)) then (8, [])
      else if !t.imgs.all (fun i => variantHolds s i) then (0xB, [])
      else if !claimsHold t.imgs then (0xA, [])
      else (1, t.imgs)

/-! ## Ripe images of the running set -/

/-- The image of each kind that is ripe now (R487, R488): the LE image of LE0, the PC image of PC0, SV's, PARAM's, by kind 1-4. -/
def ripeOfKind (s : State) (k : Nat) : ImageMeta :=
  match k with
  | 1 => (s.core 0).ripeMeta | 2 => (s.core corePC0).ripeMeta | 3 => (s.core coreSV).ripeMeta | _ => s.bt.paramMeta

/-- The images that the other kinds' ripe images form with one image. -/
def setWith (s : State) (k : Nat) (m : ImageMeta) : List ImageMeta :=
  m :: (([1, 2, 3, 4].filter fun j => decide (j ≠ k)).map fun j => ripeOfKind s j)

/-- The CLAIM check of one image against the ripe images of the other kinds. -/
def claimsHoldWith (s : State) (k : Nat) (m : ImageMeta) : Bool := mapHolds false ((setWith s k m).flatMap fun x => x.claims)

/-- The check code of LOADGREEN (R487), and the image where it is OK. -/
def checkGreen (s : State) (slot kind : Nat) : BitVec 4 × Option Img :=
  if slotEmpty s slot then (2, none)
  else match slotSet s slot with
    | none => (3, none)
    | some t =>
      match t.imgs.filter fun i => decide (i.kind = kind) with
      | [i] =>
        if kind = 3 then (7, none)
        else if !s.unsignedOk && !keyHolds s t.key then (4, none)
        else if !hashHolds i then (6, none)
        else if !s.unsignedOk && !signHolds t.key i then (5, none)
        else if !bitOf i.stepmask s.dev.stepping.toNat then (9, none)
        else if !variantHolds s i then (0xB, none)
        else if !epochsHold (setWith s kind (i.toMeta slot)) then (8, none)
        else if (i.claimList.getD []).any (fun k => claimBad kind k) || !claimsHoldWith s kind (i.toMeta slot) then (0xA, none)
        else (1, some i)
      | _ => (7, none)

/-! ## Loading (R481, R487) -/

/-- The base of an IMEM bank (R257). -/
def imemBase (c : Nat) (bank : Bool) : Nat := 0x10000000 + c * 0x20000 + (if bank then 0x10000 else 0)

/-- The base of a core's data window (R257). -/
def dataBase (c : Nat) : Nat := 0x20000000 + c * 0x20000

/-- Whether an address is a byte of a Y bank that the bank holds: bits [63:40] of a word are ignored on write (R257). -/
def yByte (a : Nat) : Bool := decide (a % 8 < 5)

/-- Writes bytes of a Y bank. -/
def writeY (a : Nat) : List Byte → State → State
  | [], s => s
  | b :: bs, s => writeY (a + 1) bs (if yByte a then { s with mem := memWrite s.mem a b } else s)

/-- Clears a block of memory to 0: the entries of the block are taken out. -/
def clearMem (a len : Nat) (s : State) : State := { s with mem := s.mem.filter fun c => !decide (a ≤ c.1 ∧ c.1 < a + len) }

/-- The words of a GW section into the green registers of port n (R481). -/
def loadGw (n : Port) (off : Nat) (data : List Byte) (s : State) : State :=
  (List.range (data.length / 4)).foldl (fun t k =>
    gwWrite n (off + 4 * k) (BitVec.ofNat 32 (natBE (sub data (4 * k) 4))) t) s

/-- The bytes of one word of an area (R257, R342 to R344): an instruction, an X word, a Y word with the three bytes above it, a word of a
parameter set; a data memory holds bytes (DEDUCED, log entry 109). -/
def areaUnit (area : Nat) : Nat :=
  match area with
  | 1 => 16 | 2 => 4 | 3 => 8 | 5 => 4 | _ => 1

/-- A list taken in units of u bytes, each turned round; `fuel` bounds the number of units. -/
def swapUnits (u : Nat) : Nat → List Byte → List Byte
  | 0, l => l
  | fuel + 1, l => if l = [] then [] else (l.take u).reverse ++ swapUnits u fuel (l.drop u)

/-- The data of a section as memory holds it: a section stores each word most significant byte first (R543). -/
def Section_.bytes (x : Section_) : List Byte := swapUnits (areaUnit x.area) x.data.length x.data

/-- One section of a set at boot (R481): IMEM to bank 0, Y to both views. -/
def loadSection (x : Section_) (s : State) : State :=
  match x.area with
  | 1 => s.writeMem (imemBase x.target false + x.off) x.bytes
  | 2 => s.writeMem (dataBase x.target + x.off) x.bytes
  | 3 => writeY (dataBase x.target + 0x12000 + x.off) x.bytes (writeY (dataBase x.target + 0x10000 + x.off) x.bytes s)
  | 4 => s.writeMem (dataBase x.target + x.off) x.bytes
  | 5 => s.writeMem (0x3000C400 + (x.target - 16) * 0x800 + x.off) x.bytes
  | _ => if h : 16 ≤ x.target ∧ x.target < 32 then loadGw ⟨x.target - 16, by omega⟩ x.off x.data s else s

/-- SEG0-SEG3 of core c from its claims (R256). -/
def segsFromClaims (c : Core) (claims : List Claim) (segs : Vector SegDesc 8) : Vector SegDesc 8 :=
  claims.foldl (fun t k =>
      if k.type = 1 ∧ k.owner.toNat = c.val then
        t.set (k.index.toNat % 4) { base := k.first, lim := k.last, rw := BitVec.ofNat 2 k.rights.toNat }
          (by omega)
      else t)
    (segs.mapIdx fun i d => if i < 4 then SegDesc.off else d)

/-- SEG0-SEG3 of core c set from the claims in force. -/
def loadSegs (c : Core) (s : State) : State :=
  s.updCore c fun k => { k with segs := segsFromClaims c (s.claimsOf (BitVec.ofNat 8 c.val)) k.segs }

/-- One claim written into the register of R483 that SV sets from it. -/
def loadClaim (k : Claim) (s : State) : State :=
  match k.type.toNat with
  | 3 => { s with tim := { s.tim with gisel := setFld s.tim.gisel (8 * k.first.toNat + 7) (8 * k.first.toNat) k.index.toNat } }
  | 4 =>
    if h : k.first.toNat < 16 then
      s.updSt ⟨k.first.toNat, h⟩ fun t =>
        { t with cmproute := place k.index.toNat 8 ||| placeB (bitOf k.rights 0) 5 ||| placeB (bitOf k.rights 1) 4 }
    else s
  | 5 =>
    if h : k.owner.toNat * 8 + k.index.toNat < 56 then
      { s with tim := { s.tim with
          tbind := s.tim.tbind.set (k.owner.toNat * 8 + k.index.toNat) (place k.first.toNat 8 ||| place k.rights.toNat 0) } }
    else s
  | 7 => allPorts.foldl (fun t n =>
      if k.first.toNat ≤ n.val ∧ n.val ≤ k.last.toNat then t.updLn n fun l => { l with owner := true } else t) s
  | _ => s

/-- The image of a kind in a set. -/
def imgOfKind (slot : Nat) (l : List Img) (k : Nat) : ImageMeta :=
  match l.find? fun i => decide (i.kind = k) with
  | some i => i.toMeta slot
  | none => .empty

/-- The load of an accepted set (R472 step 5, R481): sections, ownership map, SEG0-SEG3. -/
def loadSet (slot : Nat) (l : List Img) (s : State) : State :=
  let s1 := (l.flatMap fun i => i.sections.getD []).foldl (fun t x => loadSection x t) s
  let s2 := allCores.foldl (fun t c => t.updCore c fun k => { k with ripeMeta := imgOfKind slot l (kindOf c) }) s1
  let s3 := { s2 with bt := { s2.bt with paramMeta := imgOfKind slot l 4, paramGreen := imgOfKind slot l 4 } }
  let s4 := (l.flatMap fun i => (i.toMeta slot).claims).foldl (fun t k => loadClaim k t) s3
  allCores.foldl (fun t c => loadSegs c t) s4

/-- The part of LOADGREEN for one core: the green bank and, on an engine, the green Y view take the image's sections, memory
that no section names 0; VERIFIED is set (R486, R487). -/
def greenCore (slot : Nat) (i : Img) (c : Core) (s : State) : State :=
  let xs := (i.sections.getD []).filter fun x => decide (x.target = c.val)
  let base := imemBase c.val (!(s.core c).bank)
  let yb := dataBase c.val + 0x12000
  let s1 := clearMem base (areaSize c.val 1) s
  let s2 := if isLe c then clearMem yb 0x2000 s1 else s1
  let s3 := xs.foldl (fun t x =>
    if x.area = 1 then t.writeMem (base + x.off) x.bytes else if x.area = 3 then writeY (yb + x.off) x.bytes t else t) s2
  s3.updCore c fun k => { k with verified := true, greenMeta := i.toMeta slot }

/-- The part of LOADGREEN for one port: its green parameter set and its green GW registers. -/
def greenPort (i : Img) (n : Port) (s : State) : State :=
  let xs := (i.sections.getD []).filter fun x => decide (x.target = 16 + n.val)
  let base := 0x3000C400 + n.val * 0x800
  let s1 := if xs.any fun x => decide (x.area = 5) then clearMem base 0x400 s else s
  xs.foldl (fun t x => if x.area = 5 then t.writeMem (base + x.off) x.bytes else loadGw n x.off x.data t) s1

/-- What LOADGREEN writes once its checks have passed (R487). -/
def loadGreen (i : Img) (slot : Nat) (portSel : Byte) (s : State) : State :=
  let named (t : Nat) : Bool := (i.sections.getD []).any fun x => decide (x.target = t)
  let s1 :=
    if i.kind = 1 then ([0, 1, 2, 3] : List Core).foldl (fun t c => if named c.val then greenCore slot i c t else t) s
    else if i.kind = 2 then ([corePC0, corePC1] : List Core).foldl (fun t c => greenCore slot i c t) s
    else
      let t := allPorts.foldl (fun t n =>
        if named (16 + n.val) ∧ (portSel = 0xFF ∨ portSel.toNat = n.val) then
          let t1 := greenPort i n t
          { t1 with bt := { t1.bt with paramLoaded := setFld t1.bt.paramLoaded n.val n.val 1 } }
        else t) s
      { t with bt := { t.bt with paramGreen := i.toMeta slot } }
  s1

/-! ## Operations (R446, R490, R491) -/

/-- An operation ends: code and check code recorded, SV's source 7 fires (R288, R491). -/
def imageEnd (code check : BitVec 4) (s : State) : State :=
  { s with bt := { s.bt with img := none, imgDone := true, imgCode := code, imgCheck := check, imgLeft := 0 } }.fireSrc
    coreSV 7

/-- T22 at or above STORELIM (R446). -/
def State.storeHot (s : State) : Bool :=
  decide ((fld s.th.thermctl 7 0 : Int) * 16 ≤ (s.th.sensors[22]).temp.toInt)

/-- A slot counts as running (R489). -/
def State.slotRuns (s : State) (slot : Nat) : Bool := bitOf s.bt.imgRun slot

/-- The operands of an operation are out of range (R490, R491). -/
def imageRange (o : ImageOp) : Bool :=
  decide (1 < o.slot) || (match o.op.toNat with
    | 1 | 3 => false
    | 2 => decide (o.offset % 16 ≠ 0) || decide (o.len < 16) || decide (4096 < o.len) || decide (o.len % 16 ≠ 0)
            || decide (0x200000 < o.offset + o.len) || decide (o.src < 0x30015400) || decide (0x30020000 < o.src + o.len)
    | 4 => decide (o.kind = 0) || decide (4 < o.kind.toNat)
            || (decide (o.kind = 4) && decide (15 < o.portSel.toNat) && decide (o.portSel ≠ 0xFF))
    | _ => true)

/-- The target cores of LOADGREEN are held in reset (R491). -/
def greenHeld (s : State) (kind : Nat) : Bool :=
  allCores.any fun c => decide (kindOf c = kind) && engineUsed s.stone.variant c && decide ((s.core c).run = .reset)

/-- A request for an image-store operation (R490, R491); `ok` says that its operand bytes have the length of the operation. -/
def imageRequest (ok : Bool) (o : ImageOp) (s : State) : State :=
  if s.bt.img.isSome || s.stone.busy.isSome then
    { s with bt := { s.bt with imgDone := true, imgCode := 2 } }.fireSrc coreSV 7
  else
    let s1 := { s with bt := { s.bt with imgOp := o.op } }
    let stop (code check : BitVec 4) : State := imageEnd code check s1
    if o.op = 0 ∨ 4 < o.op.toNat then stop 3 s.bt.imgCheck
    else if decide (s.dev.mode = .restrictive) || (decide (s.dev.mode = .scrapped) && decide (o.op ≠ 1)) then stop 6 s.bt.imgCheck
    else if !ok || imageRange o then stop 3 s.bt.imgCheck
    else if (o.op = 1 ∨ o.op = 2) ∧ s.slotRuns o.slot then stop 4 s.bt.imgCheck
    else if (o.op = 1 ∨ o.op = 2) ∧ s.storeHot then stop 5 s.bt.imgCheck
    else if o.op = 4 ∧ o.kind = 3 then stop 8 7
    else if o.op = 4 ∧ greenHeld s o.kind.toNat then stop 6 s.bt.imgCheck
    else
      let left := if o.op = 1 then 32 else if o.op = 2 then (o.len + 255) / 256 else 0
      { s1 with bt := { s1.bt with img := some o, imgLeft := BitVec.ofNat 16 left } }

/-- The bytes a WRITE leaves: flash bits go from 1 to 0 only (R473, R474). -/
def programmed (m : Memory) (a : Nat) : List Byte → List Byte
  | [] => []
  | b :: bs => (memRead m a &&& b) :: programmed m (a + 1) bs

/-- IMAGE_OPERATION_DONE (R446, R487, R490, R491): the effect of the operation and its code. -/
def execImageOperationDone (s : State) : Out :=
  match s.bt.img with
  | none => done s
  | some o =>
    let base := slotBase o.slot
    if o.op = 1 then done (imageEnd 1 s.bt.imgCheck (clearMem base 0x200000 s))
    else if o.op = 2 then
      let want := s.readMem o.src o.len
      let got := programmed s.mem (base + o.offset) want
      done (imageEnd (if got = want then 1 else 7) s.bt.imgCheck (s.writeMem (base + o.offset) got))
    else if o.op = 3 then
      let c := (checkSlot s o.slot).1
      done (imageEnd (if c = 1 then 1 else 8) c s)
    else
      let r := checkGreen s o.slot o.kind.toNat
      match r.2 with
      | none => done (imageEnd 8 r.1 s)
      | some i => done (imageEnd 1 r.1 (loadGreen i o.slot o.portSel s))

/-- The operands after OP (R490), none where their number does not fit. -/
def imageArgs (op : BitVec 4) (b : List Byte) : Option ImageOp :=
  let at_ (k : Nat) : Nat := (b.getD k 0).toNat
  let o : ImageOp := { op := op, slot := at_ 0, offset := 0, len := 0, src := 0, kind := 0, portSel := 0 }
  match op.toNat with
  | 1 | 3 => if b.length = 1 then some o else none
  | 2 =>
    if b.length = 10 then
      some { o with offset := natLE (sub b 1 3), len := natLE (sub b 4 2), src := natLE (sub b 6 4) }
    else none
  | 4 => if b.length = 3 then some { o with kind := b.getD 1 0, portSel := b.getD 2 0 } else none
  | _ => none

end Sys2Proof.Machine
end

