-- ==== Sys2Proof/Machine/Boot.lean ====
section
/-! DEFINITION. The command BOOT: from the end of reset to the firing of event 144 (R457 to R462, R468 to R472, R480, R481). -/

namespace Sys2Proof.Machine

/-! ## The Stone read (R457, R458) -/

/-- The three reads of the Stone at this boot: the reads given with the boot, and the fuses as programmed elsewhere. -/
def bootReads (reads : List StoneRead) (t : StoneSt) : List FuseWord :=
  (reads.filter fun r => decide (r.word < 2048)).map (fun r => { word := r.word, normal := r.normal, low := r.low, high := r.high })
    ++ t.fuses.filter fun f => !(reads.any fun r => decide (r.word = f.word))

/-- One word's reads. -/
def readOf (l : List FuseWord) (w : Nat) : FuseWord :=
  (l.find? fun f => decide (f.word = w)).getD { word := w, normal := 0, low := 0, high := 0 }

/-- A marginal word (R457). -/
def FuseWord.marginal (f : FuseWord) : Bool := decide (f.normal ≠ f.low) || decide (f.normal ≠ f.high)

/-- Whether a bit reads 1 in any of the three reads. -/
def FuseWord.any (f : FuseWord) : Word := f.normal ||| f.low ||| f.high

/-- The words of an area that decide its status. -/
def areaWords (l : List FuseWord) (a : Nat) : List FuseWord :=
  l.filter fun f => decide ((areaRange a).1 ≤ f.word ∧ f.word ≤ (areaRange a).2)

/-- An area's status (R458): 0 BLANK, 1 GOOD, 2 MARGINAL, 3 FAILED. -/
def areaStatus (l : List FuseWord) (a : Nat) : Nat :=
  let ws := areaWords l a
  if ws.all fun f => decide (f.any = 0) then 0
  else if ws.any FuseWord.marginal then 2
  else if integrityHolds (fun w => (readOf l w).normal) a then 1 else 3

/-- The lowest marginal or failed word of the four areas (R458, R492): of a FAILED area its integrity word. -/
def lowestBad (l : List FuseWord) : Nat :=
  let marg := (l.filter fun f => f.marginal && decide (2 ≤ f.word)).map (·.word)
  let failed := ([0, 1, 2, 3].filter fun a => decide (areaStatus l a = 3)).map fun a => (areaRange a).2
  (marg ++ failed).foldl min 0x7FF

/-- The life-cycle state (R460): the latest group in which any bit reads 1 in any read. -/
def lifeOf (w : Word) : BitVec 3 :=
  if fld w 31 24 ≠ 0 then 4 else if fld w 23 16 ≠ 0 then 3 else if fld w 15 8 ≠ 0 then 2 else if fld w 7 0 ≠ 0 then 1 else 0

/-- The lock bits (R461). -/
def locksOf (w : Word) : BitVec 4 :=
  BitVec.ofNat 4 (b2n (lockRead w 0) + 2 * b2n (lockRead w 1) + 4 * b2n (lockRead w 2) + 8 * b2n (lockRead w 3))

/-- The variant code of word 64, none if it is unreadable (R456). -/
def variantCode (f : FuseWord) : Option (BitVec 2) :=
  if f.marginal || decide (fld f.normal 31 24 ≠ 0xD6) || decide (fld f.normal 1 0 = 0) then none
  else some (BitVec.ofNat 2 (fld f.normal 1 0))

/-- The effective variant in PROVISION and FIELD (R468). -/
def effectiveVariant (strap : BitVec 2) (code : Option (BitVec 2)) : BitVec 2 :=
  if strap = 3 ∨ strap = 0 ∨ code = some 3 ∨ code = none then 3 else strap

/-- A variant disagreement (R468). -/
def variantDisagrees (strap : BitVec 2) (code : Option (BitVec 2)) : Bool :=
  decide (strap = 0) || (match code with
    | some c => decide (c ≠ strap)
    | none => false)

/-- A feed order that names each candidate once (R436, R455). -/
def prioOk (p : Nat) : Bool :=
  let a := p / 16 % 4
  let b := p / 4 % 4
  let c := p % 4
  decide (a ≠ 0 ∧ b ≠ 0 ∧ c ≠ 0 ∧ a ≠ b ∧ a ≠ c ∧ b ≠ c)

/-- What CUST governs (R455, R470): key hash, feed defaults, address offset. -/
def applyCust (l : List FuseWord) (s : State) : State :=
  let st := areaStatus l 2
  let w := (readOf l 520).normal
  let p := fld w 5 0
  if st = 1 then
    { s with
      bt := { s.bt with keyHash := some ((List.range 8).map fun k => (readOf l (512 + k)).normal)
                        addrofs := BitVec.ofNat 2 (fld (readOf l 521).normal 1 0) }
      fd := { s.fd with prio := BitVec.ofNat 6 (if prioOk p then p else 0x1B), ben := !bitOf w 6, locked := bitOf w 7 } }
  else
    { s with bt := { s.bt with keyHash := none, addrofs := 0 }
             fd := { s.fd with prio := 0x1B, ben := true, locked := decide (st ≠ 0) } }

/-- Boot step 3 (R457 to R461, R468, R470): the latched words and everything decided from the reads. -/
def stoneRead (reads : List StoneRead) (s : State) : State :=
  let l := bootReads reads s.stone
  let w0 := readOf l 0
  let w1 := readOf l 1
  let life := lifeOf w0.any
  let normal := decide (life = 2) || decide (life = 3)
  let code := variantCode (readOf l 64)
  let sts := areaStatus l 0 + 4 * areaStatus l 1 + 16 * areaStatus l 2 + 64 * areaStatus l 3
  applyCust l { s with stone := { s.stone with
    latched := l.map (fun f => (f.word, f.normal))
    life := life
    locks := locksOf w1.any
    areast := BitVec.ofNat 8 sts
    varmis := normal && variantDisagrees s.dev.strap code
    variant := if normal then effectiveVariant s.dev.strap code else s.dev.strap
    ctlmarg := w0.marginal || w1.marginal
    mword := BitVec.ofNat 11 (lowestBad l) } }

/-- An integrity failure (R469), in PROVISION and FIELD. -/
def StoneSt.integrityFails (t : StoneSt) : Bool :=
  (decide (t.life = 2) || decide (t.life = 3))
    && (decide (fld t.areast 3 2 ≠ 1) || !bitOf t.locks 1 || t.varmis)

/-! ## Cores at the end of a boot -/

/-- The loop engines and policy cores of the variant put into a state (R22, R462, R472, R481); SV runs, from its IMEM if a
set is loaded, else in the boot ROM. -/
def coresAfterBoot (r : CoreState) (loaded : Bool) (s : State) : State :=
  allCores.foldl (fun t c =>
    if c = coreSV then
      t.updCore c fun k => { k with run := .run, inRom := !loaded, pc := 0, startCc := s.cc, wdStart := s.cc }
    else if engineUsed s.stone.variant c then
      t.updCore c fun k => { k with run := r, pc := 0, startCc := s.cc, wdStart := s.cc, wdLim := k.wdctl }
    else t) s

/-- The events of step 6 (R470, R471, R480): the retained cause first, then event 144, then the status reports. -/
def bootEvents (s : State) : State :=
  let b := s.bt
  let rec_ := (s.core coreSV).trapRec
  let s1 :=
    if b.rcause = 4 then s.fire 137 (b.rsensor.toNat + 256 * b.rpeak.toNat)
    else if b.rcause = 3 then s.fire 134 (16 * fld rec_ 31 28 + fld rec_ 27 24)
    else s
  let s2 := (s1.flush).fire 144 (b.result.toNat + 256 * b.chkA.toNat + 4096 * b.chkB.toNat)
  let t := s.stone
  let normal := decide (t.life = 2) || decide (t.life = 3)
  let rep (a : Nat) (x : State) : State :=
    if fld t.areast (2 * a + 1) (2 * a) ≠ 1 ∧ (a = 2 ∨ normal) then x.fire 147 (256 * a) else x
  rep 3 (rep 2 (rep 0 s2.flush))

/-- The outcome of a boot that reaches the slots (R480, R481). -/
def bootSlots (s : State) : State :=
  let ha := headerAt s (slotBase 0)
  let hb := headerAt s (slotBase 1)
  let bFirst := match ha, hb with
    | some a, some b => decide (genOf a < genOf b)
    | none, some _ => true
    | _, none => false
  let first := if bFirst then 1 else 0
  let r1 := checkSlot s first
  let withCodes (c1 c2 : BitVec 4) (x : State) : State :=
    { x with bt := { x.bt with chkA := if bFirst then c2 else c1, chkB := if bFirst then c1 else c2 } }
  let loaded (slot : Nat) (result : BitVec 4) (l : List Img) (x : State) : State :=
    let y := coresAfterBoot .run true (loadSet slot l x)
    { y with dev := { y.dev with mode := .running }
             bt := { y.bt with result := result, unsign := s.unsignedOk, slotUsed := some (decide (slot = 1))
                               imgRun := BitVec.ofNat 2 (2 ^ slot) } }
  if r1.1 = 1 then loaded first (if bFirst then 2 else 1) r1.2 (withCodes 1 0 s)
  else
    let r2 := checkSlot s (1 - first)
    let s1 := withCodes r1.1 r2.1 s
    if r2.1 = 1 then loaded (1 - first) (if bFirst then 3 else 4) r2.2 s1
    else
      let y := coresAfterBoot (if s.stone.life = 3 then .reset else .halted) false s1
      { y with dev := { y.dev with mode := .noset }, bt := { y.bt with result := 5 } }

/-- The outcome of boot step 3 and what follows (R462, R469, R480). -/
def bootOutcome (s : State) : State :=
  let t := s.stone
  let ends (m : HubMode) (result : BitVec 4) (restrict : Bool) (x : State) : State :=
    { x with dev := { x.dev with mode := m }, bt := { x.bt with result := result }
             stone := { x.stone with restrict := restrict } }
  if t.life.toNat ≤ 1 then ends .vendor 7 false (coresAfterBoot .halted false s)
  else if t.life = 4 then ends .scrapped 8 true (coresAfterBoot .reset false s)
  else if t.integrityFails then
    if t.variant = 3 then ends .integrity 6 false s
    else ends .restrictive 6 true (coresAfterBoot .reset false s)
  else bootSlots s

/-- BOOT (R472): the pins sampled, the Stone read, the slots checked and a set loaded, the cores started, the events of step 6.
`reads` gives the words whose three reads differ from the fuses at this boot's temperature, `tboot` the ms from step 3 to step 6.
A boot needs VHOST, and runs only while the hub is booting. -/
def execBoot (addr : BitVec 3) (reads : List StoneRead) (tboot : Byte) (s : State) : Out :=
  if s.dev.mode = .booting ∧ s.dev.hold = .none ∧ s.fd.vhost = true then
    let s1 := bootOutcome (stoneRead reads { s with dev := { s.dev with addr := addr } })
    done (bootEvents { s1 with bt := { s1.bt with tboot := tboot } })
  else done s

end Sys2Proof.Machine
end

