-- ==== Sys2Proof/Machine/Trap.lean ====
section
/-! DEFINITION. Traps, restarts and watchdogs (R163, R263 to R273, R350, R351). -/

namespace Sys2Proof.Machine

/-! ## The trap record (R266, R267, R273) -/

/-- What a trap records: cause, sub-code, slot, argument, and whether a second cause was met. -/
structure TrapInfo where
  cause : Nat
  sub : Nat
  slot : Nat
  arg : Word
  multi : Bool

/-- G.TRAPc of a core (R273). -/
def trapWord (t : TrapInfo) (bank waiting : Bool) (index : Nat) : Word :=
  place t.cause 28 ||| place t.sub 24 ||| placeB t.multi 23 ||| place t.slot 21 ||| placeB bank 13 ||| placeB waiting 12
    ||| place (index % 4096) 0

/-! ## RIPEN refusals (R271, R355) -/

/-- A RIPEN of core c is refused or cancelled (R355): cause and core recorded, event 146. -/
def ripenRefused (c : Core) (cause : BitVec 4) (s : State) : State :=
  { s with bt := { s.bt with ripStatCause := cause, ripStatCore := BitVec.ofNat 4 c.val } }.fire 146
    (c.val + 256 * cause.toNat)

/-- A pending RIPEN of core c ends refused. -/
def ripenCancel (c : Core) (cause : BitVec 4) (s : State) : State :=
  ripenRefused c cause (s.updCore c fun k => { k with ripenPend := false })

/-! ## What a trap does to the ports (R163, R199, R268) -/

/-- A trap of a loop engine on one of its ports: PWM forced off, the switch opens (R403), BYE TRAP; the selected feed's partner
returns to its default. A path that the start path holds answers no trap (R421). -/
def leTrapPort (n : Port) (s : State) : State :=
  if !s.has n then s
  else
    let feed := s.isFeed n
    sendBye n 0x13 feed (if feed && s.startPathHeld n then s else openSwitch .off n (forceOff .leTrap n s))

/-- An LE3 trap on the feed (R268, R421): PROG clears, and under PROG = 1 the path is lost; the former feed's path closes
again if it is eligible, else that of the next candidate. Which cause G.FEEDSTAT shows is open (DESIGN CHOICE, log entry 6). -/
def leTrapFeed (s : State) : State :=
  let former := s.fd.feed
  if former = .none ∨ s.fd.prog = false then { s with fd := { s.fd with prog := false } }
  else
    let f := s.free
    let s1 := { f.2 with fd := { f.2.fd with prog := false, exempt := former } }
    feedLossBy (fun t => if t.eligStart former then former else t.firstFeed) (BitVec.ofNat 4 (f.1.toNat % 16)) s1

/-- A trap of a policy core on one of its ports: BYE TRAP, and force-off with the switch opening (R403) where the port holds a
contract and is not the feed; B stops charging and discharging. -/
def pcTrapPort (n : Port) (s : State) : State :=
  if !s.has n then s
  else if s.isFeed n then sendBye n 0x13 true s
  else if n = portB then openSwitch .off n (forceOff .pcTrap n s)
  else if (s.port n).ct.state = .none then s
  else sendBye n 0x13 false (openSwitch .off n (forceOff .pcTrap n s))

/-- The effect of a trap of core c on the hub (R268). -/
def trapEffect (c : Core) (s : State) : State :=
  if isLe c then
    let s1 := ([0, 1, 2, 3] : List (Fin 4)).foldl (fun t k => leTrapPort (lePort c k) t) s
    if c = 3 then leTrapFeed s1 else s1
  else allPorts.foldl (fun t n => if pcOf n = c then pcTrapPort n t else t) s

/-- A trap of core c (R265, R268, R271): the core halts, its record is written, a pending RIPEN is cancelled, its event
fires; a trap of SV resets the hub and keeps the record. -/
def trapCore (c : Core) (t : TrapInfo) (s : State) : State :=
  let k := s.core c
  let waiting := decide (k.run = .wait)
  let w := trapWord t (if c = coreSV then k.inRom else k.bank) waiting (if waiting then k.lastPc else k.pc)
  if c = coreSV then (resetWith 3 s).updCore c fun k => { k with trapRec := w, trapArg := t.arg }
  else
    let s1 := s.updCore c fun k =>
      { k with run := .halted, trapRec := w, trapArg := t.arg, trapCc := some s.cc, jump := none }
    let s2 := if k.ripenPend then ripenCancel c 1 s1 else s1
    (trapEffect c s2).fire (128 + c.val) (16 * t.cause + t.sub)

/-! ## Restarts (R269, R270, R351) -/

/-- An access that stores. -/
def AccessKind.stores : AccessKind → Bool
  | .st32 | .st16 | .st8 | .sty => true
  | _ => false

/-- A policy core that restarts finds its ports without contracts (R270): one whose BYE has not ended it loses it now. The feed keeps the
default its partner returns to (R268), and KU its legacy limits. -/
def dropContract (n : Port) (s : State) : State :=
  let k := (s.port n).ct.state
  if s.isFeed n ∨ k = .none ∨ k = .legacy then s else finishContract n s

/-- A restart of core c: the state of R243, SEG0-SEG3 from the image, instruction 0 of the ripe bank. What earlier instructions triggered
still completes: stores, a ring operation, LED operations; their results are discarded (R265, R270). An engine's run-time DMAX limits
end (R312) and its ports' force-off is lifted; a policy core's ports lose what contracts they still have. -/
def restartCore (c : Core) (s : State) : State :=
  let s1 := s.updCore c fun k =>
    { CoreSt.reset k.wdctl with
      far := k.far.filter fun x => x.kind.stores
      msgOp := k.msgOp, ledServe := k.ledServe, ledTokw := k.ledTokw
      run := .run, startCc := s.cc, wdStart := s.cc, trapRec := k.trapRec, trapArg := k.trapArg, bank := k.bank
      verified := k.verified, ripeVerified := k.ripeVerified, ripeMeta := k.ripeMeta, greenMeta := k.greenMeta }
  let s2 := loadSegs c s1
  if isLe c then
    ([0, 1, 2, 3] : List (Fin 4)).foldl (fun t k =>
      let n := lePort c k
      resumeOffTime n (liftForce [.leTrap] n (t.updSt n fun x => { x with dmaxRun := 0, dmaxPend := none }))) s2
  else allPorts.foldl (fun t n => if pcOf n = c then dropContract n (liftForce [.pcTrap] n t) else t) s2

/-- Whether a writer may write the core registers (R273). -/
def writerCore (w : Writer) : Bool := decide (w = .host) || writerIsSv w

/-- Whether a write that restarts core c is refused (R269, R273): from another core, and for a core that is not HALTED; a PC
that restarted in this very cc is a single restart. -/
def restartRefused (c : Core) (w : Writer) (s : State) : Bool :=
  let k := s.core c
  !writerCore w || (decide (k.run ≠ .halted) &&
    !(isPc c && decide (k.run = .run) && decide (k.startCc = s.cc) && decide (k.lastIssue = none)))

/-- A restart that is not refused. -/
def restartBit (c : Core) (s : State) : State := if (s.core c).run = .halted then restartCore c s else s

/-- RESTART (R270, R273): refused for a core that is not HALTED, and from any other core. -/
def execRestart (c : Core) (w : Writer) (s : State) : Out :=
  if c = coreSV then done s
  else if restartRefused c w s then done (s.refuseWrite w 2)
  else done (restartBit c s)

/-- PC_AUTO_RESTART (R269): 2.0 ms after its trap a policy core restarts by itself. -/
def execPcAutoRestart (c : Core) (s : State) : Out :=
  if isPc c && decide ((s.core c).run = .halted) && (s.core c).trapCc.isSome then done (restartCore c s) else done s

/-! ## Watchdogs (R263, R264, R267) -/

/-- The watchdog's own trap. -/
def wdogTrap (lim : BitVec 16) : TrapInfo := { cause := 7, sub := 0, slot := 0, arg := lim.setWidth 32, multi := false }

/-- WATCHDOG_EXPIRY (R263): the watchdog runs in RUN and WAIT. In the cc of another trap it is a second cause (R267). -/
def execWatchdogExpiry (c : Core) (s : State) : Out :=
  let k := s.core c
  if c = coreSV then done s
  else if k.run = .run ∨ k.run = .wait then done (trapCore c (wdogTrap k.wdLim) s)
  else if k.run = .halted ∧ k.trapCc = some s.cc then
    done (s.updCore c fun k => { k with trapRec := k.trapRec ||| placeB true 23 })
  else done s

/-- SV has trapped in this cc: the hub is held for the boot that follows, and its record is another cause's (R264, R267). -/
def State.svTrapped (s : State) : Bool :=
  decide (s.dev.mode = .booting) && decide (s.cc = 0) && decide (s.bt.rcause = 3)
    && decide (fld (s.core coreSV).trapRec 31 28 ≠ 0) && decide (fld (s.core coreSV).trapRec 31 28 ≠ 7)

/-- SV_WATCHDOG_EXPIRY (R264): treated as an SV trap. In the cc of another trap of SV it is a second cause (R267). -/
def execSvWatchdogExpiry (s : State) : Out :=
  let k := s.core coreSV
  if k.run = .run ∨ k.run = .wait then done (trapCore coreSV (wdogTrap k.wdLim) s)
  else if s.svTrapped then done (s.updCore coreSV fun k => { k with trapRec := k.trapRec ||| placeB true 23 })
  else done s

end Sys2Proof.Machine
end

