-- ==== Sys2Proof/Machine/Ripen.lean ====
section
/-! DEFINITION. RIPEN of port sets and of IMEM banks (R46, R345 to R349, R354, R355, R485 to R489). -/

namespace Sys2Proof.Machine

/-! ## Port sets -/

/-- The base of the pair of parameter sets of port n: green, then ripe (R344). -/
def setBase (n : Port) : Nat := 0x3000C400 + n.val * 0x800

/-- The ripe Y slice of port n; its green slice lies 0x2000 above (R343). -/
def ySlice (n : Port) : Nat := 0x20010000 + (leOf n).val * 0x20000 + leLocal n * 0x800

/-- Whether the green set of port n claims a resource that another ripe set owns (R345). -/
def setClaimClash (s : State) (n : Port) : Bool :=
  bitOf s.bt.paramLoaded n.val &&
    s.bt.paramGreen.claims.any fun a =>
      decide (a.first.toNat ≤ n.val ∧ n.val ≤ a.last.toNat)
        && ([1, 2, 3].flatMap fun k => (ripeOfKind s k).claims).any fun b => claimsClash a b

/-- A request for a port-set RIPEN (R345): refused with CLAIM, absorbed into a pending one, or pending until the port's
next period start. -/
def setripRequest (n : Port) (s : State) : State :=
  if setClaimClash s n then
    (s.updSt n fun t => { t with ripCause := 2, ripRefused := true }).fire 146 (0x210 + n.val)
  else s.updSt n fun t => { t with ripPend := true }

/-- SETRIP_REQ (R345, R354): from the port's policy core, SV or the host. -/
def execSetripReq (n : Port) (w : Writer) (s : State) : Out :=
  if s.has n && writerPolicy w n then done (setripRequest n s) else done (s.refuseWrite w 2)

/-- A slot other than that of the boot counts as running once an image from it has been ripened (R489). -/
def noteRipened (m : ImageMeta) (s : State) : State :=
  if m.slot.isSome && decide (m.slot ≠ s.bt.slotUsed) then { s with bt := { s.bt with imgRun := 3 } } else s

/-- The window of the contract in force, and while TRANS of both, under the ripe WINPCT (R154). A window that a fall to the default still
holds open, and that of a swap, stand. -/
def rewindow (n : Port) (p : PortSt) : PortSt :=
  let w := windowOf n p.ripe false p.ct.newVolt
  let put (x : Window) : PortSt := { p with ct := { p.ct with window := x } }
  if p.ct.narrowing then p
  else match p.ct.state with
    | .none => if p.ct.trans then put w else p
    | .default | .negotiated => put (if p.ct.trans then Window.span (inForceWindow n p) w else inForceWindow n p)
    | _ => p

/-- The exchange of R345: GW registers, parameter sets, Y slices; RIPEk and event 145; what waited for the RIPEN goes on, and a legacy
KU whose LEGEN is 0 now is a feed no more (R183; DESIGN CHOICE, log entry 108). -/
def portExchange (n : Port) (s : State) : State :=
  let s1 := s.updPort n fun p => rewindow n
    { p with green := p.ripe, ripe := p.green, pw := { p.pw with ripenedSinceTrip := true }
             st := { p.st with ripPend := false, ripDone := true } }
  let m1 := memExchange s1.mem (setBase n) (setBase n + 0x400) 0x400
  let s2 := { s1 with mem := memExchange m1 (ySlice n) (ySlice n + 0x2000) 0x800 }
  let s3 := if bitOf s.bt.paramLoaded n.val then
      noteRipened s.bt.paramGreen { s2 with bt := { s2.bt with
        paramLoaded := setFld s2.bt.paramLoaded n.val n.val 0, paramMeta := s.bt.paramGreen } }
    else s2
  let s4 := contractChanged n ((s3.fireSrc (leOf n) (24 + leLocal n)).fire 145 (0x10 + n.val))
  resumeOffTime n (if n = portKU then supplyChanged s4 else s4)

/-- PORT_SET_EXCHANGE (R345): the period start with an exchange pending. -/
def execPortSetExchange (n : Port) (s : State) : Out :=
  if (s.port n).st.ripPend then done (portExchange n s) else done s

/-! ## IMEM banks -/

/-- Why a RIPEN of core c's bank is refused when it is checked (R486, R488): UNVERIFIED, EPOCH, CLAIM. -/
def ripenCheck (s : State) (c : Core) : Option (BitVec 4) :=
  let k := s.core c
  if s.stone.life = 3 ∧ k.verified = false then some 6
  else if k.verified then
    if !epochsHold (setWith s (kindOf c) k.greenMeta) then some 7
    else if !claimsHoldWith s (kindOf c) k.greenMeta then some 2
    else none
  else none

/-- Takes the setting of a claim out of the register it stands in (R483). -/
def dropClaim (k : Claim) (s : State) : State :=
  match k.type.toNat with
  | 3 => { s with tim := { s.tim with gisel := setFld s.tim.gisel (8 * k.first.toNat + 7) (8 * k.first.toNat) 0 } }
  | 4 => if h : k.first.toNat < 16 then s.updSt ⟨k.first.toNat, h⟩ fun t => { t with cmproute := 0 } else s
  | 5 =>
    if h : k.owner.toNat * 8 + k.index.toNat < 56 then
      { s with tim := { s.tim with tbind := s.tim.tbind.set (k.owner.toNat * 8 + k.index.toNat) 0 } }
    else s
  | _ => s

/-- The exchange of core c's banks (R348, R485, R488): with a bank that LOADGREEN filled, SEG0-SEG3 and the ownership map take
the new image's claims; everything else carries over. -/
def bankExchange (c : Core) (s : State) : State :=
  let k := s.core c
  let mine (l : List Claim) : List Claim := l.filter fun a => decide (a.owner.toNat = c.val) || decide (a.owner = 0x0F)
  let s1 := s.updCore c fun x =>
    { x with bank := !x.bank, ripenPend := false, verified := x.ripeVerified, ripeVerified := x.verified }
  let s2 := if k.verified then
      let t := (mine k.ripeMeta.claims).foldl (fun t a => dropClaim a t)
        (s1.updCore c fun x => { x with ripeMeta := x.greenMeta, greenMeta := x.ripeMeta })
      noteRipened k.greenMeta (loadSegs c ((mine k.greenMeta.claims).foldl (fun t a => loadClaim a t) t))
    else s1
  let s3 := { s2 with bt := { s2.bt with
    ripDone := setFld s2.bt.ripDone c.val c.val 1, ripStatCore := BitVec.ofNat 4 c.val } }
  s3.fire 145 c.val

/-- A request for a RIPEN of core c's bank (R347, R349, R355, R488). -/
def ripreqRequest (c : Core) (s : State) : State :=
  let k := s.core c
  if c = coreSV then s
  else if k.run = .reset then ripenRefused c 4 s
  else if k.ripenPend then ripenRefused c 5 s
  else match ripenCheck s c with
    | some code => ripenRefused c code s
    | none => if k.run = .halted then bankExchange c s else s.updCore c fun x => { x with ripenPend := true }

/-- RIPREQ_REQ (R488, R492): from SV or the host. -/
def execRipreqReq (c : Core) (w : Writer) (s : State) : Out :=
  if writerCore w then done (ripreqRequest c s) else done (s.refuseWrite w 2)

/-- Core c stands at a safe point (R347): a CU.WAIT issues in this cc, every operation triggered before it has run out, no loop
is active and the return stack is empty. -/
def CoreSt.safePoint (k : CoreSt) (cc : Nat) : Bool :=
  decide (k.waitCc = some cc) && k.loops.isEmpty && k.stack.isEmpty
    && k.inflight.all (fun x => decide (x.due ≤ cc) || decide (x.issued = cc))
    && k.far.all (fun x => decide (x.issued = cc))
    && (match k.msgOp with
        | some m => decide (m.due = cc + 24)
        | none => true)
    && k.ledServe.all (fun x => decide (x.1 = cc + 12)) && k.ledTokw.all (fun x => decide (x.1 = cc + 4))
    && k.segNext.all (fun x => decide (x.1 ≤ cc) || decide (x.1 = cc + 2))

/-- The watchdog of a core runs out in a cc or has done so before (R263): WDLIM steps of 10 µs after its last reload. -/
def CoreSt.wdOut (k : CoreSt) (cc : Nat) : Bool := decide (k.wdStart + 3000 * k.wdLim.toNat ≤ cc)

/-- IMEM_RIPEN_SAFE_POINT (R347, R488): the checks again, then the exchange; the next cc issues instruction 0 of the new ripe
bank whether or not the wait would have held. Where the watchdog runs out in the same cc the trap wins (R271). -/
def execImemRipenSafePoint (c : Core) (s : State) : Out :=
  let k := s.core c
  if k.ripenPend && k.safePoint s.cc && !k.wdOut s.cc then
    match ripenCheck s c with
    | some code => done (ripenCancel c code s)
    | none => done ((bankExchange c s).updCore c fun x => { x with run := .run, pc := 0, jump := none, waitCc := none })
  else done s

/-- RIPEN_TIMEOUT (R347, R488): no safe point within 1.0 ms of an engine's request, or 20 ms of a policy core's. -/
def execRipenTimeout (c : Core) (s : State) : Out :=
  if (s.core c).ripenPend then done (ripenCancel c 3 s) else done s

end Sys2Proof.Machine
end

