-- ==== Sys2Proof/Machine/RegRead.lean ====
section
/-! DEFINITION. Reading registers: which places of the register space list a register, and what each reads (R86, R87, R137,
R186, R187, R228, R229, R273, R354, R355, R392 to R396, R435, R436, R452, R492, R534, R541, R542). -/

namespace Sys2Proof.Machine

/-- Code of a detector reading (R89). -/
def readingCode : Reading → Nat
  | .undecided => 0 | .mark => 1 | .hold => 2 | .openBand => 3 | .floatBand => 4

/-- Code of P[n].ANGSTAT.MODE (R396). -/
def WheelMode.code : WheelMode → Nat
  | .off => 0 | .time => 1 | .angle => 2 | .susp => 3

/-- Code of G.CORECTL.STATE (R273). -/
def CoreState.code : CoreState → Nat
  | .reset => 0 | .run => 1 | .wait => 2 | .halted => 3

/-- Code of STATUS.MODE (R520). -/
def HubMode.code : HubMode → Nat
  | .booting => 0 | .running => 1 | .noset => 2 | .restrictive => 3 | .integrity => 4 | .shutdown => 5 | .vendor => 6
  | .scrapped => 7

/-! ## Port registers -/

/-- The offsets of the registers of a port page (R542). -/
def portOffsets : List Nat :=
  [0x000, 0x004, 0x008, 0x00C, 0x010, 0x014, 0x040, 0x060, 0x064, 0x068, 0x080, 0x084, 0x088, 0x090, 0x094, 0x098, 0x09C]
  ++ [0x100, 0x104, 0x108, 0x10C, 0x110, 0x114, 0x118, 0x11C]
  ++ [0x200, 0x204, 0x208, 0x20C, 0x210, 0x214, 0x218]
  ++ [0x300, 0x304, 0x308, 0x30C, 0x310, 0x314, 0x320, 0x328, 0x32C, 0x330, 0x334]
  ++ [0x400, 0x404, 0x408, 0x40C]
  ++ [0x500, 0x504, 0x508, 0x50C, 0x510, 0x514, 0x520, 0x524, 0x528, 0x52C]

/-- The seating, moisture and metering page (R435). -/
def readPage0 (s : State) (n : Port) (off : Nat) : Word :=
  let p := s.port n
  match off with
  | 0x014 => swstat p.pw
  | 0x040 => p.pw.pgctl
  | 0x068 =>
    if n = portB then 0
    else placeB p.mo.wet 31 ||| placeB (s.tracks n) 30 ||| place p.mo.pins.toNat 24 ||| place p.mo.dgmax.toNat 16
      ||| place p.mo.yield.toNat 8 ||| place p.mo.mcnt.toNat 0
  | 0x080 => p.me.vmeas.setWidth 32
  | 0x084 => p.me.imeas
  | 0x088 => p.me.pmeas
  | 0x090 => p.me.eexp.setWidth 32
  | 0x094 => BitVec.ofNat 32 (p.me.eexp.toNat / 2 ^ 32)
  | 0x098 => p.me.eimp.setWidth 32
  | 0x09C => BitVec.ofNat 32 (p.me.eimp.toNat / 2 ^ 32)
  | _ => 0

/-- The line page (R87, R137): on B it reads 0. -/
def readPage1 (s : State) (n : Port) (off : Nat) : Word :=
  let p := s.port n
  let c := p.cf
  let l := p.ln
  if n = portB then 0
  else match off with
  | 0x100 => c.cfctl
  | 0x104 =>
    place c.attach.code 24 ||| placeB c.asSource 23 ||| placeB c.active 22 ||| placeB c.csupOn 21 ||| placeB c.csupIn 20
      ||| placeB c.marker 19 ||| placeB c.csupOc 18 ||| place c.cause.toNat 16 ||| place (readingCode c.cf2) 12
      ||| place (readingCode c.cf1) 8
  | 0x108 => l.linectl
  | 0x10C => l.ctxen ||| placeB (p.ctxOpen 2) 2 ||| placeB (p.ctxOpen 1) 1 ||| 1
  | 0x110 => place l.crcerr.toNat 24 ||| place l.drop.toNat 16 ||| place l.rxfull.toNat 8 ||| place l.notsup.toNat 0
  | 0x114 => place l.holdviol.toNat 24 ||| place l.txfail.toNat 16 ||| place l.dup.toNat 8
  | 0x118 =>
    placeB l.owner 31 ||| place l.txCount 16 ||| place l.txHead 8 ||| place l.txTail 0
  | 0x11C => placeB l.owner 31 ||| place l.rxCount 16 ||| place l.rxHead 8 ||| place ((l.rxHead + l.rxCount) % 16) 0
  | _ => 0

/-- P[n].CTRCUR.ROLE (R186): the role of the contract, and with none that of the attachment. -/
def PortSt.ctrRole (p : PortSt) : Bool :=
  if p.ct.state = .none then decide (p.cf.attach = .attachedSrc) else p.ct.asSource

/-- P[n].CTRCUR (R186). -/
def ctrcur (p : PortSt) : Word :=
  let c := p.ct
  place c.state.code 29 ||| placeB c.trans 28 ||| placeB c.prof 27 ||| placeB p.ctrRole 26 ||| place c.volt.toNat 15
    ||| place c.icont.toNat 6

/-- The contract page (R186): on B it reads 0 but for CTRPOL. -/
def readPage2 (s : State) (n : Port) (off : Nat) : Word :=
  let c := (s.port n).ct
  if n = portB then 0
  else match off with
  | 0x200 => ctrcur (s.port n)
  | 0x204 => placeB c.newProf 27 ||| place c.newVolt.toNat 15 ||| place c.newIcont.toNat 6
  | 0x218 => place c.waitout.toNat 24 ||| place c.timeout.toNat 16 ||| place c.stale.toNat 8 ||| place c.transfail.toNat 0
  | _ => 0

/-- P[n].STGSTAT (R228), read in a cc. -/
def stgstat (p : PortSt) (cc : Nat) : Word :=
  let t := p.st
  place t.mode.code 29 ||| placeB (!t.force.isEmpty) 28 ||| placeB t.hs 27 ||| placeB t.limit 26 ||| placeB (t.latched cc) 25
    ||| placeB t.badMode 24 ||| placeB t.bypRef 23 ||| place (p.refInUse cc % 1024) 12 ||| place t.dmaxCnt.toNat 0

/-- P[n].CMPVAL (R228). -/
def cmpval (t : StageSt) : Word :=
  placeB t.ov.valid 7 ||| placeB t.ov.out 6 ||| placeB t.uv.valid 5 ||| placeB t.uv.out 4 ||| placeB t.hsCmp.valid 3
    ||| placeB t.hsCmp.out 2 ||| placeB t.pk.valid 1 ||| placeB t.pk.out 0

/-- The stage page (R228). -/
def readPage3 (s : State) (n : Port) (off : Nat) : Word :=
  let p := s.port n
  let t := p.st
  match off with
  | 0x320 => stgstat p s.cc
  | 0x32C => cmpval t
  | 0x330 => t.cmproute
  | 0x334 =>
    placeB t.testBusy 31 ||| placeB t.testDone 30 ||| placeB t.testRefused 29 ||| placeB t.testPass 28
      ||| place t.testMode.toNat 16 ||| place t.testSel.toNat 8 ||| place t.testOut.toNat 0
  | _ => 0

/-- The sampling page (R354). -/
def readPage4 (s : State) (n : Port) (off : Nat) : Word :=
  let t := (s.port n).st
  match off with
  | 0x408 => place t.smpOvf.toNat 24 ||| place t.lagMax.toNat 8 ||| place t.setCnt.toNat 0
  | 0x40C => place t.ripCause.toNat 4 ||| placeB t.ripRefused 3 ||| placeB t.ripDone 2 ||| placeB t.ripPend 1
  | _ => 0

/-- The wheel page (R396): only on W ports. -/
def readPage5 (s : State) (n : Port) (off : Nat) : Word :=
  let p := s.port n
  let w := p.wh
  if !isW n then 0
  else match off with
  | 0x500 => w.angctl
  | 0x504 => w.angtint
  | 0x508 => w.angle
  | 0x50C =>
    place w.mode.code 30 ||| placeB w.sync 29 ||| placeB w.dir 28 ||| place (w.tpos % 256) 16 ||| place w.errcnt.toNat 8
      ||| place w.resync.toNat 0
  | 0x510 => w.angper
  | 0x514 => w.angjump
  | 0x528 =>
    placeB w.burstOpen 31 ||| placeB w.token 30 ||| placeB (p.st.burstAt s.cc) 29 ||| placeB w.markPend 28
      ||| place w.skipTok.toNat 16 ||| place w.skipLate.toNat 8 ||| place w.skipState.toNat 0
  | 0x52C => place w.opens.toNat 16 ||| place w.forced.toNat 8
  | _ => 0

/-- What the register at an offset of port n's page reads; 0 on a port the variant does not populate, and where no register is
listed. A GW register reads its green copy, and its ripe copy 4 bytes above. -/
def portRead (s : State) (n : Port) (off : Nat) : Word :=
  let p := s.port n
  if !s.has n then 0
  else if gwOffsets.contains off then (if off = 0x520 ∧ isW n = false then 0 else gwGet p.green off)
  else if 4 ≤ off ∧ gwOffsets.contains (off - 4) then (if off = 0x524 ∧ isW n = false then 0 else gwGet p.ripe (off - 4))
  else match off / 0x100 with
  | 0 => readPage0 s n off
  | 1 => readPage1 s n off
  | 2 => readPage2 s n off
  | 3 => readPage3 s n off
  | 4 => readPage4 s n off
  | 5 => readPage5 s n off
  | _ => 0

/-! ## Global registers -/

/-- The offsets of the global registers below 0x1000 (R541). -/
def globalOffsets : List Nat :=
  [0x000, 0x200, 0x204, 0x208, 0x20C, 0x210, 0x300, 0x400]
  ++ (List.range 7).map (fun c => 0x410 + 4 * c) ++ (List.range 7).map (fun c => 0x430 + 4 * c)
  ++ (List.range 6).map (fun c => 0x450 + 4 * c) ++ [0x500, 0x504, 0x600, 0x604, 0x608, 0x60C]
  ++ (List.range 56).map (fun j => 0x620 + 4 * j) ++ [0x700, 0x710, 0x714, 0x718, 0x800, 0x804, 0x808, 0x80C]
  ++ (List.range 28).map (fun k => 0x900 + 4 * k) ++ [0xA00, 0xA04, 0xA10, 0xA20, 0xA30]
  ++ [0xB00, 0xB04, 0xB08, 0xB0C, 0xB10, 0xB14, 0xB18, 0xB20, 0xB24, 0xB28, 0xB2C, 0xB30]

/-- G.CORECTL (R273). -/
def corectl (s : State) : Word := allCores.foldl (fun w c => w ||| place (s.core c).run.code (2 * c.val)) 0

/-- G.TEMPk (R452). -/
def tempWord (s : State) (k : Fin 24) : Word :=
  let x := s.th.sensors[k]
  placeB x.broken 31 ||| placeB (!s.sensorPresent k) 30 ||| placeB x.limit 29 ||| placeB x.rate 28 ||| placeB x.warn 27
    ||| x.temp.setWidth 32

/-- The ledger page (R187). -/
def readLedger (s : State) (off : Nat) : Word :=
  let l := s.led
  match off with
  | 0x200 => l.ledctl
  | 0x204 => place (l.avail % 65536) 16 ||| place (l.hard % 65536) 0
  | 0x208 => place (l.grantSum % 65536) 16 ||| place (l.tokRes % 65536) 0
  | 0x20C => place l.tokens.toNat 24 ||| place l.tokout.toNat 16 ||| placeB l.cut 15 ||| place (l.tokPwrMax % 4096) 0
  | _ =>
    place l.shedCnt.toNat 24 ||| place l.refuse.toNat 16 ||| place (l.jhead % 64) 8
      ||| placeB (decide (l.avail < l.grantSum + l.tokRes)) 4 ||| placeB l.shedRun 3

/-- G.HBUSWIN (R229). -/
def hbuswin (f : FeedSt) : Word :=
  placeB f.testBusy 31 ||| placeB f.testDone 30 ||| placeB f.testRefused 29 ||| placeB f.testPass 28
    ||| place f.testMode.toNat 16 ||| placeB f.testSel 8 ||| placeB f.ov.valid 3 ||| placeB f.ov.out 2
    ||| placeB f.uv.valid 1 ||| placeB f.uv.out 0

/-- The core page (R273). -/
def readCores (s : State) (off : Nat) : Word :=
  if off = 0x400 then corectl s
  else if h : 0x410 ≤ off ∧ off < 0x42C then (s.core ⟨(off - 0x410) / 4, by omega⟩).trapRec
  else if h : 0x430 ≤ off ∧ off < 0x44C then (s.core ⟨(off - 0x430) / 4, by omega⟩).trapArg
  else if h : 0x450 ≤ off ∧ off < 0x468 then (s.core ⟨(off - 0x450) / 4, by omega⟩).wdctl.setWidth 32
  else 0

/-- A bit of each core at its index. -/
def coreBits (s : State) (f : CoreSt → Bool) (lo : Nat) : Word :=
  ([0, 1, 2, 3, 4, 5] : List Core).foldl (fun w c => w ||| placeB (f (s.core c)) (lo + c.val)) 0

/-- The RIPEN page (R355, R492). -/
def readRipen (s : State) (off : Nat) : Word :=
  if off = 0x500 then
    place s.bt.ripStatCause.toNat 28 ||| place s.bt.ripStatCore.toNat 24 ||| place s.bt.ripDone.toNat 16
      ||| coreBits s (fun k => k.ripenPend) 0
  else coreBits s (fun k => k.bank) 16 ||| coreBits s (fun k => k.verified) 8

/-- The timer page (R395). -/
def readTimers (s : State) (off : Nat) : Word :=
  let t := s.tim
  if off = 0x600 then BitVec.ofNat 32 s.cc
  else if off = 0x604 then t.gisel
  else if off = 0x608 then placeB t.syncEn 0
  else if off = 0x60C then
    place t.corrcnt.toNat 16 ||| place t.losscnt.toNat 8 ||| placeB t.acq 1 ||| placeB t.lock 0
  else if h : 0x620 ≤ off ∧ off < 0x700 then t.tbind[(off - 0x620) / 4]'(by omega)
  else if off = 0x700 then
    place t.ovfcnt.toNat 24 ||| place t.latecnt.toNat 16 ||| place (t.queue.length % 64) 0
  else if h : 0x710 ≤ off ∧ off < 0x71C then t.pipnote[(off - 0x710) / 4]'(by omega)
  else 0

/-- The feed page (R436). -/
def readFeeds (s : State) (off : Nat) : Word :=
  let f := s.fd
  match off with
  | 0x800 => placeB f.prog 31 ||| placeB f.ben 15 ||| f.prio.setWidth 32
  | 0x804 =>
    place f.feed.code 30 ||| place f.last.code 28 ||| place f.cause.toNat 24 ||| placeB f.gap 23 ||| placeB f.pre 22
      ||| placeB (s.eligible .b) 20 ||| placeB (s.eligible .g) 19 ||| placeB (s.eligible .ku) 18
      ||| place f.refcause.toNat 12 ||| placeB f.refused 11 ||| place f.chgcnt.toNat 0
  | 0x808 => f.hbusmeas.setWidth 32
  | _ => place f.wrapcnt.toNat 8 ||| placeB f.wrapImp 4 ||| place f.wrapPort.toNat 0

/-- The thermal page (R452). -/
def readThermal (s : State) (off : Nat) : Word :=
  if h : 0x900 ≤ off ∧ off < 0x960 then tempWord s ⟨(off - 0x900) / 4, by omega⟩
  else if off = 0x960 then tempMaxWord s.th
  else if off = 0x964 then s.th.thermctl
  else if off = 0x968 then thermstat s
  else place s.th.ptrip.toNat 24 ||| place s.th.ratecnt.toNat 16 ||| place s.th.warncnt.toNat 8

/-- The Stone and boot page (R492). -/
def readBoot (s : State) (off : Nat) : Word :=
  let t := s.stone
  let b := s.bt
  match off with
  | 0xA00 =>
    place t.life.toNat 29 ||| place t.locks.toNat 24 ||| place t.areast.toNat 16 ||| placeB t.varmis 15
      ||| place t.variant.toNat 13 ||| placeB t.restrict 12 ||| placeB t.ctlmarg 11 ||| place t.mword.toNat 0
  | 0xA04 =>
    placeB t.busy.isSome 31 ||| placeB t.done 30 ||| place t.src.toNat 28 ||| place t.code.toNat 24 ||| place t.op.toNat 20
      ||| place t.arg.toNat 0
  | 0xA10 =>
    place b.result.toNat 28 ||| place b.chkA.toNat 24 ||| place b.chkB.toNat 20 ||| placeB b.unsign 8 ||| place b.tboot.toNat 0
  | 0xA20 =>
    place b.rcause.toNat 28 ||| place b.feedcause.toNat 24 ||| place b.rsensor.toNat 16 ||| place b.rpeak.toNat 0
  | _ =>
    placeB b.img.isSome 31 ||| placeB b.imgDone 30 ||| place b.imgRun.toNat 28 ||| place b.imgCode.toNat 24
      ||| place b.imgCheck.toNat 20 ||| place b.imgOp.toNat 16 ||| place b.imgLeft.toNat 0

/-- The bus page (R534). -/
def readBus (s : State) (off : Nat) : Word :=
  let h := s.host
  match off with
  | 0xB00 => h.bushold
  | 0xB04 => h.bussetup
  | 0xB08 => h.busfilt
  | 0xB0C => h.busctl
  | 0xB10 => place h.errcnt.toNat 24 ||| place h.errcmd.toNat 8 ||| place h.errcode.toNat 0
  | 0xB14 => place h.lost.toNat 24 ||| place h.loghead.toNat 16 ||| place (h.evcount % 1024) 0
  | 0xB18 => place h.winbase.toNat 16 ||| place h.portsel.toNat 0
  | 0xB20 => h.even[0]
  | 0xB24 => h.even[1]
  | 0xB28 => h.even[2]
  | 0xB2C => h.even[3]
  | 0xB30 => h.even[4]
  | _ => 0

/-- G.MODULE (R86). -/
def moduleWord (s : State) : Word :=
  place s.dev.stepping.toNat 16 ||| place s.dev.addr.toNat 8 ||| place s.dev.strap.toNat 0

/-- What a listed global register reads. -/
def globalRead (s : State) (off : Nat) : Word :=
  match off / 0x100 with
  | 0x0 => moduleWord s
  | 0x2 => readLedger s off
  | 0x3 => hbuswin s.fd
  | 0x4 => readCores s off
  | 0x5 => readRipen s off
  | 0x6 | 0x7 => readTimers s off
  | 0x8 => readFeeds s off
  | 0x9 => readThermal s off
  | 0xA => readBoot s off
  | 0xB => readBus s off
  | _ => 0

/-! ## The register space -/

/-- A place of the register space. -/
inductive RegPlace where
  | global (off : Nat)
  | timer (ch i : Nat)
  | port (n : Port) (off : Nat)
deriving DecidableEq, Repr

/-- The register at an aligned address: none where the map lists none (R540 to R542). -/
def regPlace (a : Nat) : Option RegPlace :=
  if a % 4 ≠ 0 then none
  else if 0x40000000 ≤ a ∧ a < 0x40001000 then
    (if globalOffsets.contains (a - 0x40000000) then some (.global (a - 0x40000000)) else none)
  else if 0x40001000 ≤ a ∧ a < 0x40001E00 then
    let ch := (a - 0x40001000) / 0x40
    let i := (a - 0x40001000) % 0x40 / 4
    if timListed ch i then some (.timer ch i) else none
  else if h : 0x40010000 ≤ a ∧ a < 0x40020000 then
    let off := (a - 0x40010000) % 0x1000
    if portOffsets.contains off then some (.port ⟨(a - 0x40010000) / 0x1000, by omega⟩ off) else none
  else none

/-- What a register reads. -/
def readPlace (s : State) : RegPlace → Word
  | .global off => globalRead s off
  | .timer ch i => timRead s ch i
  | .port n off => portRead s n off

/-- A 32-bit read of the register space: 0 where nothing is listed. -/
def regRead (s : State) (a : Nat) : Word :=
  match regPlace a with
  | some p => readPlace s p
  | none => 0

/-- Register space (R540). -/
def inRegSpace (a : Nat) : Bool :=
  decide (0x40000000 ≤ a ∧ a < 0x40000C00) || decide (0x40001000 ≤ a ∧ a < 0x40002000) || decide (0x40010000 ≤ a ∧ a < 0x40020000)

end Sys2Proof.Machine
end

