-- ==== Sys2Proof/Machine/RegWrite.lean ====
section
/-! DEFINITION. Writing registers: what each register refuses and to whom, and what a write that is not refused does (R12, R273,
R307, R358, R371, R397, R436, R452, R492, R511 and the register tables). -/

namespace Sys2Proof.Machine

/-! ## Port registers -/

/-- The offsets of the registers of the moisture and contract pages that a write on B meets refused (R186, R435). -/
def refusedOnB : List Nat :=
  [0x060, 0x064, 0x068, 0x200, 0x204, 0x210, 0x214, 0x218] ++ (List.range 8).map fun k => 0x100 + 4 * k

/-- Why a write of the register at an offset of port n is refused: 2 RESERVED, 3 ACCESS (R511). -/
def portRefused (s : State) (w : Writer) (n : Port) (off : Nat) (v : Word) : Option (BitVec 4) :=
  let res (b : Bool) : Option (BitVec 4) := if b then some 2 else none
  if !s.has n || (decide (n = portB) && refusedOnB.contains off) || (decide (0x500 ≤ off) && !isW n) then some 2
  else if gwOffsets.contains off then res (gwReserved s n off v)
  else if 4 ≤ off ∧ gwOffsets.contains (off - 4) then some 3
  else match off with
  | 0x010 => res (!writerPolicy w n || decide (fld v 2 0 = 0) || decide (3 < fld v 2 0))
  | 0x100 => res (cfctlReserved s n v)
  | 0x108 => res ((bitOf v 2 && !isW n) || (bitOf v 1 && decide (n ≠ portKU) && decide (n ≠ portKD)))
  | 0x10C => res (decide (n = portG) && decide (fld v 11 4 ≠ 0))
  | 0x328 => res (bitOf v 0 && !(decide (w = .host) || decide (w = .core (leOf n))))
  | 0x330 => res (!writerIsSv w || decide (4 < fld v 10 8) || (decide (n = portB) && bitOf v 5))
  | 0x40C => res (bitOf v 0 && !writerPolicy w n)
  | 0x500 => res (angctlReserved s n v)
  | 0x504 => res (outside v 13 0 10 10000)
  | _ => none

/-- LINECTL.EN cleared (R120, R137): the PHY leaves the line; the message under way waits with its ID and the tries it has had, but for
a third, which it has again (DESIGN CHOICE, log entry 116); one of the PHY's own waits as TX entries do. -/
def lineDisable (n : Port) (s : State) : State :=
  let l := (s.port n).ln
  let s1 := match l.cur with
    | some (.ring e) =>
      let a := ringAddr (2 * n.val) e
      s.writeMem a (toBytesLE 2 (setFld (entryCtl s a) 7 4 (min l.tries 2)).toNat)
    | _ => s
  s1.updLn n fun l =>
    { l with phase := .idle, cur := none, tries := 0, receiving := false, nodOwed := none, notsupDue := none, markOnLine := none
             own := (match l.cur with
               | some (.own f) => [f]
               | _ => []) ++ l.notsupDue.toList ++ l.own }

/-- A LINECTL write (R137). A sink whose PHY it enables owes its GETCAPS (R151, R181). -/
def linectlWrite (n : Port) (v : Word) (s : State) : State :=
  let was := bitOf (s.port n).ln.linectl 0
  let s1 := s.updLn n fun l => { l with linectl := v &&& 7 }
  if was && !bitOf v 0 then lineDisable n s1
  else if !was && bitOf v 0 && decide ((s.port n).cf.attach = .attachedSnk) then
    s1.updCt n fun c => { c with getcapsDue := true }
  else s1

/-- The commands of SWCTL (R397, R403, R425). -/
def swctlWrite (n : Port) (v : Word) (s : State) : State :=
  if fld v 2 0 = 1 then startCmd n s else if fld v 2 0 = 2 then stopCmd n s else readmitCmd n s

/-- A write of a port register that is not refused. -/
def portWrite (n : Port) (off : Nat) (v : Word) (s : State) : State :=
  if gwOffsets.contains off then gwWrite n off v s
  else match off with
  | 0x010 => swctlWrite n v s
  | 0x014 => s.updPw n fun p => { p with refused := w1c1 p.refused v 11, tripCnt := w1c8 p.tripCnt v 0 }
  | 0x040 => s.updPw n fun p => { p with pgctl := v &&& 0xFF }
  | 0x068 => s.updMo n fun m => { m with yield := w1c8 m.yield v 8 }
  | 0x100 => cfctlApply n v s
  | 0x108 => linectlWrite n v s
  | 0x10C => s.updLn n fun l => { l with ctxen := v &&& 0xFF8 }
  | 0x110 => s.updLn n fun l =>
      { l with crcerr := w1c8 l.crcerr v 24, drop := w1c8 l.drop v 16, rxfull := w1c8 l.rxfull v 8, notsup := w1c8 l.notsup v 0 }
  | 0x114 => s.updLn n fun l =>
      { l with holdviol := w1c8 l.holdviol v 24, txfail := w1c8 l.txfail v 16, dup := w1c8 l.dup v 8 }
  | 0x218 => s.updCt n fun c =>
      { c with waitout := w1c8 c.waitout v 24, timeout := w1c8 c.timeout v 16, stale := w1c8 c.stale v 8
               transfail := w1c8 c.transfail v 0 }
  | 0x320 => s.updSt n fun t =>
      { t with badMode := w1c1 t.badMode v 24, bypRef := w1c1 t.bypRef v 23, dmaxCnt := w1c8 t.dmaxCnt v 0 }
  | 0x328 => if bitOf v 0 then pkClear n s else s
  | 0x330 => s.updSt n fun t => { t with cmproute := v &&& 0x730 }
  | 0x334 => cmptestWrite n v s
  | 0x408 => s.updSt n fun t => { t with smpOvf := w1c8 t.smpOvf v 24, lagMax := w1c8 t.lagMax v 8 }
  | 0x40C =>
    let s1 := s.updSt n fun t => { t with ripRefused := w1c1 t.ripRefused v 3, ripDone := w1c1 t.ripDone v 2 }
    if bitOf v 0 then setripRequest n s1 else s1
  | 0x500 => angctlApply n v s
  | 0x504 => s.updWh n fun w => { w with angtint := v &&& 0x3FFF }
  | 0x50C => s.updWh n fun w => { w with errcnt := w1c8 w.errcnt v 8, resync := w1c8 w.resync v 0 }
  | 0x528 => s.updWh n fun w =>
      { w with skipTok := w1c8 w.skipTok v 16, skipLate := w1c8 w.skipLate v 8, skipState := w1c8 w.skipState v 0 }
  | 0x52C => s.updWh n fun w => { w with forced := w1c8 w.forced v 8 }
  | _ => s

/-! ## Global registers -/

/-- The cores a field with one bit per core 0-5 names. -/
def namedCores (v : Word) (lo : Nat) : List Core := ([0, 1, 2, 3, 4, 5] : List Core).filter fun c => bitOf v (lo + c.val)

/-- A TBIND value that pairs no event with its channel (R371). -/
def tbindReserved (v : Word) : Bool :=
  let ch := fld v 15 8
  match fld v 2 0 with
  | 0 => false
  | 1 => decide (39 < ch)
  | 2 => decide (ch < 16 ∨ 39 < ch)
  | 3 | 4 | 5 => decide (ch < 40 ∨ 55 < ch)
  | _ => true

/-- Whether a write of the core page is refused (R273). -/
def coresRefused (s : State) (w : Writer) (off : Nat) (v : Word) : Bool :=
  !writerCore w || (decide (off = 0x400) && (namedCores v 16).any fun c => restartRefused c w s)
    || (decide (0x450 ≤ off) && decide (fld v 15 0 = 0))

/-- Whether a write of the feed page is refused (R436). -/
def feedRefused (s : State) (w : Writer) (v : Word) : Bool :=
  !writerFeed w || !prioOk (fld v 5 0) || (s.fd.locked && decide (fld v 5 0 ≠ s.fd.prio.toNat))

/-- Whether a THERMCTL value is reserved (R452). -/
def thermReserved (v : Word) : Bool :=
  outside v 31 24 100 150 || outside v 23 16 80 (fld v 31 24 - 1) || outside v 15 8 80 125 || outside v 7 0 85 135

/-- Whether a write of a global register is refused as reserved. -/
def globalRefused (s : State) (w : Writer) (off : Nat) (v : Word) : Bool :=
  match off / 0x100 with
  | 0x2 => (decide (off = 0x200) && ledctlReserved v) || (decide (off = 0x20C) && decide (12 < fld v 27 24))
  | 0x4 => coresRefused s w off v
  | 0x5 => decide (off = 0x504) && !writerCore w
  | 0x6 =>
    if off = 0x604 then
      !writerIsSv w || ([0, 8, 16, 24].any fun k => decide (0x11 < fld v (k + 7) k))
    else decide (0x620 ≤ off) && (!writerIsSv w || tbindReserved v)
  | 0x8 => decide (off = 0x800) && feedRefused s w v
  | 0x9 => decide (off = 0x964) && (!writerCore w || thermReserved v)
  | 0xB =>
    if off = 0xB00 then outside v 5 0 9 63
    else if off = 0xB04 then decide (fld v 4 0 = 0)
    else if off = 0xB08 then decide (fld v 3 0 < 2)
    else if off = 0xB0C then decide (fld v 23 16 = 0)
    else false
  | _ => false

/-- A write of the core page: restarts and watchdog limits (R270, R273). -/
def coresWrite (off : Nat) (v : Word) (s : State) : State :=
  if off = 0x400 then (namedCores v 16).foldl (fun t c => restartBit c t) s
  else if h : 0x450 ≤ off ∧ off < 0x468 then
    s.updCore ⟨(off - 0x450) / 4, by omega⟩ fun k => { k with wdctl := v.setWidth 16 }
  else s

/-- A write of the timer page (R368, R370, R371, R395). -/
def timerPageWrite (off : Nat) (v : Word) (s : State) : State :=
  let t := s.tim
  if off = 0x604 then { s with tim := { t with gisel := v } }
  else if off = 0x608 then
    { s with tim := { t with syncEn := bitOf v 0, acq := t.acq && bitOf v 0, lock := t.lock && bitOf v 0 } }
  else if off = 0x60C then { s with tim := { t with corrcnt := w1c8 t.corrcnt v 16, losscnt := w1c8 t.losscnt v 8 } }
  else if h : 0x620 ≤ off ∧ off < 0x700 then
    { s with tim := { t with tbind := t.tbind.set ((off - 0x620) / 4) (v &&& 0xFF07) } }
  else if off = 0x700 then { s with tim := { t with ovfcnt := w1c8 t.ovfcnt v 24, latecnt := w1c8 t.latecnt v 16 } }
  else s

/-- A write of the feed page (R421, R423, R424, R436): the order, BEN, PROG, then a planned change. -/
def feedWrite (off : Nat) (v : Word) (s : State) : State :=
  let f := s.fd
  if off = 0x800 then
    planChange (feedOfCode (fld v 17 16)) (progSet (bitOf v 31) (benSet (bitOf v 15)
      { s with fd := { f with prio := v.setWidth 6 } }))
  else if off = 0x804 then
    { s with fd := { f with refused := w1c1 f.refused v 11, chgcnt := w1c8 f.chgcnt v 0 } }
  else if off = 0x80C then { s with fd := { f with wrapcnt := w1c8 f.wrapcnt v 8 } }
  else s

/-- A write of the bus page (R534). -/
def busWrite (off : Nat) (v : Word) (s : State) : State :=
  let h := s.host
  { s with host := match off with
    | 0xB00 => { h with bushold := v &&& 0x3F }
    | 0xB04 => { h with bussetup := v &&& 0x1F }
    | 0xB08 => { h with busfilt := v &&& 0xF }
    | 0xB0C => { h with busctl := v &&& 0x00FF0007 }
    | 0xB10 => { h with errcnt := w1c8 h.errcnt v 24, errcode := h.errcode &&& ~~~(v.setWidth 4) }
    | 0xB14 => { h with lost := w1c8 h.lost v 24 }
    | 0xB20 => { h with even := h.even.set 0 v }
    | 0xB24 => { h with even := h.even.set 1 v }
    | 0xB28 => { h with even := h.even.set 2 v }
    | 0xB2C => { h with even := h.even.set 3 v }
    | 0xB30 => { h with even := h.even.set 4 (v &&& 0x00FFFFFF) }
    | _ => h }

/-- A write of a global register that is not refused. -/
def globalWrite (off : Nat) (v : Word) (s : State) : State :=
  match off / 0x100 with
  | 0x2 =>
    if off = 0x200 then ledgerRefresh { s with led := { s.led with ledctl := v &&& 0xFFFFFFF0 } }
    else if off = 0x20C then (opTokens (BitVec.ofNat 4 (fld v 27 24)) s).2.2
    else if off = 0x210 then
      { s with led := { s.led with shedCnt := w1c8 s.led.shedCnt v 24, refuse := w1c8 s.led.refuse v 16 } }
    else s
  | 0x3 => hbuswinWrite v s
  | 0x4 => coresWrite off v s
  | 0x5 =>
    if off = 0x500 then { s with bt := { s.bt with ripDone := s.bt.ripDone &&& ~~~(BitVec.ofNat 6 (fld v 21 16)) } }
    else (namedCores v 0).foldl (fun t c => ripreqRequest c t) s
  | 0x6 | 0x7 => timerPageWrite off v s
  | 0x8 => feedWrite off v s
  | 0x9 =>
    if off = 0x964 then { s with th := { s.th with thermctl := v } }
    else if off = 0x96C then
      { s with th := { s.th with ptrip := w1c8 s.th.ptrip v 24, ratecnt := w1c8 s.th.ratecnt v 16
                                 warncnt := w1c8 s.th.warncnt v 8 } }
    else s
  | 0xA =>
    if off = 0xA04 then { s with stone := { s.stone with done := w1c1 s.stone.done v 30 } }
    else if off = 0xA30 then { s with bt := { s.bt with imgDone := w1c1 s.bt.imgDone v 30 } }
    else s
  | 0xB => busWrite off v s
  | _ => s

/-! ## Any register -/

/-- Why a write of a register by a writer is refused, if it is. -/
def placeRefused (s : State) (w : Writer) (p : RegPlace) (v : Word) : Option (BitVec 4) :=
  match p with
  | .global off => if globalRefused s w off v then some 2 else none
  | .timer ch i => if timRefused s (ownerOf w) ch i v then some 2 else none
  | .port n off => portRefused s w n off v

/-- A write of a register that is not refused. -/
def placeWrite (p : RegPlace) (v : Word) (s : State) : State :=
  match p with
  | .global off => globalWrite off v s
  | .timer ch i => timWrite s.cc ch i v s
  | .port n off => portWrite n off v s

/-- A 32-bit write by a writer at an address (R307, R356, R511): nothing listed there is refused with WINDOW to the host and
refused to a core. -/
def regStore (w : Writer) (a : Nat) (v : Word) (s : State) : State :=
  match regPlace a with
  | none => s.refuseWrite w 0xA
  | some p =>
    match placeRefused s w p v with
    | some code => s.refuseWrite w code
    | none => placeWrite p v s

/-- REGISTER_WRITE (R12, R307, R511): a write of one register by a core or the host. -/
def execRegisterWrite (w : Writer) (addr v : Word) (s : State) : Out := done (regStore w addr.toNat v s)

end Sys2Proof.Machine
end

