-- ==== Sys2Proof/Machine/Flags.lean ====
section
/-! DEFINITION. The arithmetic of the function units: results and flags of the ALU, the shifter, the multiplier, the
accumulators and the clamped integrators, as pure functions (R291 to R302). -/

namespace Sys2Proof.Machine

/-! ## ALU (R291) -/

/-- A result with C and V. -/
structure AluOut where
  r : Word
  c : Bool
  v : Bool

/-- A truth value as a result. -/
def aluBool (b : Bool) : AluOut := { r := placeB b 0, c := false, v := false }

/-- A plain result. -/
def aluPlain (r : Word) : AluOut := { r := r, c := false, v := false }

/-- A signed result saturated to 32 bits; V says whether it was (R291). -/
def aluSat (i : Int) : AluOut := { r := sat32 i, c := false, v := sat32Hit i }

/-- The ALU operation of trigger socket `id` on A and the moved value B (R291). -/
def aluOp (id : Nat) (a b : Word) : AluOut :=
  match id with
  | 0x081 => { r := a + b, c := decide (2 ^ 32 ≤ a.toNat + b.toNat), v := sat32Hit (a.toInt + b.toInt) }
  | 0x082 => { r := a - b, c := decide (a.toNat < b.toNat), v := sat32Hit (a.toInt - b.toInt) }
  | 0x083 => aluSat (a.toInt + b.toInt)
  | 0x084 => aluSat (a.toInt - b.toInt)
  | 0x085 => aluPlain (a &&& b)
  | 0x086 => aluPlain (a ||| b)
  | 0x087 => aluPlain (a ^^^ b)
  | 0x088 => aluPlain (a &&& ~~~b)
  | 0x089 => aluBool (decide (a = b))
  | 0x08A => aluBool (decide (a ≠ b))
  | 0x08B => aluBool (decide (a.toInt < b.toInt))
  | 0x08C => aluBool (decide (a.toNat < b.toNat))
  | 0x08D => aluBool (decide (b.toInt ≤ a.toInt))
  | 0x08E => aluBool (decide (b.toNat ≤ a.toNat))
  | 0x08F => aluPlain (if a.toInt < b.toInt then a else b)
  | 0x090 => aluPlain (if a.toInt < b.toInt then b else a)
  | 0x091 => aluPlain (if a.toNat < b.toNat then a else b)
  | 0x092 => aluPlain (if a.toNat < b.toNat then b else a)
  | 0x093 => aluSat (if b.toInt < 0 then -b.toInt else b.toInt)
  | _ => aluSat (-b.toInt)

/-! ## Shifter (R292) -/

/-- Leading zeros of a number of `k` bits. -/
def leadingZeros : Nat → Nat → Nat
  | 0, _ => 0
  | k + 1, x => if x.testBit k then 0 else 1 + leadingZeros k x

/-- The shift of trigger socket `id` on A and the moved value; the truth value is the new SHF.SAT where the operation is SRAR
or SHLS (R292). -/
def shfOp (id : Nat) (a v : Word) : Word × Option Bool :=
  let s := fld v 5 0
  match id with
  | 0x0C1 => (if 32 ≤ s then 0 else a <<< s, none)
  | 0x0C2 => (if 32 ≤ s then 0 else a >>> s, none)
  | 0x0C3 => (a.sshiftRight (min s 31), none)
  | 0x0C4 =>
    if s = 0 then (a, some false)
    else if 32 ≤ s then (0, some false)
    else
      let x := (a.toInt + 2 ^ (s - 1)) / 2 ^ s
      (sat32 x, some (sat32Hit x))
  | 0x0C5 => (sat32 (a.toInt * 2 ^ s), some (sat32Hit (a.toInt * 2 ^ s)))
  | 0x0C6 => (a.rotateLeft (s % 32), none)
  | 0x0C7 => (BitVec.ofNat 32 (leadingZeros 32 v.toNat), none)
  | _ => (BitVec.ofNat 32 ((a.toNat >>> fld v 4 0) % 2 ^ (min 32 (fld v 10 5))), none)

/-! ## Multiplier (R293, R294) -/

/-- A product: P, PH and whether it saturated. -/
structure MacOut where
  p : Word
  ph : Word
  sat : Bool

/-- The product of trigger socket `id` (R294). -/
def macOp (id : Nat) (a b : Word) : MacOut :=
  let sp := a.toInt * b.toInt
  match id with
  | 0x101 =>
    let x := (sp + 2 ^ 30) / 2 ^ 31
    { p := sat32 x, ph := (BitVec.ofInt 64 sp).extractLsb' 32 32, sat := sat32Hit x }
  | 0x102 => { p := BitVec.ofInt 32 sp, ph := (BitVec.ofInt 64 sp).extractLsb' 32 32, sat := false }
  | _ =>
    let up := a.toNat * b.toNat
    { p := BitVec.ofNat 32 up, ph := BitVec.ofNat 32 (up / 2 ^ 32), sat := false }

/-! ## Accumulators (R297, R298) -/

/-- A value saturated to the 72-bit signed range, and whether it was. -/
def sat72 (i : Int) : Int × Bool :=
  if 2 ^ 71 - 1 < i then (2 ^ 71 - 1, true) else if i < -(2 ^ 71) then (-(2 ^ 71), true) else (i, false)

/-- The shifted product of an X word and a Y word (R297): the term, whether it saturated, and BADSH. -/
def macTerm (x c : Word) (sh : BitVec 6) : Int × Bool × Bool :=
  let p := x.toInt * c.toInt
  let s := sh.toInt
  if 0 ≤ s then (p / 2 ^ s.toNat, false, false)
  else
    let k := min 16 (-s).toNat
    let r := sat72 (p * 2 ^ k)
    (r.1, r.2, decide (s < -16))

/-- One MACXY on an accumulator (R295, R297): its new value, whether anything saturated, and BADSH. -/
def macxy (acc : BitVec 72) (x c : Word) (sh : BitVec 6) (clr neg : Bool) : BitVec 72 × Bool × Bool :=
  let t := macTerm x c sh
  let term := if neg then -t.1 else t.1
  let r := sat72 (if clr then term else acc.toInt + term)
  (BitVec.ofInt 72 r.1, t.2.1 || r.2, t.2.2)

/-- A read of an accumulator (R298), and whether it saturated. -/
def accRead (acc : BitVec 72) : Word × Bool :=
  let x := (acc.toInt + 2 ^ 30) / 2 ^ 31
  (sat32 x, sat32Hit x)

/-! ## Clamped integrators (R301, R302) -/

/-- A value clamped: max with the lower limit before min with the upper. -/
def clampTo (x : Int) (lo hi : Word) : Int := min (max x lo.toInt) hi.toInt

/-- A clamped value with what CLP.FLAG records: it was changed by the clamp, and it ended at the upper limit. -/
def clampOut (x : Int) (lo hi : Word) : Word × Bool × Bool :=
  let y := clampTo x lo hi
  (BitVec.ofInt 32 y, decide (y ≠ x), decide (y = hi.toInt))

/-! ## Samples and references (R308, R310, R311) -/

/-- A 12-bit code as Q1.31 (R308). -/
def sampleQ31 (code : BitVec 12) : Word := code.setWidth 32 <<< 19

/-- The DAC code of a Q1.31 reference (R310). -/
def refOfQ31 (v : Word) : BitVec 10 := if v.msb then 0 else v.extractLsb' 21 10

/-- The DAC code of an integer reference, and whether it saturated (R310). -/
def refOfCode (v : Word) : BitVec 10 × Bool :=
  if v.toInt < 0 then (0, true) else if 1023 < v.toInt then (1023, true) else (v.setWidth 10, false)

end Sys2Proof.Machine
end

