-- ==== Sys2Proof/Machine/Operands.lean ====
section
/-! DEFINITION. The instruction word, the socket map, and what a move reads from each source socket (R233 to R249, R276 to
R328). -/

namespace Sys2Proof.Machine

/-! ## The instruction word (R233 to R236) -/

/-- One slot of an instruction (R234). -/
structure Slot where
  inv : Bool
  guard : Nat
  imm : Bool
  src : Nat
  dst : Nat
  low : Nat
deriving DecidableEq, Repr

/-- Slot k: bits [123 - 31k : 93 - 31k] (R233). -/
def slotOf (w : BitVec 128) (k : Nat) : Slot :=
  let v := fld w (123 - 31 * k) (93 - 31 * k)
  { inv := decide (v / 2 ^ 30 % 2 = 1), guard := v / 2 ^ 27 % 8, imm := decide (v / 2 ^ 26 % 2 = 1)
    src := v / 2 ^ 14 % 4096, dst := v / 4 % 4096, low := v % 4 }

/-- The format field (R235). -/
def formatOf (w : BitVec 128) : Nat := fld w 127 124

/-- The long immediate: word bits [31:0] (R235). -/
def limmOf (w : BitVec 128) : Word := w.setWidth 32

/-- How many slots are moves (R235). -/
def moveSlots (w : BitVec 128) : List (Fin 4) := if formatOf w = 1 then [0, 1, 2] else [0, 1, 2, 3]

/-- A no-op slot, written !G0 (R236). -/
def Slot.nop (x : Slot) : Bool := x.inv && decide (x.guard = 0)

/-- Whether the reserved bits of slot k are right (R234 to R236): in MOVE3L bit [0] of slot 2 belongs to LIMM. -/
def lowOk (w : BitVec 128) (k : Fin 4) : Bool :=
  let l := (slotOf w k.val).low
  if formatOf w = 1 ∧ k = 2 then decide (l / 2 = 0) else decide (l = 0)

/-- Whether the move of a slot executes (R234, R239). -/
def Slot.runs (x : Slot) (guards : BitVec 8) : Bool := bitOf guards x.guard != x.inv

/-! ## The socket map (R246, R276 to R278) -/

/-- The kinds of socket (R276); `both` is a local or a guard. -/
inductive SockKind where
  | both | operand | trigger | output | result
deriving DecidableEq, Repr

/-- The units, for R242. -/
inductive Unit_ where
  | regs | seg | cu | alu | shf | clp | mac | lsu | evt | adcr | dacw | tim | pip | msg | led | otpu
deriving DecidableEq, Repr

/-- A listed socket: its kind, its unit, and the cores that carry it. -/
structure Sock where
  kind : SockKind
  unit : Unit_
  on : Core → Bool

/-- Every core. -/
def onAll (_ : Core) : Bool := true
/-- The loop engines. -/
def onLe (c : Core) : Bool := isLe c
/-- The policy cores. -/
def onPc (c : Core) : Bool := isPc c
/-- PC0, PC1 and SV. -/
def onPip (c : Core) : Bool := !isLe c
/-- PC1. -/
def onPc1 (c : Core) : Bool := decide (c = corePC1)
/-- SV. -/
def onSv (c : Core) : Bool := decide (c = coreSV)

/-- A kind by ID within a unit: the first range that holds the ID. -/
def kindIn (id : Nat) : List (Nat × Nat × SockKind) → Option SockKind
  | [] => none
  | (lo, hi, k) :: l => if lo ≤ id ∧ id ≤ hi then some k else kindIn id l

/-- A unit's table as sockets. -/
def sockIn (id : Nat) (u : Unit_) (on : Core → Bool) (l : List (Nat × Nat × SockKind)) : Option Sock :=
  (kindIn id l).map fun k => { kind := k, unit := u, on := on }

/-- The listed sockets (R246, R256, R280, R287, R291 to R293, R301, R303, R308, R310, R314, R317, R320, R323, R326); none for an
unassigned ID. -/
def sockAt (id : Nat) : Option Sock :=
  if id < 0x038 then
    sockIn id .regs onAll [(0x000, 0x027, .both), (0x030, 0x032, .result)]
  else if id < 0x040 then
    sockIn id .seg onAll [(0x038, 0x03A, .operand), (0x03B, 0x03B, .trigger), (0x03C, 0x03E, .result)]
  else if id < 0x080 then
    sockIn id .cu onAll
      [(0x040, 0x043, .trigger), (0x044, 0x044, .result), (0x045, 0x045, .trigger), (0x046, 0x046, .output),
       (0x047, 0x047, .trigger), (0x048, 0x048, .operand), (0x049, 0x049, .trigger), (0x04A, 0x04A, .result)]
  else if id < 0x0C0 then
    sockIn id .alu onAll [(0x080, 0x080, .operand), (0x081, 0x094, .trigger), (0x0A0, 0x0A2, .result)]
  else if id < 0x0E0 then
    sockIn id .shf onAll [(0x0C0, 0x0C0, .operand), (0x0C1, 0x0C8, .trigger), (0x0D0, 0x0D1, .result)]
  else if id < 0x100 then
    sockIn id .clp onLe
      [(0x0E0, 0x0E2, .operand), (0x0E3, 0x0E5, .trigger), (0x0E6, 0x0E6, .output), (0x0F0, 0x0F8, .result)]
  else if id < 0x140 then
    if id < 0x110 then
      sockIn id .mac onAll
        [(0x100, 0x100, .operand), (0x101, 0x103, .trigger), (0x108, 0x109, .result), (0x10C, 0x10C, .output),
         (0x10D, 0x10D, .result)]
    else sockIn id .mac onLe [(0x110, 0x111, .operand), (0x112, 0x112, .trigger), (0x120, 0x123, .result)]
  else if id < 0x180 then
    sockIn id .lsu onAll
      [(0x140, 0x142, .operand), (0x148, 0x14D, .trigger), (0x150, 0x154, .output), (0x158, 0x15B, .result)]
  else if id < 0x200 then none
  else if id < 0x240 then
    if id < 0x208 then
      sockIn id .evt onAll [(0x200, 0x200, .operand), (0x201, 0x203, .result), (0x204, 0x204, .output)]
    else if id < 0x20C then sockIn id .evt onPc [(0x208, 0x208, .trigger), (0x209, 0x209, .result)]
    else sockIn id .evt onSv [(0x20C, 0x20D, .output)]
  else if id < 0x2C0 then
    sockIn id .adcr onLe
      [(0x240, 0x27F, .result), (0x280, 0x283, .result), (0x288, 0x289, .result), (0x28A, 0x28A, .output)]
  else if id < 0x300 then
    sockIn id .dacw onLe [(0x2C0, 0x2D3, .output), (0x2E0, 0x2E0, .output), (0x2E1, 0x2E1, .result)]
  else if id < 0x380 then
    sockIn id .tim onAll
      [(0x300, 0x300, .operand), (0x301, 0x302, .trigger), (0x303, 0x305, .output), (0x310, 0x314, .result),
       (0x318, 0x318, .result)]
  else if id < 0x3C0 then
    sockIn id .pip onPip
      [(0x380, 0x381, .operand), (0x382, 0x383, .output), (0x384, 0x384, .trigger), (0x385, 0x385, .output),
       (0x390, 0x391, .result)]
  else if id < 0x400 then
    sockIn id .msg onPc [(0x3C0, 0x3C0, .operand), (0x3C1, 0x3C3, .trigger), (0x3C8, 0x3C8, .result)]
  else if id < 0x440 then
    sockIn id .led onPc1 [(0x400, 0x402, .trigger), (0x410, 0x412, .result)]
  else if id < 0x480 then
    sockIn id .otpu onSv [(0x440, 0x442, .trigger), (0x448, 0x449, .result)]
  else none

/-- Whether a socket can be read. -/
def SockKind.reads : SockKind → Bool
  | .both | .result => true
  | _ => false

/-- Whether a socket can be written. -/
def SockKind.writes : SockKind → Bool
  | .result => false
  | _ => true

/-- SUB of TRAP_SOCK for a source socket on core c (R247, R266), if it traps. -/
def srcFault (c : Core) (move3l : Bool) (id : Nat) : Option Nat :=
  match sockAt id with
  | none => some 1
  | some k => if !k.on c then some 4 else if !k.kind.reads then some 2 else if id = 0x030 ∧ move3l = false then some 3 else none

/-- SUB of TRAP_SOCK for a destination socket on core c (R247, R266), if it traps. -/
def dstFault (c : Core) (id : Nat) : Option Nat :=
  match sockAt id with
  | none => some 1
  | some k => if !k.on c then some 4 else if !k.kind.writes then some 2 else if id = 0x020 then some 5 else none

/-! ## Committed results and live sockets (R248, R249, R289) -/

/-- The wait sources a core sees pending: on a policy core PORTk while any port event of port k is pending (R289). -/
def CoreSt.pendingOf (k : CoreSt) (c : Core) : Word :=
  if isPc c then
    (List.finRange 12).foldl (fun w i =>
      setFld w i.val i.val (b2n (decide (k.portEv[i.val]'(by omega) ≠ 0)))) k.evtPend
  else k.evtPend

/-- OTPU.ST (R326). -/
def otpuSt (t : StoneSt) : Word := placeB t.busy.isSome 0 ||| placeB t.otpuDone 1 ||| place t.otpuCode.toNat 4

/-- The code in ADCR slot m of a loop engine (R308, R309): 0 where slot 1 to 7 is not in its port's sample set, and on a port the
variant does not populate. -/
def slotCode (s : State) (c : Core) (m : Nat) : BitVec 12 :=
  let n := lePort c ⟨m / 8 % 4, by omega⟩
  if s.has n && (decide (m % 8 = 0) || bitOf (s.port n).ripe.adcset (m % 8)) then
    (s.core c).adcr[m % 32]'(by omega)
  else 0

/-- What a move reads from a source socket of core c (R240, R244, R245, R249, R276). `limm` is the instruction's long
immediate. -/
def readSock (s : State) (c : Core) (limm : Word) (id : Nat) : Word :=
  let k := s.core c
  if h : id < 0x020 then k.locals[id]
  else if id < 0x028 then placeB (bitOf k.guards (id - 0x020)) 0
  else if h : 0x0F0 ≤ id ∧ id < 0x0F8 then k.clpSeen[id - 0x0F0]
  else if h : 0x120 ≤ id ∧ id < 0x124 then (accRead (k.accSeen[id - 0x120]'(by omega))).1
  else if 0x240 ≤ id ∧ id < 0x260 then sampleQ31 (slotCode s c (id - 0x240))
  else if 0x260 ≤ id ∧ id < 0x280 then (slotCode s c (id - 0x260)).setWidth 32
  else if h : 0x280 ≤ id ∧ id < 0x284 then k.adcrStamp[id - 0x280]
  else if h : 0x311 ≤ id ∧ id < 0x315 then k.timS[id - 0x311]
  else match id with
  | 0x030 => limm
  | 0x031 => BitVec.ofNat 32 c.val
  | 0x032 => k.cyc s.cc
  | 0x03C => k.segRead.1
  | 0x03D => k.segRead.2.1
  | 0x03E => k.segRead.2.2
  | 0x044 => BitVec.ofNat 32 (k.stack.headD 0)
  | 0x04A => BitVec.ofNat 32 (match k.loops with
    | f :: _ => f.left
    | [] => 0)
  | 0x0A0 => k.aluR
  | 0x0A1 => placeB k.aluC 0
  | 0x0A2 => placeB k.aluV 0
  | 0x0D0 => k.shfR
  | 0x0D1 => placeB k.shfSat 0
  | 0x0F8 => k.clpFlag.setWidth 32
  | 0x108 => k.macP
  | 0x109 => k.macPh
  | 0x10D => k.macFlag.setWidth 32
  | 0x158 => k.lsuD
  | 0x159 => k.lsuDh
  | 0x15A => k.lsuDf
  | 0x15B => k.lsuFlag.setWidth 32
  | 0x201 => k.evtSrc
  | 0x202 => k.pendingOf c
  | 0x203 => k.evtOvf
  | 0x209 => k.evtPev
  | 0x288 => k.adcrNew
  | 0x289 => k.adcrMiss
  | 0x2E1 => k.dacwFlag.setWidth 32
  | 0x310 => k.timV
  | 0x318 => placeB k.timFlag 0
  | 0x390 => k.pipA
  | 0x391 => placeB k.pipFlag 0
  | 0x3C8 => k.msgSt
  | 0x410 => k.ledOut
  | 0x411 => k.ledN
  | 0x412 => k.ledTokr
  | 0x448 => k.otpuD
  | 0x449 => otpuSt s.stone
  | _ => 0

/-- A read of MAC.ACCk that saturates sets SATk (R298). -/
def readEffect (k : CoreSt) (id : Nat) : CoreSt :=
  if h : 0x120 ≤ id ∧ id < 0x124 then
    if (accRead (k.accSeen[id - 0x120]'(by omega))).2 then
      { k with macFlag := setFld k.macFlag (id - 0x120) (id - 0x120) 1 } else k
  else k

/-! ## Moves (R238, R239) -/

/-- A move that executes: its slot, its destination and its value. -/
structure Move where
  slot : Nat
  dst : Nat
  val : Word
deriving DecidableEq, Repr

/-- The moves whose guards are true, with the values their sources hold at issue (R238 to R240). -/
def movesOf (s : State) (c : Core) (w : BitVec 128) : List Move :=
  (moveSlots w).filterMap fun k =>
    let x := slotOf w k.val
    if x.nop || !x.runs (s.core c).guards then none
    else some { slot := k.val, dst := x.dst
                val := if x.imm then (BitVec.ofNat 12 x.src).signExtend 32 else readSock s c (limmOf w) x.src }

/-- The source sockets that the executing moves read. -/
def readsOf (s : State) (c : Core) (w : BitVec 128) : List Nat :=
  (moveSlots w).filterMap fun k =>
    let x := slotOf w k.val
    if x.nop || !x.runs (s.core c).guards || x.imm then none else some x.src

/-- The kind of a destination. -/
def Move.kind (m : Move) : Option SockKind := (sockAt m.dst).map fun k => k.kind

/-- The unit whose trigger a move is. -/
def Move.triggers (m : Move) : Option Unit_ :=
  match sockAt m.dst with
  | some k => if k.kind = .trigger then some k.unit else none
  | none => none

/-- A move to a local, a guard or an operand socket: the value is kept (R241, R244). Guards keep whether the value is non-zero. -/
def storeOperand (k : CoreSt) (id : Nat) (v : Word) : CoreSt :=
  if h : id < 0x020 then { k with locals := k.locals.set id v }
  else if id < 0x028 then { k with guards := setFld k.guards (id - 0x020) (id - 0x020) (b2n (decide (v ≠ 0))) }
  else match id with
  | 0x038 => { k with segSel := v }
  | 0x039 => { k with segBase := v }
  | 0x03A => { k with segLim := v }
  | 0x048 => { k with cuLcnt := v }
  | 0x080 => { k with aluA := v }
  | 0x0C0 => { k with shfA := v }
  | 0x0E0 => { k with clpK := v }
  | 0x0E1 => { k with clpLo := v }
  | 0x0E2 => { k with clpHi := v }
  | 0x100 => { k with macA := v }
  | 0x110 => { k with macXp := v }
  | 0x111 => { k with macYp := v }
  | 0x140 => { k with lsuA := v }
  | 0x141 => { k with lsuSd := v }
  | 0x142 => { k with lsuSdh := v }
  | 0x200 => { k with evtMask := v }
  | 0x300 => { k with timSel := v }
  | 0x380 => { k with pipIdx := v }
  | 0x381 => { k with pipW0 := v }
  | 0x3C0 => { k with msgRing := v }
  | _ => k

/-- All operand, local and guard writes of an instruction (R241). -/
def storeOperands (k : CoreSt) (l : List Move) : CoreSt :=
  l.foldl (fun x m => if m.kind = some .both ∨ m.kind = some .operand then storeOperand x m.dst m.val else x) k

end Sys2Proof.Machine
end

