-- ==== Sys2Proof/Machine/Bus.lean ====
section
/-! DEFINITION. The address map: its regions, what each reads, what a core may access and what a store does (R252, R254, R255,
R257, R303 to R307, R344, R457, R486, R540). -/

namespace Sys2Proof.Machine

/-! ## Regions (R257, R540) -/

/-- The regions of the address map; `dmem` stands for a data memory or an X bank. -/
inductive Region where
  | rom
  | imem (c : Core)
  | dmem (c : Core)
  | ybank (c : Core)
  | sram
  | reg
  | stone
  | image
deriving DecidableEq, Repr

/-- Bytes of one IMEM bank (R230). -/
def imemSize (c : Core) : Nat := if isLe c then 0x4000 else if isPc c then 0x8000 else 0x10000

/-- The region within the windows of core c at an offset of its instruction window. -/
def imemRegion (c : Core) (off : Nat) : Option Region :=
  if off < imemSize c then some (.imem c)
  else if c ≠ coreSV ∧ 0x10000 ≤ off ∧ off < 0x10000 + imemSize c then some (.imem c) else none

/-- The region at an offset of the data window of core c. -/
def dataRegion (c : Core) (off : Nat) : Option Region :=
  if isLe c then
    if off < 0x2000 then some (.dmem c) else if 0x10000 ≤ off ∧ off < 0x14000 then some (.ybank c) else none
  else if off < 0x10000 then some (.dmem c) else none

/-- The region of an address; none where the map has nothing (R540). -/
def regionOf (a : Nat) : Option Region :=
  if a < 0x8000 then some .rom
  else if h : 0x10000000 ≤ a ∧ a < 0x100E0000 then imemRegion ⟨(a - 0x10000000) / 0x20000, by omega⟩ ((a - 0x10000000) % 0x20000)
  else if h : 0x20000000 ≤ a ∧ a < 0x200E0000 then dataRegion ⟨(a - 0x20000000) / 0x20000, by omega⟩ ((a - 0x20000000) % 0x20000)
  else if 0x30000000 ≤ a ∧ a < 0x30020000 then some .sram
  else if inRegSpace a then some .reg
  else if 0x50000000 ≤ a ∧ a < 0x50002000 then some .stone
  else if 0x60000000 ≤ a ∧ a < 0x60400000 then some .image
  else none

/-! ## Reading (R344, R457, R540) -/

/-- A latched word of the Stone (R457). -/
def StoneSt.word (t : StoneSt) (w : Nat) : Word := ((t.latched.find? fun x => decide (x.1 = w)).map fun x => x.2).getD 0

/-- Bytes of shared SRAM that only the ledger writes: the grant records (R167). -/
def ledgerOnly (a : Nat) : Bool := decide (0x3000C100 ≤ a ∧ a < 0x3000C200)

/-- Bytes of shared SRAM that are reserved and read 0: offsets 0x38C-0x3BF of each parameter set (R344) and the block after the
thermal record (R451). -/
def sramReserved (a : Nat) : Bool :=
  decide (0x3000C400 ≤ a ∧ a < 0x30014400 ∧ 0x38C ≤ a % 0x400 ∧ a % 0x400 < 0x3C0) || decide (0x30014880 ≤ a ∧ a < 0x30015400)

/-- Byte i of a word. -/
def byteOf (w : Word) (i : Nat) : Byte := BitVec.ofNat 8 (w.toNat >>> (8 * i))

/-- What the byte at an address reads, whatever its region. -/
def busByte (s : State) (a : Nat) : Byte :=
  match regionOf a with
  | some .rom => Config.bootRom a
  | some .reg => byteOf (regRead s (a - a % 4)) (a % 4)
  | some .stone => byteOf (s.stone.word ((a - 0x50000000) / 4)) (a % 4)
  | some .sram => if sramReserved a then 0 else memRead s.mem a
  | some _ => memRead s.mem a
  | none => 0

/-- Bytes from an address upwards. -/
def busBytes (s : State) (a : Nat) : Nat → List Byte
  | 0 => []
  | k + 1 => busByte s a :: busBytes s (a + 1) k

/-- A number of k bytes, least significant first (R543). -/
def busNat (s : State) (a k : Nat) : Nat := natLE (busBytes s a k)

/-! ## What an access may be (R254, R255, R305) -/

/-- Bytes of an access (R303). -/
def AccessKind.size : AccessKind → Nat
  | .ld32 | .st32 => 4
  | .ld16 | .ld16s | .st16 => 2
  | .ld8 | .ld8s | .st8 => 1
  | .ldy | .sty => 8

/-- One enabled descriptor contains all bytes of the access and grants its direction (R254). -/
def CoreSt.descOk (k : CoreSt) (write : Bool) (a len : Nat) : Bool :=
  k.segs.toList.any fun d => bitOf d.rw (b2n write) && decide (d.base.toNat ≤ a ∧ a + len ≤ d.lim.toNat + 1)

/-- Regions no loop engine or policy core may access (R255). -/
def foreign (c : Core) (a : Nat) : Bool :=
  decide (a < 0x20000000) || decide (0x50000000 ≤ a ∧ a < 0x70000000)
    || (decide (0x20000000 ≤ a ∧ a < 0x200E0000) && decide ((a - 0x20000000) / 0x20000 ≠ c.val))

/-- The bank an address of core c's instruction window lies in. -/
def bankOf (a : Nat) : Bool := decide (0x10000 ≤ (a - 0x10000000) % 0x20000)

/-- A word of a green IMEM bank that SV or the host may write (R486): not in FIELD. -/
def greenWritable (s : State) (a : Nat) : Bool :=
  match regionOf a with
  | some (.imem c) => decide (c ≠ coreSV) && decide (bankOf a ≠ (s.core c).bank) && decide (s.stone.life ≠ 3)
  | _ => false

/-- Whether the region takes the form of access (R305, R486). -/
def formOk (s : State) (k : AccessKind) (a : Nat) : Bool :=
  match regionOf a with
  | some (.dmem _) | some .sram => decide (k ≠ .ldy) && decide (k ≠ .sty)
  | some (.ybank _) => decide (k = .ldy) || decide (k = .sty)
  | some .reg => decide (k = .ld32) || decide (k = .st32)
  | some _ => decide (k = .ld32) || (decide (k = .st32) && greenWritable s a)
  | none => false

/-- The green view of a loop engine's Y bank (R343). -/
def inGreenY (a : Nat) : Bool :=
  match regionOf a with
  | some (.ybank _) => decide (0x12000 ≤ (a - 0x20000000) % 0x20000)
  | _ => false

/-- Whether an LSU access of core c is allowed when it is triggered (R254, R255, R305); the green Y views are written by SV and the host
alone (R343). -/
def accessOk (s : State) (c : Core) (k : AccessKind) (a : Nat) : Bool :=
  decide (a % k.size = 0) && (s.core c).descOk k.stores a k.size && (decide (c = coreSV) || !foreign c a) && formOk s k a
    && !(k.stores && decide (c ≠ coreSV) && inGreenY a)

/-- The core's own data memory, X bank or Y bank (R304). -/
def isNear (c : Core) (a : Nat) : Bool :=
  match regionOf a with
  | some (.dmem d) | some (.ybank d) => decide (c = d)
  | _ => false

/-! ## Loads (R303, R304) -/

/-- The value of a load of at most 32 bits. -/
def loadValue (k : AccessKind) (x : Nat) : Word :=
  match k with
  | .ld16s => (BitVec.ofNat 16 x).signExtend 32
  | .ld8s => (BitVec.ofNat 8 x).signExtend 32
  | _ => BitVec.ofNat 32 x

/-- The result of a near load (R304). -/
def nearResult (s : State) (k : AccessKind) (a : Nat) : ResultVal :=
  if k = .ldy then .lsuDy (BitVec.ofNat 32 (busNat s a 4)) (BitVec.ofNat 32 (busNat s (a + 4) 1))
  else .lsuD (loadValue k (busNat s a k.size))

/-- The result of a far load (R304). -/
def farResult (s : State) (k : AccessKind) (a : Nat) : ResultVal :=
  if k = .ldy then .lsuDfy (BitVec.ofNat 32 (busNat s a 4)) (BitVec.ofNat 32 (busNat s (a + 4) 1))
  else .lsuDf (loadValue k (busNat s a k.size))

/-! ## Stores -/

/-- The bytes a store puts down (R303). -/
def storeBytes (k : AccessKind) (d : Word) (dh : Byte) : List Byte :=
  match k with
  | .st32 => bytesLE d
  | .st16 => (bytesLE d).take 2
  | .st8 => (bytesLE d).take 1
  | .sty => bytesLE d ++ [dh]
  | _ => []

/-- Bytes to shared SRAM; reserved places keep reading 0, and the grant records stay as the ledger wrote them (R167; DESIGN CHOICE, log
entry 112). -/
def sramPut (a : Nat) : List Byte → Memory → Memory
  | [], m => m
  | b :: bs, m => sramPut (a + 1) bs (if sramReserved a || ledgerOnly a then m else memWrite m a b)

/-- A store to shared SRAM; a request slot whose PEND it sets fires LEDREQ (R167, R288). -/
def sramStore (a : Nat) (bs : List Byte) (s : State) : State :=
  let s1 := { s with mem := sramPut a bs s.mem }
  if allPorts.any fun n => !slotPending n s && slotPending n s1 then s1.fireSrc corePC1 12 else s1

/-- A write to an IMEM bank clears its VERIFIED bit (R486). -/
def imemStore (a : Nat) (bs : List Byte) (c : Core) (s : State) : State :=
  (s.writeMem a bs).updCore c fun k =>
    if bankOf a = k.bank then { k with ripeVerified := false } else { k with verified := false }

/-- A store performed by core c. -/
def storePerform (c : Core) (k : AccessKind) (a : Nat) (d : Word) (dh : Byte) (s : State) : State :=
  let bs := storeBytes k d dh
  match regionOf a with
  | some (.dmem _) => s.writeMem a bs
  | some (.ybank _) => writeY a bs s
  | some .sram => sramStore a bs s
  | some .reg => regStore (.core c) a d s
  | some (.imem t) => imemStore a bs t s
  | _ => s

end Sys2Proof.Machine
end

