-- ==== Sys2Proof/Machine/Commit.lean ====
section
/-! DEFINITION. What a core has in flight: launching results, committing them, the completion of message, ledger and far
accesses (R248 to R252, R256, R304, R306, R321 to R325). -/

namespace Sys2Proof.Machine

/-! ## Results in flight (R248, R249) -/

/-- Puts a result into its place by the cc it is due, after those due in the same cc. -/
def addInflight (x : InFlight) : List InFlight → List InFlight
  | [] => [x]
  | y :: ys => if x.due < y.due then x :: y :: ys else y :: addInflight x ys

/-- A trigger at cc whose result commits `lat` cc later. -/
def CoreSt.launch (k : CoreSt) (cc lat : Nat) (v : ResultVal) : CoreSt :=
  { k with inflight := addInflight { issued := cc, due := cc + lat, val := v } k.inflight }

/-- A result reaches its result sockets. -/
def commitVal (k : CoreSt) (v : ResultVal) : CoreSt :=
  match v with
  | .alu r c o => { k with aluR := r, aluC := c, aluV := o }
  | .shf r sat => { k with shfR := r, shfSat := sat }
  | .mac p ph => { k with macP := p, macPh := ph }
  | .acc i x => { k with accSeen := k.accSeen.set i x }
  | .clp i x flag => { k with clpSeen := k.clpSeen.set i x, clpFlag := flag }
  | .lsuD d => { k with lsuD := d }
  | .lsuDy d dh => { k with lsuD := d, lsuDh := dh }
  | .lsuDf d => { k with lsuDf := d }
  | .lsuDfy d df => { k with lsuD := d, lsuDf := df }
  | .tim v => { k with timV := v }
  | .snap a b c d => { k with timS := #v[a, b, c, d] }
  | .pipA v => { k with pipA := v }
  | .msgSt v => { k with msgSt := v }
  | .ledOut v => { k with ledOut := v }
  | .ledN v => { k with ledN := v }
  | .ledTokr v => { k with ledTokr := v }
  | .otpu v => { k with otpuD := v }
  | .pev v => { k with evtPev := v }
  | .segRead a b c => { k with segRead := (a, b, c) }

/-- The descriptors that govern at a cc: every SEG.SET whose 2 cc have run (R256). -/
def CoreSt.segsAt (k : CoreSt) (cc : Nat) : Vector SegDesc 8 :=
  k.segNext.foldl (fun t x => if x.1 ≤ cc then t.set x.2.1 x.2.2 else t) k.segs

/-- The results and descriptors whose time has come (R249, R256). -/
def CoreSt.commitDue (k : CoreSt) (cc : Nat) : CoreSt :=
  let k1 := (k.inflight.filter fun x => decide (x.due ≤ cc)).foldl (fun t x => commitVal t x.val) k
  { k1 with inflight := k.inflight.filter fun x => !decide (x.due ≤ cc)
            segs := k.segsAt cc, segNext := k.segNext.filter fun x => !decide (x.1 ≤ cc) }

/-! ## The MSG unit (R321, R322) -/

/-- A status word of MSG.ST (R321). -/
def msgWord (code idx count : Nat) : Word := place count 16 ||| place idx 8 ||| place code 0

/-- A POP or PEEK completes (R322): the oldest entry goes to DMEM, a POP takes it out of the ring. -/
def msgCopy (r : Fin 32) (addr : Word) (pop : Bool) (s : State) : State × Word :=
  let n : Port := ⟨r.val / 2, by omega⟩
  let l := (s.port n).ln
  if l.rxCount = 0 then (s, msgWord 2 0 0)
  else
    let s1 := s.writeMem addr.toNat (s.readMem (ringAddr r.val l.rxHead) 80)
    let s2 := if pop then popRx n s1 else s1
    (s2, msgWord 1 l.rxHead (s2.port n).ln.rxCount)

/-- The MSG operation of core c completes: its copy is made and MSG.ST commits, unless the core has restarted since the trigger
(R265, R270). -/
def msgFinish (c : Core) (s : State) : State :=
  match (s.core c).msgOp with
  | none => s
  | some m =>
    let r : State × Word := match m.copy with
      | none => (s, m.st)
      | some x => msgCopy x.1 x.2.1 x.2.2 s
    r.1.updCore c fun k => { k with msgOp := none, msgSt := if m.due < k.startCc + 24 then k.msgSt else r.2 }

/-- MSG_COMPLETE (R322): the cc in which MSG.ST commits. -/
def execMsgComplete (c : Core) (s : State) : Out :=
  match (s.core c).msgOp with
  | none => done s
  | some m => done (msgFinish c (s.at m.due))

/-! ## The LED unit (R323, R324) -/

/-- A LED.SERVE whose 12 cc have run: the pending operation of its slot, or NONE. -/
def serveDue (x : Nat × Port) (s : State) : State :=
  if slotPending x.2 s then commitServe x.2 (serveSlot x.2 s)
  else s.updCore corePC1 (endServe x (ledOutWord x.2 0 true s))

/-- The LED operations of PC1 whose time has come, in trigger order. -/
def ledDue (s : State) : State :=
  let k := s.core corePC1
  let s1 := (k.ledServe.filter fun x => decide (x.1 ≤ s.cc)).foldl (fun t x => serveDue x t) s
  (k.ledTokw.filter fun x => decide (x.1 ≤ s.cc)).foldl (fun t x => commitTokw x.2 t) s1

/-! ## Everything that commits (R249, R250) -/

/-- All results of core c that have come due by now. -/
def commitCore (c : Core) (s : State) : State :=
  let s1 := s.updCore c fun k => k.commitDue s.cc
  let s2 := match (s1.core c).msgOp with
    | some m => if m.due ≤ s1.cc then msgFinish c s1 else s1
    | none => s1
  if c = corePC1 then ledDue s2 else s2

/-- The cc of the next result of core c. -/
def CoreSt.nextDue (k : CoreSt) (cc : Nat) : Nat :=
  let dues := k.inflight.map (fun x => x.due) ++ k.segNext.map (fun x => x.1) ++ k.ledServe.map (fun x => x.1)
    ++ k.ledTokw.map (fun x => x.1) ++ (k.msgOp.map fun m => m.due).toList
  match dues with
  | [] => cc
  | d :: ds => ds.foldl min d

/-- RESULT_COMMIT (R249): the next result of the core commits, with all that are due in its cc, in the order of their
triggers. -/
def execResultCommit (c : Core) (s : State) : Out := done (commitCore c (s.at ((s.core c).nextDue s.cc)))

/-! ## Far accesses (R252, R304, R306) -/

/-- A far access is performed: a store puts its data down, a load reads its location and commits 2 cc later; its result counts from
its trigger (R347). -/
def farPerform (c : Core) (f : FarAccess) (s : State) : State :=
  if f.kind.stores then storePerform c f.kind f.addr.toNat f.data f.dataH s
  else s.updCore c fun k =>
    { k with inflight := addInflight { issued := f.issued, due := s.cc + 2, val := farResult s f.kind f.addr.toNat } k.inflight }

/-- Whether a far access of core c comes before one of core d (R252): by trigger, in one cc loads before stores, and of stores that of
the higher core index last. -/
def farBefore (c : Core) (f : FarAccess) (d : Core) (g : FarAccess) : Bool :=
  decide (f.due < g.due) || (decide (f.due = g.due)
    && ((!f.kind.stores && g.kind.stores) || (decide (f.kind.stores = g.kind.stores) && decide (c.val < d.val))))

/-- The core whose oldest far access comes first. -/
def nextFar (s : State) : Option Core :=
  allCores.foldl (fun best c =>
    match best, (s.core c).far with
    | _, [] => best
    | none, _ :: _ => some c
    | some d, f :: _ =>
      match (s.core d).far with
      | g :: _ => if farBefore c f d g then some c else best
      | [] => some c) none

/-- The oldest far access of core c is performed, in the cc it is due. -/
def farHead (c : Core) (s : State) : State :=
  match (s.core c).far with
  | [] => s
  | f :: fs => farPerform c f ((s.at f.due).updCore c fun k => { k with far := fs })

/-- The far accesses of every core in their order, up to the oldest one of core `stop`, or all of them; `fuel` bounds their number. -/
def farRun (stop : Option Core) : Nat → State → State
  | 0, s => s
  | fuel + 1, s =>
    match nextFar s with
    | none => s
    | some d => if stop = some d then farHead d s else farRun stop fuel (farHead d s)

/-- Far accesses on their way. -/
def farCount (s : State) : Nat := (allCores.map fun c => (s.core c).far.length).sum

/-- FAR_ACCESS_PERFORMED (R252): the core's oldest far access, 8 cc after its trigger, and before it those of all cores that reach
their locations earlier. -/
def execFarAccessPerformed (c : Core) (s : State) : Out :=
  if (s.core c).far = [] then done s else done (farRun (some c) (farCount s) s)

end Sys2Proof.Machine
end

