-- ==== Sys2Proof/Machine/Units.lean ====
section
/-! DEFINITION. What a move to each trigger and output socket does (R256, R276 to R327); the control unit is in
Machine/Nma.lean. -/

namespace Sys2Proof.Machine

/-! ## Arithmetic units -/

/-- ALU triggers (R291). -/
def aluTrigger (id : Nat) (v : Word) (cc : Nat) (k : CoreSt) : CoreSt :=
  let o := aluOp id k.aluA v
  k.launch cc 1 (.alu o.r o.c o.v)

/-- SHF triggers (R292). -/
def shfTrigger (id : Nat) (v : Word) (cc : Nat) (k : CoreSt) : CoreSt :=
  let o := shfOp id k.shfA v
  k.launch cc 1 (.shf o.1 (o.2.getD k.shfSat))

/-- MAC.B, MAC.BS, MAC.BU (R293, R294). -/
def macTrigger (id : Nat) (v : Word) (cc : Nat) (k : CoreSt) : CoreSt :=
  let o := macOp id k.macA v
  { k with macFlag := if o.sat then setFld k.macFlag 5 5 1 else k.macFlag }.launch cc 3 (.mac o.p o.ph)

/-- A signed 4-bit step (R295). -/
def stepOf (v : Word) (hi lo : Nat) : Int := (BitVec.ofNat 4 (fld v hi lo)).toInt

/-- MAC.T (R295 to R299): both fetches, the term, the accumulator and the pointers. -/
def macxyTrigger (c : Core) (v : Word) (s : State) : State :=
  let k0 := s.core c
  let x := BitVec.ofNat 32 (busNat s k0.macXp.toNat 4)
  let y := BitVec.ofNat 40 (busNat s k0.macYp.toNat 5)
  let i : Fin 4 := ⟨v.toNat % 4, by omega⟩
  let o := macxy k0.acc[i] x (y.setWidth 32) (y.extractLsb' 32 6) (bitOf v 2) (bitOf v 3)
  let flag1 := if o.2.1 then setFld k0.macFlag i.val i.val 1 else k0.macFlag
  let flag2 := if o.2.2 then setFld flag1 4 4 1 else flag1
  s.updCore c fun k =>
    { k with acc := k.acc.set i o.1, macFlag := flag2
             macXp := k.macXp + BitVec.ofInt 32 (4 * stepOf v 7 4)
             macYp := k.macYp + BitVec.ofInt 32 (8 * stepOf v 11 8) }.launch s.cc 3 (.acc i o.1)

/-- CLP.FLAG as its operations leave it (R301). -/
def CoreSt.clpWord (k : CoreSt) : BitVec 16 := k.clpAtHi ++ k.clpSticky

/-- CLP.T, CLP.LIM and CLP.LOAD (R301, R302). -/
def clpTrigger (id : Nat) (v : Word) (cc : Nat) (k : CoreSt) : CoreSt :=
  let i : Fin 8 := ⟨k.clpK.toNat % 8, by omega⟩
  let lo := if id = 0x0E4 then k.clpLo else k.clpLoV[i]
  let hi := if id = 0x0E4 then k.clpHi else k.clpHiV[i]
  let x : Int := if id = 0x0E3 then k.clpI[i].toInt + v.toInt else if id = 0x0E4 then k.clpI[i].toInt else v.toInt
  let o := clampOut x lo hi
  let k1 := { k with clpLoV := k.clpLoV.set i lo, clpHiV := k.clpHiV.set i hi, clpI := k.clpI.set i o.1
                     clpSticky := if o.2.1 then setFld k.clpSticky i.val i.val 1 else k.clpSticky
                     clpAtHi := setFld k.clpAtHi i.val i.val (b2n o.2.2) }
  k1.launch cc 2 (.clp i o.1 k1.clpWord)

/-- A CLP.FLAG value on its way, without the bits a CLP.CLR clears. -/
def clpMask (m : BitVec 16) (x : InFlight) : InFlight :=
  match x.val with
  | .clp i v flag => { x with val := .clp i v (flag &&& ~~~m) }
  | _ => x

/-- CLP.CLR (R301). -/
def clpClear (v : Word) (k : CoreSt) : CoreSt :=
  let m : BitVec 16 := v.setWidth 16
  { k with clpSticky := k.clpSticky &&& ~~~(m.setWidth 8), clpAtHi := k.clpAtHi &&& ~~~(m.extractLsb' 8 8)
           clpFlag := k.clpFlag &&& ~~~m, inflight := k.inflight.map (clpMask m) }

/-! ## Load and store -/

/-- The access a load or store socket names (R303). -/
def accessOf (id : Nat) : AccessKind :=
  match id with
  | 0x148 => .ld32 | 0x149 => .ld16 | 0x14A => .ld16s | 0x14B => .ld8 | 0x14C => .ld8s | 0x14D => .ldy
  | 0x150 => .st32 | 0x151 => .st16 | 0x152 => .st8 | _ => .sty

/-- The address of an access: LSU.A plus the moved value (R303). -/
def CoreSt.lsuAddr (k : CoreSt) (v : Word) : Nat := (k.lsuA + v).toNat

/-- A load trigger (R304): near, read at once; far, on its way. -/
def loadTrigger (c : Core) (id : Nat) (v : Word) (s : State) : State :=
  let a := (s.core c).lsuAddr v
  let kind := accessOf id
  if isNear c a then s.updCore c fun k => k.launch s.cc 2 (nearResult s kind a)
  else s.updCore c fun k =>
    { k with far := k.far ++ [{ issued := s.cc, due := s.cc + 8, kind := kind, addr := BitVec.ofNat 32 a, data := 0, dataH := 0 }] }

/-- A store output (R252, R303): near, at once; far, on its way. -/
def storeOutput (c : Core) (id : Nat) (v : Word) (s : State) : State :=
  let k := s.core c
  let a := k.lsuAddr v
  let kind := accessOf id
  if isNear c a then storePerform c kind a k.lsuSd (k.lsuSdh.setWidth 8) s
  else s.updCore c fun k =>
    { k with far := k.far ++ [{ issued := s.cc, due := s.cc + 8, kind := kind, addr := BitVec.ofNat 32 a, data := k.lsuSd
                                dataH := k.lsuSdh.setWidth 8 }] }

/-! ## Segments (R253, R256) -/

/-- The descriptor SEG.SET would set. -/
def CoreSt.newSeg (k : CoreSt) (v : Word) : SegDesc := { base := k.segBase, lim := k.segLim, rw := v.setWidth 2 }

/-- The descriptor number in SEG.SEL. -/
def CoreSt.segNo (k : CoreSt) : Fin 8 := ⟨k.segSel.toNat % 8, by omega⟩

/-- Whether SEG.SET traps (R256). -/
def segSetBad (k : CoreSt) (v : Word) : Bool :=
  let d := k.newSeg v
  decide (k.segNo.val < 4)
    || decide (d.base.toNat % 16 ≠ 0 ∨ (d.lim.toNat + 1) % 16 ≠ 0 ∨ d.lim.toNat ≤ d.base.toNat)
    || (decide (d.rw ≠ 0) && !((k.segs.toList.take 4).any fun x =>
          decide (d.rw &&& ~~~x.rw = 0) && decide (x.base.toNat ≤ d.base.toNat ∧ d.lim.toNat ≤ x.lim.toNat)))

/-- SEG.SET: the new descriptor governs from 2 cc later (R256). -/
def segSet (v : Word) (cc : Nat) (k : CoreSt) : CoreSt :=
  { k with segNext := k.segNext ++ [(cc + 2, k.segNo, k.newSeg v)] }

/-- A move to SEG.SEL: the selected descriptor's fields come 1 cc later (R256). -/
def segSelect (cc : Nat) (k : CoreSt) : CoreSt :=
  let d := (k.segsAt (cc + 1))[k.segNo]
  k.launch cc 1 (.segRead d.base d.lim (d.rw.setWidth 32))

/-! ## Events (R282, R287 to R290) -/

/-- Pending bits cleared; a source that fired in this very cc stays (R289). -/
def CoreSt.clearPend (k : CoreSt) (cc : Nat) (v : Word) : CoreSt :=
  let keep := if k.evtFiredCc = cc then k.evtFired else 0
  { k with evtPend := k.evtPend &&& (~~~v ||| keep) }

/-- EVT.CLR (R287, R289): what fires in this very cc keeps its pending bit, and its OVF bit (DESIGN CHOICE, log entry 115). -/
def evtClear (v : Word) (cc : Nat) (k : CoreSt) : CoreSt :=
  let keep := if k.evtFiredCc = cc then k.evtFired else 0
  { k.clearPend cc v with evtOvf := k.evtOvf &&& (~~~v ||| keep) }

/-- EVT.PGET (R287): local port k's events, which the read clears. -/
def evtPget (v : Word) (cc : Nat) (k : CoreSt) : CoreSt :=
  let i := v.toNat % 16
  let ev := k.portEv[i]'(by omega)
  { k with portEv := k.portEv.set i 0 (by omega) }.launch cc 1 (.pev (ev.setWidth 32))

/-- EVT.POKE (R287, R288): SOFT on each named core. -/
def evtPoke (v : Word) (s : State) : State :=
  (namedCores v 0).foldl (fun t c => t.fireSrc c (if isLe c then 28 else 25)) s

/-- EVT.HOST (R290): an entry for the rings, or REFUSED. -/
def evtHost (c : Core) (v : Word) (s : State) : State :=
  if fld v 7 0 ≤ 151 then { s with evq := s.evq ++ [(fld v 7 0, fld v 31 8)] }
  else s.updCore c fun k => { k with lsuFlag := k.lsuFlag ||| 1 }

/-! ## Samples and stage commands (R308 to R313) -/

/-- ADCR.ACK (R308, R309): a slot that took a value in this very cc keeps its bit. -/
def adcrAck (v : Word) (cc : Nat) (k : CoreSt) : CoreSt :=
  let keep := if k.adcrFreshCc = cc then k.adcrFresh else 0
  { k with adcrNew := k.adcrNew &&& (~~~v ||| keep), adcrMiss := k.adcrMiss &&& ~~~v }

/-- A DACW output on local port k (R310 to R313). -/
def dacwOutput (c : Core) (id : Nat) (v : Word) (s : State) : State :=
  let i : Fin 4 := ⟨id % 4, by omega⟩
  let n := lePort c i
  if !s.has n then s.updCore c fun k => { k with dacwFlag := setFld k.dacwFlag (4 + i.val) (4 + i.val) 1 }
  else if id < 0x2C4 then stageRef n (refOfQ31 v) s
  else if id < 0x2C8 then
    let o := refOfCode v
    let s1 := stageRef n o.1 s
    if o.2 then s1.updCore c fun k => { k with dacwFlag := setFld k.dacwFlag i.val i.val 1 } else s1
  else if id < 0x2CC then stageDmax n v.toNat s
  else if id < 0x2D0 then stageMode n (v.toNat % 8) s
  else pkClear n s

/-! ## Timers (R314 to R316) -/

/-- TIM REFUSED. -/
def timRefuse (c : Core) (s : State) : State := s.updCore c fun k => { k with timFlag := true }

/-- TIM.WR (R315). -/
def timWr (c : Core) (v : Word) (s : State) : State :=
  let sel := (s.core c).timSel
  if timRefused s (ownerOf (.core c)) (fld sel 7 0) (fld sel 11 8) v then timRefuse c s
  else timWrite (s.cc + 1) (fld sel 7 0) (fld sel 11 8) v s

/-- TIM.CMD (R314, R315). -/
def timCommand (c : Core) (v : Word) (s : State) : State :=
  if timCmdRefused s (ownerOf (.core c)) (fld v 7 0) (fld v 11 8) then timRefuse c s
  else timCmd (fld v 7 0) (fld v 11 8) s

/-- The counts of a counter and of those linked after it, four words in all (R316). -/
def chainWords (s : State) : Nat → Option (Fin 24) → List Word
  | 0, _ => []
  | m + 1, some k =>
    let c := s.counter k
    c.count.setWidth 32 :: chainWords s m (if c.lact = 0 then none else counterOf c.target)
  | m + 1, none => 0 :: chainWords s m none

/-- TIM.RD (R314, R315). -/
def timRd (c : Core) (s : State) : State :=
  let sel := (s.core c).timSel
  s.updCore c fun k => k.launch s.cc 2 (.tim (timRead s (fld sel 7 0) (fld sel 11 8)))

/-- TIM.SNAP (R316). -/
def timSnap (c : Core) (v : Word) (s : State) : State :=
  let ch := fld v 7 0
  let put (a b d e : Word) (t : State) : State := t.updCore c fun k => k.launch s.cc 2 (.snap a b d e)
  if 56 ≤ ch then timRefuse c (put 0 0 0 0 s)
  else if ch < 16 then put (timRead s ch 0) 0 0 0 s
  else if ch < 40 then
    match chainWords s 4 (counterOf ch) with
    | [a, b, d, e] => put a b d e s
    | _ => s
  else put (timRead s ch 1) (timRead s ch 2) (timRead s ch 3) 0 s

/-! ## Pips (R317 to R319) -/

/-- PIP REFUSED. -/
def pipRefuse (c : Core) (s : State) : State := s.updCore c fun k => { k with pipFlag := true }

/-- PIP.ARM (R317, R318). -/
def pipArmOutput (c : Core) (v : Word) (s : State) : State :=
  let k := s.core c
  let e : Fin 256 := ⟨k.pipIdx.toNat % 256, by omega⟩
  if pipArmRefused s c e k.pipW0 v then pipRefuse c s else pipArm e k.pipW0 v s

/-- PIP.DIS (R317, R318). -/
def pipDisOutput (c : Core) (v : Word) (s : State) : State :=
  let e : Fin 256 := ⟨v.toNat % 256, by omega⟩
  if s.claims (ownerOf (.core c)) 6 e.val then pipDis e s else pipRefuse c s

/-- PIP.ANG (R317). -/
def pipAng (c : Core) (v : Word) (s : State) : State :=
  let n : Port := ⟨v.toNat % 16, by omega⟩
  s.updCore c fun k => k.launch s.cc 2 (.pipA (if isW n then (s.port n).wh.angle else 0))

/-! ## Message rings (R320 to R322) -/

/-- A MSG trigger within 24 cc of the one before (R321). -/
def CoreSt.msgBusy (k : CoreSt) (cc : Nat) : Bool :=
  k.msgOp.isSome || k.inflight.any fun x => match x.val with
    | .msgSt _ => decide (cc < x.issued + 24)
    | _ => false

/-- Whether the 80 bytes at an address lie within the core's DMEM in a descriptor granting the direction (R321). -/
def msgSegOk (s : State) (c : Core) (write : Bool) (a : Nat) : Bool :=
  decide (dataBase c ≤ a ∧ a + 80 ≤ dataBase c + 0x10000) && (s.core c).descOk write a 80

/-- The code with which a MSG trigger is refused, if it is (R134, R321). -/
def msgRefusal (s : State) (c : Core) (push : Bool) (r : Nat) (a : Nat) : Option Nat :=
  let n : Port := ⟨r / 2 % 16, by omega⟩
  let l := (s.port n).ln
  if 32 ≤ r ∨ (r % 2 = 0) ≠ push then some 5
  else if pcOf n ≠ c ∨ s.signals n = false ∨ l.owner = true then some 4
  else if push ∧ 16 ≤ l.txCount then some 3
  else if push = false ∧ l.rxCount = 0 then some 2
  else if !msgSegOk s c (!push) a then some 6
  else none

/-- The COUNT a status of ring r shows (R321). -/
def ringCount (s : State) (r : Nat) : Nat :=
  let l := (s.port ⟨r / 2 % 16, by omega⟩).ln
  if 32 ≤ r then 0 else if r % 2 = 0 then l.txCount else l.rxCount

/-- MSG.PUSH, MSG.POP and MSG.PEEK (R320 to R322). -/
def msgTrigger (c : Core) (id : Nat) (v : Word) (s : State) : State :=
  let k := s.core c
  let r := k.msgRing.toNat % 64
  let push := decide (id = 0x3C1)
  if k.msgBusy s.cc then s.updCore c fun k => k.launch s.cc 24 (.msgSt (msgWord 7 0 (ringCount s r)))
  else match msgRefusal s c push r v.toNat with
    | some code => s.updCore c fun k => { k with msgOp := some ⟨s.cc + 24, msgWord code 0 (ringCount s r), none⟩ }
    | none =>
      let n : Port := ⟨r / 2 % 16, by omega⟩
      let l := (s.port n).ln
      if push then
        let s1 := pushEntry n (s.readMem v.toNat 80) s
        s1.updCore c fun k =>
          { k with msgOp := some ⟨s.cc + 24, msgWord 1 l.txTail (ringCount s1 r), none⟩ }
      else s.updCore c fun k =>
        { k with msgOp := some ⟨s.cc + 24, msgWord 1 l.rxHead l.rxCount, some (⟨r % 32, by omega⟩, v, decide (id = 0x3C2))⟩ }

/-! ## Ledger and Stone (R323 to R327) -/

/-- The next pending slot in the service order (R167), 0x1F for none. -/
def nextPending (s : State) : Nat :=
  let order := (List.range 16).map fun i => (s.led.lastServed + 1 + i) % 16
  (order.find? fun i => slotPending ⟨i % 16, by omega⟩ s).getD 0x1F

/-- LED triggers (R323): SERVE takes 12 cc, NEXT 2, TOKW 4. -/
def ledTrigger (c : Core) (id : Nat) (v : Word) (s : State) : State :=
  s.updCore c fun k =>
    match id with
    | 0x400 => { k with ledServe := k.ledServe ++ [(s.cc + 12, ⟨v.toNat % 16, by omega⟩)] }
    | 0x401 => k.launch s.cc 2 (.ledN (BitVec.ofNat 32 (nextPending s)))
    | _ => { k with ledTokw := k.ledTokw ++ [(s.cc + 4, v.setWidth 4)] }

/-- OTPU triggers (R326, R327): while BUSY a read is not performed either and records BUSY (DEDUCED, log entry 111). -/
def otpuTrigger (c : Core) (id : Nat) (v : Word) (s : State) : State :=
  match id with
  | 0x440 =>
    if s.stone.busy.isSome then { s with stone := { s.stone with otpuDone := true, otpuCode := 2 } } else
    let s1 := { s with stone := { s.stone with otpuDone := false } }
    s1.updCore c fun k => k.launch s.cc 2 (.otpu (s.stone.word (v.toNat % 2048)))
  | 0x441 => otpuPgm v s
  | _ => otpuLock v s

/-! ## All triggers and outputs -/

/-- A flag clear: FCLR of a unit, or CLP.CLR. -/
def isFlagClear (id : Nat) : Bool := [0x0E6, 0x10C, 0x154, 0x2E0, 0x305, 0x385].contains id

/-- The flag clears (R276, R293, R301, R303, R310, R314, R317). -/
def flagClear (id : Nat) (v : Word) (k : CoreSt) : CoreSt :=
  match id with
  | 0x0E6 => clpClear v k
  | 0x10C => { k with macFlag := k.macFlag &&& ~~~(v.setWidth 6) }
  | 0x154 => { k with lsuFlag := k.lsuFlag &&& ~~~(v.setWidth 2) }
  | 0x2E0 => { k with dacwFlag := k.dacwFlag &&& ~~~(v.setWidth 8) }
  | 0x305 => { k with timFlag := k.timFlag && !bitOf v 0 }
  | _ => { k with pipFlag := k.pipFlag && !bitOf v 0 }

/-- A move to a trigger socket outside the control unit. -/
def unitTrigger (c : Core) (id : Nat) (v : Word) (s : State) : State :=
  if id = 0x03B then s.updCore c (segSet v s.cc)
  else if id < 0x080 then s
  else if id < 0x0C0 then s.updCore c (aluTrigger id v s.cc)
  else if id < 0x0E0 then s.updCore c (shfTrigger id v s.cc)
  else if id < 0x100 then s.updCore c (clpTrigger id v s.cc)
  else if id = 0x112 then macxyTrigger c v s
  else if id < 0x140 then s.updCore c (macTrigger id v s.cc)
  else if id < 0x180 then loadTrigger c id v s
  else if id < 0x240 then s.updCore c (evtPget v s.cc)
  else if id = 0x301 then timRd c s
  else if id < 0x380 then timSnap c v s
  else if id < 0x3C0 then pipAng c v s
  else if id < 0x400 then msgTrigger c id v s
  else if id < 0x440 then ledTrigger c id v s
  else otpuTrigger c id v s

/-- CU.KICK (R263, R264). -/
def kick (c : Core) (s : State) : State :=
  s.updCore c fun k => { k with wdLim := if c = coreSV then wdReset coreSV else k.wdctl, wdStart := s.cc }

/-- A move to an output socket that clears no unit's flags. -/
def unitOutput (c : Core) (id : Nat) (v : Word) (s : State) : State :=
  if id = 0x046 then kick c s
  else if id < 0x180 then storeOutput c id v s
  else if id = 0x204 then s.updCore c (evtClear v s.cc)
  else if id = 0x20C then evtPoke v s
  else if id = 0x20D then evtHost c v s
  else if id = 0x28A then s.updCore c (adcrAck v s.cc)
  else if id < 0x300 then dacwOutput c id v s
  else if id = 0x303 then timWr c v s
  else if id < 0x380 then timCommand c v s
  else if id = 0x382 then pipArmOutput c v s
  else pipDisOutput c v s

end Sys2Proof.Machine
end

