-- ==== Sys2Proof/Machine/Nma.lean ====
section
/-! DEFINITION. Issue of one NMA instruction: fetch, the checks of decode and their traps, the moves, control flow and waits
(R231, R237 to R242, R258 to R267, R280 to R286). -/

namespace Sys2Proof.Machine

/-! ## Fetch (R230, R257, R258) -/

/-- Instructions of the bank or ROM the core executes from. -/
def CoreSt.bankLen (k : CoreSt) (c : Core) : Nat := if k.inRom then 2048 else imemSize c / 16

/-- Address of instruction i of the bank or ROM the core executes from. -/
def CoreSt.instrAddr (k : CoreSt) (c : Core) (i : Nat) : Nat := (if k.inRom then 0 else imemBase c.val k.bank) + 16 * i

/-- The instruction word at the core's index: the word at offset 4k holds bits [32k + 31 : 32k] (R257). -/
def fetchWord (s : State) (c : Core) : BitVec 128 :=
  BitVec.ofNat 128 (busNat s ((s.core c).instrAddr c (s.core c).pc) 16)

/-! ## Causes (R266, R267) -/

/-- One cause met by an instruction. -/
structure Cause where
  cause : Nat
  sub : Nat
  slot : Nat
  arg : Word
deriving DecidableEq, Repr

/-- The causes of FMT: a reserved format, or reserved slot bits (R235 to R237). -/
def fmtCauses (w : BitVec 128) : List Cause :=
  let top := w.extractLsb' 96 32
  if 2 ≤ formatOf w then [⟨1, 1, 0, top⟩]
  else (moveSlots w).filterMap fun k => if lowOk w k then none else some ⟨1, 2, k.val, top⟩

/-- The causes of SOCK: every source and destination of a slot that is no no-op, whatever its guard (R237, R247). -/
def sockCauses (c : Core) (w : BitVec 128) : List Cause :=
  (moveSlots w).flatMap fun k =>
    let x := slotOf w k.val
    if x.nop then []
    else
      let src := if x.imm then none else (srcFault c (decide (formatOf w = 1)) x.src).map fun b => Cause.mk 2 b k.val (BitVec.ofNat 32 x.src)
      let dst := (dstFault c x.dst).map fun b => Cause.mk 2 b k.val (BitVec.ofNat 32 x.dst)
      src.toList ++ dst.toList

/-- The causes of DUP among the moves that execute (R242). -/
def dupCauses (l : List Move) : List Cause :=
  l.filterMap fun m =>
    if l.any fun x => decide (x.slot ≠ m.slot) && decide (x.dst = m.dst) then some ⟨3, 1, m.slot, BitVec.ofNat 32 m.dst⟩
    else if m.triggers.isSome && l.any fun x => decide (x.slot ≠ m.slot) && decide (x.triggers = m.triggers) then
      some ⟨3, 2, m.slot, BitVec.ofNat 32 m.dst⟩
    else none

/-! ## Control moves (R259 to R261, R284 to R286) -/

/-- Where a control move or CU.LOOP at index i goes: a target, as a signed index. RET of an empty stack has none. -/
def controlTarget (k : CoreSt) (i : Nat) (m : Move) : Option Int :=
  match m.dst with
  | 0x041 => some (i + m.val.toInt)
  | 0x043 => k.stack.head?.map fun x => (x : Int)
  | _ => some m.val.toNat

/-- A control move (R259). -/
def Move.control (m : Move) : Bool := decide (0x040 ≤ m.dst ∧ m.dst ≤ 0x043)

/-- Index i is one of the last three of an active loop's body (R286). -/
def CoreSt.loopTail (k : CoreSt) (i : Nat) : Bool := k.loops.any fun f => decide (f.first ≤ i ∧ i ≤ f.last ∧ f.last < i + 3)

/-- The causes of JMP (R260, R284, R286). -/
def jmpCauses (c : Core) (k : CoreSt) (i : Nat) (l : List Move) : List Cause :=
  l.flatMap fun m =>
    if m.control || decide (m.dst = 0x049) then
      let late (arg : Word) : List Cause := if k.jump.isSome || k.loopTail i then [Cause.mk 5 2 m.slot arg] else []
      match controlTarget k i m with
      | none => late 0
      | some t =>
        let low : Int := if m.dst = 0x049 then i + 1 else 0
        (if t < low ∨ (k.bankLen c : Int) ≤ t then [Cause.mk 5 1 m.slot (BitVec.ofInt 32 t)] else []) ++ late (BitVec.ofInt 32 t)
    else []

/-- The causes of STACK (R261, R285). -/
def stackCauses (k : CoreSt) (l : List Move) : List Cause :=
  l.flatMap fun m =>
    if m.dst = 0x042 ∧ 8 ≤ k.stack.length then [Cause.mk 6 1 m.slot 0]
    else if m.dst = 0x043 ∧ k.stack.isEmpty then [Cause.mk 6 2 m.slot 0]
    else if m.dst = 0x049 ∧ 2 ≤ k.loops.length then [Cause.mk 6 1 m.slot 0]
    else []

/-- The causes of SW (R266). -/
def swCauses (l : List Move) : List Cause :=
  l.filterMap fun m => if m.dst = 0x047 then some ⟨8, 0, m.slot, m.val⟩ else none

/-! ## Data accesses (R254 to R256, R296, R305) -/

/-- The X fetch of a MACXY is allowed (R296). -/
def xFetchOk (s : State) (c : Core) (a : Nat) : Bool := accessOk s c .ld32 a && decide (regionOf a = some (.dmem c))

/-- The Y fetch of a MACXY is allowed (R296). -/
def yFetchOk (s : State) (c : Core) (a : Nat) : Bool := accessOk s c .ldy a && decide (regionOf a = some (.ybank c))

/-- The causes of SEG. `s` holds the operands as this instruction writes them. -/
def segCauses (c : Core) (s : State) (l : List Move) : List Cause :=
  let k := s.core c
  l.flatMap fun m =>
    if 0x148 ≤ m.dst ∧ m.dst ≤ 0x153 then
      let a := k.lsuAddr m.val
      if accessOk s c (accessOf m.dst) a then [] else [Cause.mk 4 (if m.dst < 0x150 then 1 else 2) m.slot (BitVec.ofNat 32 a)]
    else if m.dst = 0x112 then
      (if xFetchOk s c k.macXp.toNat then [] else [Cause.mk 4 3 m.slot k.macXp])
        ++ (if yFetchOk s c k.macYp.toNat then [] else [Cause.mk 4 4 m.slot k.macYp])
    else if m.dst = 0x03B ∧ segSetBad k m.val then [Cause.mk 4 5 m.slot (BitVec.ofNat 32 k.segNo.val)]
    else []

/-- The memories that carry SEC-DED (R232): IMEM and every data memory. -/
def hasEcc (a : Nat) : Bool :=
  match regionOf a with
  | some (.imem _) | some (.dmem _) | some (.ybank _) => true
  | _ => false

/-- The address at which a data read of a move meets a double-bit error (R232), if it reads such a memory: an allowed load, a far one
with the trap at its trigger (DESIGN CHOICE, log entry 110), an allowed MACXY fetch, a MSG.PUSH that is performed. -/
def eccAddr (c : Core) (s : State) (y : Bool) (m : Move) : Option Word :=
  let k := s.core c
  if m.dst = 0x112 then
    if xFetchOk s c k.macXp.toNat && yFetchOk s c k.macYp.toNat then some (if y then k.macYp else k.macXp) else none
  else if y then none
  else if 0x148 ≤ m.dst ∧ m.dst < 0x150 then
    let a := k.lsuAddr m.val
    if hasEcc a && accessOk s c (accessOf m.dst) a then some (BitVec.ofNat 32 a) else none
  else if m.dst = 0x3C1 then
    if k.msgBusy s.cc = false ∧ msgRefusal s c true (k.msgRing.toNat % 64) m.val.toNat = none then some m.val else none
  else none

/-- The causes of MEM in a data read (R232, R266). -/
def eccCauses (c : Core) (s : State) (l : List Move) (e : Ecc) : List Cause :=
  let at_ (slot : Fin 4) (y : Bool) : List Cause :=
    (l.filter fun m => decide (m.slot = slot.val)).filterMap fun m => (eccAddr c s y m).map fun a => ⟨9, 2, m.slot, a⟩
  match e with
  | .data slot => at_ slot false
  | .dataY slot => at_ slot true
  | _ => []

/-- The record of an instruction that met causes, in the order of R267: the first, and whether any is of another cause. -/
def trapOf (l : List Cause) : Option TrapInfo :=
  match l with
  | [] => none
  | x :: xs => some { cause := x.cause, sub := x.sub, slot := x.slot, arg := x.arg, multi := xs.any fun y => decide (y.cause ≠ x.cause) }

/-- The operands of core c as this instruction's moves write them. -/
def withOperands (c : Core) (l : List Move) (s : State) : State := s.updCore c fun k => storeOperands k l

/-- Whether a slot passed the socket checks. -/
def slotOk (bad : List Cause) (m : Move) : Bool := !bad.any fun x => decide (x.slot = m.slot)

/-- All causes the instruction `w` of core c meets (R237, R266, R267). -/
def causesOf (s : State) (c : Core) (w : BitVec 128) (e : Ecc) : List Cause :=
  let k := s.core c
  if e = .fetch then [⟨9, 1, 0, BitVec.ofNat 32 (k.instrAddr c k.pc)⟩]
  else if 2 ≤ formatOf w then fmtCauses w
  else
    let bad := sockCauses c w
    let all := movesOf s c w
    let l := all.filter (slotOk bad)
    let s1 := withOperands c l s
    eccCauses c s1 l e ++ fmtCauses w ++ bad ++ dupCauses all ++ jmpCauses c k k.pc l ++ segCauses c s1 l ++ stackCauses k l
      ++ swCauses l

/-! ## The next instruction (R258, R259, R284 to R286) -/

/-- The index after instruction i and the loops then active: the innermost loop that ends at i wraps while it has iterations
left; one that has none ends, and the pass serves the loop around it. -/
def afterIndex (i : Nat) : List LoopFrame → Nat × List LoopFrame
  | [] => (i + 1, [])
  | f :: fs =>
    if f.last = i then
      if 1 < f.left then (f.first, { f with left := f.left - 1 } :: fs) else afterIndex i fs
    else
      let r := afterIndex i fs
      (r.1, f :: r.2)

/-- A taken CU.JMP or CU.JMPR whose target lies outside the innermost active loop's body ends that loop (R286). -/
def leaveLoop (ends : Bool) (t : Nat) : List LoopFrame → List LoopFrame
  | [] => []
  | f :: fs => if ends && !decide (f.first ≤ t ∧ t ≤ f.last) then fs else f :: fs

/-- A control move taken at index i: target, whether it can end a loop, and the return stack (R259). -/
def takenControl (k : CoreSt) (i : Nat) (l : List Move) : Option (Nat × Bool) × List Nat :=
  match l.find? fun m => m.control with
  | none => (none, k.stack)
  | some m =>
    let t := ((controlTarget k i m).getD 0).toNat
    if m.dst = 0x042 then (some (t, false), (i + 3) :: k.stack)
    else if m.dst = 0x043 then (some (t, false), k.stack.tail)
    else (some (t, true), k.stack)

/-- The loop that a CU.LOOP at index i starts (R284). -/
def startedLoop (k : CoreSt) (i : Nat) (l : List Move) : List LoopFrame :=
  (l.find? fun m => decide (m.dst = 0x049)).toList.map fun m =>
    { first := i + 1, last := m.val.toNat, left := max 1 (fld k.cuLcnt 15 0) }

/-- The core's index, loops, stack and pending jump after instruction i issues. -/
def advance (i : Nat) (l : List Move) (k : CoreSt) : CoreSt :=
  let ctl := takenControl k i l
  let seq := afterIndex i k.loops
  let k1 := { k with lastPc := i, stack := ctl.2 }
  match k.jump with
  | some (1, t, ends) => { k1 with pc := t, jump := none, loops := leaveLoop ends t k.loops }
  | some (_, t, ends) => { k1 with pc := seq.1, jump := some (1, t, ends), loops := startedLoop k i l ++ seq.2 }
  | none => { k1 with pc := seq.1, jump := ctl.1.map fun x => (2, x.1, x.2), loops := startedLoop k i l ++ seq.2 }

/-! ## Waits (R262, R282, R289) -/

/-- The lowest bit set of a word, below 32. -/
def lowestBit (w : Word) : Nat := ((List.range 32).find? fun i => bitOf w i).getD 32

/-- The enabled sources that are pending. -/
def CoreSt.ready (k : CoreSt) (c : Core) : Word := k.pendingOf c &&& k.evtMask

/-- CU.WAIT (R282): with an enabled source pending the core does not hold. -/
def waitTrigger (c : Core) (v : Word) (cc : Nat) (k : CoreSt) : CoreSt :=
  let k1 := { k with waitCc := some cc }
  if k.ready c ≠ 0 then
    let b := lowestBit (k.ready c)
    { k1.clearPend cc (setFld 0 b b 1) with evtSrc := BitVec.ofNat 32 b }
  else { k1 with run := .wait, waitT := v.setWidth 17 }

/-- The cc in which the timeout of a wait runs out (R282): T cc or T µs after the issue, none for T = 0. -/
def CoreSt.waitOut (k : CoreSt) : Option Nat :=
  if fld k.waitT 15 0 = 0 then none
  else some (k.waitCc.getD 0 + fld k.waitT 15 0 * (if bitOf k.waitT 16 then 300 else 1))

/-- WAIT_END (R282): an enabled source has fired, or the timeout has run out with none pending; the next instruction issues in the
next cc. -/
def execWaitEnd (c : Core) (timeout : Bool) (t : Nat) (s : State) : Out :=
  let s0 := s.at t
  let k := s0.core c
  if k.run ≠ .wait then done s0
  else if k.ready c ≠ 0 then
    let b := lowestBit (k.ready c)
    done (s0.updCore c fun k =>
      { k with run := .run, lastIssue := some s0.cc, evtSrc := BitVec.ofNat 32 b, evtPend := setFld k.evtPend b b 0 })
  else if timeout && k.waitOut.any (fun d => decide (d ≤ s0.cc)) then
    done (s0.updCore c fun k => { k with run := .run, lastIssue := some s0.cc, evtSrc := 32 })
  else done s0

/-! ## Issue (R231, R237 to R242, R265) -/

/-- Moves sorted by destination. -/
def insertMove (m : Move) : List Move → List Move
  | [] => [m]
  | x :: xs => if m.dst < x.dst then m :: x :: xs else x :: insertMove m xs

/-- The moves to sockets of a kind, by ascending destination. -/
def movesTo (kind : SockKind) (l : List Move) : List Move :=
  (l.filter fun m => decide (m.kind = some kind)).foldl (fun a m => insertMove m a) []

/-- The core's stores in the order in which they land: the order of two stores of one instruction is open (DESIGN CHOICE, log entry 6). -/
def storeOrder (l : List Move) (s : State) : List Move × State :=
  let st := l.filter fun m => decide (0x150 ≤ m.dst ∧ m.dst ≤ 0x153)
  if st.length < 2 then (l, s)
  else
    let f := s.freeB
    ((l.filter fun m => decide (m.dst < 0x150)) ++ (if f.1 then st else st.reverse)
      ++ (l.filter fun m => decide (0x153 < m.dst)), f.2)

/-- What the moves of an instruction do, once no cause is met (R238, R241, R277): flag clears, operands, then triggers, which see the
memory before this instruction's stores, then outputs. A CU.WAIT judges what is pending at issue (R282), before the other triggers. -/
def runMoves (c : Core) (w : BitVec 128) (s : State) : State :=
  let l := movesOf s c w
  let outs := movesTo .output l
  let s1 := s.updCore c fun k => (outs.filter fun m => isFlagClear m.dst).foldl (fun x m => flagClear m.dst m.val x) k
  let s2 := s1.updCore c fun k => (readsOf s c w).foldl readEffect k
  let s3 := withOperands c l s2
  let s4 := if l.any fun m => decide (m.dst = 0x038) then s3.updCore c (segSelect s.cc) else s3
  let trig := movesTo .trigger l
  let s5 := match trig.find? fun m => decide (m.dst = 0x045) with
    | some m => s4.updCore c (waitTrigger c m.val s.cc)
    | none => s4
  let s6 := trig.foldl (fun t m => unitTrigger c m.dst m.val t) s5
  let o := storeOrder (outs.filter fun m => !isFlagClear m.dst) s6
  o.1.foldl (fun t m => unitOutput c m.dst m.val t) o.2

/-- One instruction of a running core issues in this cc. -/
def issue (c : Core) (e : Ecc) (s : State) : State :=
  let k := s.core c
  let i := k.pc
  if k.bankLen c ≤ i then
    trapCore c { cause := 5, sub := 3, slot := 0, arg := 0, multi := false }
      (s.updCore c fun k => { k with pc := k.bankLen c - 1 })
  else
    let w := fetchWord s c
    match trapOf (causesOf s c w e) with
    | some t => trapCore c t s
    | none =>
      (runMoves c w s).updCore c fun x => { advance i (movesOf s c w) x with lastIssue := some s.cc }

/-- INSTRUCTION_ISSUE (R231, R238, R249): a core issues one instruction per cc; what is due has committed before it reads. -/
def execInstructionIssue (c : Core) (e : Ecc) (s : State) : Out :=
  let s0 := if (s.core c).lastIssue = some s.cc then { s with cc := s.cc + 1 } else s
  if (s.core c).run = .run ∧ s.dev.asleep = false then done (issue c e (commitCore c s0)) else done s

end Sys2Proof.Machine
end

