-- ==== Sys2Proof/Machine/HostBus.lean ====
section
/-! DEFINITION. The host bus: what the hub answers to a transaction and what a transaction does (R448, R469, R493 to R534, R539). -/

namespace Sys2Proof.Machine

/-! ## Which commands are accepted (R448, R469, R495, R499, R500, R539) -/

/-- What the hub accepts now. -/
inductive HostState where
  | run | boot | restr | scrapped | held | deaf
deriving DecidableEq, Repr

/-- The hub acknowledges no address in sleep, held in reset, or without VHOST (R80, R495); otherwise its mode decides. -/
def State.hostState (s : State) : HostState :=
  if s.dev.asleep || decide (s.dev.hold ≠ .none) || !s.fd.vhost then .deaf
  else match s.dev.mode with
    | .booting => .boot
    | .restrictive => .restr
    | .scrapped => .scrapped
    | .integrity | .shutdown => .held
    | .running | .noset | .vendor => .run

/-- A register-block code (R505). -/
def isBlockCode (c : Byte) : Bool := decide (0x10 ≤ c.toNat ∧ c.toNat ≤ 0x6F)

/-- A defined command code (R499). -/
def codeDefined (c : Byte) : Bool :=
  isBlockCode c || [0x00, 0x01, 0x02, 0x08, 0xD0, 0xD1, 0xD2, 0xE0, 0xE1, 0xF0, 0xF1, 0xF2, 0xF3, 0xF4].contains c.toNat

/-- Whether a code is acknowledged at the command byte (R539). -/
def codeAccepted (h : HostState) (c : Byte) : Bool :=
  let n := c.toNat
  match h with
  | .run => codeDefined c
  | .boot => isBlockCode c || [0x00, 0x01, 0x02, 0x08, 0xD0, 0xD1].contains n
  | .restr => [0x00, 0x01, 0x02, 0xD0, 0xD1, 0xF2].contains n
  | .scrapped => [0x00, 0x01, 0x02, 0xD0, 0xD1, 0xF2, 0xF4].contains n
  | .held => [0x00, 0xD0, 0xD1].contains n
  | .deaf => false

/-! ## Shapes and counts (R498, R499) -/

/-- The write shapes. -/
inductive WriteShape where
  | byte | block | proc
deriving DecidableEq, Repr

/-- The write shape of a code, if it has one (R499). -/
def writeShape (c : Byte) : Option WriteShape :=
  if isBlockCode c then some .block
  else match c.toNat with
    | 0x08 | 0xF0 | 0xF1 | 0xF2 => some .byte
    | 0xD0 | 0xD2 | 0xE0 | 0xF3 | 0xF4 => some .block
    | 0xD1 | 0xE1 => some .proc
    | _ => none

/-- Whether a code has a read shape (R499). -/
def hasRead (c : Byte) : Bool := isBlockCode c || [0x00, 0x01, 0x02, 0x08, 0xD0].contains c.toNat

/-- Whether a count byte is among the command's counts (R499, R523). -/
def countOk (c : Byte) (n : Nat) : Bool :=
  if isBlockCode c then decide (4 ≤ n ∧ n ≤ 32 ∧ n % 4 = 0)
  else match c.toNat with
    | 0xD0 => decide (n = 4)
    | 0xD1 => decide (n = 2 ∨ n = 3)
    | 0xD2 => decide (3 ≤ n ∧ n ≤ 66)
    | 0xE0 => decide (n = 81)
    | 0xE1 => decide (n = 1)
    | 0xF3 => decide (n = 3)
    | 0xF4 => decide (n = 2 ∨ n = 4 ∨ n = 11)
    | _ => false

/-! ## What the host sees (R498, R502, R503) -/

/-- PEC in force (R503). -/
def State.pecOn (s : State) : Bool := bitOf s.host.busctl 0

/-- The address byte with R/W = 0 (R495). -/
def State.addrByte (s : State) : Byte := BitVec.ofNat 8 (2 * (0x58 + 8 * s.bt.addrofs.toNat + s.dev.addr.toNat))

/-- A new transaction: nothing sent, nothing refused. -/
def hostStart (s : State) : State := { s with host := { s.host with sent := [], nack := none } }

/-- The hub does not acknowledge byte i after the address: 0 the command byte, 1 the byte after it. A transaction to an address the
hub does not acknowledge shows the same as its command byte refused. -/
def hostNack (i : Nat) (s : State) : State := { s with host := { s.host with nack := some i } }

/-- The hub answers a read with bytes, and with a PEC over everything sent before while PEC is in force (R502, R503). -/
def hostSend (before bytes : List Byte) (s : State) : State :=
  let pec := if s.pecOn then [pecOf (before ++ bytes)] else []
  { s with host := { s.host with sent := bytes ++ pec } }

/-- ALERT_N is driven low (R521). -/
def State.alertLow (s : State) : Bool :=
  bitOf s.host.busctl 1 && decide (fld s.host.busctl 23 16 ≤ s.host.evcount) && decide (s.hostState ≠ .deaf)

/-- The STATUS word (R520). -/
def statusWord (s : State) : Nat :=
  s.dev.mode.code * 8192 + b2n s.alertLow * 4096 + b2n (decide (s.host.lost ≠ 0)) * 2048
    + b2n (decide (s.host.errcode ≠ 0)) * 1024 + s.host.evcount % 1024

/-! ## Reading (R448, R506 to R508) -/

/-- The bytes MEMRD still returns in shutdown and when held for integrity (R448, R469). -/
def heldByte (a : Nat) : Bool :=
  decide (0x40000900 ≤ a ∧ a < 0x40000970) || decide (0x40000000 ≤ a ∧ a < 0x40000004)
    || decide (0x40000A00 ≤ a ∧ a < 0x40000A04) || decide (0x40000A20 ≤ a ∧ a < 0x40000A24)

/-- A byte as the window shows it (R448, R508). -/
def hostByte (s : State) (a : Nat) : Byte := if s.hostState = .held ∧ heldByte a = false then 0 else busByte s a

/-- The first address of a block code's row (R505). -/
def rowAddr (s : State) (c : Byte) : Nat :=
  if c.toNat < 0x40 then
    let k := c.toNat - 0x10
    0x40010000 + s.host.portsel.toNat * 0x1000 + k / 8 * 0x100 + k % 8 * 0x20
  else
    let k := c.toNat - 0x40
    0x40000000 + k / 4 * 0x100 + k % 4 * 0x20

/-- The base of the window (R507). -/
def State.winBase (s : State) : Nat := s.host.winbase.toNat * 65536

/-- What MEMRD returns from PTR for LEN bytes (R508). -/
def memrdBytes (s : State) (ptr len : Nat) : List Byte :=
  (List.range len).map fun i => hostByte s (s.winBase + (ptr + i) % 65536)

/-- The oldest k entries of the host event ring (R515, R518). -/
def evEntries (s : State) (k : Nat) : List Byte :=
  (List.range k).flatMap fun i => s.readMem (0x3000A000 + 8 * ((s.host.evhead + i) % 512)) 8

/-- The data of a read transaction (R504, R506, R507, R518 to R520). -/
def readData (s : State) (c : Byte) : List Byte :=
  if isBlockCode c then
    (32 : Byte) :: (List.range 8).flatMap fun i => bytesLE (regRead s (rowAddr s c + 4 * i))
  else match c.toNat with
    | 0x00 => toBytesLE 2 (statusWord s)
    | 0x01 =>
      let k := min 4 s.host.evcount
      BitVec.ofNat 8 (8 * k) :: evEntries s k
    | 0x02 => toBytesLE 2 (s.host.evcount % 1024)
    | 0x08 => [s.host.portsel.setWidth 8]
    | _ => (4 : Byte) :: toBytesLE 4 s.winBase

/-- A read whose every byte the host took (R518): the entries EVPOP sent leave the ring. -/
def readWhole (c : Byte) (s : State) : State :=
  if c = 0x01 then
    let k := min 4 s.host.evcount
    { s with host := { s.host with evhead := (s.host.evhead + k) % 512, evcount := s.host.evcount - k } }
  else s

/-! ## Message rings (R513, R514) -/

/-- Whether the host owns the pair of ring r (R134). -/
def hostRing (s : State) (r : Nat) : Bool :=
  if h : r < 32 then (s.port ⟨r / 2, by omega⟩).ln.owner else false

/-- RINGPUSH (R513). -/
def ringPush (d : List Byte) (s : State) : State :=
  let r := (d.getD 0 0).toNat
  let n : Port := ⟨r / 2 % 16, by omega⟩
  if r % 2 = 1 ∨ hostRing s r = false then s.busError 0xE0 3
  else if 16 ≤ (s.port n).ln.txCount then s.busError 0xE0 0xB
  else pushEntry n (d.drop 1) s

/-- RINGPOP (R514): the answer, whether it is an error, and the port whose oldest entry leaves when the read is whole. -/
def ringPopData (s : State) (r : Nat) : List Byte × Bool × Option Port :=
  let n : Port := ⟨r / 2 % 16, by omega⟩
  if r % 2 = 0 ∨ hostRing s r = false then ([0], true, none)
  else if (s.port n).ln.rxCount = 0 then ([0], false, none)
  else ((80 : Byte) :: s.readMem (ringAddr r (s.port n).ln.rxHead) 80, false, some n)

/-! ## Writes (R504, R506, R507, R509 to R511) -/

/-- The little-endian words that bytes spell. -/
def wordsLE : List Byte → List Word
  | a :: b :: c :: d :: l => BitVec.ofNat 32 (natLE [a, b, c, d]) :: wordsLE l
  | _ => []

/-- A list of register writes by the host (R511): refused whole when any register refuses, else done in address order. -/
def hostRegs (cmd : Byte) (l : List (RegPlace × Word)) (s : State) : State :=
  match l.findSome? fun x => placeRefused s .host x.1 x.2 with
  | some code => s.busError cmd code
  | none => l.foldl (fun t x => placeWrite x.1 x.2 t) s

/-- A block write (R506): places with no register take no effect. -/
def blockWrite (c : Byte) (d : List Byte) (s : State) : State :=
  let places := (wordsLE d).zipIdx.filterMap fun x => (regPlace (rowAddr s c + 4 * x.2)).map fun p => (p, x.1)
  hostRegs c places s

/-- Where data byte i of a MEMWR goes (R509). -/
def memwrAddr (s : State) (ptr i : Nat) : Nat :=
  let a := s.winBase + ptr
  a - a % 64 + (a + i) % 64

/-- Why a byte may not be written at an address, alignment apart (R486, R509). -/
def memwrRefused (s : State) (a : Nat) : Option (BitVec 4) :=
  match regionOf a with
  | none => some 0xA
  | some .rom | some .stone | some .image => some 3
  | some (.imem _) => if s.stone.life = 3 then some 3 else none
  | some .sram => if (0x3000B800 ≤ a ∧ a < 0x3000C000) ∨ (0x30014880 ≤ a ∧ a < 0x30015400) then some 3 else none
  | some .reg => if (regPlace (a - a % 4)).isNone then some 0xA else none
  | some _ => none

/-- The registers that the written bytes form, each with its value, in address order (R509). -/
def memwrRegs (l : List (Nat × Byte)) : List (Nat × Word) :=
  (l.filter fun x => inRegSpace x.1 && decide (x.1 % 4 = 0)).filterMap fun x =>
    match (List.range 4).map fun i => l.find? fun y => decide (y.1 = x.1 + i) with
    | [some a, some b, some c, some d] => some (x.1, BitVec.ofNat 32 (natLE [a.2, b.2, c.2, d.2]))
    | _ => none

/-- Bytes in register space that do not form whole registers (R509). -/
def memwrMisaligned (l : List (Nat × Byte)) : Bool :=
  decide (4 * (memwrRegs l).length ≠ (l.filter fun x => inRegSpace x.1).length)

/-- Pairs sorted by address. -/
def insertAddr (x : Nat × Word) : List (Nat × Word) → List (Nat × Word)
  | [] => [x]
  | y :: ys => if x.1 < y.1 then x :: y :: ys else y :: insertAddr x ys

/-- One byte of a MEMWR outside register space. -/
def memwrByte (x : Nat × Byte) (s : State) : State :=
  match regionOf x.1 with
  | some (.imem c) => imemStore x.1 [x.2] c s
  | some (.ybank _) => writeY x.1 [x.2] s
  | some .sram => sramStore x.1 [x.2] s
  | some (.dmem _) => s.writeMem x.1 [x.2]
  | _ => s

/-- MEMWR (R509 to R511). -/
def memWr (d : List Byte) (s : State) : State :=
  let ptr := natLE (d.take 2)
  let l := (d.drop 2).zipIdx.map fun x => (memwrAddr s ptr x.2, x.1)
  match l.findSome? fun x => memwrRefused s x.1 with
  | some code => s.busError 0xD2 code
  | none =>
    if memwrMisaligned l then s.busError 0xD2 5
    else
      let regs := ((memwrRegs l).foldl (fun acc x => insertAddr x acc) []).filterMap fun x => (regPlace x.1).map fun p => (p, x.2)
      let s1 := hostRegs 0xD2 regs s
      (l.filter fun x => !inRegSpace x.1).foldl (fun t x => memwrByte x t) s1

/-! ## Commands that start work (R467, R490, R522 to R525) -/

/-- RIPEN (R522). -/
def ripenCmd (b : Byte) (s : State) : State :=
  let i := fld b 3 0
  if fld b 6 4 ≠ 0 then s.busError 0xF0 2
  else if bitOf b 7 then
    if h : i ≤ 5 then ripreqRequest ⟨i, by omega⟩ s else s.busError 0xF0 2
  else
    let n : Port := ⟨i % 16, by omega⟩
    if s.has n then setripRequest n s else s

/-- A supply that lies below its start threshold (R69): certain below 9.5 V, and inside the threshold's band as the start path
judged it. -/
def belowStart (mv : Nat) (up : Bool) : Bool := decide (mv < 9500) || (decide (mv < 11000) && !up)

/-- Every condition of sleep that the hub's state shows (R525). -/
def State.sleepOk (s : State) : Bool :=
  decide (s.fd.feed = .b) && belowStart s.fd.kuMv s.fd.kuUp && (!s.isDmh16 || belowStart s.fd.gMv s.fd.gUp)
    && (allPorts.all fun n => (!s.signals n || decide ((s.port n).cf.attach = .unattached))
          && (decide ((s.port n).pw.sw = .off) || decide ((s.port n).pw.sw = .giveup)) && !(s.port n).st.ripPend)
    && s.stone.busy.isNone && s.bt.img.isNone && (allCores.all fun c => !(s.core c).ripenPend)

/-- Whether a wake source can wake the hub (R216, R221, R526): a comparator only where its port's CMPROUTE enables it and it is
VALID, which a CF detector is that reads no Undecided (R90). -/
def wakeEnabled (s : State) : WakeSource → Bool
  | .comparator n false => bitOf (s.port n).st.cmproute 4 && (s.port n).st.uv.valid
  | .comparator n true =>
    let c := (s.port n).cf
    bitOf (s.port n).st.cmproute 5 && (decide (c.cf1 ≠ .undecided) || decide (c.cf2 ≠ .undecided))
  | _ => true

/-- OTPCMD (R467, R523). -/
def otpCmd (d : List Byte) (s : State) : State :=
  let op := (d.getD 0 0).toNat
  let b1 := d.getD 1 0
  let b2 := d.getD 2 0
  if op = 0 ∨ 4 < op ∨ (3 ≤ op ∧ (b1 ≠ 0x5A ∨ b2 ≠ 0xA5)) then s.busError 0xF3 2
  else
    let arg := if op = 1 then natLE [b1, b2] else if op = 2 then b1.toNat % 4 else 0
    stoneRequest 1 ⟨BitVec.ofNat 4 op, BitVec.ofNat 16 arg⟩ s

/-- IMGCMD (R490, R491, R523): a count that does not fit OP is COUNT; a reserved OP ends with RANGE. -/
def imgCmd (d : List Byte) (s : State) : State :=
  let op := (d.getD 0 0).toNat
  let none_ : ImageOp := { op := BitVec.ofNat 4 op, slot := 0, offset := 0, len := 0, src := 0, kind := 0, portSel := 0 }
  if op = 0 ∨ 4 < op then imageRequest false { none_ with op := 0 } s
  else match imageArgs (BitVec.ofNat 4 op) (d.drop 1) with
    | some o => imageRequest true o s
    | none => s.busError 0xF4 4

/-- A write of one data byte or block, complete and with its PEC checked (R510). `active` is a wake source active now (R525). -/
def hostEffect (c : Byte) (d : List Byte) (active : Option WakeSource) (s : State) : State :=
  let b := d.headD 0
  if isBlockCode c then blockWrite c d s
  else match c.toNat with
    | 0x08 => if fld b 7 4 ≠ 0 then s.busError c 2 else { s with host := { s.host with portsel := b.setWidth 4 } }
    | 0xD0 =>
      if natLE (d.take 2) ≠ 0 then s.busError c 2
      else { s with host := { s.host with winbase := BitVec.ofNat 16 (natLE (d.drop 2)) } }
    | 0xD2 => memWr d s
    | 0xE0 => ringPush d s
    | 0xF0 => ripenCmd b s
    | 0xF1 =>
      if b ≠ 0x5A then s.busError c 2
      else if s.sleepOk && !active.any (wakeEnabled s) then { s with dev := { s.dev with sleepDue := true } }
      else s.busError c 6
    | 0xF2 => if b ≠ 0xA5 then s.busError c 2 else resetWith 2 s
    | 0xF3 => otpCmd d s
    | 0xF4 => imgCmd d s
    | _ => s

/-- A complete write fires HOSTCMD on SV (R288; DESIGN CHOICE, log entry 113) and is performed. -/
def hostPerform (c : Byte) (d : List Byte) (active : Option WakeSource) (s : State) : State :=
  hostEffect c d active (s.fireSrc coreSV 0)

/-! ## Transactions (R498, R501, R503, R510, R529, R532) -/

/-- How many bytes after the command byte the hub takes, from the bytes the host sends: the index of the first it does not
acknowledge and the error, if there is one (R500, R501, R503, R508). -/
def writeNack (h : HostState) (c : Byte) (wb : List Byte) : Option (Nat × BitVec 4) :=
  match writeShape c with
  | none => some (1, 3)
  | some .byte => if 2 < wb.length then some (3, 4) else none
  | some k =>
    let n := (wb.headD 0).toNat
    let room := if k = .block then n + 2 else n + 1
    if h = .boot ∧ isBlockCode c then some (1, 6)
    else if !countOk c n then some (1, 4)
    else if c = 0xD1 ∧ n = 3 ∧ wb.getD 3 1 = 0 then some (4, 4)
    else if room < wb.length then some (room + 1, 4)
    else none

/-- The PEC of a write: the byte after the last of `need` bytes is right (R502, R503). -/
def pecRight (s : State) (c : Byte) (wb : List Byte) (need : Nat) : Bool :=
  decide (wb.length = need + 1) && decide (wb.getD need 0 = pecOf (s.addrByte :: c :: wb.take need))

/-- A write that came to its STOP or repeated START unrefused (R503, R510). -/
def writeFinish (c : Byte) (wb : List Byte) (active : Option WakeSource) (s : State) : State :=
  let need := if writeShape c = some .byte then 1 else (wb.headD 0).toNat + 1
  if wb.length < need then s.busError c 8
  else if s.pecOn && !pecRight s c wb need then s.busError c 1
  else hostPerform c (if writeShape c = some .byte then wb.take 1 else (wb.take need).drop 1) active s

/-- The read part of a process call (R508, R514). -/
def procRead (c : Byte) (wb : List Byte) (whole : Bool) (s : State) : State :=
  let before := s.addrByte :: c :: wb ++ [s.addrByte + 1]
  let d := wb.drop 1
  if c = 0xD1 then
    let len := if d.length = 3 then (d.getD 2 0).toNat else 32
    hostSend before (BitVec.ofNat 8 len :: memrdBytes s (natLE (d.take 2)) len) s
  else
    let r := ringPopData s (d.getD 0 0).toNat
    let s1 := hostSend before r.1 s
    let s2 := if r.2.1 then s1.busError c 3 else s1
    match r.2.2 with
    | some n => if whole then popRx n s2 else s2
    | none => s2

/-- A read that the command does not have (R501): 0xFF for every byte, one standing for all, and ACCESS. -/
def readRefused (c : Byte) (s : State) : State :=
  { s with host := { s.host with sent := [0xFF] } }.busError c 3

/-- The bytes a host puts after the command byte. -/
def Xact.wire (x : Xact) : List Byte :=
  match x.shape with
  | .blockWrite | .processCall => x.count :: x.bytes
  | .writeByte => x.bytes
  | _ => []

/-- A transaction with bytes written after the command byte (R501, R510, R529). -/
def writeRun (c : Byte) (x : Xact) (active : Option WakeSource) (s : State) : State :=
  let wb := Xact.wire x
  match writeNack s.hostState c wb with
  | some (i, code) => (hostNack i s).busError c code
  | none =>
    if x.ending = .broken then s.busError c 8
    else if writeShape c = some .proc then
      if x.shape = .processCall ∧ x.ending = .repStart then
        if wb.length = (wb.headD 0).toNat + 1 then procRead c wb x.whole s else readRefused c s
      else s.busError c 8
    else writeFinish c wb active s

/-- SETUP is recorded where SCL rose too early after a change of SDA; the bit is taken as sent (R527, R533). -/
def hostSetup (c : Byte) (x : Xact) (s : State) : State :=
  if x.rise.any fun k => decide (k < fld s.host.bussetup 4 0) then s.busError c 9 else s

/-- One host transaction after its address byte (R498 to R518). `active` is a wake source active now, which only SLEEP asks. -/
def hostRun (c : Byte) (x : Xact) (active : Option WakeSource) (s : State) : State :=
  let s0 := if s.hostState = .deaf then hostStart s else hostSetup c x (hostStart s)
  if !codeAccepted s.hostState c then hostNack 0 s0
  else if x.ending = .timeout then (if bitOf s.host.busctl 2 then s0.busError c 7 else s0)
  else match x.shape with
    | .commandOnly => if (writeShape c).isSome then s0.busError c 8 else s0
    | .readByte | .readWord | .blockRead =>
      if !hasRead c then readRefused c s0
      else
        let s1 := hostSend [s.addrByte, c, s.addrByte + 1] (readData s c) s0
        if x.whole then readWhole c s1 else s1
    | _ => if (Xact.wire x).isEmpty then (if (writeShape c).isSome then s0.busError c 8 else s0) else writeRun c x active s0

/-! ## The commands -/

/-- STATUS (R520). -/
def execStatus (x : Xact) (s : State) : Out := done (hostRun 0x00 x none s)

/-- READ_WITHOUT_COMMAND (R498): the STATUS word. -/
def execReadWithoutCommand (_whole : Bool) (s : State) : Out :=
  let s0 := hostStart s
  if s.hostState = .deaf then done (hostNack 0 s0)
  else done (hostSend [s.addrByte + 1] (toBytesLE 2 (statusWord s)) s0)

/-- QUICK (R498): no effect. -/
def execQuick (s : State) : Out := done (hostStart s)

/-- EVPOP (R518). -/
def execEvpop (x : Xact) (s : State) : Out := done (hostRun 0x01 x none s)

/-- EVCOUNT (R519). -/
def execEvcount (x : Xact) (s : State) : Out := done (hostRun 0x02 x none s)

/-- PORTSEL (R504). -/
def execPortsel (x : Xact) (s : State) : Out := done (hostRun 0x08 x none s)

/-- A block code of the given range, any other code being undefined here. -/
def blockRun (lo hi : Nat) (c : Byte) (x : Xact) (s : State) : State :=
  if lo ≤ c.toNat ∧ c.toNat ≤ hi then hostRun c x none s else hostNack 0 (hostStart s)

/-- PORT_BLOCK_READ (R505, R506). -/
def execPortBlockRead (c : Byte) (x : Xact) (s : State) : Out := done (blockRun 0x10 0x3F c x s)

/-- PORT_BLOCK_WRITE (R505, R506, R511). -/
def execPortBlockWrite (c : Byte) (x : Xact) (s : State) : Out := done (blockRun 0x10 0x3F c x s)

/-- GLOBAL_BLOCK_READ (R505, R506). -/
def execGlobalBlockRead (c : Byte) (x : Xact) (s : State) : Out := done (blockRun 0x40 0x6F c x s)

/-- GLOBAL_BLOCK_WRITE (R505, R506, R511). -/
def execGlobalBlockWrite (c : Byte) (x : Xact) (s : State) : Out := done (blockRun 0x40 0x6F c x s)

/-- WINSEL (R507). -/
def execWinsel (x : Xact) (s : State) : Out := done (hostRun 0xD0 x none s)

/-- MEMRD (R508). -/
def execMemrd (x : Xact) (s : State) : Out := done (hostRun 0xD1 x none s)

/-- MEMWR (R509). -/
def execMemwr (x : Xact) (s : State) : Out := done (hostRun 0xD2 x none s)

/-- RINGPUSH (R513). -/
def execRingpush (x : Xact) (s : State) : Out := done (hostRun 0xE0 x none s)

/-- RINGPOP (R514). -/
def execRingpop (x : Xact) (s : State) : Out := done (hostRun 0xE1 x none s)

/-- RIPEN (R522). -/
def execRipen (x : Xact) (s : State) : Out := done (hostRun 0xF0 x none s)

/-- SLEEP (R525). -/
def execSleep (x : Xact) (active : Option WakeSource) (s : State) : Out := done (hostRun 0xF1 x active s)

/-- RESET (R524). -/
def execReset (x : Xact) (s : State) : Out := done (hostRun 0xF2 x none s)

/-- PGM (R326, R463, R467): from SV, or an OTPCMD. -/
def execPgm (r : StoneReq) (s : State) : Out :=
  match r with
  | .sv v => done (otpuPgm v s)
  | .host x => done (hostRun 0xF3 x none s)

/-- LOCK (R326, R464, R467): from SV, or an OTPCMD. -/
def execLock (r : StoneReq) (s : State) : Out :=
  match r with
  | .sv v => done (otpuLock v s)
  | .host x => done (hostRun 0xF3 x none s)

/-- ADVANCE (R465, R467): an OTPCMD. -/
def execAdvance (x : Xact) (s : State) : Out := done (hostRun 0xF3 x none s)

/-- SCRAP (R465, R467): an OTPCMD. -/
def execScrap (x : Xact) (s : State) : Out := done (hostRun 0xF3 x none s)

/-- An image-store request of one OP (R490): from SV with the bytes after OP, or an IMGCMD. -/
def imageRun (op : BitVec 4) (r : ImageReq) (s : State) : State :=
  match r with
  | .host x => hostRun 0xF4 x none s
  | .sv b =>
    match imageArgs op b with
    | some o => imageRequest true o s
    | none => imageRequest false { op := op, slot := 0, offset := 0, len := 0, src := 0, kind := 0, portSel := 0 } s

/-- ERASE (R490). -/
def execErase (r : ImageReq) (s : State) : Out := done (imageRun 1 r s)

/-- WRITE (R490). -/
def execWrite (r : ImageReq) (s : State) : Out := done (imageRun 2 r s)

/-- CHECK (R490). -/
def execCheck (r : ImageReq) (s : State) : Out := done (imageRun 3 r s)

/-- LOADGREEN (R487, R490). -/
def execLoadgreen (r : ImageReq) (s : State) : Out := done (imageRun 4 r s)

/-- BUS_CONDITION_MISPLACED (R529): an unfinished write is discarded with ABORT; a read has no other effect. -/
def execBusConditionMisplaced (cmd : Byte) (writing : Bool) (s : State) : Out :=
  if writing && codeAccepted s.hostState cmd then done (s.busError cmd 8) else done s

/-- SCL_LOW_TIMEOUT (R532): with TOEN = 1 a transaction ends with TIMEOUT. -/
def execSclLowTimeout (cmd : Byte) (inTransaction : Bool) (s : State) : Out :=
  if bitOf s.host.busctl 2 && inTransaction && codeAccepted s.hostState cmd then done (s.busError cmd 7) else done s

/-- SDA_HOLD_RELEASE (R531): event 149. -/
def execSdaHoldRelease (s : State) : Out := if s.hostState = .deaf then done s else done (s.fire 149 0)

/-! ## Sleep and wake (R525, R526) -/

/-- ARG of EV_WAKE (R516, R526). -/
def wakeArg : WakeSource → Nat
  | .pin => 1
  | .comparator n _ => 2 + 16 * n.val
  | .supply => 3

/-- Every result of core c runs out before its clock stops (R525). -/
def drainCore (c : Core) (s : State) : State :=
  let k := s.core c
  let last := (k.inflight.map (fun x => x.due) ++ k.segNext.map (fun x => x.1) ++ k.ledServe.map (fun x => x.1)
    ++ k.ledTokw.map (fun x => x.1) ++ (k.msgOp.map fun m => m.due).toList).foldl max s.cc
  commitCore c (s.at last)

/-- B's stage takes its low-power mode (R227, R525). The mode last written waits for the first period start after the wake; a stage
that was in START_REG already keeps what waits. -/
def lowPower (s : State) : State :=
  s.updSt portB fun t =>
    let back := if t.mode = .startReg then t.pendMode else some t.lastMode
    { t with mode := .startReg, pendMode := back, prevMode := back, bypExit := none, active := false }

/-- SLEEP_ENTRY (R525, R526), 1 ms after the STOP of SLEEP: a wake source active now stops the entry and is reported; a condition that
no longer holds refuses it with STATE. -/
def execSleepEntry (active : Option WakeSource) (s : State) : Out :=
  if s.dev.sleepDue then
    let s1 := { s with dev := { s.dev with sleepDue := false } }
    match active.filter (wakeEnabled s1) with
    | some w => done (s1.fire 150 (wakeArg w))
    | none =>
      if s1.sleepOk then
        let s2 := lowPower (allCores.foldl (fun t c => drainCore c t) (farRun none (farCount s1) s1))
        done { s2 with dev := { s2.dev with asleep := true } }
      else done (s1.busError 0xF1 6)
  else done s

/-- WAKE (R526): clocks restart, the address is recognised again, EV_WAKE and SV's source fire; no effect while awake. -/
def execWake (w : WakeSource) (s : State) : Out :=
  if s.dev.asleep && wakeEnabled s w then
    done ({ s with dev := { s.dev with asleep := false } }.fire 150 (wakeArg w))
  else done s

end Sys2Proof.Machine
end

