-- ==== Sys2Proof/Machine/Phy.lean ====
section
/-! DEFINITION. The line PHYs: sending, NODs and tries, receiving, RELAY and grant marks (R111 to R136, R389). -/

namespace Sys2Proof.Machine

/-! ## Sending (R117 to R120, R124, R126 to R128, R136) -/

/-- What holds for a pending TX entry when the PHY looks at it. -/
inductive TxVerdict where
  /-- it goes out now -/
  | go
  /-- a START entry that waits for its level (R127) -/
  | waitLevel
  /-- it waits for the pip's mark (R126) -/
  | waitPip
  /-- it ends with this RESULT (R135) -/
  | bad (result : Nat)
deriving DecidableEq, Repr

/-- cc that the exchange of a frame with k objects takes: the frame, tNOD and a NOD (R126). -/
def exchangeCc (k : Nat) : Nat := (105 + 32 * k) * 1200 + 60000 + 126000

/-- Whether a START entry may go out now (R127): the sink samples OPEN; the source's HOLD has stood for tHOLD. -/
def PortSt.mayStart (p : PortSt) : Bool :=
  if p.isSource then decide (p.cf.level = 0) && p.ln.holdStood else decide (p.cf.activeReading = .openBand)

/-- Whether HOLDOFF keeps a frame of k objects away (R126): on a W port with an armed burst profile, its exchange would still run
at the next opening pip predicted. -/
def heldOff (n : Port) (k : Nat) (s : State) : Bool :=
  let p := s.port n
  isW n && bitOf p.ln.linectl 2 && bitOf p.ripe.burstctl 31 && (nextOpenPip s n).any fun d => decide (d ≤ exchangeCc k)

/-- Whether an entry without START, an answer, waits in the TX ring (R128). -/
def answersPend (n : Port) (s : State) : Bool :=
  (pendingTx n s).any fun e => !bitOf (entryCtl s (ringAddr (2 * n.val) e)) 14

/-- Whether a START entry of port n goes out now (R127, R128): a source whose sink sent its START frame while the hub's own waited
sends its answers first. -/
def startsNow (n : Port) (s : State) : Bool :=
  (s.port n).mayStart && !((s.port n).isSource && (s.port n).ln.sinkStart && answersPend n s)

/-- The PHY's judgement of TX entry e (R126 to R128, R135). -/
def txVerdict (n : Port) (e : Nat) (s : State) : TxVerdict :=
  let p := s.port n
  let a := ringAddr (2 * n.val) e
  let c := (memRead s.mem (a + 2)).toNat
  if 11 < c ∨ memRead s.mem (a + 3) ≠ addrOf c then .bad 5
  else if (c = 1 ∨ c = 2) ∧ p.cf.csupOn = false then .bad 6
  else if p.ctxOpen c = false then .bad 5
  else if heldOff n (hdrCount (entryHdr s a)) s then .waitPip
  else if bitOf (entryCtl s a) 14 ∧ startsNow n s = false then .waitLevel
  else .go

/-- The next TX ID of context c, which advances (R120). -/
def takeId (n : Port) (c : Nat) (s : State) : BitVec 3 × State :=
  if h : c < 12 then
    ((s.port n).ln.ctxs[c].txId,
      s.updLn n fun l => { l with ctxs := l.ctxs.set c { l.ctxs[c] with txId := l.ctxs[c].txId + 1 } })
  else (0, s)

/-- The PHY begins a try of TX entry e: at the first try of its message it fills ID, ROLE, CSUP and REV (R120, R135) and the request
opens its sequence; a message whose tries were broken off keeps the ID it has. -/
def beginEntry (n : Port) (e : Nat) (s : State) : State :=
  let p := s.port n
  let a := ringAddr (2 * n.val) e
  let c := (memRead s.mem (a + 2)).toNat
  let ctl := entryCtl s a
  let tries := fld ctl 7 4
  let h := entryHdr s a
  let fresh := !p.ln.begun.contains e
  let r : BitVec 3 × State := if fresh then takeId n c s else (hdrId h, s)
  let s1 := if fresh then
      r.2.writeMem (a + 4) (toBytesLE 2 (mkHdr (hdrType h) r.1 p.isSource p.cf.csupOn (hdrCount h)).toNat)
    else r.2
  let s2 := s1.updLn n fun l =>
    { l with phase := .sending, cur := some (.ring e), curId := r.1, tries := tries,
             begun := if fresh then e :: l.begun else l.begun,
             startOut := l.startOut || (bitOf ctl 14 && p.isSource), sinkStart := l.sinkStart && !bitOf ctl 14 }
  if fresh = true ∧ c = 0 then requestSent n (hdrType h) r.1 (entryObjs s a) s2 else s2

/-- The source raises HOLD for a START entry that must wait (R127). -/
def raiseHold (n : Port) (s : State) : State :=
  let p := s.port n
  if p.isSource then
    let s1 := if p.cf.level = 0 then s else (s.updCf n fun c => c.setLevel s.cc 0).updLn n fun l => { l with holdStood := false }
    s1.updLn n fun l => { l with holdWait := !l.holdStood }
  else s

/-- The first pending entry that can move, in ring order; an entry without START may pass START entries that wait
(R136). -/
def txScan (n : Port) : Bool → List Nat → State → State
  | _, [], s => s
  | passed, e :: es, s =>
    if passed ∧ bitOf (entryCtl s (ringAddr (2 * n.val) e)) 14 then txScan n true es s
    else
      match txVerdict n e s with
      | .bad r => endEntry n e r (triesOf n e s) s
      | .go => beginEntry n e s
      | .waitLevel => txScan n true es (raiseHold n s)
      | .waitPip => s

/-- Whether the line is free for a new frame of the hub: idle, nothing received, no NOD owed, no mark pending (R118,
R124). -/
def PortSt.lineIdle (p : PortSt) : Bool :=
  p.phyOn && decide (p.ln.phase = .idle) && !p.ln.receiving && p.ln.nodOwed.isNone && p.ln.mark.isNone
    && !p.mo.measuring

/-- A frame of the PHY's own begins (R117, R120, R126, R132, R163): it takes an ID unless its tries were broken off; HOLDOFF keeps it
waiting. -/
def beginOwn (n : Port) (f : PhyFrame) (fs : List PhyFrame) (s : State) : State :=
  if heldOff n f.objs.length s then s
  else
    let r : BitVec 3 × State := match f.id with
      | some i => (i, s)
      | none => takeId n f.ctx s
    r.2.updLn n fun l =>
      { l with own := fs, phase := .sending, cur := some (.own { f with id := some r.1 }), curId := r.1, tries := 0,
               notsup := if f.type = 0x11 ∧ f.id = none then satInc l.notsup else l.notsup }

/-- The sink's GETCAPS with WHAT = CAPS, once its PHY is enabled (R151, R181). -/
def pushGetcaps (n : Port) (s : State) : State :=
  if (s.port n).ct.getcapsDue ∧ (s.port n).ln.txCount < 16 then
    (pushMsg n true tGetcaps [0x10000000] s).updCt n fun c => { c with getcapsDue := false }
  else s

/-- TX_START (R127, R136): the PHY's own frames first, then the TX ring, to which a sink that owes its GETCAPS has added it. -/
def execTxStart (n : Port) (s : State) : Out :=
  let p := s.port n
  if p.lineIdle then
    match p.ln.own with
    | f :: fs => done (beginOwn n f fs s)
    | [] =>
      let s1 := pushGetcaps n s
      done (txScan n false (pendingTx n s1) s1)
  else done s

/-- HOLD_DONE (R127): HOLD has stood for tHOLD. -/
def execHoldDone (n : Port) (s : State) : Out :=
  let p := s.port n
  if p.isSource && decide (p.cf.level = 0) then
    done (s.updLn n fun l => { l with holdStood := true, holdWait := false })
  else done s

/-- The phase the line returns to after a mark or a NOD: a frame whose try failed waits on. -/
def LineSt.afterBrief (l : LineSt) : LinePhase := if l.cur.isSome then .retryWait else .idle

/-- FRAME_SENT (R118, R119, R135): the end bit; a ring entry takes its TIME and CRC; the PHY waits for the NOD. The end of the hub's
own NOD frees the line. -/
def execFrameSent (n : Port) (s : State) : Out :=
  let l := (s.port n).ln
  if l.phase = .sending then
    let s1 := s.updLn n fun l => { l with phase := .awaitNod, tries := l.tries + 1 }
    match l.cur with
    | some (.ring e) =>
      let a := ringAddr (2 * n.val) e
      let crc := frameCrc (memRead s.mem (a + 3)) (entryHdr s a) (entryObjs s a)
      done ((s1.writeMem (a + 8) (toBytesLE 4 s.timeUs)).writeMem (a + 72) (bytesLE crc))
    | _ => done s1
  else if l.phase = .sendingNod then done (s.updLn n fun l => { l with phase := l.afterBrief })
  else done s

/-- The frame under way ends with a RESULT (R119, R136). -/
def finishFrame (n : Port) (result : Nat) (s : State) : State :=
  let l := (s.port n).ln
  let s1 := s.updLn n fun l =>
    { l with phase := .idle, cur := none, txfail := if result = 2 then satInc l.txfail else l.txfail }
  match l.cur with
  | some (.ring e) =>
    let a := ringAddr (2 * n.val) e
    let type := entryType s a
    let objs := entryObjs s a
    let part := decide (memRead s.mem (a + 2) = 0)
    let s2 := endEntry n e result l.tries s1
    if part then (if result = 1 then messageNodded n type objs s2 else messageFailed n type objs s2) else s2
  | _ => s1

/-- A try has failed (R119): three in all. -/
def tryFailed (n : Port) (s : State) : State :=
  if 3 ≤ (s.port n).ln.tries then finishFrame n 2 s else s.updLn n fun l => { l with phase := .retryWait }

/-- NOD_TIMEOUT (R119). -/
def execNodTimeout (n : Port) (s : State) : Out :=
  if (s.port n).ln.phase = .awaitNod then done (tryFailed n s) else done s

/-- Objects of the frame under way. -/
def curObjects (n : Port) (s : State) : Nat :=
  match (s.port n).ln.cur with
  | some (.ring e) => hdrCount (entryHdr s (ringAddr (2 * n.val) e))
  | some (.own f) => f.objs.length
  | none => 0

/-- TX_RETRY (R119, R126 to R128): the next try, unless HOLDOFF keeps it waiting or a sink's START entry finds HOLD and goes back to
waiting. -/
def execTxRetry (n : Port) (s : State) : Out :=
  let p := s.port n
  if p.phyOn && decide (p.ln.phase = .retryWait) && !p.ln.receiving && p.ln.nodOwed.isNone && p.ln.mark.isNone
      && !heldOff n (curObjects n s) s then
    match p.ln.cur with
    | some (.ring e) =>
      let a := ringAddr (2 * n.val) e
      let ctl := entryCtl s a
      if bitOf ctl 14 && !p.isSource && !p.mayStart then
        done ((s.writeMem a (toBytesLE 2 (setFld ctl 7 4 p.ln.tries).toNat)).updLn n fun l =>
          { l with phase := .idle, cur := none })
      else done (s.updLn n fun l => { l with phase := .sending })
    | _ => done (s.updLn n fun l => { l with phase := .sending })
  else done s

/-- The mark code (R122). -/
def markCode (m : MarkReq) : Byte := BitVec.ofNat 8 ((if m.isOpen then 128 else 64) + m.turn.toNat)

/-- A mark goes out (R123, R124): a NOD owed is suppressed, and a NOTSUP due goes out after the mark. -/
def startMark (n : Port) (m : MarkReq) (s : State) : State :=
  (s.updLn n fun l =>
    { l with mark := none, markOnLine := some (markCode m), phase := .sendingMark, nodOwed := none, notsupDue := none,
             own := l.notsupDue.toList ++ l.own }).updWh n fun w => { w with markPend := w.markPend && !m.isOpen }

/-- The NOD owed goes out; a NOTSUP due follows ahead of the TX ring (R117, R118). The line is busy until its end bit. -/
def startNod (n : Port) (s : State) : State :=
  s.updLn n fun l =>
    { l with nodOwed := none, notsupDue := none, own := l.notsupDue.toList ++ l.own,
             phase := if l.phase = .idle ∨ l.phase = .retryWait then .sendingNod else l.phase }

/-- NOD_SEND (R117, R118, R124): the NOD the hub owes goes out, unless a mark is due: on the free line the mark goes out and the NOD
is suppressed. -/
def execNodSend (n : Port) (s : State) : Out :=
  let l := (s.port n).ln
  if l.nodOwed.isSome then
    match l.mark with
    | some m => if (s.port n).phyOn && l.freeForMark then done (startMark n m s) else done (startNod n s)
    | none => done (startNod n s)
  else done s

/-! ## Receiving (R99, R115 to R121, R128) -/

/-- What the first checks of R115 make of a frame. -/
inductive RxVerdict where
  /-- nothing received -/
  | nothing
  /-- dropped, counted in DROP -/
  | drop
  /-- dropped, counted in CRCERR -/
  | crcErr
  /-- the partner's traffic to its cable, ignored -/
  | ignore
  /-- the frame stands, in this context -/
  | pass (ctx : Nat)
deriving DecidableEq, Repr

/-- The checks of R115 down to the detach debounce, in order. -/
def rxVerdict (p : PortSt) (cc : Nat) (f : FrameRx) : RxVerdict :=
  if p.phyOn = false ∨ f.sync = false then .nothing
  else if f.framing = false ∨ f.objs.length ≠ hdrCount f.hdr then .drop
  else if f.crc ≠ frameCrc f.addr f.hdr f.objs then .crcErr
  else
    match contextOf f.addr with
    | none => .drop
    | some c =>
      if (c = 1 ∨ c = 2) ∧ p.cf.csupOn = false then .ignore
      else if p.cf.detachRun ∨ p.cf.undecRun cc then .drop
      else .pass c

/-- The counts of a frame that does not stand (R115). -/
def rxCount (n : Port) (v : RxVerdict) (s : State) : State :=
  match v with
  | .drop => s.updLn n fun l => { l with drop := satInc l.drop }
  | .crcErr => s.updLn n fun l => { l with crcerr := satInc l.crcerr }
  | _ => s

/-- The hub owes a NOD in context c (R118). -/
def oweNod (n : Port) (c : Nat) (id : BitVec 3) (due : Option PhyFrame) (s : State) : State :=
  s.updLn n fun l => { l with nodOwed := some (BitVec.ofNat 4 c, id), notsupDue := due }

/-- A frame refused with NOTSUP (R115, R117). -/
def refuseFrame (n : Port) (c : Nat) (f : FrameRx) (reason : Nat) (s : State) : State :=
  oweNod n c (hdrId f.hdr) (some { ctx := c, type := 0x11, objs :=
    [place (hdrType f.hdr).toNat 27 ||| place (hdrId f.hdr).toNat 24 ||| place reason 20] }) s

/-- The other coupling port of a RELAY (R131). -/
def relayOther (n : Port) : Port := if n = portKU then portKD else portKU

/-- Whether a RELAY of class Xk can be forwarded from port n (R131, R132). -/
def relayForwards (s : State) (n : Port) (k : Nat) : Bool :=
  bitOf (s.port n).ln.linectl 1 && s.has (relayOther n) && (s.port (relayOther n)).ctxOpen (k + 3)

/-- Whether a frame is a duplicate in its context (R120): the last ID accepted, within 10 ms. -/
def isDuplicate (l : LineSt) (c : Nat) (id : BitVec 3) (cc : Nat) : Bool :=
  match (l.ctxs[c]?).bind fun x => x.lastRx with
  | some (i, t) => decide (i = id) && decide (cc ≤ t + 3000000)
  | none => false

/-- Records an accepted ID (R120). -/
def recordRx (n : Port) (c : Nat) (id : BitVec 3) (s : State) : State :=
  s.updLn n fun l =>
    if h : c < 12 then { l with ctxs := l.ctxs.set c { l.ctxs[c] with lastRx := some (id, s.cc) } } else l

/-- The hub as sink gives its own pending or un-NODded swap entries up for the source's request (R128, R179). -/
def overtakeOwn (n : Port) (s : State) : State :=
  let es := swapPending n s
  if es = [] then s
  else
    let s1 := es.foldl (fun t e => endEntry n e 4 (triesOf n e t) t) s
    let cancelled := match (s.port n).ln.cur with
      | some (.ring e) => es.contains e
      | _ => false
    let s2 := if cancelled then s1.updLn n fun l => { l with phase := .idle, cur := none } else s1
    if (s.port n).swapOpen && !(s.port n).swapNodded then closeSeq n s2 else s2

/-- A frame that stands, from the RX-ring check of R115 on; a RELAY whose forward ring is full passes the other checks first and is
then left without NOD and record (R132). -/
def acceptFrame (n : Port) (c : Nat) (f : FrameRx) (s : State) : State :=
  let p := s.port n
  let t := hdrType f.hdr
  let id := hdrId f.hdr
  let hop := decide (t = 0x0F) && decide (5 ≤ c) && (decide (n = portKU) || decide (n = portKD))
  if 16 ≤ p.ln.rxCount then
    s.updLn n fun l => { l with rxfull := satInc l.rxfull }
  else if hdrRev f.hdr ≠ 1 then refuseFrame n c f 3 s
  else if p.ctxOpen c = false then refuseFrame n c f 2 s
  else if typeDefined t = false then refuseFrame n c f 1 s
  else if t = 0x0F ∧ (isW n = true ∨ n = portG) then refuseFrame n c f 5 s
  else if isDuplicate p.ln c id s.cc then
    oweNod n c id none (s.updLn n fun l => { l with dup := satInc l.dup })
  else if hop = true ∧ relayForwards s n (c - 4) = true ∧ 16 ≤ (s.port (relayOther n)).ln.txCount then
    s.updLn n fun l => { l with rxfull := satInc l.rxfull }
  else
    let s1 := oweNod n c id none (recordRx n c id s)
    if hop then s1
    else
      let swap := decide (c = 0) && isSwap t
      let overtaken := swap && (if p.isSource then p.swapOpen || !(swapPending n s).isEmpty else p.swapNodded)
      let s2 := if swap && !p.isSource then overtakeOwn n s1 else s1
      let start := if c = 0 then p.startFrame t else startType t
      let viol := p.isSource && decide (p.cf.level = 0) && p.ln.startOut && start
      deliver n c f viol overtaken (s2.updLn n fun l => { l with sinkStart := l.sinkStart || (l.holdWait && start) })

/-- FRAME_RECEIVED (R115): a frame ends. One that proves to be a NOD is not answered (R118). -/
def execFrameReceived (n : Port) (f : FrameRx) (t : Nat) (s : State) : Out :=
  let s0 := (s.at t).updLn n fun l => { l with receiving := false }
  match rxVerdict (s0.port n) s0.cc f with
  | .pass c => if hdrType f.hdr = 1 then done s0 else done (acceptFrame n c f s0)
  | v => done (rxCount n v s0)

/-- Whether a NOD answers the frame the hub has sent (R119): its context and its ID. -/
def nodMatches (s : State) (n : Port) (f : FrameRx) (c : Nat) : Bool :=
  let l := (s.port n).ln
  let ctx := match l.cur with
    | some (.ring e) => (memRead s.mem (ringAddr (2 * n.val) e + 2)).toNat
    | some (.own g) => g.ctx
    | none => 16
  decide (hdrType f.hdr = 1) && decide (f.objs = []) && decide (hdrRev f.hdr = 1) && decide (c = ctx)
    && decide (hdrId f.hdr = l.curId)

/-- NOD (R119): one that answers ends the entry with DONE; any other is a failed try. -/
def execNod (n : Port) (f : FrameRx) (s : State) : Out :=
  let s0 := s.updLn n fun l => { l with receiving := false }
  if (s0.port n).ln.phase = .awaitNod then
    match rxVerdict (s0.port n) s0.cc f with
    | .pass c => if nodMatches s0 n f c then done (finishFrame n 1 s0) else done (tryFailed n s0)
    | v => done (tryFailed n (rxCount n v s0))
  else done (rxCount n (rxVerdict (s0.port n) s0.cc f) s0)

/-- NOTSUP (R117): the report lies in the RX ring; it closes no sequence (R147), and what the policy makes of it is the
program's. -/
def execNotsup (_n : Port) (_m : Msg) (s : State) : Out := done s

/-- GRANT_MARK_RECEIVED (R122): discarded and counted in DROP, while the PHY receives at all (R137). -/
def execGrantMarkReceived (n : Port) (s : State) : Out :=
  if (s.port n).phyOn then done (s.updLn n fun l => { l with drop := satInc l.drop }) else done s

/-- FRAME_SYNC_DETECTED (R123): the hub is receiving from this cc. -/
def execFrameSyncDetected (n : Port) (s : State) : Out :=
  let p := s.port n
  if p.phyOn && decide (p.ln.phase ≠ .sending) && decide (p.ln.phase ≠ .sendingMark) && decide (p.ln.phase ≠ .sendingNod) then
    done (s.updLn n fun l => { l with receiving := true })
  else done s

/-! ## RELAY (R130 to R132) -/

/-- The relay header with HOPS one more (R131). -/
def relayHop (w : Word) : Word := setFld w 30 28 ((fld w 30 28 + 1) % 8)

/-- The NODOWN answer (R132): a RELAY frame back in class X(HOPS) that carries a NOTSUP object. -/
def nodownFrame (w : Word) : PhyFrame :=
  { ctx := 4 + fld w 30 28, type := 0x0F,
    objs := [placeB true 31 ||| place 0x11 23 ||| place (fld w 22 20) 20 ||| place 1 16 ||| place (fld w 15 8) 8,
             place (fld w 27 23) 27 ||| place (fld w 22 20) 24 ||| place 4 20] }

/-- RELAY (R131, R132): in X0 the frame lies in the RX ring; with k >= 1 it is copied into the other coupling port's TX ring
in class X(k-1), or answered with NODOWN. -/
def execRelay (n : Port) (m : Msg) (k : Fin 8) (s : State) : Out :=
  if (n = portKU ∨ n = portKD) ∧ (s.port n).phyOn = true ∧ 1 ≤ k.val then
    let w := m.objs.headD 0
    if relayForwards s n k.val then
      if 16 ≤ (s.port (relayOther n)).ln.txCount then done s
      else
        done (pushEntry (relayOther n) (entryImage 0 (k.val + 3) (addrOf (k.val + 3))
          (BitVec.ofNat 16 (0x0F * 2048 + m.objs.length % 16)) 0 (relayHop w :: m.objs.tail) 0) s)
    else done (s.updLn n fun l => { l with own := l.own ++ [nodownFrame w] })
  else done s

/-! ## Grant marks (R122 to R125, R389) -/

/-- MARK_START (R123, R124): a pending mark goes out on the free line; a NOD owed is suppressed, and a NOTSUP due goes out
after the mark. -/
def execMarkStart (n : Port) (s : State) : Out :=
  let p := s.port n
  match p.ln.mark with
  | none => done s
  | some m =>
    if p.phyOn && p.ln.freeForMark then done (startMark n m s) else done s

/-- MARK_END (R122): end bit and guard are over; waiting frames may go. -/
def execMarkEnd (n : Port) (s : State) : Out :=
  let l := (s.port n).ln
  if l.phase = .sendingMark then
    done (s.updLn n fun l => { l with markOnLine := none, phase := l.afterBrief })
  else done s

end Sys2Proof.Machine
end

