-- ==== Sys2Proof/Machine/Dispatch.lean ====
section
/-! DEFINITION. One arm per command: each calls the meaning of its row of spec/opcode_table.json. -/

namespace Sys2Proof.Machine

/-- The effect of a command on everything but the queue of commands that wait. -/
def exec (i : Instr) (s : State) : Host.Outcome State Fault Refusal :=
  match i with
  | .instructionIssue c ecc => Sys2Proof.Machine.execInstructionIssue c ecc s
  | .waitEnd c timeout t => Sys2Proof.Machine.execWaitEnd c timeout t s
  | .farAccessPerformed c => Sys2Proof.Machine.execFarAccessPerformed c s
  | .resultCommit c => Sys2Proof.Machine.execResultCommit c s
  | .peakLatchClear n w => Sys2Proof.Machine.execPeakLatchClear n w s
  | .msgComplete c => Sys2Proof.Machine.execMsgComplete c s
  | .raise n => Sys2Proof.Machine.execRaise n s
  | .settle n => Sys2Proof.Machine.execSettle n s
  | .release n => Sys2Proof.Machine.execRelease n s
  | .tokensWrite w tokens => Sys2Proof.Machine.execTokensWrite w tokens s
  | .pgm r => Sys2Proof.Machine.execPgm r s
  | .lock r => Sys2Proof.Machine.execLock r s
  | .advance x => Sys2Proof.Machine.execAdvance x s
  | .scrap x => Sys2Proof.Machine.execScrap x s
  | .stoneOperationDone ok => Sys2Proof.Machine.execStoneOperationDone ok s
  | .ripen x => Sys2Proof.Machine.execRipen x s
  | .setripReq n w => Sys2Proof.Machine.execSetripReq n w s
  | .portSetExchange n => Sys2Proof.Machine.execPortSetExchange n s
  | .ripreqReq c w => Sys2Proof.Machine.execRipreqReq c w s
  | .imemRipenSafePoint c => Sys2Proof.Machine.execImemRipenSafePoint c s
  | .ripenTimeout c => Sys2Proof.Machine.execRipenTimeout c s
  | .restart c w => Sys2Proof.Machine.execRestart c w s
  | .pcAutoRestart c => Sys2Proof.Machine.execPcAutoRestart c s
  | .watchdogExpiry c => Sys2Proof.Machine.execWatchdogExpiry c s
  | .svWatchdogExpiry => Sys2Proof.Machine.execSvWatchdogExpiry s
  | .periodStart n pathMv t => Sys2Proof.Machine.execPeriodStart n pathMv t s
  | .sampleTrigger n t => Sys2Proof.Machine.execSampleTrigger n t s
  | .sampleReady n code => Sys2Proof.Machine.execSampleReady n code s
  | .setReady n s1 s2 s3 lag => Sys2Proof.Machine.execSetReady n s1 s2 s3 lag s
  | .peakTrip n importing => Sys2Proof.Machine.execPeakTrip n importing s
  | .dmaxReached n => Sys2Proof.Machine.execDmaxReached n s
  | .hardShortTrip n => Sys2Proof.Machine.execHardShortTrip n s
  | .ovTrip n => Sys2Proof.Machine.execOvTrip n s
  | .uvTrip n => Sys2Proof.Machine.execUvTrip n s
  | .cmptestStart n w v => Sys2Proof.Machine.execCmptestStart n w v s
  | .hbuswinTestStart w v => Sys2Proof.Machine.execHbuswinTestStart w v s
  | .selfTestDone t untested out => Sys2Proof.Machine.execSelfTestDone t untested out s
  | .comparatorValid k tripped => Sys2Proof.Machine.execComparatorValid k tripped s
  | .zero ch => Sys2Proof.Machine.execZero ch s
  | .matchEvent ch => Sys2Proof.Machine.execMatch ch s
  | .cherryCapture ch rising t => Sys2Proof.Machine.execCherryCapture ch rising t s
  | .toneLeadingEdge n t => Sys2Proof.Machine.execToneLeadingEdge n t s
  | .toneTrailingEdge n t => Sys2Proof.Machine.execToneTrailingEdge n t s
  | .angctlWrite n w v => Sys2Proof.Machine.execAngctlWrite n w v s
  | .angleModeTimeout n => Sys2Proof.Machine.execAngleModeTimeout n s
  | .suspTimeout n => Sys2Proof.Machine.execSuspTimeout n s
  | .pipFire e => Sys2Proof.Machine.execPipFire e s
  | .sweepQueueExecute => Sys2Proof.Machine.execSweepQueueExecute s
  | .tokenReturn n => Sys2Proof.Machine.execTokenReturn n s
  | .burstTolExpiry n => Sys2Proof.Machine.execBurstTolExpiry n s
  | .burstTmaxExpiry n => Sys2Proof.Machine.execBurstTmaxExpiry n s
  | .markStart n => Sys2Proof.Machine.execMarkStart n s
  | .syncLock => Sys2Proof.Machine.execSyncLock s
  | .syncLoss => Sys2Proof.Machine.execSyncLoss s
  | .cfReadingChange n cf1 cf2 => Sys2Proof.Machine.execCfReadingChange n cf1 cf2 s
  | .cfAttachDone n => Sys2Proof.Machine.execCfAttachDone n s
  | .cfDetachTimeout n => Sys2Proof.Machine.execCfDetachTimeout n s
  | .cfUndecidedTimeout n => Sys2Proof.Machine.execCfUndecidedTimeout n s
  | .drpToggle n => Sys2Proof.Machine.execDrpToggle n s
  | .tryDebounceDone n => Sys2Proof.Machine.execTryDebounceDone n s
  | .tryTimeout n => Sys2Proof.Machine.execTryTimeout n s
  | .tryWaitTimeout n => Sys2Proof.Machine.execTryWaitTimeout n s
  | .legacyTimeout n => Sys2Proof.Machine.execLegacyTimeout n s
  | .swapPresentationTimeout n => Sys2Proof.Machine.execSwapPresentationTimeout n s
  | .rolemodeWrite n w v => Sys2Proof.Machine.execRolemodeWrite n w v s
  | .seatBreak n => Sys2Proof.Machine.execSeatBreak n s
  | .seatSettled n => Sys2Proof.Machine.execSeatSettled n s
  | .bSupplyBreak => Sys2Proof.Machine.execBSupplyBreak s
  | .csupOvercurrent n => Sys2Proof.Machine.execCsupOvercurrent n s
  | .csupRetry n => Sys2Proof.Machine.execCsupRetry n s
  | .txStart n => Sys2Proof.Machine.execTxStart n s
  | .holdDone n => Sys2Proof.Machine.execHoldDone n s
  | .frameSent n => Sys2Proof.Machine.execFrameSent n s
  | .nodTimeout n => Sys2Proof.Machine.execNodTimeout n s
  | .txRetry n => Sys2Proof.Machine.execTxRetry n s
  | .nodSend n => Sys2Proof.Machine.execNodSend n s
  | .frameReceived n f t => Sys2Proof.Machine.execFrameReceived n f t s
  | .nod n f => Sys2Proof.Machine.execNod n f s
  | .notsup n m => Sys2Proof.Machine.execNotsup n m s
  | .grantMarkReceived n => Sys2Proof.Machine.execGrantMarkReceived n s
  | .caps n m choice => Sys2Proof.Machine.execCaps n m choice s
  | .getcaps n m answer => Sys2Proof.Machine.execGetcaps n m answer s
  | .ask n m => Sys2Proof.Machine.execAsk n m s
  | .grant n m => Sys2Proof.Machine.execGrant n m s
  | .deny n m => Sys2Proof.Machine.execDeny n m s
  | .waitMessage n m => Sys2Proof.Machine.execWaitMessage n m s
  | .ready n m byHub => Sys2Proof.Machine.execReady n m byHub s
  | .pswap n m choice => Sys2Proof.Machine.execPswap n m choice s
  | .sswap n m choice => Sys2Proof.Machine.execSswap n m choice s
  | .abort n m => Sys2Proof.Machine.execAbort n m s
  | .profile n m => Sys2Proof.Machine.execProfile n m s
  | .info n m => Sys2Proof.Machine.execInfo n m s
  | .statusMessage n m => Sys2Proof.Machine.execStatusMessage n m s
  | .relay n m k => Sys2Proof.Machine.execRelay n m k s
  | .bye n m byHub => Sys2Proof.Machine.execBye n m byHub s
  | .answerTimeout n => Sys2Proof.Machine.execAnswerTimeout n s
  | .capsRepeat n => Sys2Proof.Machine.execCapsRepeat n s
  | .slewStart n => Sys2Proof.Machine.execSlewStart n s
  | .readyHoldDone n mv => Sys2Proof.Machine.execReadyHoldDone n mv s
  | .transTimeout n => Sys2Proof.Machine.execTransTimeout n s
  | .defaultWindowNarrow n => Sys2Proof.Machine.execDefaultWindowNarrow n s
  | .askNewTimeout n => Sys2Proof.Machine.execAskNewTimeout n s
  | .retryWaitDone n => Sys2Proof.Machine.execRetryWaitDone n s
  | .swapOffTimeout n => Sys2Proof.Machine.execSwapOffTimeout n s
  | .swapOnTimeout n => Sys2Proof.Machine.execSwapOnTimeout n s
  | .sswapTimeout n => Sys2Proof.Machine.execSswapTimeout n s
  | .shedTimeout => Sys2Proof.Machine.execShedTimeout s
  | .swctlStart n w => Sys2Proof.Machine.execSwctlStart n w s
  | .swctlStop n w => Sys2Proof.Machine.execSwctlStop n w s
  | .readmit n w => Sys2Proof.Machine.execReadmit n w s
  | .pretimeExpiry n => Sys2Proof.Machine.execPretimeExpiry n s
  | .rampDone n => Sys2Proof.Machine.execRampDone n s
  | .faultTimerExpiry n => Sys2Proof.Machine.execFaultTimerExpiry n s
  | .dischargeDone n => Sys2Proof.Machine.execDischargeDone n s
  | .dischargeTimeout n => Sys2Proof.Machine.execDischargeTimeout n s
  | .backfedCheck n ma => Sys2Proof.Machine.execBackfedCheck n ma s
  | .offtimeEnd n => Sys2Proof.Machine.execOfftimeEnd n s
  | .pgDeglitchDone n => Sys2Proof.Machine.execPgDeglitchDone n s
  | .telemetryTick smp hbusMv => Sys2Proof.Machine.execTelemetryTick smp hbusMv s
  | .telemetryUpdate => Sys2Proof.Machine.execTelemetryUpdate s
  | .supplyRise p mv => Sys2Proof.Machine.execSupplyRise p mv s
  | .supplyFall p mv => Sys2Proof.Machine.execSupplyFall p mv s
  | .feedGapEnd => Sys2Proof.Machine.execFeedGapEnd s
  | .hbusPrechargeTimeout => Sys2Proof.Machine.execHbusPrechargeTimeout s
  | .plan w target => Sys2Proof.Machine.execPlan w target s
  | .progWrite w prog => Sys2Proof.Machine.execProgWrite w prog s
  | .benClear w => Sys2Proof.Machine.execBenClear w s
  | .hbusOvTrip => Sys2Proof.Machine.execHbusOvTrip s
  | .hbusOvRelease => Sys2Proof.Machine.execHbusOvRelease s
  | .brownOut => Sys2Proof.Machine.execBrownOut s
  | .hbusUvRelease => Sys2Proof.Machine.execHbusUvRelease s
  | .moistureMeasurementStart n => Sys2Proof.Machine.execMoistureMeasurementStart n s
  | .moistureMeasurementDone n r => Sys2Proof.Machine.execMoistureMeasurementDone n r s
  | .moistureYield n => Sys2Proof.Machine.execMoistureYield n s
  | .leakageWet n => Sys2Proof.Machine.execLeakageWet n s
  | .leakageDry n => Sys2Proof.Machine.execLeakageDry n s
  | .wetTimeout n => Sys2Proof.Machine.execWetTimeout n s
  | .thermalRound readings => Sys2Proof.Machine.execThermalRound readings s
  | .thermalShutdownEnd => Sys2Proof.Machine.execThermalShutdownEnd s
  | .resetNLow ns => Sys2Proof.Machine.execResetNLow ns s
  | .boot addr reads tboot => Sys2Proof.Machine.execBoot addr reads tboot s
  | .status x => Sys2Proof.Machine.execStatus x s
  | .readWithoutCommand whole => Sys2Proof.Machine.execReadWithoutCommand whole s
  | .quick => Sys2Proof.Machine.execQuick s
  | .evpop x => Sys2Proof.Machine.execEvpop x s
  | .evcount x => Sys2Proof.Machine.execEvcount x s
  | .portsel x => Sys2Proof.Machine.execPortsel x s
  | .portBlockRead code x => Sys2Proof.Machine.execPortBlockRead code x s
  | .portBlockWrite code x => Sys2Proof.Machine.execPortBlockWrite code x s
  | .globalBlockRead code x => Sys2Proof.Machine.execGlobalBlockRead code x s
  | .globalBlockWrite code x => Sys2Proof.Machine.execGlobalBlockWrite code x s
  | .winsel x => Sys2Proof.Machine.execWinsel x s
  | .memrd x => Sys2Proof.Machine.execMemrd x s
  | .memwr x => Sys2Proof.Machine.execMemwr x s
  | .registerWrite w addr v => Sys2Proof.Machine.execRegisterWrite w addr v s
  | .ringpush x => Sys2Proof.Machine.execRingpush x s
  | .ringpop x => Sys2Proof.Machine.execRingpop x s
  | .sleep x active => Sys2Proof.Machine.execSleep x active s
  | .sleepEntry active => Sys2Proof.Machine.execSleepEntry active s
  | .wake src => Sys2Proof.Machine.execWake src s
  | .reset x => Sys2Proof.Machine.execReset x s
  | .erase r => Sys2Proof.Machine.execErase r s
  | .write r => Sys2Proof.Machine.execWrite r s
  | .check r => Sys2Proof.Machine.execCheck r s
  | .loadgreen r => Sys2Proof.Machine.execLoadgreen r s
  | .imageOperationDone => Sys2Proof.Machine.execImageOperationDone s
  | .busConditionMisplaced cmd writing => Sys2Proof.Machine.execBusConditionMisplaced cmd writing s
  | .sclLowTimeout cmd inTransaction => Sys2Proof.Machine.execSclLowTimeout cmd inTransaction s
  | .sdaHoldRelease => Sys2Proof.Machine.execSdaHoldRelease s
  | .counterTick ch => Sys2Proof.Machine.execCounterTick ch s
  | .angleUpdate n t => Sys2Proof.Machine.execAngleUpdate n t s
  | .frameSyncDetected n => Sys2Proof.Machine.execFrameSyncDetected n s
  | .markEnd n => Sys2Proof.Machine.execMarkEnd n s
  | .syncAcquisition => Sys2Proof.Machine.execSyncAcquisition s
  | .uvRelease n => Sys2Proof.Machine.execUvRelease n s
  | .ovRelease n => Sys2Proof.Machine.execOvRelease n s
  | .seatSeated n => Sys2Proof.Machine.execSeatSeated n s
  | .supplyRangeChange p mv => Sys2Proof.Machine.execSupplyRangeChange p mv s
  | .swapPresentationRead n => Sys2Proof.Machine.execSwapPresentationRead n s
  | .ledctlWrite w v => Sys2Proof.Machine.execLedctlWrite w v s
  | .cfctlLevelWrite n w v => Sys2Proof.Machine.execCfctlLevelWrite n w v s

end Sys2Proof.Machine
end

