-- ==== Sys2Proof/Machine/Step.lean ====
section
/-! DEFINITION. One step of the hub: the command at the front of the queue, or a tick of f_CORE. -/

namespace Sys2Proof.Machine

/-- What passes on an empty queue: one f_CORE cycle, unless the clock stands still in sleep or the hub is held in reset (R525,
R545; DESIGN CHOICE, log entry 2). -/
def tick (s : State) : State := if s.dev.asleep || decide (s.dev.hold ≠ .none) then s else { s with cc := s.cc + 1 }

/-- One step: the command at the front of the queue runs on the state with the queue's rest; an empty queue lets one cycle
pass. -/
def step (s : State) : Host.Outcome State Fault Refusal :=
  match s.pending with
  | [] => .next (tick s)
  | c :: rest => exec c { s with pending := rest }

/-- The state with the command a word spells at the front of its queue; unchanged where the word spells none. -/
def State.withFetchWord (s : State) (nbits w : Nat) : State :=
  match Sys2Proof.decodeTableWord nbits w with
  | some c => { s with pending := c :: s.pending }
  | none => s

end Sys2Proof.Machine
end

