-- ==== Sys2Proof/Safety.lean ====
section
/-! DEFINITION. What counts as a safe state and a safe run of the hub, and the words in which the statements say what a
command answers, what it leaves alone and which events it reports. -/

namespace Sys2Proof.Machine

/-- A memory is in its canonical form. -/
def memGood (m : Memory) : Bool := decide (Memory.wf m)

/-- Memory is in its canonical form, and no event a command fired is still unwritten. -/
abbrev State.settled (s : State) : Prop := memGood s.mem = true ∧ s.evq = []

/-- No step stops: each answers a next state. -/
def State.goesOn (s : State) : Prop := ∃ t, step s = .next t

/-- A run of k steps, none of which stops, ends in t. -/
def runsTo : Nat → State → State → Prop
  | 0, s, t => s = t
  | k + 1, s, t => ∃ u, step s = .next u ∧ runsTo k u t

/-- Command c answers a next state in s, of which P holds. -/
def answers (c : Instr) (s : State) (P : State → Prop) : Prop := ∃ t, exec c s = .next t ∧ P t

/-- The parts of the hub that a command may change. `events` stands for what a fired event touches: the wait sources of the
cores, the two event rings with their counts, and nothing else; `sources` for the wait sources of the cores alone. -/
inductive Area where
  | clock | dev | core (c : Core) | anyCore | port (n : Port) | anyPort | led | tim | fd | th | stone | bt | bus | open_
  | events | sources | mem (lo hi : Nat)
deriving DecidableEq, Repr

/-- A core without its wait sources. -/
def CoreSt.quiet (k : CoreSt) : CoreSt :=
  { k with evtPend := 0, evtOvf := 0, evtFired := 0, evtFiredCc := 0, portEv := .replicate 16 0 }

/-- The host bus without what the event rings count. -/
def HostSt.quiet (h : HostSt) : HostSt := { h with loghead := 0, evcount := 0, lost := 0 }

/-- An address outside the two event rings (R257, R515). -/
def offRings (a : Nat) : Prop := a < 0x3000A000 ∨ 0x3000B800 ≤ a

/-- From s to t nothing has changed outside the areas given; the queue of commands never does. -/
def changesOnly (l : List Area) (s t : State) : Prop :=
  t.pending = s.pending ∧ t.evq = s.evq
  ∧ (.clock ∈ l ∨ t.cc = s.cc) ∧ (.dev ∈ l ∨ t.dev = s.dev)
  ∧ (∀ c, .core c ∈ l ∨ .anyCore ∈ l ∨ t.core c = s.core c
      ∨ ((.events ∈ l ∨ .sources ∈ l) ∧ (t.core c).quiet = (s.core c).quiet))
  ∧ (∀ n, .port n ∈ l ∨ .anyPort ∈ l ∨ t.port n = s.port n)
  ∧ (.led ∈ l ∨ t.led = s.led) ∧ (.tim ∈ l ∨ t.tim = s.tim) ∧ (.fd ∈ l ∨ t.fd = s.fd) ∧ (.th ∈ l ∨ t.th = s.th)
  ∧ (.stone ∈ l ∨ t.stone = s.stone) ∧ (.bt ∈ l ∨ t.bt = s.bt)
  ∧ (.bus ∈ l ∨ t.host = s.host ∨ (.events ∈ l ∧ t.host.quiet = s.host.quiet))
  ∧ (.open_ ∈ l ∨ t.freeCtr = s.freeCtr)
  ∧ (∀ a, (∀ lo hi, .mem lo hi ∈ l → a < lo ∨ hi ≤ a) → (.events ∈ l → offRings a) → memRead t.mem a = memRead s.mem a)

/-- Command c answers in s: port n becomes p, and nothing else changes. -/
def setsPort (c : Instr) (s : State) (n : Port) (p : PortSt) : Prop :=
  answers c s fun t => t.port n = p ∧ changesOnly [.port n] s t

/-- The log ring has taken one event: its number, its argument and the time (R515, R517). -/
def logs (s t : State) (e arg : Nat) : Prop :=
  t.host.loghead = s.host.loghead + 1
  ∧ t.readMem (0x3000B000 + 8 * s.host.loghead.toNat) 8 = eventBytes e arg t.timeUs

/-- The log ring has taken the events of a list, in its order: each with its number, its argument and the time (R515, R517). -/
def reports (s t : State) (l : List (Nat × Nat)) : Prop :=
  t.host.loghead = s.host.loghead + BitVec.ofNat 8 l.length
  ∧ ∀ i : Fin l.length, t.readMem (0x3000B000 + 8 * ((s.host.loghead.toNat + i.val) % 256)) 8 = eventBytes l[i].1 l[i].2 t.timeUs

/-- No port waits for its pre-charge. -/
abbrev State.noneWaits (s : State) : Prop := ∀ m, (s.port m).pw.sw ≠ .wait

/-- A feed is selected, it is not port n, and no candidate pre-charges HBUS. -/
abbrev State.fedElsewhere (s : State) (n : Port) : Prop := s.fd.feed ≠ .none ∧ s.isFeed n = false ∧ s.fd.pre = false

/-- What the policy program of port n posts in its request slot is served at once (R167, R268). -/
abbrev State.postServed (s : State) (n : Port) : Prop := s.pc1Serves = true ∧ slotPending n s = false

/-- The policy program of port n can post RAISE(new) and PC1 serves it at once, with the books covering it (R166, R167). -/
abbrev State.raiseServed (s : State) (n : Port) (new : Nat) : Prop := s.postServed n ∧ raiseRefused s.led n new 0 = false

/-- The books with a grant and a token power of port n. -/
abbrev LedgerSt.holding (l : LedgerSt) (n : Port) (h tok : Nat) : LedgerSt :=
  { l with held := l.held.set n h, tokpwr := l.tokpwr.set n tok }

/-- The books after one operation in the slot of port n: one journal entry more, the sum within AVAIL (R167, R171). -/
abbrev LedgerSt.served (l : LedgerSt) (n : Port) : LedgerSt :=
  { l with jhead := (l.jhead + 1) % 32, lastServed := n.val, shedRun := false, excursion := false }

/-- The ledger's region of shared SRAM: request slots, grant records, journal (R167). -/
abbrev ledgerArea : Area := .mem 0x3000C000 0x3000C400

/-- Command c answers in s: port n becomes p, event e is reported with its argument, and nothing else changes. -/
def setsPortFires (c : Instr) (s : State) (n : Port) (p : PortSt) (e arg : Nat) : Prop :=
  answers c s fun t => t.port n = p ∧ logs s t e arg ∧ changesOnly [.port n, .events] s t

/-- Command c answers in s that nothing happens. -/
def idles (c : Instr) (s : State) : Prop := exec c s = .next s

/-- The host bus after an error (R533): its code and the command byte, one more error counted, and nothing else but what the
event rings count. -/
def errorShown (s t : State) (cmd : Byte) (code : BitVec 4) : Prop :=
  t.host.quiet = { s.host with errcode := code, errcmd := cmd, errcnt := satInc s.host.errcnt }.quiet

/-- Command c answers in s that a register write by w is refused with a code (R276, R533): a core's write sets LSU.REFUSED; the
host's is a bus error (DEDUCED, log entry 11). Nothing else changes. -/
def refusesWrite (c : Instr) (s : State) (w : Writer) (code : BitVec 4) : Prop :=
  match w with
  | .core d => answers c s fun t =>
      t.core d = { s.core d with lsuFlag := (s.core d).lsuFlag ||| 1 } ∧ changesOnly [.core d] s t
  | .host => s.eventsOn = true → answers c s fun t =>
      errorShown s t 0xD2 code ∧ logs s t 148 code.toNat ∧ changesOnly [.bus, .events] s t

/-- The next free entry of port n's TX ring (R133). -/
def txSlot (s : State) (n : Port) : Nat := ringAddr (2 * n.val) (s.port n).ln.txTail

/-- From s to t the TX ring of port n has taken a message of context PART, pending, with START or without (R135, R146). -/
def queued (s t : State) (n : Port) (start : Bool) (type : BitVec 5) (objs : List Word) : Prop :=
  (t.port n).ln = (s.port n).ln.pushed
  ∧ t.readMem (txSlot s n) 80 = entryImage (if start = true then 0xC000 else 0x8000) 0 (addrOf 0)
      (BitVec.ofNat 16 (type.toNat * 2048 + objs.length)) 0 objs 0

/-- Command c answers in s: a message is queued on port n, which else becomes p, and nothing else changes. -/
def sendsAs (c : Instr) (s : State) (n : Port) (start : Bool) (type : BitVec 5) (objs : List Word) (p : PortSt) : Prop :=
  (s.port n).ln.txCount < 16 → objs.length ≤ 15 → answers c s fun t =>
    queued s t n start type objs ∧ t.port n = { p with ln := (s.port n).ln.pushed }
    ∧ changesOnly [.port n, .mem (txSlot s n) (txSlot s n + 80)] s t

/-- Command c answers in s: a message is queued on port n, the port's contract becomes ct, and nothing else changes. -/
def sendsMsg (c : Instr) (s : State) (n : Port) (start : Bool) (type : BitVec 5) (objs : List Word) (ct : ContractSt) : Prop :=
  sendsAs c s n start type objs { s.port n with ct := ct }

/-- A port whose sequence closes: after a PSWAP that closes before its role exchange, detach detection goes on (R100). -/
abbrev PortSt.resumed (p : PortSt) : PortSt := { p with cf := { p.cf with suspended := p.cf.suspended && !p.ct.beforeExchange } }

/-- A port whose slew ends: the active discharge goes on only where a switch has opened (R153, R403). -/
abbrev PortSt.unslewed (p : PortSt) : PortSt :=
  { p with pw := { p.pw with discharging := p.pw.discharging && decide (p.pw.sw = .disch) } }

/-- What waits once the last request waits no more (R158). -/
abbrev ContractSt.others (c : ContractSt) : List WaitingReq :=
  c.waiting.filter fun w => decide (¬ (w.type = c.lastType ∧ w.objs = c.lastReq))

/-- No swap is granted whose first step has not begun: the loss of the feed ends none (R180). -/
abbrev State.noSwap (s : State) : Prop := ∀ n q, (s.port n).ct.seq = some q → q.swapGranted = false

/-- The loss of KU's window or supply ends no contract of KU: it is not the feed, or holds none (R83). -/
abbrev State.kuFree (s : State) : Prop :=
  s.isFeed portKU = false ∨ (s.port portKU).ct.state ∉ [CtrState.default, .negotiated]

/-- Command c answers in s that the selected feed is lost with a cause (R424, R427); s1 is s with what the command itself brings.
The next eligible candidate is selected, or with none left every port is forced off. It speaks of a hub whose HBUS is carried
and inside its limits, whose KD does not draw, whose lost port shows no power-good, and in which no granted swap waits. -/
def losesFeed (c : Instr) (s s1 : State) (cause : BitVec 4) : Prop :=
  s.eventsOn = true → s1.fd.feed ≠ .none → s1.kdSinks = false → (s1.fd.ov.valid && s1.fd.ov.out) = false →
  s1.fd.hbusLow = false → (∀ n, s1.isFeed n = true → (s1.port n).pw.pg = false) → s1.noSwap →
  (∀ f, s1.firstFeed = f → f ≠ .none → s1.led.grantSum + s1.led.tokRes ≤ s1.availOf f → answers c s fun t =>
      t.fd = { s1.fd with
        feed := f, target := f, gap := true, last := s1.fd.feed, cause := cause, lossCause := cause, planned := false
        chgcnt := satInc s1.fd.chgcnt }
      ∧ t.led = { s1.led with avail := s1.availOf f, hard := s1.hardOf f, shedRun := false, excursion := false }
      ∧ logs s t 139 (cause.toNat + 16 * f.code) ∧ changesOnly [.fd, .led, .port portB, .events] s t)
  ∧ (s1.firstFeed = .none → answers c s fun t =>
      t.fd.feed = .none ∧ t.fd.lossCause = cause ∧ t.led.avail = 0 ∧ t.led.hard = 0
      ∧ (∀ n, (t.port n).st.mode = .off ∧ .noFeed ∈ (t.port n).st.force)
      ∧ changesOnly [.fd, .led, .anyPort, .events] s t)

/-- Command c answers in s that the selector, with no feed selected, takes candidate f (R421, R422): it pre-charges an HBUS that
was below 18.0 V, or is the feed after the gap. s1 is s with what the command itself brings. -/
def takesFeed (c : Instr) (s s1 : State) (f : Feed) : Prop :=
  (s1.fd.hbusLow = true → answers c s fun t =>
      t.fd = { s1.fd with target := f, pre := true, gap := false, planned := false, cause := 9 } ∧ changesOnly [.fd] s t)
  ∧ (s1.fd.hbusLow = false → s.eventsOn = true → s1.led.grantSum + s1.led.tokRes ≤ s1.availOf f → answers c s fun t =>
      t.fd = { s1.fd with feed := f, target := f, gap := true, planned := false, cause := 9, chgcnt := satInc s1.fd.chgcnt }
      ∧ t.led = { s1.led with avail := s1.availOf f, hard := s1.hardOf f, shedRun := false, excursion := false }
      ∧ logs s t 139 (9 + 16 * f.code) ∧ changesOnly [.fd, .led, .events] s t)

/-- Command c answers in s that the hub puts bytes on SDA, with a PEC over them and the bytes before while PEC is in force (R502,
R503), and h of what the host bus holds otherwise. -/
def hostSays (c : Instr) (s : State) (before bytes : List Byte) (h : HostSt) : Prop :=
  answers c s fun t =>
    t.host = { h with sent := bytes ++ (if s.pecOn = true then [pecOf (before ++ bytes)] else []), nack := none }
    ∧ changesOnly [.bus] s t

/-- Command c answers in s with a bus error (R533): its code and the command byte, one more error, and event 148; what the hub put
on SDA, and which byte it did not acknowledge. -/
def hostError (c : Instr) (s : State) (cmd : Byte) (code : BitVec 4) (sent : List Byte) (nack : Option Nat) : Prop :=
  s.eventsOn = true → answers c s fun t =>
    t.host.quiet = { s.host with
      errcode := code, errcmd := cmd, errcnt := satInc s.host.errcnt, sent := sent, nack := nack }.quiet
    ∧ logs s t 148 code.toNat ∧ changesOnly [.bus, .events] s t

/-- A whole write of data bytes to a command, of the byte or the block shape, its PEC right where PEC is in force. -/
def State.writes (s : State) (cmd : Byte) (block : Bool) (d : List Byte) : Xact :=
  let n : Byte := BitVec.ofNat 8 d.length
  { shape := if block = true then .blockWrite else .writeByte, count := n, ending := .stop, whole := true, rise := none
    bytes := d ++ (if s.pecOn = true then [pecOf (s.addrByte :: cmd :: ((if block = true then [n] else []) ++ d))] else []) }

/-- The bytes the host and the hub sent before the data of a read of a command. -/
def State.asked (s : State) (cmd : Byte) : List Byte := [s.addrByte, cmd, s.addrByte + 1]

/-- A read transaction that comes to its data. -/
abbrev isRead (x : Xact) : Prop :=
  (x.shape = .readByte ∨ x.shape = .readWord ∨ x.shape = .blockRead) ∧ x.ending ≠ .timeout

/-- SCL rose too early after a change of SDA for what BUSSETUP asks (R527): SETUP is recorded. -/
abbrev State.early (s : State) (x : Xact) : Bool := x.rise.any fun k => decide (k < fld s.host.bussetup 4 0)

/-- A read transaction that comes to its data and keeps the setup time. -/
abbrev State.takes (s : State) (x : Xact) : Prop := isRead x ∧ s.early x = false

/-- Nothing a core began is still under way. -/
abbrev CoreSt.still (k : CoreSt) : Prop :=
  k.inflight = [] ∧ k.far = [] ∧ k.segNext = [] ∧ k.msgOp = none ∧ k.ledServe = [] ∧ k.ledTokw = []

/-- Command c answers in s that core d traps (R265, R268, R273): it halts, its record holds the cause, the sub-code and the index,
its event reports them, and the ports of the core are turned off, an engine's with BYE TRAP (R163). It speaks of a hub whose ports
hold no contract, show no power-good and are no feed, and of a core with no RIPEN pending. -/
def traps (c : Instr) (s : State) (d : Core) (cause sub : Nat) (arg : Word) : Prop :=
  s.eventsOn = true → (s.core d).ripenPend = false → s.fd.feed = .none →
  (∀ n, (s.port n).ct.state = .none ∧ (s.port n).pw.pg = false) → answers c s fun t =>
    (t.core d).run = .halted ∧ fld (t.core d).trapRec 31 28 = cause ∧ fld (t.core d).trapRec 27 24 = sub
    ∧ fld (t.core d).trapRec 11 0 = (if (s.core d).run = .wait then (s.core d).lastPc else (s.core d).pc) % 4096
    ∧ (t.core d).trapArg = arg
    ∧ logs s t (128 + d.val) (16 * cause + sub)
    ∧ (∀ n, s.has n = true → d = leOf n → (t.port n).st.mode = .off ∧ .leTrap ∈ (t.port n).st.force
        ∧ ((s.port n).phyOn = true → (t.port n).ln.own = (s.port n).ln.own ++ [{ ctx := 0, type := 0x10, objs := [0x00130000] }]))
    ∧ (d = corePC1 → (t.port portB).st.mode = .off ∧ .pcTrap ∈ (t.port portB).st.force)
    ∧ changesOnly [.core d, .anyPort, .fd, .events] s t

/-- A core restarts from s to t (R270): it runs instruction 0 of its ripe bank with its guards, locals, stack, loops and results
as after reset, of what it had under way its stores and its ring operation alone go on, its trap record stands, and its ports'
force-off of the trap is lifted; a policy core finds its ports without contracts, but for a feed and KU's legacy limits. -/
def restarts (s t : State) (d : Core) : Prop :=
  let k := s.core d
  let r := CoreSt.reset k.wdctl
  (t.core d).run = .run ∧ (t.core d).pc = 0 ∧ (t.core d).guards = r.guards ∧ (t.core d).locals = r.locals ∧ (t.core d).acc = r.acc
  ∧ (t.core d).stack = [] ∧ (t.core d).loops = [] ∧ (t.core d).jump = none ∧ (t.core d).inflight = []
  ∧ (t.core d).bank = k.bank ∧ (t.core d).trapRec = k.trapRec ∧ (t.core d).trapArg = k.trapArg ∧ (t.core d).startCc = s.cc
  ∧ (∀ n, d = leOf n → .leTrap ∉ (t.port n).st.force ∧ (t.port n).st.dmaxRun = 0)
  ∧ (t.core d).far = (k.far.filter fun x => x.kind.stores) ∧ (t.core d).msgOp = k.msgOp
  ∧ (∀ n, d = pcOf n → .pcTrap ∉ (t.port n).st.force)
  ∧ (∀ n, d = pcOf n → s.isFeed n = false → (s.port n).ct.state ≠ .legacy → (t.port n).ct.state = .none)

end Sys2Proof.Machine
end

