-- ==== Sys2Proof/Certificates/Slice0/Obligations.lean ====
section
/-! DEFINITION. The statements for the provers. A premise `s.settled` asks for the canonical memory and for no event left
unwritten, which the invariant statement shows to be kept. -/

section
open Sys2Proof Sys2Proof.Machine

/-! ## The machine -/

/-- With a command at the front of its queue, a step runs that command on the state with the queue's rest. -/
def Obligations.StepRunsTheFrontCommand : Prop :=
  ∀ (s : State) (c : Instr) (rest : List Instr), s.pending = c :: rest → step s = exec c { s with pending := rest }

/-- With no command waiting one f_CORE cycle passes, or nothing where the clock stands still. What a step does on an empty
queue is the model's choice (DESIGN CHOICE, log entry 2). -/
def Obligations.EmptyQueueTicks : Prop :=
  ∀ s : State, s.pending = [] →
    (s.dev.asleep = true ∨ s.dev.hold ≠ .none → step s = .next s) ∧
    (s.dev.asleep = false → s.dev.hold = .none → step s = .next { s with cc := s.cc + 1 })

/-- Every command, with every operand, completes in every state, leaves the queue of commands alone and leaves no fired event
unwritten. -/
def Obligations.EveryCommandCompletes : Prop :=
  ∀ (c : Instr) (s : State), ∃ t, exec c s = .next t ∧ t.pending = s.pending ∧ (s.evq = [] → t.evq = [])

/-- Every step keeps the memory in its canonical form and leaves no fired event unwritten, from every state that is so. -/
def Obligations.EveryStepKeepsSettled : Prop := ∀ s t : State, s.settled → step s = .next t → t.settled

/-- The state after reset is settled; every core is held in RESET with its guards at G0 alone and its first instruction next,
and no port is attached, switched or under a contract. -/
def Obligations.ResetHoldsEverythingOff : Prop :=
  State.reset.settled ∧ State.reset.pending = []
  ∧ (∀ c, (State.reset.core c).run = .reset ∧ (State.reset.core c).guards = 1 ∧ (State.reset.core c).pc = 0
      ∧ (State.reset.core c).stack = [] ∧ (State.reset.core c).loops = [] ∧ (State.reset.core c).acc = .replicate 4 0)
  ∧ (∀ n, (State.reset.port n).cf.attach = .unattached ∧ (State.reset.port n).pw.sw = .off
      ∧ (State.reset.port n).st.mode = .off ∧ (State.reset.port n).ct.state = .none ∧ (State.reset.port n).wh.mode = .off)
  ∧ State.reset.led.tokens = 4 ∧ State.reset.led.reserve = 800 ∧ State.reset.led.shedMargin = 600

/-- A byte of the hub's memory that is written reads back, and every other byte reads as before. -/
def Obligations.MemoryReadsBack : Prop :=
  ∀ (m : Memory) (a x : Nat) (b : Byte), Memory.wf m →
    Memory.wf (memWrite m a b) ∧ memRead (memWrite m a b) x = if x = a then b else memRead m x

/-! ## Stages, comparators, samples -/

/-- PEAK_TRIP ends the on-time and sets the latch of a converting stage outside its blanking; in BYPASS it sets LIMIT and the
stage leaves BYPASS at the next period start; during blanking only the raw output of a VALID comparator shows it; with the stage
OFF it does nothing. DMAX_REACHED ends an on-time no trip has ended, and counts it. A clear of the peak latch by the owning
engine or the host releases the latch from the next cycle, unless a trip fell in the same cycle; from any other core the write is refused. -/
def Obligations.OnTimesEndAndLatchesClear : Prop :=
  (∀ (s : State) (n : Port) (imp : Bool), s.settled →
    let p := s.port n
    ((p.st.mode.converting = true → p.ripe.blank ≤ s.cc - p.st.startCc →
        setsPort (.peakTrip n imp) s n { p with st := { p.st with
          pkLat := true, clrCc := none, pkTripCc := some s.cc, pk := ⟨true, true⟩, ended := true } })
      ∧ (p.st.mode = .bypass → p.ripe.blank ≤ s.cc - p.st.startCc →
        setsPort (.peakTrip n imp) s n { p with st := { p.st with
          pkLat := true, clrCc := none, pkTripCc := some s.cc, pk := ⟨true, true⟩, ended := true, limit := true, limitSeen := true
          bypExit := some imp } })
      ∧ (p.st.mode.converting = true ∨ p.st.mode = .bypass → s.cc - p.st.startCc < p.ripe.blank →
        setsPort (.peakTrip n imp) s n { p with st := { p.st with pk := ⟨p.st.pk.valid, p.st.pk.valid⟩ } })
      ∧ (p.st.mode = .off ∨ p.st.mode = .startReg → idles (.peakTrip n imp) s)
      ∧ (p.st.active = true → p.st.ended = false → p.dmaxNow n ≤ s.cc - p.st.startCc →
        setsPort (.dmaxReached n) s n { p with st := { p.st with ended := true, dmaxCnt := satInc p.st.dmaxCnt } })
      ∧ (p.st.ended = true → idles (.dmaxReached n) s)))
  ∧ (∀ (s : State) (n : Port) (w : Writer), s.settled → s.has n = true →
    let p := s.port n
    ((w = .host ∨ w = .core (leOf n)) → p.st.pkTripCc ≠ some s.cc →
        let cleared := { p.st with pkLat := p.st.latched s.cc, clrCc := some s.cc }
        setsPort (.peakLatchClear n w) s n { p with st := cleared }
        ∧ cleared.latched s.cc = p.st.latched s.cc ∧ ∀ cc, s.cc < cc → cleared.latched cc = false)
    ∧ ((w = .host ∨ w = .core (leOf n)) → p.st.pkTripCc = some s.cc → idles (.peakLatchClear n w) s)
    ∧ (∀ c, w = .core c → c ≠ leOf n →
        answers (.peakLatchClear n w) s fun t =>
          t.core c = { s.core c with lsuFlag := (s.core c).lsuFlag ||| 1 } ∧ changesOnly [.core c] s t))

/-- PERIOD_START on a converting stage that nothing forces off and for which no mode write waits: the LIMIT of the period that
ended, the latch in its mode, the next on-time, the run-time DMAX that waited, one more period; the PERk wait source of the
owning engine is pending; a hub locked to SYNC_IN counts a period of W0 that is not 150 cycles long. The raw comparator outputs
release (DESIGN CHOICE, log entry 105). A mode write of an earlier cycle, other than BYPASS, takes effect at the period start,
BYPASS only below 1.0 V across the path and where KU's legacy limits allow it; one of the cycle of the period start waits for
the following one, and the write before it takes effect. -/
def Obligations.PeriodStartsApplyWhatWaits : Prop :=
  (∀ (s : State) (n : Port) (mv at_ : Nat), s.settled → s.has n = true → s.dev.hold = .none → s.dev.asleep = false →
    s.cc ≤ at_ →
    let p := s.port n
    p.st.force = [] → p.st.pendMode = none → p.st.bypExit = none → p.st.mode.converting = true →
    answers (.periodStart n mv at_) s fun t =>
      t.cc = at_
      ∧ t.port n = { p with st := { p.st with
          limit := p.st.limitSeen || decide (p.clamp at_ ≤ (p.st.codeAt at_).toNat), limitSeen := false
          pkLat := p.ripe.latchHold && p.st.latched at_, prevMode := none
          pk := { p.st.pk with out := false }, hsCmp := { p.st.hsCmp with out := false }
          active := !(p.ripe.latchHold && (p.st.latched at_ || decide (p.st.clrCc = some at_))), ended := false
          dmaxRun := p.st.dmaxPend.getD p.st.dmaxRun, dmaxPend := none
          periods := p.st.periods + 1, startCc := at_ } }
      ∧ bitOf (t.core (leOf n)).evtPend (8 + leLocal n) = true
      ∧ t.tim = (if n = 0 ∧ s.tim.lock = true ∧ at_ - p.st.startCc ≠ 150 then
          { s.tim with corrcnt := satInc s.tim.corrcnt } else s.tim)
      ∧ changesOnly [.clock, .port n, .tim, .events] s t)
  ∧ (∀ (s : State) (n : Port) (mv at_ : Nat) (m : StageMode), s.settled → s.has n = true → s.dev.hold = .none →
    s.dev.asleep = false → s.cc ≤ at_ →
    let p := s.port n
    p.st.force = [] → p.st.pendMode = some m → p.st.bypExit = none →
    (p.st.pendCc ≠ at_ → answers (.periodStart n mv at_) s fun t =>
      (t.port n).st.pendMode = none
      ∧ (m ≠ .bypass → (t.port n).st.mode = m)
      ∧ (m = .bypass → mv < 1000 → s.mayBypass n = true → (t.port n).st.mode = .bypass)
      ∧ (m = .bypass → 1000 ≤ mv ∨ s.mayBypass n = false →
          (t.port n).st.mode = p.st.mode ∧ (t.port n).st.bypRef = true))
    ∧ (p.st.pendCc = at_ → answers (.periodStart n mv at_) s fun t =>
      (t.port n).st.pendMode = some m
      ∧ (∀ m1, p.st.prevMode = some m1 → m1 ≠ .bypass → (t.port n).st.mode = m1)
      ∧ (p.st.prevMode = none → (t.port n).st.mode = p.st.mode)))

/-- SAMPLE_TRIGGER stamps and puts the set that its period takes behind those that wait; SAMPLE_READY fills slot 0 and SET_READY
the slots of the oldest set that waits, as it was triggered; their wait sources are pending, and a sample whose predecessor
still waits counts in SMPOVF. -/
def Obligations.SamplesReachTheirSlots : Prop :=
  ∀ (s : State) (n : Port) (code v1 v2 v3 : BitVec 12) (at_ lag : Nat), s.settled → s.has n = true →
    let p := s.port n
    let k := s.core (leOf n)
    (s.cc ≤ at_ → answers (.sampleTrigger n at_) s fun t =>
      (t.core (leOf n)).adcrStamp.toList.getD (leLocal n) 0 = BitVec.ofNat 32 (at_ - k.startCc) ∧ t.cc = at_
      ∧ t.port n = { p with st := { p.st with
          setDue := if setTaken n p = true then p.st.setDue ++ [p.ripe.adcset.setWidth 8] else p.st.setDue } }
      ∧ changesOnly [.clock, .port n, .core (leOf n)] s t)
    ∧ (answers (.sampleReady n code) s fun t =>
      (t.core (leOf n)).adcr.toList.getD (8 * leLocal n) 0 = code
      ∧ bitOf (t.core (leOf n)).evtPend (leLocal n) = true
      ∧ t.port n = { p with st := { p.st with
          smpOvf := if bitOf k.evtPend (leLocal n) then satInc p.st.smpOvf else p.st.smpOvf } }
      ∧ changesOnly [.port n, .core (leOf n)] s t)
    ∧ (∀ (slots : BitVec 8) (rest : List (BitVec 8)), p.st.setDue = slots :: rest → answers (.setReady n v1 v2 v3 lag) s fun t =>
      (bitOf slots 1 = true → (t.core (leOf n)).adcr.toList.getD (8 * leLocal n + 1) 0 = v1)
      ∧ (bitOf slots 2 = true → (t.core (leOf n)).adcr.toList.getD (8 * leLocal n + 2) 0 = v2)
      ∧ (bitOf slots 3 = true → (t.core (leOf n)).adcr.toList.getD (8 * leLocal n + 3) 0 = v3)
      ∧ bitOf (t.core (leOf n)).evtPend (4 + leLocal n) = true
      ∧ (t.port n).st.setDue = rest ∧ (t.port n).st.setCnt = p.st.setCnt + 1
      ∧ changesOnly [.port n, .core (leOf n)] s t)

/-- An OV or UV release clears its comparator. On a port whose switch is off, that is no feed and shows no power-good, a trip of
either sets it and does nothing else while a feed is selected; a tripped one does not trip again. COMPARATOR_VALID: the output
follows the input from then on, and a comparator whose first reading is tripped acts as on its trip: SEAT unseated as a break,
HBUS below 18.0 V as a brown-out. -/
def Obligations.ComparatorsFollowTheirInputs : Prop :=
  (∀ (s : State) (n : Port), s.settled → s.has n = true →
    let p := s.port n
    setsPort (.ovRelease n) s n { p with st := { p.st with ov := ⟨true, false⟩ } }
    ∧ setsPort (.uvRelease n) s n { p with st := { p.st with uv := ⟨true, false⟩ } }
    ∧ (p.st.ov.out = false → p.pw.sw = .off → p.pw.pg = false → s.fedElsewhere n →
        setsPort (.ovTrip n) s n { p with st := { p.st with ov := ⟨true, true⟩ } })
    ∧ (p.st.uv.out = false → p.pw.sw = .off → s.fedElsewhere n →
        setsPort (.uvTrip n) s n { p with st := { p.st with uv := ⟨true, true⟩ } })
    ∧ (p.st.ov = ⟨true, true⟩ → idles (.ovTrip n) s) ∧ (p.st.uv = ⟨true, true⟩ → idles (.uvTrip n) s))
  ∧ (∀ (s : State) (n : Port) (b : Bool), s.settled →
    let p := s.port n
    setsPort (.comparatorValid (.pk n) b) s n { p with st := { p.st with pk := ⟨true, b⟩ } }
    ∧ setsPort (.comparatorValid (.hs n) false) s n { p with st := { p.st with hsCmp := ⟨true, false⟩ } }
    ∧ setsPort (.comparatorValid (.ov n) false) s n { p with st := { p.st with ov := ⟨true, false⟩ } }
    ∧ setsPort (.comparatorValid (.uv n) false) s n { p with st := { p.st with uv := ⟨true, false⟩ } }
    ∧ (.seatBreak ∉ p.st.force →
        setsPort (.comparatorValid (.seat n) true) s n { p with pw := { p.pw with seat := ⟨true, true⟩ } })
    ∧ (s.signals n = true → exec (.comparatorValid (.seat n) false) s = exec (.seatBreak n) s)
    ∧ (s.signals n = false →
        setsPort (.comparatorValid (.seat n) false) s n { p with pw := { p.pw with seat := ⟨true, false⟩ } })
    ∧ (s.has n = true → s.hsArmed n = true → exec (.comparatorValid (.hs n) true) s = exec (.hardShortTrip n) s)
    ∧ (s.has n = true → p.st.ov.out = false → exec (.comparatorValid (.ov n) true) s = exec (.ovTrip n) s)
    ∧ (s.has n = true → p.st.uv.out = false → exec (.comparatorValid (.uv n) true) s = exec (.uvTrip n) s)
    ∧ exec (.comparatorValid .hbusUv true) s = exec .brownOut s
    ∧ exec (.comparatorValid .hbusUv false) s = exec .hbusUvRelease s
    ∧ (s.fd.ov.out = false → exec (.comparatorValid .hbusOv true) s = exec .hbusOvTrip s)
    ∧ setsPort (.comparatorValid (.tone n) b) s n { p with wh := { p.wh with tone := ⟨true, b⟩ } }
    ∧ (s.dev.hold ≠ .brownOut → answers (.comparatorValid .hbusUv false) s fun t =>
        t.fd = { s.fd with uv := ⟨true, false⟩, vhost := true } ∧ changesOnly [.fd] s t)
    ∧ (answers (.comparatorValid .hbusOv false) s fun t =>
        t.fd = { s.fd with ov := ⟨true, false⟩ } ∧ changesOnly [.fd] s t))

/-- A hard-short trip of a port that is no feed and whose contract has ended, with its switch open: the stage is forced OFF at
once by one source, HS is set, the trip is counted, FAULT fires with cause HSHORT, and the breaker decides on it as on any trip:
the port passes DISCH and goes on to the off-time of a retry, or to GIVEUP. -/
def Obligations.HardShortTurnsTheStageOff : Prop :=
  ∀ (s : State) (n : Port), s.settled → s.has n = true → s.eventsOn = true →
    let p := s.port n
    p.st.mode ≠ .off → p.st.force = [] → p.pw.sw = .off → p.pw.pg = false → p.ct.state = .none → p.wh.burstOpen = false →
    s.isFeed n = false → s.fd.pre = false →
    answers (.hardShortTrip n) s fun t =>
      (t.port n).st = { p.st with
          hs := true, hsCmp := ⟨true, true⟩, force := [.hardShort], mode := .off, pendMode := none, prevMode := none
          bypExit := none, bypBack := false, active := false }
      ∧ (t.port n).pw.sw = .disch ∧ (t.port n).pw.after = (if s.retries n = true then .offtime else .giveup)
      ∧ (t.port n).pw.cause = 2 ∧ (t.port n).pw.tripCnt = satInc p.pw.tripCnt
      ∧ logs s t (8 * n.val + 2) 2 ∧ changesOnly [.port n, .events] s t

/-- Self-tests: an accepted CMPTEST or HBUSWIN write sets BUSY; a refused one ends with DONE and REFUSED; the end of a test sets
DONE and PASS as the output was expected or not, and the comparator tested starts anew. -/
def Obligations.SelfTestsRunAndEnd : Prop :=
  ∀ (s : State) (n : Port) (w : Writer) (v : Word) (u o : BitVec 3), s.settled → s.has n = true →
    let p := s.port n
    (p.st.testBusy = false → fld v 18 16 ≠ 0 → fld v 11 8 < 4 → testRefused s n (fld v 11 8) (fld v 18 16) = false →
      setsPort (.cmptestStart n w v) s n { p with st := { p.st with
        testDone := w1c1 p.st.testDone v 30, testRefused := w1c1 p.st.testRefused v 29, testSel := BitVec.ofNat 4 (fld v 11 8)
        testMode := BitVec.ofNat 3 (fld v 18 16), testBusy := true, testPass := false } })
    ∧ (p.st.testBusy = true → fld v 18 16 ≠ 0 →
      setsPort (.cmptestStart n w v) s n { p with st := { p.st with testDone := true, testRefused := true, testPass := false } })
    ∧ (p.st.testBusy = true → p.st.testSel = 2 →
      setsPort (.selfTestDone (.port n) u o) s n { p with st := { p.st with
        testBusy := false, testDone := true, testOut := o &&& 1
        testPass := decide (o &&& 1 = testExpected p.st.testMode false u), ov := ⟨false, false⟩ } })
    ∧ (s.fd.testBusy = false → fld v 18 16 ≠ 0 → fld v 18 16 ≤ 3 →
      answers (.hbuswinTestStart w v) s fun t =>
        t.fd = { s.fd with
          testDone := w1c1 s.fd.testDone v 30, testRefused := w1c1 s.fd.testRefused v 29, testSel := bitOf v 8
          testMode := BitVec.ofNat 3 (fld v 18 16), testBusy := true, testPass := false }
        ∧ changesOnly [.fd] s t)
    ∧ (s.fd.testBusy = true → s.fd.testSel = true →
      answers (.selfTestDone .hbus u o) s fun t =>
        t.fd = { s.fd with
          testBusy := false, testDone := true, testPass := decide (o &&& 1 = testExpected s.fd.testMode false u)
          ov := ⟨false, false⟩ }
        ∧ changesOnly [.fd] s t)

/-! ## Timers -/

/-- A tick of a running counter that no master gates off and whose clock is its own, what took effect before the tick being
done: below its events it counts down by one; at 0 it reloads, sets its zero flag and OUT and counts the zero; on reaching CMP
it sets its match flag and clears OUT. Every wait line bound to the event is pending. A stop or a reset of the same cycle takes
a tick away that is no zero. A zero of a counter linked on its zeros starts, stops or reloads the counter its link names, in the
same cycle. -/
def Obligations.CountersTickAndLink : Prop :=
  (∀ (s : State) (k : Fin 24), s.settled →
    let c := (s.tim.counters[k]).atTick s.cc
    let bound (t : State) (e : Nat) : Prop := ∀ i : Fin 56,
      fld s.tim.tbind[i] 2 0 = e → fld s.tim.tbind[i] 15 8 = k.val + 16 →
      bitOf (t.core ⟨(i.val / 8) % 7, by omega⟩).evtPend (tmrBit ⟨(i.val / 8) % 7, by omega⟩ (i.val % 8)) = true
    (c.run = true → tickLive s k = true → gatedOff s k = false → c.count ≠ 0 → c.count - 1 ≠ c.cmp → c.preEmpted s.cc = false →
      answers (.counterTick k) s fun t =>
        t.tim = { s.tim with counters := s.tim.counters.set k { c with count := c.count - 1 } } ∧ changesOnly [.tim] s t)
    ∧ (c.run = true → tickLive s k = true → gatedOff s k = false → c.count = 0 → c.reload ≠ c.cmp → c.levt ≠ 1 →
      answers (.zero k) s fun t =>
        t.tim = { s.tim with counters := s.tim.counters.set k { c with
          count := c.reload, zerof := true, zcnt := c.zcnt + 1, out := true, run := !c.zstop } }
        ∧ bound t 1 ∧ changesOnly [.tim, .events] s t)
    ∧ (c.run = true → tickLive s k = true → gatedOff s k = false → c.count ≠ 0 → c.count - 1 = c.cmp → c.preEmpted s.cc = false →
      c.mself = 0 → c.levt ≠ 2 →
      answers (.matchEvent k) s fun t =>
        t.tim = { s.tim with counters := s.tim.counters.set k { c with count := c.cmp, matchf := true, out := false } }
        ∧ bound t 2 ∧ changesOnly [.tim, .events] s t)
    ∧ (c.run = false ∨ gatedOff s k = true ∨ tickLive s k = false →
      idles (.counterTick k) s ∧ idles (.zero k) s ∧ idles (.matchEvent k) s)
    ∧ (c.count ≠ 0 → c.preEmpted s.cc = true → idles (.counterTick k) s ∧ idles (.matchEvent k) s))
  ∧ (∀ (s : State) (k j : Fin 24), s.settled → j ≠ k →
    let c := (s.tim.counters[k]).atTick s.cc
    let d := s.tim.counters[j]
    let c1 : Counter := { c with count := c.reload, zerof := true, zcnt := c.zcnt + 1, out := true, run := !c.zstop }
    c.run = true → tickLive s k = true → gatedOff s k = false → c.count = 0 → c.reload ≠ c.cmp → c.levt = 1 →
    c.target = j.val + 16 →
    ∀ op : CtOp, (c.lact = 1 ∧ op = .start) ∨ (c.lact = 2 ∧ op = .stop) ∨ (c.lact = 3 ∧ op = .reload) →
      answers (.zero k) s fun t =>
        t.tim = { s.tim with counters := (s.tim.counters.set k c1).set j { d with due := insertOp (s.cc, op) d.due } }
        ∧ (d.due = [] → t.counter j = d.perform op) ∧ changesOnly [.tim, .events] s t)

/-- An edge on an enabled cherry input whose source can show it: the stamp takes the time in cycles; the edge that ends a pulse
whose other edge was captured counts the pulse and gives its width. With EN clear nothing is captured. SYNC_IN: acquisition
begins, ends in lock, and a loss ends either and counts the lock lost. -/
def Obligations.CapturesAndSync : Prop :=
  (∀ (s : State) (k : Fin 4) (rising : Bool) (at_ : Nat), s.settled → s.cc ≤ at_ →
    let c := (s.tim.cherries[k]).now at_
    let ends := rising != bitOf c.ctl 1
    let now : Word := BitVec.ofNat 32 at_
    (bitOf c.ctl 0 = true → giLive s k = true →
      answers (.cherryCapture k rising at_) s fun t =>
        t.cc = at_
        ∧ (t.tim.cherries[k]).rise = (if rising then now else c.rise) ∧ (t.tim.cherries[k]).fall = (if rising then c.fall else now)
        ∧ (t.tim.cherries[k]).width =
            (if ends = true ∧ c.other = true then (if rising then now - c.fall else now - c.rise) else c.width)
        ∧ (t.tim.cherries[k]).pulses = (if ends = true ∧ c.other = true then c.pulses + 1 else c.pulses)
        ∧ t.tim = { s.tim with cherries := s.tim.cherries.set k t.tim.cherries[k] }
        ∧ changesOnly [.clock, .tim, .events] s t)
    ∧ (bitOf c.ctl 0 = false → answers (.cherryCapture k rising at_) s fun t => t.cc = at_ ∧ changesOnly [.clock] s t))
  ∧ (∀ s : State, s.settled →
    (s.tim.syncEn = true → s.tim.lock = false →
      answers .syncAcquisition s fun t => t.tim = { s.tim with acq := true } ∧ changesOnly [.tim] s t)
    ∧ (s.tim.syncEn = true → s.tim.acq = true →
      answers .syncLock s fun t => t.tim = { s.tim with acq := false, lock := true } ∧ changesOnly [.tim] s t)
    ∧ (s.tim.syncEn = false → idles .syncAcquisition s ∧ idles .syncLock s)
    ∧ (s.tim.lock = true →
      answers .syncLoss s fun t =>
        t.tim = { s.tim with acq := false, lock := false, losscnt := satInc s.tim.losscnt } ∧ changesOnly [.tim] s t))

/-! ## Wheels, pips, burst windows -/

/-- The wheel edges of a wheel in TIME mode that is not in reverse. A leading edge stamps FALL and moves the tracker one tooth
on; the trailing edge stamps RISE, counts the pulse and its width, and classifies it: a forward tooth; the index, which brings
SYNC at tooth 0; a reverse tooth, which takes both steps back and suspends the angle; any other width, which takes the step
back and counts as an error. A wheel that is not enabled, or whose
receiver is not VALID, sees no edge. -/
def Obligations.ToneEdgesMoveTheTracker : Prop :=
  ∀ (s : State) (n : Port) (at_ : Nat), s.settled → isW n = true → s.has n = true → s.cc ≤ at_ →
    let p := s.port n
    let w := p.wh
    let now : Word := BitVec.ofNat 32 at_
    let width := (now - w.fall).toNat
    let w1 : WheelSt := { w with rise := now, width := now - w.fall, pulses := w.pulses + 1, fallSeen := false }
    let sets (c : Instr) (w2 : WheelSt) : Prop := answers c s fun t =>
      t.cc = at_ ∧ t.port n = { p with wh := w2 } ∧ changesOnly [.clock, .port n, .events] s t
    (w.en = true → w.tone.valid = true → w.dir = false → w.mode = .time → w.tpos + 1 < w.teeth →
      sets (.toneLeadingEdge n at_) { w with fall := now, fallSeen := true, tpos := w.tpos + 1 })
    ∧ (w.en = true → w.tone.valid = true → w.dir = false → w.mode = .time → w.fallSeen = true →
      (12000 ≤ width → width ≤ 18000 → w.lastLead = none → w.sync = false →
        sets (.toneTrailingEdge n at_) { w1 with lastLead := some w.fall.toNat, sinceIndex := w.sinceIndex + 1 })
      ∧ (54000 ≤ width → width ≤ 66000 → w.lastLead = none → w.sync = false → w.runs = [] →
        sets (.toneTrailingEdge n at_) { w1 with
          lastLead := some w.fall.toNat, tpos := 0, sync := true, sinceIndex := 0, resync := satInc w.resync })
      ∧ (27000 ≤ width → width ≤ 33000 → w.burstOpen = false → 2 ≤ w.tpos →
        sets (.toneTrailingEdge n at_) { w1 with
          tpos := w.tpos - 2, angper := 0, dir := true, gapped := true, mode := .susp, before := .time })
      ∧ (width < 12000 ∨ 66000 < width → w.sync = false → 1 ≤ w.tpos →
        sets (.toneTrailingEdge n at_) { w1 with
          tpos := w.tpos - 1, angper := 0, gapped := true, errcnt := satInc w.errcnt }))
    ∧ (w.en = false ∨ w.tone.valid = false → sets (.toneLeadingEdge n at_) w ∧ sets (.toneTrailingEdge n at_) w)

/-- ANGCTL: a write with EN set begins TIME mode at angle 0; one with EN clear ends any mode and takes back the step of a pulse
that has begun; a reserved value is refused. A period that does not end in time takes ANGLE or SUSP back to TIME mode, where the
synthetic angle goes on from the present one. ANGLE_UPDATE: in ANGLE mode the angle interpolates between teeth; in TIME mode it
advances 65536 per TINT with nothing lost to rounding; in OFF and SUSP it stands. -/
def Obligations.WheelModesAndAngle : Prop :=
  (∀ (s : State) (n : Port) (wr : Writer) (v : Word), s.settled → isW n = true → s.has n = true →
    let p := s.port n
    let w := p.wh
    (w.en = false → w.mode = .off → bitOf v 31 = true → 8 ≤ fld v 23 16 → fld v 15 0 ≠ 0 →
      setsPort (.angctlWrite n wr v) s n { p with wh := { w with
        angctl := v &&& 0x80FFFFFF, mode := .time, turn := 0, tu := 0, synthCc := s.cc, synthRem := 0
        tpos := { w with angctl := v &&& 0x80FFFFFF }.undone
        sync := false, fallSeen := false, lastLead := none, runs := [], gapped := false, sinceIndex := 0 } })
    ∧ (w.en = true → w.burstOpen = false → w.mode ≠ .off → bitOf v 31 = false → 8 ≤ fld v 23 16 → fld v 15 0 ≠ 0 →
      fld v 23 16 = w.teeth →
      setsPort (.angctlWrite n wr v) s n { p with wh := { w with
        angctl := v &&& 0x80FFFFFF, mode := .off, turn := 0, tu := 0, tpos := { w with angctl := v &&& 0x80FFFFFF }.undone
        sync := false, fallSeen := false, lastLead := none, runs := [], gapped := false, sinceIndex := 0 } })
    ∧ (fld v 23 16 < 8 ∨ fld v 15 0 = 0 ∨ (w.en = true ∧ fld v 23 16 ≠ w.teeth) → refusesWrite (.angctlWrite n wr v) s wr 2)
    ∧ (w.mode = .angle →
      setsPort (.angleModeTimeout n) s n { p with wh := { w with runs := [], mode := .time, synthCc := s.cc, synthRem := 0 } })
    ∧ (w.mode = .susp →
      setsPort (.suspTimeout n) s n { p with wh := { w with runs := [], mode := .time, synthCc := s.cc, synthRem := 0 } })
    ∧ (w.mode ≠ .angle → idles (.angleModeTimeout n) s) ∧ (w.mode ≠ .susp → idles (.suspTimeout n) s))
  ∧ (∀ (s : State) (n : Port) (at_ : Nat), s.settled → s.cc ≤ at_ →
    let p := s.port n
    let w := p.wh
    let num := (at_ - w.synthCc) * 65536 + w.synthRem
    let sets (w2 : WheelSt) : Prop := answers (.angleUpdate n at_) s fun t =>
      t.cc = at_ ∧ t.port n = { p with wh := w2 } ∧ changesOnly [.clock, .port n] s t
    (w.mode = .angle → sets { w with tu := BitVec.ofNat 16 (w.toothTu (w.sinceLead at_)) })
    ∧ (w.mode = .time → w.tu.toNat + num / w.tintCc < 65536 →
      sets { w with tu := BitVec.ofNat 16 (w.tu.toNat + num / w.tintCc), synthCc := at_, synthRem := num % w.tintCc })
    ∧ (w.mode = .off ∨ w.mode = .susp → sets w))

/-- A due pip takes the turn's low bits into LAST, clears LATE and counts in FIRES, and its action happens, under the contents
its entry had before this cycle; an entry that PIP.ARM has rewritten in this cycle keeps its new words. NOTIFY writes the note
of the core named and its wait source is pending; COUNTER START and STOP act on the counter in this cycle. An entry from the
sweep queue leaves the queue and acts the same, unless it has been disarmed before. A due OPEN pip on a port that may burst
takes a token and opens the window: the clamp is the burst's from the next cycle, the OPEN mark waits with the turn, and the
window is counted. With no token left the burst is skipped, counted, and event 143 names the port. A profile is armed by either
where one is granted. -/
def Obligations.PipsActAndOpenWindows : Prop :=
  (∀ (s : State) (e : Fin 256), s.settled →
    let w0 := (pipSeen s e).1
    let w1 := pipW1 s e.val
    let n : Port := ⟨pipWheel w0 % 16, by omega⟩
    let turn := (s.port n).wh.turn.toNat
    let fired (w : Word) : Word :=
      if pipRewritten s e = true then w1 else setFld (setFld w 30 30 0) 15 0 ((fld w1 15 0 + 1) % 65536)
    let asked (k : Fin 24) (op : CtOp) : Counter :=
      { s.tim.counters[k] with due := insertOp (s.cc, op) (s.tim.counters[k]).due }
    let area : Area := .mem (pipAddr e.val + 4) (pipAddr e.val + 8)
    let note (old : Word) : Word := place ((fld old 23 16 + 1) % 256) 16 ||| place (turn % 64) 8 ||| place e.val 0
    (pipDue s e = true → pipAction w0 = 3 → ∀ h : pipArg w0 % 4 < 3,
      answers (.pipFire e) s fun t =>
        pipW1 t e.val = fired (setFld w1 29 22 (turn % 256))
        ∧ t.tim = { s.tim with pipnote := s.tim.pipnote.set (pipArg w0 % 4) (note (s.tim.pipnote[pipArg w0 % 4])) }
        ∧ bitOf (t.core ⟨pipArg w0 % 4 + 4, by omega⟩).evtPend (if pipArg w0 % 4 = 2 then 16 else 15) = true
        ∧ changesOnly [.tim, .events, area] s t)
    ∧ (∀ k : Fin 24, pipDue s e = true → pipAction w0 = 4 → pipArg w0 = k.val + 16 →
      answers (.pipFire e) s fun t =>
        pipW1 t e.val = fired (setFld w1 29 22 (turn % 256))
        ∧ t.tim = { s.tim with counters := s.tim.counters.set k (asked k .start) }
        ∧ changesOnly [.tim, area] s t)
    ∧ (pipDue s e = false → idles (.pipFire e) s)
    ∧ (∀ (k : Fin 24) (qs : List SweepItem), s.tim.queue = ⟨e, false, false⟩ :: qs → bitOf (pipSeen s e).2 31 = true →
      pipAction w0 = 6 → pipArg w0 = k.val + 16 →
      answers .sweepQueueExecute s fun t =>
        pipW1 t e.val = fired w1
        ∧ t.tim = { s.tim with queue := qs, counters := s.tim.counters.set k (asked k .stop) }
        ∧ changesOnly [.tim, area] s t)
    ∧ (∀ (late crossed : Bool) (qs : List SweepItem), s.tim.queue = ⟨e, late, crossed⟩ :: qs → bitOf (pipSeen s e).2 31 = false →
      answers .sweepQueueExecute s fun t => t.tim = { s.tim with queue := qs } ∧ changesOnly [.tim] s t)
    ∧ (s.tim.queue = [] → idles .sweepQueueExecute s))
  ∧ (∀ (s : State) (e : Fin 256), s.settled → s.eventsOn = true →
    let w0 := (pipSeen s e).1
    let n : Port := ⟨pipWheel w0 % 16, by omega⟩
    let p := s.port n
    let area : Area := .mem (pipAddr e.val + 4) (pipAddr e.val + 8)
    pipDue s e = true → pipAction w0 = 1 → bitOf p.ripe.burstctl 31 = true → p.wh.burstOpen = false →
    p.cf.attach = .attachedSrc → bitOf p.ln.linectl 0 = true → p.st.mode ≠ .off → p.st.force = [] →
    (s.led.tokout < s.led.tokens → s.led.cut = false →
      answers (.pipFire e) s fun t =>
        t.led = { s.led with tokout := s.led.tokout + 1 }
        ∧ t.port n = { p with
            wh := { p.wh with burstOpen := true, token := true, markPend := true, tmaxRun := true, opens := p.wh.opens + 1 }
            st := p.st.setBurst s.cc true
            ln := { p.ln with mark := some { isOpen := true, turn := p.wh.turn.setWidth 6 } }
            ct := { p.ct with prof := p.ct.profGranted } }
        ∧ changesOnly [.led, .port n, area] s t)
    ∧ (s.led.tokens ≤ s.led.tokout ∨ s.led.cut = true →
      answers (.pipFire e) s fun t =>
        t.port n = { p with wh := { p.wh with skipTok := satInc p.wh.skipTok }, ct := { p.ct with prof := p.ct.profGranted } }
        ∧ logs s t 143 n.val
        ∧ changesOnly [.port n, .events, area] s t))

/-- A window whose OPEN mark finds no free line by TOL closes, and the burst counts as skipped; at TMAX the clamp ends and the
window stays; a token on its way back reaches the pool. -/
def Obligations.WindowsEndAndTokensReturn : Prop :=
  ∀ (s : State) (n : Port), s.settled → s.eventsOn = true →
    let p := s.port n
    (p.wh.burstOpen = true → p.wh.markPend = true →
      setsPortFires (.burstTolExpiry n) s n { p with
        wh := { p.wh with burstOpen := false, markPend := false, tmaxRun := false, returning := p.wh.token
                          skipLate := satInc p.wh.skipLate }
        st := p.st.setBurst s.cc false
        ln := { p.ln with mark := none } } 141 (n.val + 16))
    ∧ (p.wh.burstOpen = true → p.wh.tmaxRun = true →
      setsPort (.burstTmaxExpiry n) s n { p with
        wh := { p.wh with tmaxRun := false }, st := p.st.setBurst s.cc false })
    ∧ (p.wh.burstOpen = false → idles (.burstTolExpiry n) s ∧ idles (.burstTmaxExpiry n) s)
    ∧ (p.wh.returning = true → p.ct.tokAfter = none →
      answers (.tokenReturn n) s fun t =>
        t.led = { s.led with tokout := s.led.tokout - 1 }
        ∧ t.port n = { p with wh := { p.wh with returning := false, token := p.wh.burstOpen } }
        ∧ changesOnly [.led, .port n] s t)

/-! ## Configuration wires, attach and detach -/

/-- New readings on an unattached port that presents: a source goes to ATTACH_WAIT when it sees a sink, a sink when it sees a
source; an attached source keeps its state. On KU tLEGACY starts anew where R105 does not hold. While a moisture measurement
runs the detectors hold their last output. -/
def Obligations.ReadingsBeginTheAttach : Prop :=
  ∀ (s : State) (n : Port) (r1 r2 : Reading), s.settled → s.signals n = true →
    let p := s.port n
    let c : CfSt := { p.cf with cf1 := r1, cf2 := r2 }
    (p.mo.measuring = true → idles (.cfReadingChange n r1 r2) s) ∧ (p.mo.measuring = false →
    let legacy : Bool := decide (20000 ≤ s.fd.kuMv ∧ s.fd.kuMv ≤ 32000) && !c.sourceSeen
    let u : CfSt := { c with legacyDue := c.legacyDue && (decide (n ≠ portKU) || legacy) }
    let c1 : CfSt := {
      u with attach := .attachWait, attachRun := (c.sourceRow s.cc).isSome, debounced := false, startRow := (r1, r2) }
    let c2 : CfSt := { u with attach := .attachWait, attachRun := true, debounced := false, startRow := (r1, r2) }
    (c.attach = .unattached → c.presents n = true → s.muted n = false → c.asSource = true →
      setsPort (.cfReadingChange n r1 r2) s n { p with cf := if c.sinkSeen s.cc = true then c1 else u })
    ∧ (c.attach = .unattached → c.presents n = true → s.muted n = false → c.asSource = false →
      setsPort (.cfReadingChange n r1 r2) s n { p with cf := if c.sourceSeen = true then c2 else u })
    ∧ (c.attach = .unattached → c.presents n = false ∨ s.muted n = true →
      setsPort (.cfReadingChange n r1 r2) s n { p with cf := u })
    ∧ (c.attach = .attachedSrc → setsPort (.cfReadingChange n r1 r2) s n { p with cf := c })
    ∧ (c.attach = .attachedSnk → c.csupOn = false →
      setsPort (.cfReadingChange n r1 r2) s n { p with cf := { c with csupIn := decide (c.otherReading = .floatBand) } }))

/-- The end of an attach debounce, and that of a try, attaches the port in its role with the active wire its readings give:
ATTACH fires, and the default contract is in force, which CONTRACT reports, for a source once the ledger has raised its grant; a
source whose CTRPOL.DEFEN is 0 is under no contract. Where a try's readings name no active wire it is the first that shows the
partner (DESIGN CHOICE, log entry 95). A port that prefers the other role tries it first. A port that is no feed detaches when
its active wire has read detach or Undecided for its time, or its new presentation has not been read after a swap: it is
unattached in the role ROLEMODE selects with LEVEL back at HOLD, its line and contexts are closed, no contract is in force, its
switch opens, and ATTACH reports the detach. -/
def Obligations.AttachAndDetach : Prop :=
  (∀ (s : State) (n : Port), s.settled → s.signals n = true → s.eventsOn = true → s.fedElsewhere n →
    let p := s.port n
    let c := p.cf
    let d := p.ripe.defaultContract
    let raised (t : State) : Prop := t.led.held[n] = max s.led.held[n] (powerUp d.1 d.2) ∧ t.led.avail = s.led.avail
    let attaches (i : Instr) (source a : Bool) : Prop := answers i s fun t =>
      (t.port n).cf.attach = (if source = true then .attachedSrc else .attachedSnk) ∧ (t.port n).cf.asSource = source
      ∧ (t.port n).cf.active = a ∧ (t.port n).cf.cause = 0
      ∧ (t.port n).ct.state = .default ∧ (t.port n).ct.volt = d.1 ∧ (t.port n).ct.icont = d.2 ∧ (t.port n).ct.asSource = source
      ∧ (t.port n).pw = p.pw ∧ (t.port n).ln = p.ln ∧ (t.port n).st = p.st
      ∧ reports s t [(8 * n.val, if source = true then 0x20 else 0x30), (8 * n.val + 1, 1)]
      ∧ (source = true → raised t)
      ∧ changesOnly (if source = true then [.port n, .led, ledgerArea, .events] else [.port n, .events]) s t
    p.ct.state = .none →
    (∀ a, c.attach = .attachWait → c.attachRun = true → c.asSource = true → c.sourceRow s.cc = some a → c.effMode ≠ 5 →
      p.ripe.defen = true → s.raiseServed n (powerUp d.1 d.2) → attaches (.cfAttachDone n) true a)
    ∧ (∀ a, c.attach = .attachWait → c.attachRun = true → c.asSource = false → c.sinkRow = some a → c.effMode ≠ 4 →
      attaches (.cfAttachDone n) false a)
    ∧ (c.attach = .trySrc ∨ c.attach = .tryWaitSrc → c.sinkSeen s.cc = true → p.ripe.defen = true →
      s.raiseServed n (powerUp d.1 d.2) →
      attaches (.tryDebounceDone n) true ((c.sourceRow s.cc).getD !c.isSink s.cc c.cf1))
    ∧ (c.attach = .trySnk ∨ c.attach = .tryWaitSnk → c.sourceSeen = true →
      attaches (.tryDebounceDone n) false (c.sinkRow.getD !readsSource c.cf1))
    ∧ (∀ a, c.attach = .attachWait → c.attachRun = true → c.asSource = true → c.sourceRow s.cc = some a → c.effMode ≠ 5 →
      p.ripe.defen = false → p.ct.volt = 0 → p.ct.icont = 0 →
      answers (.cfAttachDone n) s fun t =>
        (t.port n).cf.attach = .attachedSrc ∧ (t.port n).ct.state = .none ∧ logs s t (8 * n.val) 0x20
        ∧ changesOnly [.port n, .events] s t)
    ∧ (∀ a, c.attach = .attachWait → c.attachRun = true → c.asSource = false → c.sinkRow = some a → c.effMode = 4 →
      setsPort (.cfAttachDone n) s n { p with cf := {
        c with attach := .trySrc, asSource := true, attachRun := false, debounced := false } }))
  ∧ (∀ (s : State) (n : Port) (i : Instr), s.settled → s.signals n = true → s.eventsOn = true → s.isFeed n = false → s.noneWaits →
    let p := s.port n
    let c := p.cf
    (i = .cfDetachTimeout n ∧ c.detachRun = true) ∨ (i = .cfUndecidedTimeout n ∧ c.undecRun s.cc = true)
      ∨ (i = .swapPresentationTimeout n ∧ c.suspended = true) →
    readsSource c.cf1 = false → readsSource c.cf2 = false → p.wh.burstOpen = false → p.ln.txCount = 0 → s.led.held[n] = 0 →
    p.pw.pg = false →
    (p.ct.state = .none → p.ct.volt = 0 → p.ct.icont = 0 → p.pw.sw = .off →
      answers i s fun t =>
        (t.port n).cf.attach = .unattached ∧ (t.port n).cf.effMode = effectiveRole s c ∧ (t.port n).cf.level = 0
        ∧ (t.port n).cf.csupOn = false ∧ (t.port n).cf.suspended = false ∧ (t.port n).cf.cause = 1
        ∧ (t.port n).ln.ctxs = .replicate 12 .reset ∧ (t.port n).ln.phase = .idle ∧ (t.port n).ln.own = []
        ∧ (t.port n).ct.state = .none ∧ (t.port n).ct.caps = [] ∧ (t.port n).pw.sw = .off ∧ (t.port n).st = p.st
        ∧ logs s t (8 * n.val) 1 ∧ changesOnly [.port n, .events] s t)
    ∧ (p.ct.state ≠ .none → p.pw.sw = .on →
      answers i s fun t =>
        (t.port n).cf.attach = .unattached ∧ (t.port n).ct.state = .none ∧ (t.port n).ct.volt = 0 ∧ (t.port n).ct.icont = 0
        ∧ (t.port n).pw.sw = .disch ∧ (t.port n).pw.after = .off ∧ (t.port n).st = p.st
        ∧ reports s t [(8 * n.val, 1), (8 * n.val + 1, 0)] ∧ changesOnly [.port n, .events] s t))

/-- The other timers of the attach machine: an unattached toggling port turns its presentation round; a try that times out waits
in the other role, and the wait ends unattached, as ATTACH_WAIT does when the partner is gone; a partner seen in the role that
holds then is sought anew. R105 takes KU to LEGACY, when it presents sink. The partner's new presentation read in its band after
a role exchange resumes detach detection. -/
def Obligations.AttachTimersMoveTheMachine : Prop :=
  ∀ (s : State) (n : Port), s.settled → s.signals n = true →
    let p := s.port n
    let c := p.cf
    let idle (c : CfSt) : CfSt := { c with
      attach := .unattached, effMode := effectiveRole s c, asSource := decide (2 ≤ (effectiveRole s c).toNat), active := false
      marker := false, csupOn := false, csupIn := false, csupOc := false, csupTrips := 0, csupSwapped := false
      fromLegacy := false, legacyDue := false, attachRun := false, debounced := false, suspended := false }
    let tries (a : AttachState) (source : Bool) : CfSt := {
      c with attach := a, asSource := source, attachRun := false, debounced := false }
    let ends (i : Instr) : Prop :=
      (c.sourceSeen = false → setsPort i s n { p with cf := idle c })
      ∧ ((if (idle c).asSource then (idle c).sinkSeen s.cc else c.sourceSeen) = true → (idle c).presents n = true →
        s.muted n = false → answers i s fun t => (t.port n).cf.attach = .attachWait ∧ changesOnly [.port n] s t)
    (n ≠ portKU ∨ c.legacyDue = false → c.attach = .unattached → 3 ≤ c.effMode.toNat →
      setsPort (.drpToggle n) s n { p with cf := { c with asSource := !c.asSource } })
    ∧ (c.attach ≠ .unattached → idles (.drpToggle n) s)
    ∧ (c.attach = .trySrc → setsPort (.tryTimeout n) s n { p with cf := tries .tryWaitSnk false })
    ∧ (c.attach = .trySnk → setsPort (.tryTimeout n) s n { p with cf := tries .tryWaitSrc true })
    ∧ (c.attach = .tryWaitSnk ∨ c.attach = .tryWaitSrc → ends (.tryWaitTimeout n))
    ∧ (c.attach = .attachWait → c.fromLegacy = false → (if c.asSource then c.sinkSeen s.cc else c.sourceSeen) = false →
      ends (.cfDetachTimeout n))
    ∧ (c.suspended = true → p.ct.beforeExchange = false → c.readsPartner s.cc = true →
      setsPort (.swapPresentationRead n) s n { p with cf := { c with suspended := false } })
    ∧ (p.ct.beforeExchange = true ∨ c.readsPartner s.cc = false → idles (.swapPresentationRead n) s)
    ∧ (n = portKU → c.attach = .unattached → s.legacyCond = true → c.asSource = true →
      setsPort (.legacyTimeout n) s n { p with cf := { c with legacyDue := true } })
    ∧ (n = portKU → c.attach = .unattached → s.legacyCond = true → c.asSource = false → s.eventsOn = true → s.fedElsewhere n →
      p.ct.state = .none →
      answers (.legacyTimeout n) s fun t =>
        (t.port n).cf.attach = .legacy ∧ (t.port n).cf.cause = 2 ∧ (t.port n).ct.state = .legacy
        ∧ (t.port n).pw = p.pw ∧ (t.port n).st = p.st
        ∧ reports s t [(8 * n.val, 0x82), (8 * n.val + 1, 3)] ∧ changesOnly [.port n, .events] s t)
    ∧ (s.legacyCond = false → idles (.legacyTimeout n) s)

/-- CFCTL: a reserved value is refused. A changed ROLEMODE other than OFF waits while the port is attached, and acts at once on
an unattached port that sees no partner; a write that keeps ROLEMODE sets LEVEL, CSUP and SHARE at once, and a change of LEVEL
ends what stood of tHOLD. -/
def Obligations.CfctlWritesAct : Prop :=
  ∀ (s : State) (n : Port) (w : Writer) (v : Word), s.settled →
    let p := s.port n
    let c := p.cf
    (cfctlReserved s n v = true → refusesWrite (.rolemodeWrite n w v) s w 2 ∧ refusesWrite (.cfctlLevelWrite n w v) s w 2)
    ∧ (cfctlReserved s n v = false → c.rolemode ≠ v.extractLsb' 0 3 → v.extractLsb' 0 3 ≠ (0 : BitVec 3) → fld v 11 10 = c.level →
      fld v 9 8 = c.csup →
      (c.attached = true → setsPort (.rolemodeWrite n w v) s n { p with cf := { c with cfctl := cfctlFields v } })
      ∧ (c.attach = .unattached → readsSource c.cf1 = false → readsSource c.cf2 = false →
        answers (.rolemodeWrite n w v) s fun t =>
          (t.port n).cf.cfctl = cfctlFields v ∧ (t.port n).cf.attach = .unattached
          ∧ (t.port n).cf.effMode = (if s.portsInert = true then 0 else v.extractLsb' 0 3)
          ∧ (t.port n).pw = p.pw ∧ (t.port n).ct = p.ct ∧ (t.port n).ln = p.ln ∧ changesOnly [.port n] s t))
    ∧ (cfctlReserved s n v = false → c.rolemode = v.extractLsb' 0 3 → fld v 11 10 ≠ c.level → fld v 9 8 = c.csup →
      setsPort (.cfctlLevelWrite n w v) s n { p with
        cf := { c with cfctl := cfctlFields v, levelCc := if c.attach = .attachedSrc then s.cc else c.levelCc }
        ln := { p.ln with holdStood := false, startOut := p.ln.startOut && decide (fld v 11 10 = 0)
                          holdWait := p.ln.holdWait && decide (fld v 11 10 = 0) } })

/-- SEAT: seated ends the force-off of a break; settled counts from then, and a waiting start of a port that may goes into
pre-charge; a break on a port that is neither attached nor a feed forces its stage off and closes its line. B's supply outside
its range opens B's output with a force-off. CSUP's overcurrent switches it off with FAULT CSUP, tries once more, and stays off
at the second. -/
def Obligations.SeatAndCsupFollow : Prop :=
  ∀ (s : State) (n : Port), s.settled → s.has n = true → s.eventsOn = true → s.fedElsewhere n →
    let p := s.port n
    (n ≠ portB →
      setsPort (.seatSeated n) s n { p with
        pw := { p.pw with seat := ⟨true, true⟩ }
        st := { p.st with force := p.st.force.filter fun x => !([ForceSource.seatBreak] : List ForceSource).contains x } })
    ∧ (n ≠ portB → p.pw.seat = ⟨true, true⟩ → s.noneWaits →
      setsPort (.seatSettled n) s n { p with pw := { p.pw with settled := true } })
    ∧ (n ≠ portB → p.pw.seat = ⟨true, true⟩ → p.pw.sw = .wait →
      (∀ m, m ≠ n → (s.port m).pw.sw ≠ .wait ∧ (s.port m).pw.starting = false) →
      setsPort (.seatSettled n) s n { p with pw := { p.pw with settled := true, sw := .prechg, preStart := s.cc } })
    ∧ (n ≠ portB → p.ct.state = .legacy →
      p.ln.tx = [] →
      setsPort (.seatBreak n) s n { p with pw := { p.pw with settled := false, seat := ⟨true, false⟩ }, ln := p.ln.closed })
    ∧ (n ≠ portB → p.cf.attached = false → p.ct.state ≠ .legacy → p.pw.sw = .off → p.pw.pg = false → p.wh.burstOpen = false →
      p.st.force = [] → p.ln.tx = [] →
      answers (.seatBreak n) s fun t =>
        (t.port n).pw = { p.pw with settled := false, seat := ⟨true, false⟩, after := .off, startHeld := false }
        ∧ (t.port n).st = { p.st with
            force := [.seatBreak], mode := .off, pendMode := none, prevMode := none, bypExit := none, bypBack := false
            active := false }
        ∧ (t.port n).cf = p.cf ∧ (t.port n).ln = p.ln.closed ∧ changesOnly [.port n, .events] s t)
    ∧ (n = portB → p.pw.sw = .on → s.noneWaits → p.pw.pg = false → p.wh.burstOpen = false → p.st.force = [] →
      answers .bSupplyBreak s fun t =>
        (t.port n).pw = { p.pw with settled := false, startHeld := false, sw := .disch, after := .off, discharging := false }
        ∧ (t.port n).st = { p.st with
            force := [.seatBreak], mode := .off, pendMode := none, prevMode := none, bypExit := none, bypBack := false
            active := false }
        ∧ changesOnly [.port n, .events] s t)
    ∧ (n ≠ portB → p.cf.csupOn = true →
      setsPortFires (.csupOvercurrent n) s n { p with
        pw := { p.pw with cause := 8 }
        cf := { p.cf with csupOn := false, csupTrips := p.cf.csupTrips + 1, csupOc := decide (1 ≤ p.cf.csupTrips) } }
        (8 * n.val + 2) 8)
    ∧ (p.cf.csupOn = false → p.cf.csupTrips = 1 → p.cf.wantsCsup = true →
      setsPort (.csupRetry n) s n { p with cf := { p.cf with csupOn := true } })
    ∧ (p.cf.csupOn = false → 2 ≤ p.cf.csupTrips → idles (.csupRetry n) s)

/-! ## Line PHYs -/

/-- TX_START on a free line: a frame of the PHY's own goes first and takes the next ID of its context, or keeps the one it has;
a pending ring entry that may go takes its ID at its first try, with the header filled in, and keeps it at the next; a request
opens its sequence. A sink that owes its GETCAPS adds it to the ring first. A line that is not free sends nothing, and HOLDOFF
keeps a frame back. A TX-ring entry, of a context other than PART, that its third try fails: it ends with RESULT 2 and the tries
made, PEND clear; it leaves the ring, the failure is counted and TX fires with the result and the context. -/
def Obligations.FramesGoOutAndEnd : Prop :=
  (∀ (s : State) (n : Port), s.settled →
    let p := s.port n
    let l := p.ln
    (∀ (f : PhyFrame) (fs : List PhyFrame), p.lineIdle = true → l.own = f :: fs →
      (heldOff n f.objs.length s = false → f.id = none → ∀ h : f.ctx < 12,
        setsPort (.txStart n) s n { p with ln := { l with
          own := fs, phase := .sending, cur := some (.own { f with id := some (l.ctxs[f.ctx]).txId })
          curId := (l.ctxs[f.ctx]).txId, tries := 0
          ctxs := l.ctxs.set f.ctx { l.ctxs[f.ctx] with txId := (l.ctxs[f.ctx]).txId + 1 }
          notsup := if f.type = 0x11 then satInc l.notsup else l.notsup } })
      ∧ (∀ i, heldOff n f.objs.length s = false → f.id = some i →
        setsPort (.txStart n) s n { p with ln := { l with
          own := fs, phase := .sending, cur := some (.own f), curId := i, tries := 0 } })
      ∧ (heldOff n f.objs.length s = true → idles (.txStart n) s))
    ∧ (∀ (e : Nat) (es : List Nat), p.lineIdle = true → l.own = [] → p.ct.getcapsDue = false → pendingTx n s = e :: es →
      txVerdict n e s = .go →
      let a := ringAddr (2 * n.val) e
      let c := (memRead s.mem (a + 2)).toNat
      let h := entryHdr s a
      let ctl := entryCtl s a
      let l1 : LineSt := { l with
        phase := .sending, cur := some (.ring e), tries := fld ctl 7 4, startOut := l.startOut || (bitOf ctl 14 && p.isSource)
        sinkStart := l.sinkStart && !bitOf ctl 14 }
      (l.begun.contains e = true → setsPort (.txStart n) s n { p with ln := { l1 with curId := hdrId h } })
      ∧ (l.begun.contains e = false → ∀ hc : c < 12, ∀ ct : ContractSt,
        ct = p.ct ∧ (c = 0 → hdrType h ∈ [tGrant, tDeny, tWait, tReady, tAbort, tBye])
          ∨ c = 0 ∧ p.ct.seq = none ∧ s.isFeed n = false
            ∧ (∃ x ∈ [(SeqKind.askOut, tAsk), (.profileOut, tProfile), (.sswapOut, tSswap), (.getcapsOut, tGetcaps)],
                x.2 = hdrType h ∧ ct = { p.ct with
                  seq := some { kind := x.1, rtype := x.2, rid := (l.ctxs[c]).txId, phase := .requested, nodded := false }
                  lastReq := entryObjs s a, lastType := x.2 }) →
        answers (.txStart n) s fun t =>
          t.port n = { p with
            ct := ct
            ln := { l1 with
              curId := (l.ctxs[c]).txId, begun := e :: l.begun
              ctxs := l.ctxs.set c { l.ctxs[c] with txId := (l.ctxs[c]).txId + 1 } } }
          ∧ entryHdr t a = mkHdr (hdrType h) (l.ctxs[c]).txId p.isSource p.cf.csupOn (hdrCount h)
          ∧ changesOnly [.port n, .mem (a + 4) (a + 6)] s t))
    ∧ (p.lineIdle = true → l.own = [] → p.ct.getcapsDue = true → l.tx = [] → p.isSource = false → p.mayStart = false →
      sendsMsg (.txStart n) s n true tGetcaps [0x10000000] { p.ct with getcapsDue := false })
    ∧ (p.lineIdle = false → idles (.txStart n) s))
  ∧ (∀ (s : State) (n : Port) (e : Fin 16), s.settled → s.signals n = true → s.eventsOn = true →
    let p := s.port n
    let l := p.ln
    let a := ringAddr (2 * n.val) e
    l.phase = .awaitNod → l.tries = 3 → l.cur = some (.ring e) → memRead s.mem (a + 2) ≠ 0 →
    answers (.nodTimeout n) s fun t =>
      t.port n = { p with ln := { l with
        phase := .idle, cur := none, txfail := satInc l.txfail, tx := l.tx.erase e.val, begun := l.begun.erase e.val } }
      ∧ entryCtl t a = setFld (setFld (setFld (entryCtl s a) 11 8 2) 7 4 3) 15 15 0
      ∧ logs s t (8 * n.val + 6) (2 + 16 * (memRead s.mem (a + 2)).toNat)
      ∧ changesOnly [.port n, .events, .mem a (a + 2)] s t)

/-- A frame sent waits for its NOD, a ring entry with its TIME and CRC filled in; a try that fails waits for the next, and the
third ends the frame as failed; the NOD that answers ends it; HOLD that has stood lets START go; a NOD owed goes out, occupies
the line until its end bit, and a NOTSUP due follows it. Marks and the line: a pending mark goes out on a free line, also in
place of the NOD owed, which it drops, goes ahead of a NOTSUP due, and an OPEN mark waits no longer; its end frees the line; a
grant mark received is dropped; a sync found means the hub is receiving. -/
def Obligations.TriesNodsAndMarks : Prop :=
  (∀ (s : State) (n : Port) (f : FrameRx), s.settled →
    let p := s.port n
    let l := p.ln
    let l0 : LineSt := { l with receiving := false }
    (∀ g, l.phase = .sending → l.cur = some (.own g) →
      setsPort (.frameSent n) s n { p with ln := { l with phase := .awaitNod, tries := l.tries + 1 } })
    ∧ (∀ e : Fin 16, l.phase = .sending → l.cur = some (.ring e) →
      let a := ringAddr (2 * n.val) e
      answers (.frameSent n) s fun t =>
        t.port n = { p with ln := { l with phase := .awaitNod, tries := l.tries + 1 } }
        ∧ t.readMem (a + 8) 4 = toBytesLE 4 s.timeUs
        ∧ t.readMem (a + 72) 4 = bytesLE (frameCrc (memRead s.mem (a + 3)) (entryHdr s a) (entryObjs s a))
        ∧ changesOnly [.port n, .mem (a + 8) (a + 12), .mem (a + 72) (a + 76)] s t)
    ∧ (l.phase = .sendingNod → setsPort (.frameSent n) s n { p with ln := { l with phase := l.afterBrief } })
    ∧ (l.phase = .awaitNod → l.tries < 3 → setsPort (.nodTimeout n) s n { p with ln := { l with phase := .retryWait } })
    ∧ (∀ g, l.phase = .awaitNod → 3 ≤ l.tries → l.cur = some (.own g) →
      setsPort (.nodTimeout n) s n { p with ln := { l with phase := .idle, cur := none, txfail := satInc l.txfail } })
    ∧ (∀ g, l.phase = .awaitNod → l.cur = some (.own g) → rxVerdict { p with ln := l0 } s.cc f = .pass g.ctx →
      hdrType f.hdr = 1 → f.objs = [] → hdrRev f.hdr = 1 → hdrId f.hdr = l.curId →
      setsPort (.nod n f) s n { p with ln := { l0 with phase := .idle, cur := none } })
    ∧ (∀ g, p.phyOn = true → l.phase = .retryWait → l.receiving = false → l.nodOwed = none → l.mark = none →
      l.cur = some (.own g) →
      (heldOff n g.objs.length s = false → setsPort (.txRetry n) s n { p with ln := { l with phase := .sending } })
      ∧ (heldOff n g.objs.length s = true → idles (.txRetry n) s))
    ∧ (p.isSource = true → p.cf.level = 0 →
      setsPort (.holdDone n) s n { p with ln := { l with holdStood := true, holdWait := false } })
    ∧ (l.nodOwed ≠ none → l.mark = none ∨ p.phyOn = false ∨ l.freeForMark = false →
      setsPort (.nodSend n) s n { p with ln := {
        l with nodOwed := none, notsupDue := none, own := l.notsupDue.toList ++ l.own
               phase := if l.phase = .idle ∨ l.phase = .retryWait then .sendingNod else l.phase } })
    ∧ (l.phase ≠ .awaitNod → idles (.nodTimeout n) s)
    ∧ (l.phase ≠ .sending → l.phase ≠ .sendingNod → idles (.frameSent n) s)
    ∧ (l.nodOwed = none → idles (.nodSend n) s))
  ∧ (∀ (s : State) (n : Port), s.settled →
    let p := s.port n
    let l := p.ln
    (∀ m, l.mark = some m → p.phyOn = true → l.freeForMark = true →
      let q : PortSt := { p with
        ln := { l with mark := none, markOnLine := some (markCode m), phase := .sendingMark, nodOwed := none, notsupDue := none
                       own := l.notsupDue.toList ++ l.own }
        wh := { p.wh with markPend := p.wh.markPend && !m.isOpen } }
      setsPort (.markStart n) s n q ∧ (l.nodOwed ≠ none → setsPort (.nodSend n) s n q))
    ∧ (l.mark = none → idles (.markStart n) s)
    ∧ (l.phase = .sendingMark → setsPort (.markEnd n) s n { p with ln := { l with markOnLine := none, phase := l.afterBrief } })
    ∧ (l.phase ≠ .sendingMark → idles (.markEnd n) s)
    ∧ (p.phyOn = true → setsPort (.grantMarkReceived n) s n { p with ln := { l with drop := satInc l.drop } })
    ∧ (p.phyOn = false → idles (.grantMarkReceived n) s ∧ idles (.frameSyncDetected n) s)
    ∧ (p.phyOn = true → l.phase ∉ [.sending, .sendingMark, .sendingNod] →
      setsPort (.frameSyncDetected n) s n { p with ln := { l with receiving := true } }))

/-- A frame that ends: without sync it is nothing; with a wrong CRC it counts in CRCERR; with a reserved addressee it is
dropped; with the RX ring full it counts in RXFULL; a duplicate is NODded and counted, and lies in no ring. A frame that passes
every check of R115 and asks for no answer of the PHY's own lies in the RX ring as it came, its ID is recorded, a NOD is owed,
and RX fires with its context. -/
def Obligations.ReceivedFramesAreChecked : Prop :=
  ∀ (s : State) (n : Port) (f : FrameRx) (at_ : Nat), s.settled → s.signals n = true → s.eventsOn = true → s.cc ≤ at_ →
    let p := s.port n
    let l : LineSt := { p.ln with receiving := false }
    let counts (l2 : LineSt) : Prop := answers (.frameReceived n f at_) s fun t =>
      t.cc = at_ ∧ t.port n = { p with ln := l2 } ∧ changesOnly [.clock, .port n] s t
    let whole : Prop := f.framing = true ∧ f.objs.length = hdrCount f.hdr
    hdrType f.hdr ≠ 1 →
    (p.phyOn = false ∨ f.sync = false → counts l)
    ∧ (p.phyOn = true → f.sync = true → ¬whole → counts { l with drop := satInc l.drop })
    ∧ (p.phyOn = true → f.sync = true → whole → f.crc ≠ frameCrc f.addr f.hdr f.objs →
      counts { l with crcerr := satInc l.crcerr })
    ∧ (p.phyOn = true → f.sync = true → whole → f.crc = frameCrc f.addr f.hdr f.objs → contextOf f.addr = none →
      counts { l with drop := satInc l.drop })
    ∧ (∀ c : Fin 12, rxVerdict { p with ln := l } at_ f = .pass c → l.rxCount = 16 →
      counts { l with rxfull := satInc l.rxfull })
    ∧ (∀ c : Fin 12, rxVerdict { p with ln := l } at_ f = .pass c → l.rxCount < 16 → hdrRev f.hdr = 1 →
      PortSt.ctxOpen { p with ln := l } c = true → typeDefined (hdrType f.hdr) = true →
      (isDuplicate l c (hdrId f.hdr) at_ = true → ¬(hdrType f.hdr = 0x0F ∧ (isW n = true ∨ n = portG)) →
        counts { l with nodOwed := some (BitVec.ofNat 4 c, hdrId f.hdr), notsupDue := none, dup := satInc l.dup })
      ∧ (isDuplicate l c (hdrId f.hdr) at_ = false → hdrType f.hdr ≠ 0x0F → isSwap (hdrType f.hdr) = false →
        let a := ringAddr (2 * n.val + 1) ((l.rxHead + l.rxCount) % 16)
        let start := if c.val = 0 then p.startFrame (hdrType f.hdr) else startType (hdrType f.hdr)
        let viol := p.isSource && decide (p.cf.level = 0) && l.startOut && start
        answers (.frameReceived n f at_) s fun t =>
          t.cc = at_
          ∧ t.port n = { p with ln := { l with
              nodOwed := some (BitVec.ofNat 4 c, hdrId f.hdr), notsupDue := none, rxCount := l.rxCount + 1
              ctxs := l.ctxs.set c { l.ctxs[c] with lastRx := some (hdrId f.hdr, at_) }
              sinkStart := l.sinkStart || (l.holdWait && start)
              holdviol := if viol then satInc l.holdviol else l.holdviol } }
          ∧ t.readMem a 80 = entryImage (BitVec.ofNat 16 (32768 + b2n viol * 16384)) c f.addr f.hdr t.timeUs f.objs f.crc
          ∧ logs s t (8 * n.val + 5) c ∧ changesOnly [.clock, .port n, .events, .mem a (a + 80)] s t))

/-- A frame that stands but has the wrong revision, a context not open or a type not defined, or is a RELAY on a port that has
none, is answered with a NOD and a NOTSUP that names its type, its ID and the reason; it does not reach the RX ring. RELAY on a
coupling port: a frame of class Xk with k at least 1 is copied into the other coupling port's TX ring in class X(k-1) with one
more hop counted; where it cannot go on, NODOWN goes back. A frame that has arrived in X0 and a NOTSUP lie in the RX ring for
the program, and change nothing more. -/
def Obligations.NotsupAndRelay : Prop :=
  (∀ (s : State) (n : Port) (f : FrameRx) (at_ : Nat) (c : Fin 12) (reason : Nat), s.settled → s.cc ≤ at_ →
    let p := s.port n
    let l : LineSt := { p.ln with receiving := false }
    let q : PortSt := { p with ln := l }
    hdrType f.hdr ≠ 1 → rxVerdict q at_ f = .pass c → l.rxCount < 16 →
    (reason = 3 ∧ hdrRev f.hdr ≠ 1) ∨ (reason = 2 ∧ hdrRev f.hdr = 1 ∧ q.ctxOpen c = false)
      ∨ (reason = 1 ∧ hdrRev f.hdr = 1 ∧ q.ctxOpen c = true ∧ typeDefined (hdrType f.hdr) = false)
      ∨ (reason = 5 ∧ hdrRev f.hdr = 1 ∧ q.ctxOpen c = true ∧ hdrType f.hdr = 0x0F ∧ (isW n = true ∨ n = portG)) →
    answers (.frameReceived n f at_) s fun t =>
      t.cc = at_
      ∧ t.port n = { p with ln := { l with
          nodOwed := some (BitVec.ofNat 4 c, hdrId f.hdr)
          notsupDue := some { ctx := c, type := 0x11, objs :=
            [place (hdrType f.hdr).toNat 27 ||| place (hdrId f.hdr).toNat 24 ||| place reason 20] } } }
      ∧ changesOnly [.clock, .port n] s t)
  ∧ (∀ (s : State) (n : Port) (m : Msg) (k : Fin 8), s.settled →
    let p := s.port n
    let o := relayOther n
    let q := s.port o
    let w := m.objs.headD 0
    let a := txSlot s o
    (n = portKU ∨ n = portKD → p.phyOn = true → 1 ≤ k.val → relayForwards s n k = true → q.ln.txCount < 16 →
      m.objs ≠ [] → m.objs.length ≤ 15 →
      answers (.relay n m k) s fun t =>
        t.port o = { q with ln := q.ln.pushed }
        ∧ t.readMem a 80 = entryImage 0x8000 (k.val + 3) (addrOf (k.val + 3)) (BitVec.ofNat 16 (0x7800 + m.objs.length)) 0
            (relayHop w :: m.objs.tail) 0
        ∧ changesOnly [.port o, .mem a (a + 80)] s t)
    ∧ (n = portKU ∨ n = portKD → p.phyOn = true → 1 ≤ k.val → relayForwards s n k = false →
      setsPort (.relay n m k) s n { p with ln := { p.ln with own := p.ln.own ++ [nodownFrame w] } })
    ∧ (k.val = 0 → idles (.relay n m k) s)
    ∧ idles (.notsup n m) s)

/-! ## Contracts -/

/-- Requests the manual denies on their face: each is answered with DENY, its reference object naming the request and the
reason. -/
def Obligations.RequestsAreDeniedByRule : Prop :=
  ∀ (s : State) (n : Port) (m : Msg), s.settled → s.policyOpen n = true →
    let p := s.port n
    let what := fld (m.objs.headD 0) 31 28
    let r := m.objs.headD 0
    let denies (c : Instr) (t : BitVec 5) (code : Nat) (ct : ContractSt) : Prop :=
      sendsMsg c s n false tDeny [refObj t m.id code 0] ct
    let deny (c : Instr) (t : BitVec 5) (code : Nat) : Prop := denies c t code p.ct
    let asked : ContractSt := { p.ct with askNewRun := false, capsNodded := p.ct.capsNodded || p.ct.isSeq .capsOut }
    let getsCaps := p.ct.isSeq .getcapsOut && decide (p.ct.lastReq.headD 0 >>> 28 = 1)
    (∀ ch, p.isSource = true ∨ m.role = false → deny (.caps n m ch) tCaps 0x05)
    ∧ (∀ ch, p.isSource = false → m.role = true → p.ct.seq ≠ none → getsCaps = false → deny (.caps n m ch) tCaps 0x04)
    ∧ (∀ ans, what = 1 → p.isSource = false → deny (.getcaps n m ans) tGetcaps 0x05)
    ∧ (∀ ans, ¬(what = 1 ∧ p.isSource = false) →
      (p.ct.seq ≠ none → deny (.getcaps n m ans) tGetcaps 0x04)
      ∧ (p.ct.seq = none → what = 0 ∨ 3 < what ∨ m.objs.length ≠ 1 → deny (.getcaps n m ans) tGetcaps 0x02))
    ∧ (p.isSource = false ∨ m.role = true → deny (.ask n m) tAsk 0x05 ∧ deny (.profile n m) tProfile 0x05)
    ∧ (p.isSource = true → m.role = false → p.ct.trans = true →
      denies (.ask n m) tAsk 0x04 asked ∧ deny (.profile n m) tProfile 0x04)
    ∧ (p.isSource = true → m.role = false → p.ct.trans = false → p.ct.seq = none →
      (posKnown p.ct.capsOut (askPos r) = false → denies (.ask n m) tAsk 0x03 asked)
      ∧ (posKnown p.ct.capsOut (askPos r) = true → askValid n p.ct.capsOut m.objs = false → denies (.ask n m) tAsk 0x02 asked)
      ∧ (posKnown p.ct.capsOut (askPos r) = true → askValid n p.ct.capsOut m.objs = true → p.mo.wet = true →
        aboveMvlim p.ripe (askVolt r) = true → denies (.ask n m) tAsk 0x08 asked)
      ∧ (isW n = false ∨ p.ct.state = .none → deny (.profile n m) tProfile 0x02))
    ∧ (∀ ch, s.isDmh16 = false → deny (.pswap n m ch) tPswap 0x06)
    ∧ (∀ ch, s.isDmh16 = true → p.ct.state = .none ∨ p.ct.state = .swap → deny (.pswap n m ch) tPswap 0x05)
    ∧ (∀ ch, s.isDmh16 = true → p.ct.state ≠ .none → p.ct.state ≠ .swap →
      (p.ripe.pswapen = false → deny (.pswap n m ch) tPswap 0x0A)
      ∧ (p.ripe.pswapen = true → swapBusy n s = true → deny (.pswap n m ch) tPswap 0x04)
      ∧ (p.ripe.pswapen = true → swapBusy n s = false → s.isFeed n = true → s.fd.gap = false → otherFeedCarries s = false →
        deny (.pswap n m ch) tPswap 0x07))
    ∧ (∀ ch, p.ripe.sswapen = false ∨ p.cf.csup ≠ 0 → deny (.sswap n m ch) tSswap 0x0A)
    ∧ (∀ ch, p.ripe.sswapen = true → p.cf.csup = 0 → swapBusy n s = true → deny (.sswap n m ch) tSswap 0x04)

/-- A sink keeps the CAPS it is sent and asks as its program chooses (DESIGN CHOICE, log entry 14); GETCAPS is answered with
what it names; a source repeats its CAPS until one is NODded; a request put off goes out again. A port that cannot receive, or
whose policy core a trap has halted, answers nothing. -/
def Obligations.CapsAndAsksAreSent : Prop :=
  ∀ (s : State) (n : Port) (m : Msg), s.settled →
    let p := s.port n
    let opened (k : SeqKind) (t : BitVec 5) : Option Seq :=
      some { kind := k, rtype := t, rid := m.id, phase := .requested, nodded := true }
    let kept : ContractSt := { p.ct with caps := m.objs, seq := none, waiting := [], getcapsDue := false }
    let what := fld (m.objs.headD 0) 31 28
    (s.policyOpen n = true → p.isSource = false → m.role = true → p.ct.seq = none → m.objs ≠ [] →
      setsPort (.caps n m .nothing) s n { p with ct := kept }
      ∧ (∀ pos v i, sendsMsg (.caps n m (.ask pos v i none)) s n false tAsk
          [place pos.toNat 28 ||| place v.toNat 17 ||| place i.toNat 8 ||| placeB false 7] { kept with seq := opened .capsIn tCaps })
      ∧ (∀ pos v i a b, sendsMsg (.caps n m (.ask pos v i (some (a, b)))) s n false tAsk
          [place pos.toNat 28 ||| place v.toNat 17 ||| place i.toNat 8 ||| placeB true 7, a, b]
          { kept with seq := opened .capsIn tCaps })
      ∧ (∀ code, sendsMsg (.caps n m (.deny code)) s n false tDeny [refObj tCaps m.id code.toNat 0] kept))
    ∧ (∀ ans, s.policyOpen n = true → p.ct.seq = none → m.objs.length = 1 →
      let answering : ContractSt := { p.ct with seq := opened .getcapsIn tGetcaps }
      (what = 1 → p.isSource = true → sendsMsg (.getcaps n m ans) s n false tCaps ans answering)
      ∧ (what = 2 → sendsMsg (.getcaps n m ans) s n false tStatus ans answering)
      ∧ (what = 3 → sendsMsg (.getcaps n m ans) s n false tInfo ans answering))
    ∧ (s.policyOpen n = true → p.isSource = true → p.ct.capsNodded = false → p.ct.capsSent < 10 →
      sendsMsg (.capsRepeat n) s n true tCaps (if p.ct.capsOut = [] then [defaultObject n p] else p.ct.capsOut) p.ct)
    ∧ (10 ≤ p.ct.capsSent → idles (.capsRepeat n) s)
    ∧ (∀ w, s.policyOpen n = true → p.ct.seq = none → (p.ct.waiting.find? fun w => w.due) = some w →
      sendsMsg (.retryWaitDone n) s n true w.type w.objs { p.ct with
        waiting := p.ct.waiting.map fun x => if x = w then { x with due := false } else x })
    ∧ ((p.ct.waiting.find? fun w => w.due) = none → idles (.retryWaitDone n) s)
    ∧ (s.policyOpen n = false → (∀ ch, idles (.caps n m ch) s) ∧ (∀ ans, idles (.getcaps n m ans) s) ∧ idles (.ask n m) s
      ∧ idles (.profile n m) s ∧ (∀ ch, idles (.pswap n m ch) s ∧ idles (.sswap n m ch) s) ∧ idles (.capsRepeat n) s)
    ∧ (p.partOpen = false → idles (.grant n m) s ∧ idles (.deny n m) s ∧ idles (.waitMessage n m) s ∧ idles (.abort n m) s
      ∧ (∀ b, idles (.ready n m b) s) ∧ (∀ b, idles (.bye n m b) s))

/-- A valid ASK that the books cover is granted: the program's RAISE makes the ledger hold the higher of the old grant and the
new, its grant record and journal say so, GRANT repeats the request with the slew rate, and the sequence stands open. One they
do not cover is denied with LEDGER, or put off with WAIT where power may yet come free (its ARG is open), the refusal is counted and
reported. PROFILE without objects takes a burst profile back: it
is granted, its token power to end at the GRANT's NOD. -/
def Obligations.AsksAndProfilesAreAnswered : Prop :=
  (∀ (s : State) (n : Port) (m : Msg), s.settled → s.eventsOn = true → s.policyOpen n = true →
    let p := s.port n
    let r := m.objs.headD 0
    let tok := askTok m.objs
    let new := powerUp (askVolt r) (askCur r)
    let h := max s.led.held[n] new
    let ring : Area := .mem (txSlot s n) (txSlot s n + 80)
    p.isSource = true → m.role = false → p.ct.seq = none → p.ct.trans = false → posKnown p.ct.capsOut (askPos r) = true →
    askValid n p.ct.capsOut m.objs = true → (p.mo.wet && aboveMvlim p.ripe (askVolt r)) = false → p.ln.txCount < 16 →
    m.objs.length ≤ 14 → s.postServed n →
    (raiseRefused s.led n new tok = false → p.wh.token = false →
      answers (.ask n m) s fun t =>
        t.led = (s.led.holding n h (max s.led.tokpwr[n] tok)).served n
        ∧ (t.port n).ct = { p.ct with
            seq := some { kind := .askIn, rtype := tAsk, rid := m.id, phase := .requested, nodded := true }
            newVolt := askVolt r, newIcont := askCur r, newProf := askProf r, newTok := tok, oldTok := s.led.tokpwr[n]
            slew := BitVec.ofNat 16 p.ripe.slew, askNewRun := false, tokAfter := none }
        ∧ queued s t n false tGrant (refObj tAsk m.id 0 p.ripe.slew :: m.objs)
        ∧ t.readMem (0x3000C100 + 16 * n.val) 8 =
            toBytesLE 2 h ++ toBytesLE 2 s.led.held[n] ++ toBytesLE 2 new ++ toBytesLE 2 (max s.led.tokpwr[n] tok)
        ∧ changesOnly [.port n, .led, .sources, ledgerArea, ring] s t)
    ∧ (raiseRefused s.led n new tok = true → powerMayFree n s = false →
      answers (.ask n m) s fun t =>
        t.led = { s.led with refuse := satInc s.led.refuse, jhead := (s.led.jhead + 1) % 32, lastServed := n.val }
        ∧ (t.port n).ct = { p.ct with seq := none, askNewRun := false } ∧ queued s t n false tDeny [refObj tAsk m.id 0x01 0]
        ∧ logs s t 140 (n.val + 0x10) ∧ changesOnly [.port n, .led, .events, ledgerArea, ring] s t)
    ∧ (raiseRefused s.led n new tok = true → powerMayFree n s = true →
      answers (.ask n m) s fun t =>
        t.led = { s.led with refuse := satInc s.led.refuse, jhead := (s.led.jhead + 1) % 32, lastServed := n.val }
        ∧ (t.port n).ct = { p.ct with seq := none, askNewRun := false }
        ∧ (∃ arg, arg < 65536 ∧ queued s t n false tWait [refObj tAsk m.id 0 arg])
        ∧ logs s t 140 (n.val + 0x10) ∧ changesOnly [.port n, .led, .events, .open_, ledgerArea, ring] s t))
  ∧ (∀ (s : State) (n : Port) (m : Msg), s.settled → s.policyOpen n = true →
    let p := s.port n
    p.isSource = true → m.role = false → m.objs = [] → p.ct.seq = none → p.ct.trans = false → isW n = true → p.ct.state ≠ .none →
    sendsMsg (.profile n m) s n false tGrant [refObj tProfile m.id 0 0] { p.ct with
      seq := some { kind := .profileIn, rtype := tProfile, rid := m.id, phase := .requested, nodded := true }
      newTok := 0, oldTok := s.led.tokpwr[n], newProf := false })

/-- GRANT to the open ASK begins the transition with the window that spans both contracts; to a profile it closes the sequence;
to a swap it moves the sequence on, and detach detection rests from the grant of a PSWAP on. An answer to nothing open of the
hub's, or one that does not repeat the request, is stale and counted, and one to an ASK or PROFILE is answered with ABORT STALE.
-/
def Obligations.GrantBeginsTheTransition : Prop :=
  ∀ (s : State) (n : Port) (m : Msg), s.settled → s.fedElsewhere n → (s.port n).partOpen = true →
    let p := s.port n
    let c := p.ct
    let r := c.lastReq.headD 0
    let w := windowOf n p.ripe false (askVolt r)
    let own (q : Seq) : Prop := c.seq = some q ∧ refType m.objs = q.rtype ∧ refId m.objs = q.rid ∧ m.objs.tail = c.lastReq
    (∀ q, own q → q.kind = .askOut → c.state ≠ .none ∨ p.isSource = false →
      setsPort (.grant n m) s n { p with ct := { c with
        waiting := c.others, trans := true, newVolt := askVolt r, newIcont := askCur r, newProf := askProf r, slewing := false
        first := false, window := if c.state = .none then w else Window.span (inForceWindow n p) w
        seq := some { q with phase := .granted } } })
    ∧ (∀ q, own q → q.kind = .profileOut →
      setsPort (.grant n m) s n { p with ct := { c with waiting := c.others, seq := none } })
    ∧ (∀ q, own q → q.kind = .pswapOut →
      setsPort (.grant n m) s n { p with
        ct := { c with waiting := c.others, seq := some { q with phase := .granted } }, cf := { p.cf with suspended := true } })
    ∧ (∀ q, own q → q.kind = .sswapOut →
      setsPort (.grant n m) s n { p with ct := { c with waiting := c.others, seq := some { q with phase := .granted } } })
    ∧ (c.awaits (refType m.objs) (refId m.objs) = false → refType m.objs = tAsk ∨ refType m.objs = tProfile →
      sendsMsg (.grant n m) s n false tAbort [refObj (refType m.objs) (refId m.objs) 0x03 0] { c with stale := satInc c.stale })
    ∧ (c.awaits (refType m.objs) (refId m.objs) = false → refType m.objs ≠ tAsk → refType m.objs ≠ tProfile →
      setsPort (.grant n m) s n { p with ct := { c with stale := satInc c.stale } })
    ∧ (c.awaits (refType m.objs) (refId m.objs) = true → m.objs.tail ≠ c.lastReq →
      setsPort (.grant n m) s n { p with ct := { c with stale := satInc c.stale } })

/-- DENY, WAIT and an answer that does not come close the open request: WAIT schedules it again until NWAIT, which counts in
WAITOUT; a request no one answers counts in TIMEOUT, a CAPS that had its NOD does not. INFO and STATUS close the GETCAPS they
answer. An answer to nothing open, or with more than its reference object, is stale; the DENY of a swap that the source's
request overtook ends that swap. -/
def Obligations.AnswersCloseTheRequest : Prop :=
  ∀ (s : State) (n : Port) (m : Msg), s.settled → s.isFeed n = false →
    let p := s.port n
    let c := p.ct
    let sets (i : Instr) (c2 : ContractSt) : Prop := setsPort i s n { p with ct := c2 }
    let closes (i : Instr) (c2 : ContractSt) : Prop := setsPort i s n { p.resumed with ct := { c2 with seq := none } }
    let heard : ContractSt := { c with capsNodded := c.capsNodded || c.isSeq .capsOut }
    let mine := c.awaits (refType m.objs) (refId m.objs)
    let crossed := c.overtook (refType m.objs) (refId m.objs)
    (p.partOpen = true → mine = true → m.objs.length = 1 →
      closes (.deny n m) { heard with waiting := c.others }
      ∧ (p.ripe.nwait ≤ c.waits + 1 →
        closes (.waitMessage n m) { heard with waiting := c.others, waitout := satInc c.waitout })
      ∧ (c.waits + 1 < p.ripe.nwait →
        closes (.waitMessage n m) { heard with
          waiting := c.others ++ [{ type := c.lastType, objs := c.lastReq, count := c.waits + 1, due := true }] }))
    ∧ (p.partOpen = true → mine = false → crossed = true → m.objs.length = 1 →
      sets (.deny n m) { c with ownSwap := none } ∧ sets (.waitMessage n m) { c with ownSwap := none })
    ∧ (p.partOpen = true → mine = false ∧ crossed = false ∨ m.objs.length ≠ 1 →
      sets (.deny n m) { c with stale := satInc c.stale } ∧ sets (.waitMessage n m) { c with stale := satInc c.stale })
    ∧ (∀ q, c.seq = some q →
      (q.phase ≠ .requested → idles (.answerTimeout n) s)
      ∧ (q.phase = .requested → q.kind = .capsOut →
        closes (.answerTimeout n) { c with timeout := if q.nodded = true then c.timeout else satInc c.timeout })
      ∧ (q.phase = .requested → q.kind ∈ [.capsIn, .getcapsIn] → closes (.answerTimeout n) c)
      ∧ (q.phase = .requested → q.kind ∈ [.getcapsOut, .askOut, .profileOut, .pswapOut, .sswapOut] →
        closes (.answerTimeout n) { c with timeout := satInc c.timeout })
      ∧ (q.phase = .requested → q.kind ∈ [.askIn, .profileIn, .pswapIn, .sswapIn] → idles (.answerTimeout n) s))
    ∧ (c.seq = none → idles (.answerTimeout n) s ∧ idles (.info n m) s ∧ idles (.statusMessage n m) s)
    ∧ (p.partOpen = true → c.isSeq .getcapsOut = true →
      (fld (c.lastReq.headD 0) 31 28 = 3 → m.objs ≠ [] → closes (.info n m) { c with waiting := c.others })
      ∧ (fld (c.lastReq.headD 0) 31 28 = 3 → m.objs = [] → sets (.info n m) { c with stale := satInc c.stale })
      ∧ (fld (c.lastReq.headD 0) 31 28 = 2 → m.objs ≠ [] → closes (.statusMessage n m) { c with waiting := c.others })
      ∧ (fld (c.lastReq.headD 0) 31 28 = 2 → m.objs = [] → sets (.statusMessage n m) { c with stale := satInc c.stale }))

/-- READY from the source puts the new contract in force at the sink, with its window alone; READY of the hub as source does the
same and settles the ledger at the new grant. CONTRACT reports the change, and the discharge of a falling slew ends. -/
def Obligations.ReadyPutsTheContractInForce : Prop :=
  ∀ (s : State) (n : Port) (m : Msg), s.settled → s.signals n = true → s.eventsOn = true → s.fedElsewhere n →
    let p := s.port n
    let c := p.ct
    let new := powerUp c.newVolt c.newIcont
    let led : LedgerSt := s.led.holding n new (c.newTok % 65536)
    let inForce (src : Bool) : ContractSt := { c with
      state := .negotiated, volt := c.newVolt, icont := c.newIcont, asSource := src, trans := false, slewing := false
      narrowing := false, prof := false, seq := none, first := false, profGranted := c.newProf
      window := windowOf n p.ripe false c.newVolt }
    p.partOpen = true → c.trans = true → c.volt ≠ c.newVolt → ∀ q, c.seq = some q → refType m.objs = q.rtype →
    refId m.objs = q.rid → m.objs.length = 1 →
    (q.kind = .askOut → p.isSource = false →
      setsPortFires (.ready n m false) s n { p.unslewed with ct := inForce false } (8 * n.val + 1) 2)
    ∧ (q.kind = .askIn → p.isSource = true → p.wh.token = false → s.postServed n → led.grantSum + led.tokRes ≤ led.avail →
      answers (.ready n m true) s fun t =>
        t.port n = { p.unslewed with ct := { inForce true with tokAfter := none } } ∧ t.led = led.served n
        ∧ logs s t (8 * n.val + 1) 2 ∧ changesOnly [.port n, .led, .events, ledgerArea] s t)

/-- The steps between GRANT and READY: the source begins its slew, discharging where it falls; its output having stood at the
new voltage, it sends READY with the voltage measured; without READY the sink returns to its old window, and the source switches
off with BYE TRANSFAIL. The old source of a PSWAP switches its output off, and sends READY at once where it is off already; the
supplier of an SSWAP switches CSUP off and sends READY. The window of a fall to the default contract narrows in its time, and a
sink that does not ask again is sent BYE. -/
def Obligations.TransitionsRunAndFail : Prop :=
  ∀ (s : State) (n : Port), s.settled → s.fedElsewhere n →
    let p := s.port n
    let c := p.ct
    (∀ q, c.seq = some q → q.phase = .granted →
      let acting : Option Seq := some { q with phase := .acting }
      (q.kind = .askIn →
        setsPort (.slewStart n) s n { p with
          ct := { c with slewing := !c.firstContract, seq := acting }
          pw := { p.pw with discharging := p.pw.discharging
                    || (!c.firstContract && decide (c.newVolt.toNat < c.volt.toNat) && decide (p.pw.sw ≠ .disch)) } })
      ∧ (q.kind = .sswapIn ∨ q.kind = .sswapOut → p.cf.csupOn = true →
        sendsAs (.slewStart n) s n false tReady [refObj tSswap q.rid 0 0] { p with
          cf := { p.cf with csupOn := false }, ct := { c with seq := acting } })
      ∧ (q.kind = .pswapIn ∨ q.kind = .pswapOut → p.isSource = true → p.pw.sw = .off → s.led.held[n] = 0 →
        sendsMsg (.slewStart n) s n false tReady [refObj tPswap q.rid 0 (p.pw.vPort / 10)] { c with seq := acting })
      ∧ (q.kind = .pswapIn ∨ q.kind = .pswapOut → p.isSource = true → p.pw.sw = .on → p.pw.pg = false → s.noneWaits →
        n ≠ portB →
        setsPort (.slewStart n) s n { p with
          pw := { p.pw with sw := .disch, after := .off, discharging := true, startHeld := false }
          ct := { c with seq := acting } }))
    ∧ (c.seq = none → idles (.slewStart n) s ∧ (∀ mv, idles (.readyHoldDone n mv) s))
    ∧ (∀ q mv, c.seq = some q → q.kind = .askIn → q.phase = .acting → within3 mv c.newVolt = true →
      sendsMsg (.readyHoldDone n mv) s n false tReady [refObj tAsk q.rid 0 (mv / 10)] c)
    ∧ (∀ q mv, c.seq = some q → q.kind = .pswapIn ∨ q.kind = .pswapOut → q.phase = .ready1 → p.isSource = true →
      within3 mv p.ripe.defaultContract.1 = true →
      sendsMsg (.readyHoldDone n mv) s n false tReady [refObj tPswap q.rid 0 (mv / 10)] c)
    ∧ (∀ q, c.trans = true → c.seq = some q → q.kind = .askOut → c.firstContract = false →
      setsPort (.transTimeout n) s n { p.unslewed with ct := { c with
        transfail := satInc c.transfail, trans := false, slewing := false, newProf := false, seq := none, first := false
        window := inForceWindow n p } })
    ∧ (∀ q, c.trans = true → c.seq = some q → q.kind = .askIn → p.pw.sw = .on → p.pw.pg = false → s.noneWaits →
      n ≠ portB →
      sendsAs (.transTimeout n) s n false tBye [refObj 0 0 0x10 0] { p with
        pw := { p.pw with sw := .disch, after := .off, discharging := true, startHeld := false }
        ct := { c with transfail := satInc c.transfail, seq := none, slewing := false, trans := false } })
    ∧ (c.trans = false → idles (.transTimeout n) s)
    ∧ (c.narrowing = true →
      setsPort (.defaultWindowNarrow n) s n { p.unslewed with ct := {
        c with narrowing := false, slewing := false, window := windowOf n p.ripe true c.volt } })
    ∧ (c.narrowing = false → idles (.defaultWindowNarrow n) s)
    ∧ (c.askNewRun = true → p.isSource = true → p.partOpen = true →
      sendsMsg (.askNewTimeout n) s n false tBye [refObj 0 0 0x17 1] { c with askNewRun := false })
    ∧ (c.askNewRun = false → idles (.askNewTimeout n) s)

/-- BYE: with DEFAULT clear the contract ends and the switch opens; with DEFAULT set both ends fall to their default contract
with the window that spans both, the source slewing and settling its grant. ABORT returns a sink's transition to the old
contract, and closes any other request of the hub; one that belongs to nothing open is stale. -/
def Obligations.ByeAndAbortUndo : Prop :=
  ∀ (s : State) (n : Port) (m : Msg) (b : Bool), s.settled → s.signals n = true → s.eventsOn = true → s.fedElsewhere n →
    let p := s.port n
    let c := p.ct
    let d := p.ripe.defaultContract
    let led : LedgerSt := s.led.holding n (powerUp d.1 d.2) 0
    let fallen (src : Bool) : ContractSt := { c with
      state := .default, volt := d.1, icont := d.2, asSource := src, trans := false, prof := false, newProf := false
      slewing := src, slew := BitVec.ofNat 16 p.ripe.slew, seq := none, narrowing := true, first := false, profGranted := false
      ownSwap := none, window := Window.span c.window (windowOf n p.ripe true d.1) }
    p.partOpen = true → p.wh.burstOpen = false →
    (c.state = .negotiated → refArg m.objs % 2 = 0 → p.pw.sw = .on → p.pw.pg = false → s.noneWaits →
      answers (.bye n m b) s fun t =>
        (t.port n).ct = { c with
          state := .none, volt := 0, icont := 0, asSource := false, trans := false, prof := false, newProf := false
          slewing := false, seq := none, narrowing := false, askNewRun := false, first := false, profGranted := false
          ownSwap := none }
        ∧ (t.port n).pw = { p.pw with sw := .disch, after := .off, discharging := true, startHeld := false }
        ∧ logs s t (8 * n.val + 1) 0 ∧ changesOnly [.port n, .events] s t)
    ∧ (c.state = .negotiated → refArg m.objs % 2 = 1 → p.isSource = false →
      setsPortFires (.bye n m b) s n { p.resumed with ct := fallen false } (8 * n.val + 1) 1)
    ∧ (c.state = .negotiated → refArg m.objs % 2 = 1 → p.isSource = true → p.wh.token = false → s.postServed n →
      led.grantSum + led.tokRes ≤ led.avail →
      answers (.bye n m b) s fun t =>
        t.port n = { p.resumed with
          ct := { fallen true with tokAfter := none }
          pw := { p.pw with discharging := p.pw.discharging
                    || (decide (d.1.toNat < c.volt.toNat) && decide (p.pw.sw ≠ .disch)) } }
        ∧ t.led = led.served n ∧ logs s t (8 * n.val + 1) 1 ∧ changesOnly [.port n, .led, .events, ledgerArea] s t)
    ∧ (c.state = .none ∨ c.state = .legacy → setsPort (.bye n m b) s n { p.resumed with ct := { c with seq := none } })
    ∧ (∀ q, c.seq = some q → q.rtype = refType m.objs → q.rid = refId m.objs → m.objs.length = 1 → q.phase = .requested ∨ q.phase = .granted →
      (q.kind = .askOut → c.trans = true → c.firstContract = false →
        setsPort (.abort n m) s n { p.unslewed with ct := { c with
          waiting := c.others, trans := false, slewing := false, newProf := false, seq := none, first := false
          window := inForceWindow n p } })
      ∧ (q.kind = .askOut ∧ c.trans = false ∨ q.kind ∈ [.profileOut, .pswapOut, .sswapOut, .getcapsOut, .capsOut] →
        setsPort (.abort n m) s n { p.resumed with ct := { c with waiting := c.others, seq := none } })
      ∧ (q.kind ∈ [.pswapIn, .sswapIn, .capsIn, .getcapsIn] →
        setsPort (.abort n m) s n { p.resumed with ct := { c with seq := none } }))
    ∧ (c.answers (refType m.objs) (refId m.objs) = false ∨ m.objs.length ≠ 1 →
      setsPort (.abort n m) s n { p with ct := { c with stale := satInc c.stale } })

/-- Swaps: a PSWAP or SSWAP the program grants is answered with GRANT and stands open, one it denies with POLICY; at READY of a
PSWAP the roles change places with the contract gone, the new source's RAISE for its default contract is served, and SWAP fires;
at the new source's READY the default contract is in force; an SSWAP ends with CSUP changed over. A side that misses its time is
left as the manual says. -/
def Obligations.SwapsExchangeRoles : Prop :=
  ∀ (s : State) (n : Port) (m : Msg), s.settled → s.signals n = true → s.eventsOn = true → s.fedElsewhere n →
    let p := s.port n
    let c := p.ct
    let d := p.ripe.defaultContract
    let newSeq (k : SeqKind) (t : BitVec 5) : ContractSt := { c with
      ownSwap := if p.swapOpen = true then c.seq else c.ownSwap
      seq := some { kind := k, rtype := t, rid := m.id, phase := .requested, nodded := true } }
    let byType : Prop := c.answers (refType m.objs) (refId m.objs) = true ∧ m.objs.length = 1
    p.partOpen = true →
    (s.policyOpen n = true → s.isDmh16 = true → c.state ≠ .none → c.state ≠ .swap → p.ripe.pswapen = true →
      swapBusy n s = false → s.fd.planned = false →
      sendsMsg (.pswap n m .grant) s n false tGrant [refObj tPswap m.id 0 0] (newSeq .pswapIn tPswap)
      ∧ (∀ ms, sendsMsg (.pswap n m (.wait ms)) s n false tGrant [refObj tPswap m.id 0 0] (newSeq .pswapIn tPswap))
      ∧ sendsMsg (.pswap n m .deny) s n false tDeny [refObj tPswap m.id 0x0A 0] c)
    ∧ (s.policyOpen n = true → p.ripe.sswapen = true → p.cf.csup = 0 → swapBusy n s = false →
      sendsMsg (.sswap n m .grant) s n false tGrant [refObj tSswap m.id 0 0] (newSeq .sswapIn tSswap)
      ∧ (∀ ms, sendsMsg (.sswap n m (.wait ms)) s n false tGrant [refObj tSswap m.id 0 0] (newSeq .sswapIn tSswap))
      ∧ sendsMsg (.sswap n m .deny) s n false tDeny [refObj tSswap m.id 0x0A 0] c)
    ∧ (∀ q, c.seq = some q → byType → q.kind = .pswapIn ∨ q.kind = .pswapOut → p.isSource = false →
      (q.phase = .granted → c.state = .negotiated → p.wh.burstOpen = false → p.wh.token = false → p.pw.sw = .off →
        s.led.held[n] = 0 → s.raiseServed n (powerUp d.1 d.2) →
        answers (.ready n m false) s fun t =>
          (t.port n).cf.attach = .attachedSrc ∧ (t.port n).cf.asSource = true ∧ (t.port n).cf.suspended = p.cf.suspended
          ∧ (t.port n).cf.level = 0 ∧ (t.port n).ct.state = .swap ∧ (t.port n).ct.volt = 0 ∧ (t.port n).ct.icont = 0
          ∧ (t.port n).ct.asSource = true ∧ (t.port n).ct.seq = some { q with phase := .ready1 }
          ∧ (t.port n).pw = p.pw ∧ (t.port n).st = p.st
          ∧ t.led = (s.led.holding n (powerUp d.1 d.2) s.led.tokpwr[n]).served n
          ∧ reports s t [(8 * n.val + 1, 4), (8 * n.val + 7, 0)] ∧ changesOnly [.port n, .led, .events, ledgerArea] s t)
      ∧ (q.phase = .ready1 → c.state = .swap →
        setsPortFires (.ready n m false) s n { p with ct := { c with
          state := .default, volt := d.1, icont := d.2, asSource := false, seq := none } } (8 * n.val + 1) 1))
    ∧ (∀ q, c.seq = some q → byType → q.kind = .sswapIn ∨ q.kind = .sswapOut →
      (q.phase = .ready1 →
        setsPortFires (.ready n m true) s n { p with
          cf := { p.cf with csupOn := true, csupIn := false, csupSwapped := !p.cf.csupSwapped }, ct := { c with seq := none } }
          (8 * n.val + 7) 1)
      ∧ (q.phase = .gaveReady →
        setsPortFires (.ready n m false) s n { p with
          cf := { p.cf with csupOn := false, csupIn := true, csupSwapped := !p.cf.csupSwapped }, ct := { c with seq := none } }
          (8 * n.val + 7) 1)
      ∧ (q.phase = .acting → setsPort (.ready n m true) s n { p with ct := { c with seq := some { q with phase := .gaveReady } } })
      ∧ (q.phase = .granted → p.cf.csupOn = false →
        sendsMsg (.ready n m false) s n false tReady [refObj tSswap q.rid 0 0] { c with
          seq := some { q with phase := .ready1 } }))
    ∧ (∀ q, c.seq = some q → q.kind = .pswapIn ∨ q.kind = .pswapOut →
      (q.phase = .acting → p.isSource = true → p.pw.sw = .disch →
        sendsAs (.swapOffTimeout n) s n false tBye [refObj 0 0 0x15 0] { p.resumed with ct := { c with seq := none } })
      ∧ (q.phase = .ready1 → p.isSource = false → c.state = .swap → p.ln.txCount < 16 →
        answers (.swapOnTimeout n) s fun t =>
          (t.port n).ct = { c with state := .none, volt := 0, icont := 0, asSource := false, seq := none }
          ∧ queued s t n false tBye [refObj 0 0 0x10 0] ∧ logs s t (8 * n.val + 1) 0
          ∧ changesOnly [.port n, .events, .mem (txSlot s n) (txSlot s n + 80)] s t))
    ∧ (∀ q, c.seq = some q → q.kind = .sswapIn ∨ q.kind = .sswapOut → q.phase ≠ .requested →
      setsPort (.sswapTimeout n) s n { p with
        cf := { p.cf with csupOn := false, csupTrips := 2 }, ct := { c with seq := none } })
    ∧ (c.seq = none → idles (.swapOffTimeout n) s ∧ idles (.swapOnTimeout n) s ∧ idles (.sswapTimeout n) s)

/-! ## The ledger -/

/-- The pending operation of a port's request slot: RAISE holds the higher of its request and the grant unless the books cannot
cover it, SETTLE and RELEASE are never refused; the slot shows DONE and the result, the grant record and the journal the grant,
LED.OUT the operation a SERVE asked for, and PC0 hears of a W port's slot. A slot that is not pending does nothing, nor does one
while a trap has halted PC1 with no SERVE of it under way. -/
def Obligations.LedgerOperationsKeepTheBooks : Prop :=
  ∀ (s : State) (n : Port), s.settled →
    let ctl := slotCtl n s
    let old := s.led.held[n]
    let new := memNat s.mem (slotAddr n + 2) 2
    let tok := memNat s.mem (slotAddr n + 4) 2
    let serving := (s.core corePC1).ledServe.find? fun x => decide (x.2 = n)
    let rec_ : Area := .mem (0x3000C100 + 16 * n.val) (0x3000C110 + 16 * n.val)
    let served (op r : Nat) (asked : Nat) (l : LedgerSt) (more : List Area) (t : State) : Prop :=
      t.led = { l with jhead := (s.led.jhead + 1) % 32, lastServed := n.val }
      ∧ t.readMem (slotAddr n) 2 = toBytesLE 2 (setFld (setFld (setFld ctl 15 15 0) 14 14 1) 11 8 r).toNat
      ∧ (r = 1 → t.readMem (0x3000C100 + 16 * n.val) 8 =
          toBytesLE 2 l.held[n] ++ toBytesLE 2 old ++ toBytesLE 2 asked ++ toBytesLE 2 l.tokpwr[n])
      ∧ t.readMem (0x3000C200 + 16 * (s.led.jhead % 32)) 6 =
          toBytesLE 2 (n.val * 4096 + op * 1024 + r * 256) ++ toBytesLE 2 l.held[n] ++ toBytesLE 2 l.grantSum
      ∧ (isW n = true → bitOf (t.core corePC0).evtPend 12 = true)
      ∧ (∀ x, serving = some x →
          (t.core corePC1).ledOut = (if x.1 < (s.core corePC1).startCc + 12 then (s.core corePC1).ledOut
            else place n.val 0 ||| place r 4 ||| place l.held[n] 16)
          ∧ (t.core corePC1).ledServe = (s.core corePC1).ledServe.erase x)
      ∧ (t.port n).ct = (if r = 1 then { (s.port n).ct with tokAfter := none } else (s.port n).ct)
      ∧ changesOnly (more ++ [.port n, .led, .events, .mem (slotAddr n) (slotAddr n + 2),
          .mem (0x3000C200 + 16 * (s.led.jhead % 32)) (0x3000C210 + 16 * (s.led.jhead % 32))]
          ++ if serving = none then [] else [.core corePC1]) s t
    let with_ (h k : Nat) : LedgerSt := { s.led with
      held := s.led.held.set n h, tokpwr := s.led.tokpwr.set n k, shedRun := false, excursion := false }
    (bitOf ctl 15 = false ∨ (s.pc1Serves = false ∧ serving = none) →
      idles (.raise n) s ∧ idles (.settle n) s ∧ idles (.release n) s)
    ∧ ((s.port n).wh.token = false → bitOf ctl 15 = true → s.pc1Serves = true ∨ serving ≠ none →
    (fld ctl 13 12 = 0 → raiseRefused s.led n new tok = false →
      answers (.raise n) s fun t => served 0 1 new (with_ (max old new) (max s.led.tokpwr[n] tok)) [rec_] t ∧ reports s t [])
    ∧ (fld ctl 13 12 = 0 → raiseRefused s.led n new tok = true → s.eventsOn = true →
      answers (.raise n) s fun t =>
        served 0 2 new { s.led with refuse := satInc s.led.refuse } [] t ∧ logs s t 140 (n.val + 0x10))
    ∧ (fld ctl 13 12 = 1 → (with_ new tok).grantSum + (with_ new tok).tokRes ≤ s.led.avail →
      answers (.settle n) s fun t => served 1 1 new (with_ new tok) [rec_] t ∧ reports s t [])
    ∧ (fld ctl 13 12 = 2 → (with_ 0 0).grantSum + (with_ 0 0).tokRes ≤ s.led.avail →
      answers (.release n) s fun t => served 2 1 0 (with_ 0 0) [rec_] t ∧ reports s t [])
    ∧ (fld ctl 13 12 ≠ 0 → idles (.raise n) s) ∧ (fld ctl 13 12 ≠ 1 → idles (.settle n) s)
    ∧ (fld ctl 13 12 ≠ 2 → idles (.release n) s))

/-- The token pool, RESERVE with SHEDMARGIN, and tSHED: TOKENS above 12, or raised beyond what the books cover, is refused and
the pool stays; an accepted value that fits clears CUT, a smaller pool that does not yet fit is taken all the same; LEDCTL moves
AVAIL and HARD, and is refused with RESERVE below SHEDMARGIN; at tSHED with the sum still too high CUT is set, and ports are
shed until the rest fits or no port with a grant is left on. -/
def Obligations.TokensReserveAndShedding : Prop :=
  ∀ (s : State) (w : Writer) (k : BitVec 4) (v : Word), s.settled →
    let need := s.led.grantSum + k.toNat * s.led.tokPwrMax
    let taken : LedgerSt := { s.led with tokens := k, cut := false, shedRun := false, excursion := false }
    let refused : LedgerSt := { s.led with refuse := satInc s.led.refuse }
    let tokw : List (Nat × BitVec 4) := (s.core corePC1).ledTokw.eraseP fun x => decide (x.2 = k)
    let tokr (x : Word) : Word :=
      if ((s.core corePC1).ledTokw.find? fun x => decide (x.2 = k)).any fun x => decide (x.1 < (s.core corePC1).startCc + 4)
      then (s.core corePC1).ledTokr else x
    let power := if s.fd.feed = .none then 0 else s.powerOf s.fd.feed
    let avail := power - fld v 31 16
    (k.toNat ≤ 12 → need ≤ s.led.avail →
      (w ≠ .core corePC1 → answers (.tokensWrite w k) s fun t => t.led = taken ∧ changesOnly [.led] s t)
      ∧ (w = .core corePC1 → answers (.tokensWrite w k) s fun t =>
          t.led = taken
          ∧ t.core corePC1 = { s.core corePC1 with ledTokr := tokr (placeB true 0 ||| placeB s.led.cut 1), ledTokw := tokw }
          ∧ changesOnly [.led, .core corePC1] s t))
    ∧ (k.toNat ≤ 12 → s.led.tokens.toNat < k.toNat → s.led.avail < need → s.eventsOn = true →
      (w ≠ .core corePC1 → answers (.tokensWrite w k) s fun t =>
        t.led = refused ∧ logs s t 140 0x2F ∧ changesOnly [.led, .events] s t)
      ∧ (w = .core corePC1 → answers (.tokensWrite w k) s fun t =>
        t.led = refused ∧ (t.core corePC1).ledTokr = tokr 0 ∧ logs s t 140 0x2F ∧ changesOnly [.led, .core corePC1, .events] s t))
    ∧ (k.toNat ≤ 12 → k.toNat ≤ s.led.tokens.toNat → s.led.avail < need → answers (.tokensWrite w k) s fun t =>
        t.led.tokens = k ∧ t.led.held = s.led.held ∧ (s.led.cut = true → t.led.cut = true)
        ∧ changesOnly [.led, .anyPort, .core corePC1, .events] s t)
    ∧ (12 < k.toNat →
      (w ≠ .core corePC1 → refusesWrite (.tokensWrite w k) s w 2)
      ∧ (w = .core corePC1 → s.eventsOn = true → answers (.tokensWrite w k) s fun t =>
        t.led = refused ∧ (t.core corePC1).ledTokr = tokr 0 ∧ logs s t 140 0x2F ∧ changesOnly [.led, .core corePC1, .events] s t))
    ∧ (fld v 31 16 < fld v 15 4 → refusesWrite (.ledctlWrite w v) s w 2)
    ∧ (fld v 15 4 ≤ fld v 31 16 → s.led.grantSum + s.led.tokRes ≤ avail →
      answers (.ledctlWrite w v) s fun t =>
        t.led = { s.led with
          ledctl := v &&& 0xFFFFFFF0, avail := avail, hard := power - fld v 15 4, shedRun := false, excursion := false }
        ∧ t.led.reserve = fld v 31 16 ∧ t.led.shedMargin = fld v 15 4 ∧ changesOnly [.led] s t)
    ∧ (s.led.shedRun = true → s.led.grantSum + s.led.tokRes ≤ s.led.avail →
      answers .shedTimeout s fun t => t.led = { s.led with shedRun := false } ∧ changesOnly [.led] s t)
    ∧ (s.led.shedRun = true → s.led.avail < s.led.grantSum + s.led.tokRes →
      answers .shedTimeout s fun t =>
        t.led.cut = true ∧ t.led.shedRun = false ∧ t.led.held = s.led.held ∧ t.led.avail = s.led.avail
        ∧ (t.liveSum ≤ s.led.avail ∨ nextShed t = none)
        ∧ t.led.excursion = (s.led.excursion && decide (s.led.avail < t.liveSum))
        ∧ changesOnly [.led, .anyPort, .events] s t)
    ∧ (s.led.shedRun = false → idles .shedTimeout s)

/-- Contract power in ledger units of 100 mW: voltage in 50 mV units times current in 100 mA units, divided by 20; a grant is
rounded up and a feed's contract power down, and the ledger takes a feed's power so. -/
def Obligations.ContractPowerIsRounded : Prop :=
  ∀ (v : BitVec 11) (i : BitVec 9) (s : State),
    (20 * powerUp v i < v.toNat * i.toNat + 20 ∧ v.toNat * i.toNat ≤ 20 * powerUp v i)
    ∧ (20 * powerDown v i ≤ v.toNat * i.toNat ∧ v.toNat * i.toNat < 20 * powerDown v i + 20)
    ∧ ((s.port portKU).cf.attach ≠ .legacy → (s.port portKU).ct.state = .negotiated → (s.port portKU).ct.trans = false →
        (s.port portKU).ct.volt = v → (s.port portKU).ct.icont = i → s.powerOf .ku = powerDown v i)
    ∧ (∀ (n : Port) (m : Msg), s.settled → s.policyOpen n = true → s.postServed n → (s.port n).isSource = true → m.role = false →
        (s.port n).ct.seq = none → (s.port n).ct.trans = false → ((s.port n).mo.wet && aboveMvlim (s.port n).ripe v) = false → (s.port n).wh.token = false →
        posKnown (s.port n).ct.capsOut (askPos (m.objs.headD 0)) = true → askValid n (s.port n).ct.capsOut m.objs = true →
        askVolt (m.objs.headD 0) = v → askCur (m.objs.headD 0) = i →
        raiseRefused s.led n (powerUp v i) (askTok m.objs) = false →
        answers (.ask n m) s fun t => t.led.held = s.led.held.set n (max s.led.held[n] (powerUp v i)))

/-! ## Switches -/

/-- START, STOP and READMIT from the port's policy core, SV or the host, and from no other core: START holds in an off-time and
a discharge, is refused with its reason, on a stuck switch too, or clears HS and begins the pre-charge of a seated port, else
waits for the seat; STOP opens the switch and ends the retries; READMIT takes FAILED back. -/
def Obligations.StartStopAndReadmit : Prop :=
  ∀ (s : State) (n : Port) (w : Writer), s.settled → s.has n = true →
    let p := s.port n
    let sets (c : Instr) (q : PowerSt) : Prop := setsPort c s n { p with pw := q }
    (writerPolicy w n = true →
      (p.pw.sw = .on ∨ p.pw.sw = .wait ∨ p.pw.sw = .prechg ∨ p.pw.sw = .ramp → idles (.swctlStart n w) s)
      ∧ (p.pw.sw = .offtime ∨ (p.pw.sw = .disch ∧ p.pw.stuck = false) →
          sets (.swctlStart n w) { p.pw with startHeld := true })
      ∧ (p.pw.sw = .disch → p.pw.stuck = true → sets (.swctlStart n w) { p.pw with refused := true, reason := 1 })
      ∧ (∀ r, p.pw.sw = .off ∨ p.pw.sw = .giveup → startReason s n = some r →
          sets (.swctlStart n w) { p.pw with refused := true, reason := r })
      ∧ (p.pw.sw = .off ∨ p.pw.sw = .giveup → startReason s n = none → s.noneWaits →
          (∀ m, sameGroup m n = true → (s.port m).pw.starting = false) →
          setsPort (.swctlStart n w) s n { p with
            st := { p.st with hs := false }
            pw := { p.pw with
              sw := if p.pw.settled = true then .prechg else .wait
              preStart := if p.pw.settled = true then s.cc else p.pw.preStart
              startHeld := false, retryLeft := p.ripe.retry, retrying := false, onReached := false } })
      ∧ (p.pw.starting = true ∨ p.pw.sw = .wait ∨ p.pw.sw = .on → (∀ m, m ≠ n → (s.port m).pw.sw ≠ .wait) → p.pw.pg = false →
          sets (.swctlStop n w) { p.pw with
            sw := .disch, after := .off, discharging := decide (n ≠ portB), startHeld := false })
      ∧ (p.pw.sw = .offtime → sets (.swctlStop n w) { p.pw with sw := .off, startHeld := false })
      ∧ (p.pw.sw = .disch → sets (.swctlStop n w) { p.pw with after := .off, startHeld := false })
      ∧ (p.pw.sw = .off ∨ p.pw.sw = .giveup → idles (.swctlStop n w) s)
      ∧ (p.pw.failed = true → s.fd.feed ≠ .none →
          setsPort (.readmit n w) s n { p with
            pw := { p.pw with failed := false, sw := if p.pw.sw = .giveup then .off else p.pw.sw }
            st := { p.st with hs := false, force := p.st.force.filter fun x => x != .trip && x != .hardShort } })
      ∧ (p.pw.failed = false → idles (.readmit n w) s))
    ∧ (writerPolicy w n = false →
      refusesWrite (.swctlStart n w) s w 2 ∧ refusesWrite (.swctlStop n w) s w 2 ∧ refusesWrite (.readmit n w) s w 2)

/-- The breaker: a pre-charge beyond PRETIME and a fault timer at FTIME trip the port: force-off, the switch opens toward its
off-time or GIVEUP, TRIPCNT, FAULT with its cause, BYE to the partner, and the off-time from the on-attempt and DUTY; the failed
start of a first contract counts in TRANSFAIL and its BYE says TRANSFAIL (the model's reading, log entry 91); at the end of its
ramp a port is ON, and a retry has restored the default contract. -/
def Obligations.StartsEndOnOrTrip : Prop :=
  ∀ (s : State) (n : Port), s.settled → s.has n = true → s.eventsOn = true →
    let p := s.port n
    let d := p.ripe.defaultContract
    let trips (c : Instr) (cause bye us : Nat) : Prop :=
      s.isFeed n = false → p.st.force.contains .seatBreak = false → p.wh.burstOpen = false →
      p.phyOn = true → s.noneWaits → answers c s fun t =>
        t.port n = { p with
          st := if p.st.force.contains .hardShort = true then p.st else { p.st with
            force := if p.st.force.contains .trip then p.st.force else .trip :: p.st.force
            mode := .off, pendMode := none, prevMode := none, bypExit := none, bypBack := false, active := false }
          ct := { p.ct with transfail := if p.firstStart = true then satInc p.ct.transfail else p.ct.transfail }
          pw := { p.pw with
            sw := .disch, after := if s.retries n = true then .offtime else .giveup, discharging := decide (n ≠ portB)
            tripCnt := satInc p.pw.tripCnt, cause := BitVec.ofNat 4 cause, pg := false, startHeld := false
            offTimeUs := max 100000 (us * (200 - p.ripe.duty) / p.ripe.duty), offStart := s.cc
            ripenedSinceTrip := false, offElapsed := false, retrying := false }
          ln := { p.ln with own := p.ln.own ++ [{ ctx := 0, type := 0x10, objs := [refObj 0 0 (if p.firstStart = true then 0x10 else bye) 0] }] } }
        ∧ reports s t (if p.pw.pg = true then [(8 * n.val + 2, cause), (8 * n.val + 3, 0)] else [(8 * n.val + 2, cause)])
        ∧ changesOnly [.port n, .events] s t
    (p.pw.sw = .prechg → p.pw.onReached = false → trips (.pretimeExpiry n) 5 0x15 ((s.cc - p.pw.preStart) / 300))
    ∧ (p.pw.sw ≠ .prechg → idles (.pretimeExpiry n) s)
    ∧ (p.pw.sw = .on → p.st.mode ≠ .off → 8000 * p.ripe.ftime ≤ p.pw.ftCount → 0 < p.pw.ftCount → p.pw.onReached = true →
        trips (.faultTimerExpiry n) 1 0x15 ((s.cc - p.pw.ftStart) / 300))
    ∧ (p.pw.ftCount < 8000 * p.ripe.ftime → idles (.faultTimerExpiry n) s)
    ∧ (p.pw.sw = .ramp → s.noneWaits → p.pw.retrying = false →
        setsPort (.rampDone n) s n { p with pw := { p.pw with sw := .on, onReached := true } })
    ∧ (p.pw.sw = .ramp → s.noneWaits → p.pw.retrying = true → s.fedElsewhere n → n ≠ portB → p.ct.state = .none →
        setsPortFires (.rampDone n) s n { p with
          pw := { p.pw with sw := .on, onReached := true, retrying := false }
          ct := { p.ct with
            state := .default, volt := d.1, icont := d.2, asSource := true, window := windowOf n p.ripe true d.1
            trans := false, seq := none, capsSent := 0, capsNodded := false } } (8 * n.val + 1) 1)
    ∧ (p.pw.sw ≠ .ramp → idles (.rampDone n) s)

/-- The end of a discharge, and of an off-time: below 5 V the port takes the state that follows with its force-off lifted, and
the ledger releases its grant; an output that stays up is held up from outside, or its switch is stuck. A retry waits for its
RIPEN, ends where the port is no longer a source, gives up when none is left, and else raises the default contract and starts;
PG rises when its conditions have held. -/
def Obligations.DischargesAndRetries : Prop :=
  ∀ (s : State) (n : Port) (ma : Int), s.settled → s.has n = true → s.eventsOn = true →
    let p := s.port n
    let q := p.pw
    let d := p.ripe.defaultContract
    let new := powerUp d.1 d.2
    let lifted : StageSt := { p.st with
      force := p.st.force.filter fun x => x != .trip && x != .hardShort && x != .pcTrap && x != .stuck }
    (q.sw = .disch → n ≠ portB → q.startHeld = false → p.ct.seq = none →
      (s.led.held[n] = 0 → q.after ≠ .giveup →
        setsPort (.dischargeDone n) s n { p with
          st := lifted, pw := { q with sw := q.after, discharging := false, stuck := false } })
      ∧ (s.led.held[n] = 0 → q.after = .giveup →
        setsPortFires (.dischargeDone n) s n { p with
          st := lifted, pw := { q with sw := .giveup, discharging := false, stuck := false, cause := 0xB } } (8 * n.val + 2) 0xB)
      ∧ (0 < s.led.held[n] → q.after = .off ∨ q.after = .offtime →
        let led : LedgerSt := s.led.holding n 0 0
        (answers (.dischargeDone n) s fun t =>
          t.led.held = led.held ∧ (t.port n).pw = { q with sw := q.after, discharging := false, stuck := false })
        ∧ (p.wh.token = false → led.grantSum + led.tokRes ≤ led.avail → answers (.dischargeDone n) s fun t =>
          t.port n = { p with
            st := lifted, pw := { q with sw := q.after, discharging := false, stuck := false }, ct := { p.ct with tokAfter := none } }
          ∧ t.led = { led with jhead := (s.led.jhead + 1) % 32, shedRun := false, excursion := false }
          ∧ changesOnly [.port n, .led, ledgerArea] s t)))
    ∧ (q.sw = .disch → setsPort (.dischargeTimeout n) s n { p with pw := { q with discharging := false } })
    ∧ (q.sw ≠ .disch →
        idles (.dischargeDone n) s ∧ idles (.dischargeTimeout n) s ∧ idles (.backfedCheck n ma) s)
    ∧ (q.sw = .disch → q.discharging = false → q.stuck = false → backfedLevel n ≤ ma.natAbs → p.wh.burstOpen = false →
        setsPortFires (.backfedCheck n ma) s n { p with
          st := { p.st with
            force := if p.st.force.contains .stuck then p.st.force else .stuck :: p.st.force
            mode := .off, pendMode := none, prevMode := none, bypExit := none, bypBack := false, active := false }
          pw := { q with stuck := true, cause := 0xD } } (8 * n.val + 2) 0xD)
    ∧ (q.sw = .disch → q.discharging = false → q.after = .off → q.startHeld = false → ma.natAbs < backfedLevel n →
        n ≠ portB → s.led.held[n] = 0 → p.ct.seq = none →
        setsPortFires (.backfedCheck n ma) s n { p with
          st := lifted, pw := { q with sw := .off, stuck := false, cause := 0xC } } (8 * n.val + 2) 0xC)
    ∧ (q.sw = .offtime → p.cf.attach ≠ .attachedSrc →
        setsPort (.offtimeEnd n) s n { p with pw := { q with sw := .off, startHeld := false } })
    ∧ (q.sw = .offtime → p.cf.attach = .attachedSrc → q.ripenedSinceTrip = false →
        setsPort (.offtimeEnd n) s n { p with pw := { q with offElapsed := true } })
    ∧ (q.sw = .offtime → p.cf.attach = .attachedSrc → q.ripenedSinceTrip = true → q.thermHold = false →
        p.st.force.contains .leTrap = false → q.startHeld = false →
        (s.retries n = false →
          setsPortFires (.offtimeEnd n) s n { p with pw := { q with sw := .giveup, cause := 0xB } } (8 * n.val + 2) 0xB)
        ∧ (s.retries n = true → raiseRefused s.led n new 0 = false → p.wh.token = false → s.noneWaits → q.settled = false →
          answers (.offtimeEnd n) s fun t =>
            t.port n = { p with
              pw := { q with
                sw := .wait, onReached := false, retrying := true, offElapsed := false
                retryLeft := if p.ripe.retry = 255 then 255 else q.retryLeft - 1 }
              ct := { p.ct with tokAfter := none }
              st := { p.st with
                hs := false, pendMode := if p.st.lastMode = .off then none else some p.st.lastMode
                prevMode := none, pendCc := s.cc } }
            ∧ t.led.held = s.led.held.set n (max s.led.held[n] new)))
    ∧ (q.sw ≠ .offtime → idles (.offtimeEnd n) s)
    ∧ (pgHolds s n = true → q.pg = false → setsPortFires (.pgDeglitchDone n) s n { p with pw := { q with pg := true } } (8 * n.val + 3) 1)
    ∧ (pgHolds s n = false ∨ q.pg = true → idles (.pgDeglitchDone n) s)

/-- A microsecond of telemetry: a port's newest conversions are taken and summed, its energy counted, its fault timer moved up
by 8 or down by 1, a pre-charge within 1.5 V begins its ramp, and the ramp's energy is summed; HBUS is read. A millisecond: the
means are shown and the records written. How an inexact mean or energy drops its fraction is open (log entry 24). -/
def Obligations.TelemetryReadsAndMeters : Prop :=
  ∀ (s : State) (n : Port) (mv v vs : Nat) (i : Int), s.settled → s.has n = true →
    let p := s.port n
    let q := p.pw
    let m := p.me
    let dv := ((vs : Int) - v).natAbs
    let pw : Int := v * i
    let units := (openQuot (pw.natAbs * 1024) 1000000).toNat
    let at_ : Nat := 0x30014400 + 64 * n.val
    ((∀ k, k ≠ n → (s.port k).pw.sw ≠ .ramp) → (q.sw = .ramp → q.rampPj + dv * i.natAbs < 1000000000 * p.ripe.rampe) →
      s.fd.pre = false → answers (.telemetryTick [⟨n, v, vs, i⟩] mv) s fun t =>
        (t.port n).pw = { q with
          vPort := v, vStage := vs, iPort := i
          ftCount := if p.faultInput = true then min (8000 * p.ripe.ftime) (q.ftCount + 8) else q.ftCount - 1
          ftStart := if p.faultInput = true ∧ q.ftCount = 0 then s.cc else q.ftStart
          sw := if q.sw = .prechg ∧ dv < 1500 then .ramp else q.sw
          rampPj := if q.sw = .prechg ∧ dv < 1500 then 0 else if q.sw = .ramp then q.rampPj + dv * i.natAbs else q.rampPj }
        ∧ (t.port n).me.sumV = m.sumV + v ∧ (t.port n).me.sumI = m.sumI + i ∧ (t.port n).me.sumP = m.sumP + pw
        ∧ (t.port n).me.count = m.count + 1
        ∧ (0 ≤ pw → m.eexp.toNat * 1024 + m.remExp + units < 2 ^ 58 →
            (t.port n).me.eexp.toNat * 1024 + (t.port n).me.remExp = m.eexp.toNat * 1024 + m.remExp + units
            ∧ (t.port n).me.eimp = m.eimp)
        ∧ (pw < 0 → isW n = false → m.eimp.toNat * 1024 + m.remImp + units < 2 ^ 58 →
            (t.port n).me.eimp.toNat * 1024 + (t.port n).me.remImp = m.eimp.toNat * 1024 + m.remImp + units
            ∧ (t.port n).me.eexp = m.eexp)
        ∧ t.fd.hbusMv = mv ∧ t.fd.feed = s.fd.feed
        ∧ changesOnly [.anyPort, .fd, .events] s t)
    ∧ (0 < m.count → answers .telemetryUpdate s fun t =>
        let r := (t.port n).me
        r.vmeas = BitVec.ofInt 16 (openQuot m.sumV (10 * m.count)) ∧ r.imeas = BitVec.ofInt 32 (openQuot m.sumI m.count)
        ∧ r.pmeas = BitVec.ofInt 32 (openQuot m.sumP (10000 * m.count)) ∧ r.count = 0 ∧ r.sumV = 0 ∧ r.sumI = 0 ∧ r.sumP = 0
        ∧ t.fd.telSeq = s.fd.telSeq + 1
        ∧ t.readMem at_ 32 = bytesLE t.fd.telSeq ++ bytesLE (setFld (swstat q) 15 0 r.vmeas.toNat) ++ bytesLE r.imeas
            ++ bytesLE r.pmeas ++ toBytesLE 6 m.eexp.toNat ++ [0, 0] ++ toBytesLE 6 m.eimp.toNat ++ [0, 0]
        ∧ t.readMem (at_ + 60) 4 = bytesLE t.fd.telSeq
        ∧ changesOnly [.anyPort, .fd, .mem 0x30014400 0x30014840] s t)

/-! ## Feeds -/

/-- Supplies: a rise or a change of range is noted; with no feed the first eligible candidate is taken, and a feed whose supply
leaves its range or falls is lost with its cause, a KU outside its window or without supply with its contract; B outside
18.0-32.0 V is no longer seated. The gap ends in the incoming path's mode; a pre-charge that does not come marks its candidate
FAILED. -/
def Obligations.SuppliesMoveTheFeed : Prop :=
  ∀ (s : State) (p : Supply) (mv : Nat) (n : Port), s.settled →
    let rise := setUp p true (noteSupply p mv s)
    let fall := setUp p false (noteSupply p mv s)
    let range := noteSupply p mv s
    let b := s.port portB
    let seatsB : Prop := p ≠ .b ∨ (18000 ≤ mv ∧ mv ≤ 32000)
    let noted (t u : State) : Prop := t.fd = u.fd ∧ t.port portB = u.port portB ∧ changesOnly [.fd, .port portB] s t
    let q := s.port n
    let calm := (s.port portKU).cf.attach ≠ .legacy ∧ (s.port portKU).cf.fromLegacy = false ∧ (s.port portKU).cf.legacyDue = false
    let noPath := s.fd.feed = .none ∧ s.fd.pre = false ∧ (s.fd.ov.valid && s.fd.ov.out) = false
    let mode : StageMode :=
      if s.fd.prog = true then (if s.supplyMv s.fd.feed < s.fd.hbusMv then .boostIn else .buckIn)
      else if s.fd.feed = .b then .startReg else .bypass
    (seatsB → range.port portB = b)
    ∧ (¬seatsB → s.isFeed portB = true ∨ b.pw.sw = .off →
      range.port portB = { b with pw := { b.pw with settled := false, startHeld := false } })
    ∧ (seatsB ∨ s.isFeed portB = true ∨ b.pw.sw = .off →
      (s.fd.feed ≠ .none → s.fd.pre = false → supplyLoss rise = none → answers (.supplyRise p mv) s fun t => noted t rise)
      ∧ (calm → s.fd.feed ≠ .none → s.fd.pre = false → supplyLoss range = none →
        answers (.supplyRangeChange p mv) s fun t => noted t range)
      ∧ (∀ c, calm → supplyLoss range = some c → c ≠ 5 ∨ s.kuFree → losesFeed (.supplyRangeChange p mv) s range c)
      ∧ (calm → s.dev.hold = .none → s.fd.feed ≠ feedOfSupply p → s.fd.pre = false →
        answers (.supplyFall p mv) s fun t => noted t fall)
      ∧ (calm → s.dev.hold = .none → s.fd.feed = feedOfSupply p → s.fd.pre = false → p ≠ .ku ∨ s.kuFree →
        losesFeed (.supplyFall p mv) s fall 6))
    ∧ (∀ f, seatsB → noPath → rise.firstFeed = f → f ≠ .none → takesFeed (.supplyRise p mv) s rise f)
    ∧ (calm → s.fd.feed = .ku → (s.port portKU).ct.state = .default ∨ (s.port portKU).ct.state = .negotiated → p = .ku →
      (supplyLoss range = some 5 → answers (.supplyRangeChange p mv) s fun t =>
        (t.port portKU).ct.state = .none ∧ t.fd.feed ≠ .ku ∧ t.fd.last = .ku ∧ t.fd.lossCause = 5)
      ∧ (s.fd.pre = false → s.dev.hold = .none → answers (.supplyFall p mv) s fun t =>
        (t.port portKU).ct.state = .none ∧ t.fd.last = .ku ∧ t.fd.lossCause = 6))
    ∧ (s.fd.gap = true → s.isFeed n = true → (∀ m, (s.port m).st.force = []) →
      answers .feedGapEnd s fun t =>
        t.fd = { s.fd with gap := false, planned := false, pre := false, hbusLow := false }
        ∧ t.port n = { q with st := { q.st with
            hs := false, pendMode := none, prevMode := none, bypExit := none, bypBack := false, mode := mode, refOld := none
            refCode := if s.fd.prog = true then BitVec.ofNat 10 q.ripe.ilimpk else q.st.refCode } }
        ∧ changesOnly [.fd, .port n] s t)
    ∧ (s.fd.gap = true → s.fd.feed ≠ .none → answers .feedGapEnd s fun t => ∀ m, .noFeed ∉ (t.port m).st.force)
    ∧ (s.fd.gap = false → idles .feedGapEnd s)
    ∧ (s.fd.pre = true → s.fd.target.port = some n → s.fd.feed = .none → s.fd.hbusLow = true →
        (s.fd.ov.valid && s.fd.ov.out) = false →
        let k := { s.updPw n fun w => { w with failed := true } with fd := { s.fd with pre := false, target := .none } }
        (k.firstFeed = .none → answers .hbusPrechargeTimeout s fun t =>
          t.fd = k.fd ∧ t.port n = k.port n ∧ changesOnly [.fd, .port n] s t)
        ∧ (∀ f, k.firstFeed = f → f ≠ .none → answers .hbusPrechargeTimeout s fun t =>
          t.fd = { k.fd with target := f, pre := true, gap := false, planned := false, cause := 9 } ∧ t.port n = k.port n
          ∧ changesOnly [.fd, .port n] s t))
    ∧ (s.fd.pre = false → idles .hbusPrechargeTimeout s)

/-- Planned changes, PROG, BEN and the HBUS OV comparator: a plan naming no candidate or the present feed does nothing, a
refused one shows its cause, an accepted one opens the present path and selects the target; PROG set leaves the stage as it is
and PROG clear gives the path its start mode; clearing BEN under PROG loses a feed B; a trip of HBUS OV forces the feed port off
and leaves no feed until its release. Other cores' writes are refused. -/
def Obligations.FeedCommandsAreChecked : Prop :=
  ∀ (s : State) (w : Writer) (k : BitVec 2) (v : Bool) (n : Port), s.settled →
    let f := feedOfCode k.toNat
    let q := s.port n
    let cleared := { s with fd := { s.fd with prog := false } }
    let unben := { s with fd := { s.fd with ben := false } }
    (writerFeed w = false →
      refusesWrite (.plan w k) s w 2 ∧ refusesWrite (.progWrite w v) s w 2 ∧ refusesWrite (.benClear w) s w 2)
    ∧ (writerFeed w = true →
      (f = .none ∨ f = s.fd.feed → idles (.plan w k) s)
      ∧ (∀ c, f ≠ .none → f ≠ s.fd.feed → planRefused s f = some c → answers (.plan w k) s fun t =>
          t.fd = { s.fd with refused := true, refcause := c } ∧ changesOnly [.fd] s t)
      ∧ (f ≠ .none → f ≠ s.fd.feed → planRefused s f = none → s.eventsOn = true → s.fd.hbusLow = false → s.kdSinks = false →
          (∀ m, s.isFeed m = true → (s.port m).pw.pg = false) → answers (.plan w k) s fun t =>
          t.fd = { s.fd with
            feed := f, target := f, gap := true, planned := true, last := s.fd.feed, cause := 1, chgcnt := satInc s.fd.chgcnt }
          ∧ t.led = { s.led with avail := s.availOf f, hard := s.hardOf f, shedRun := false, excursion := false }
          ∧ logs s t 139 (1 + 16 * f.code) ∧ changesOnly [.fd, .led, .port portB, .events] s t)
      ∧ (v = s.fd.prog → idles (.progWrite w v) s)
      ∧ (s.fd.prog = false → s.fd.feed ≠ .none → answers (.progWrite w true) s fun t =>
          t.fd = { s.fd with prog := true, exempt := .none } ∧ changesOnly [.fd] s t)
      ∧ (s.fd.prog = true → s.isFeed n = true → s.fd.gap = false → supplyLoss cleared = none →
          answers (.progWrite w false) s fun t =>
          t.fd = cleared.fd ∧ t.port n = { q with st := { q.st with
            mode := if s.fd.feed = .b then .startReg else .bypass, pendMode := none, prevMode := none, bypExit := none
            bypBack := false } }
          ∧ changesOnly [.fd, .port n] s t)
      ∧ (s.fd.feed ≠ .none → s.fd.prog = false ∨ s.fd.feed ≠ .b → answers (.benClear w) s fun t =>
          t.fd = unben.fd ∧ changesOnly [.fd] s t)
      ∧ (s.fd.feed = .b → s.fd.prog = true → s.fd.ben = true → losesFeed (.benClear w) s unben 12))
    ∧ (s.fd.ov = ⟨true, true⟩ → idles .hbusOvTrip s)
    ∧ (s.fd.ov.out = false → s.isFeed n = true → s.noSwap → answers .hbusOvTrip s fun t =>
        t.fd.ov = ⟨true, true⟩ ∧ t.fd.feed = .none ∧ t.fd.lossCause = 7 ∧ t.fd.gap = false ∧ t.led.avail = 0
        ∧ (t.port n).st.mode = .off ∧ .hbusOv ∈ (t.port n).st.force ∧ changesOnly [.fd, .led, .anyPort, .events] s t)
    ∧ (s.fd.feed ≠ .none → answers .hbusOvRelease s fun t =>
        t.fd = { s.fd with ov := ⟨true, false⟩ }
        ∧ (∀ m, t.port m = { s.port m with st := { (s.port m).st with
            force := (s.port m).st.force.filter fun x => x != .hbusOv } })
        ∧ changesOnly [.fd, .anyPort] s t)
    ∧ (∀ c, s.fd.feed = .none → s.fd.pre = false → s.fd.ov = ⟨true, true⟩ → (∀ m, (s.port m).st.force = []) →
        s.firstFeed = c → c ≠ .none →
        takesFeed .hbusOvRelease s { s with fd := { s.fd with ov := ⟨true, false⟩ } } c)

/-! ## Moisture, temperature, resets -/

/-- Moisture: a measurement begins on an unpowered port with a quiet line, yields, or ends with its pins judged; wet pins flag
the port, three dry measurements or dry leakage clear it, each with its event; 500 ms after the flag a switch that is still on
above MVLIM opens with FAULT WET, and a feed is lost. -/
def Obligations.MoistureIsFlaggedAndCleared : Prop :=
  ∀ (s : State) (n : Port) (r : MoistSample), s.settled → s.signals n = true → s.eventsOn = true → s.fd.feed ≠ .none → s.fd.pre = false →
    let p := s.port n
    let m := p.mo
    let sets (c : Instr) (x : MoistSt) : Prop := setsPort c s n { p with mo := x }
    let fires (c : Instr) (x : MoistSt) : Prop := setsPortFires c s n { p with mo := x } (8 * n.val + 4) (b2n x.wet + 2 * x.pins.toNat)
    let rises (a b : Nat) : Bool := decide (a ≤ b ∧ p.ripe.mdg ≤ b - a)
    let pins : BitVec 3 := BitVec.ofNat 3 (b2n (rises r.cf1G1 r.cf1G20) + 2 * b2n (rises r.cf2G1 r.cf2G20)
      + 4 * b2n (rises r.seatG1 r.seatG20 || (p.pw.seat.valid && !p.pw.seat.out && decide (20 ≤ r.seatG20))))
    let dg := max (r.cf1G20 - r.cf1G1) (max (r.cf2G20 - r.cf2G1) (r.seatG20 - r.seatG1))
    let seen : MoistSt := { m with measuring := false, mcnt := m.mcnt + 1, dgmax := BitVec.ofNat 8 (min 255 dg) }
    (p.ripe.moistEn = true → s.unpowered n = true → s.lineQuiet n = true → m.measuring = false →
      sets (.moistureMeasurementStart n) { m with measuring := true })
    ∧ (p.ripe.moistEn = false ∨ s.unpowered n = false ∨ s.lineQuiet n = false ∨ m.measuring = true →
      idles (.moistureMeasurementStart n) s)
    ∧ (m.measuring = true → sets (.moistureYield n) { m with measuring := false, yield := satInc m.yield })
    ∧ (m.measuring = true → pins ≠ 0 → m.wet = false →
      fires (.moistureMeasurementDone n r) { seen with wet := true, pins := pins, dryRuns := 0 })
    ∧ (m.measuring = true → pins ≠ 0 → m.wet = true →
      sets (.moistureMeasurementDone n r) { seen with pins := pins, dryRuns := 0 })
    ∧ (m.measuring = true → pins = 0 → m.dryRuns + 1 < 3 →
      sets (.moistureMeasurementDone n r) { seen with dryRuns := m.dryRuns + 1 })
    ∧ (m.measuring = true → pins = 0 → 3 ≤ m.dryRuns + 1 → m.wet = true →
      fires (.moistureMeasurementDone n r) { seen with dryRuns := m.dryRuns + 1, wet := false, pins := 0 })
    ∧ (m.measuring = false → idles (.moistureMeasurementDone n r) s ∧ idles (.moistureYield n) s)
    ∧ (s.tracks n = true → m.wet = false →
      fires (.leakageWet n) { m with wet := true, pins := if p.cf.active = true then 1 else 2, dryRuns := 0 }
      ∧ sets (.leakageDry n) { m with pins := 0 })
    ∧ (s.tracks n = true → m.wet = true → fires (.leakageDry n) { m with wet := false, pins := 0 })
    ∧ (s.tracks n = false → idles (.leakageWet n) s ∧ idles (.leakageDry n) s)
    ∧ (m.wet = true → aboveMvlim p.ripe p.ct.volt = true → p.pw.sw = .on → p.pw.pg = false → s.isFeed n = false → s.noneWaits →
      setsPortFires (.wetTimeout n) s n { p with pw := { p.pw with
        sw := .disch, after := .off, discharging := true, startHeld := false, cause := 0xA } } (8 * n.val + 2) 0xA)
    ∧ (m.wet = false ∨ aboveMvlim p.ripe p.ct.volt = false ∨ (p.pw.sw ≠ .on ∧ s.isFeed n = false) → idles (.wetTimeout n) s)

/-- A thermal round: each sensor shows its sample, or after two bad ones in a row 200 °C; TEMP_MAX is the highest reading of the
sensors present, its sensor the first that shows it; a port sensor at its limit for the second time trips its port; a device
sensor at 150 °C for the second time shuts the hub down, with everything off and the cause retained. -/
def Obligations.ThermalRoundsGuard : Prop :=
  ∀ (s : State) (l : List (Option Int)) (i : Fin 24) (v : Int), s.settled → s.sensorPresent i = true → s.dev.hold = .none →
    let x := s.th.sensors[i]
    let now := s.th.now + (if s.th.fast = true then 1 else 40)
    let others := ∀ (j : Fin 24) r, j ≠ i → l[j.val]? = some r →
      let o := (roundSensor s.th.thermctl j.val now s.th.sensors[j] r).2
      o.2.2.1 = false ∧ o.2.2.2.1 = false
    (-880 ≤ v → v ≤ 3200 → x.broken = false → l[i.val]? = some (some v) →
      answers (.thermalRound l) s fun t => t.th.sensors[i].temp = BitVec.ofInt 16 v ∧ t.th.sensors[i].broken = false)
    ∧ (v < -880 ∨ 3200 < v → x.broken = false → l[i.val]? = some (some v) ∨ l[i.val]? = some none →
      answers (.thermalRound l) s fun t =>
        (x.bad = 0 → t.th.sensors[i].temp = x.temp ∧ t.th.sensors[i].broken = false)
        ∧ (0 < x.bad → t.th.sensors[i].temp = 0x0C80 ∧ t.th.sensors[i].broken = true))
    ∧ answers (.thermalRound l) s (fun t =>
        t.th.sensors[i].temp.toInt ≤ t.th.maxTemp.toInt
        ∧ (t.th.sensors[i].temp.toInt = t.th.maxTemp.toInt → t.th.maxSensor.toNat ≤ i.val)
        ∧ (∃ j : Fin 24, s.sensorPresent j = true ∧ t.th.maxSensor = BitVec.ofNat 5 j.val ∧ t.th.sensors[j].temp = t.th.maxTemp))
    ∧ (∀ n : Port, i.val = n.val → 16 * (fld s.th.thermctl 31 24 : Int) ≤ v → v ≤ 3200 → x.broken = false → x.overLim = 1 →
        l[i.val]? = some (some v) → s.dev.mode ≠ .shutdown → others → s.hsArmed n = true → s.isFeed n = false →
        (n ≠ portKD ∨ (s.port n).cf.attach ≠ .attachedSnk) →
        (s.port n).st.force.contains .seatBreak = false → (s.port n).st.force.contains .hardShort = false →
        answers (.thermalRound l) s fun t =>
          (t.port n).pw.thermHold = true ∧ (t.port n).pw.cause = 6 ∧ (t.port n).st.mode = .off
          ∧ .trip ∈ (t.port n).st.force ∧ (t.port n).pw.tripCnt = satInc (s.port n).pw.tripCnt)
    ∧ (16 ≤ i.val → i.val ≠ 22 → 2400 ≤ v → v ≤ 3200 → x.broken = false → x.overLim = 1 → l[i.val]? = some (some v) →
        s.dev.mode ≠ .shutdown →
        answers (.thermalRound l) s fun t =>
          t.dev.mode = .shutdown ∧ t.cores = State.reset.cores ∧ t.led.held = .replicate 16 0 ∧ t.fd.prog = false
          ∧ t.bt.rcause = 4 ∧ (∀ n, .thermal ∈ (t.port n).st.force))

/-- Resets: the end of a thermal shutdown below 125 °C, and a RESET_N pulse of 1 µs, leave a hub that boots, its cores, ledger,
timers and host bus as after reset, its memory but the image store empty, its Stone as it was; a pulse below 100 ns is ignored,
and of one between them the manual says not which. A brown-out holds the hub with its cause until HBUS is back. -/
def Obligations.ResetsLeaveABootingHub : Prop :=
  ∀ (s : State) (ns : Nat), s.settled →
    let r := State.reset
    let cleared (t : State) : Prop :=
      t.dev.asleep = false ∧ t.cores = r.cores ∧ t.tim = r.tim ∧ t.host = r.host
      ∧ t.led.held = r.led.held ∧ t.led.tokens = 4
      ∧ (∀ n, (t.port n).green = GwSet.reset n ∧ (t.port n).ripe = GwSet.reset n ∧ (t.port n).ct = .reset
          ∧ (t.port n).pw.sw = .off ∧ (t.port n).ln = .reset)
      ∧ (∀ a, (a < 0x60000000 → memRead t.mem a = memRead r.mem a)
          ∧ (s.bt.img = none → 0x60000000 ≤ a → memRead t.mem a = memRead s.mem a))
      ∧ (s.stone.busy = none → t.stone.fuses = s.stone.fuses) ∧ t.pending = s.pending
    (s.dev.mode = .shutdown → s.th.maxTemp.toInt < 2000 →
      answers .thermalShutdownEnd s fun t => t.dev.mode = .booting ∧ t.cc = 0 ∧ t.bt.rcause = s.bt.rcause ∧ cleared t)
    ∧ (s.dev.mode ≠ .shutdown ∨ 2000 ≤ s.th.maxTemp.toInt → idles .thermalShutdownEnd s)
    ∧ (s.dev.mode ≠ .shutdown → s.dev.hold = .none → 1000 ≤ ns →
      answers (.resetNLow ns) s fun t => t.dev.mode = .booting ∧ t.cc = 0 ∧ t.bt.rcause = 1 ∧ cleared t)
    ∧ (s.dev.mode ≠ .shutdown → s.dev.hold = .none → 100 ≤ ns → ns < 1000 →
      answers (.resetNLow ns) s fun t => t = { s with freeCtr := s.freeCtr + 1 } ∨ (t.dev.mode = .booting ∧ t.bt.rcause = 1 ∧ cleared t))
    ∧ (ns < 100 → idles (.resetNLow ns) s)
    ∧ (s.dev.hold = .none → s.dev.mode ≠ .shutdown → answers .brownOut s fun t =>
        t.dev.hold = .brownOut ∧ t.fd.vhost = false ∧ t.fd.uv = ⟨true, true⟩ ∧ t.bt.rcause = (if s.fd.bUp = true then 5 else 0)
        ∧ cleared t)
    ∧ (s.dev.hold = .brownOut → answers .hbusUvRelease s fun t =>
        t.dev.hold = .none ∧ t.dev.mode = .booting ∧ t.cc = 0 ∧ t.fd.vhost = true ∧ t.fd.uv = ⟨true, false⟩
        ∧ changesOnly [.dev, .fd, .clock] s t)

/-- BOOT of a hub that is booting with VHOST: the life cycle and the margins decide it. Before PROVISION it ends in the vendor
mode with no set loaded; a scrapped Stone, and an integrity failure, end in their modes; else a good slot is loaded and its
cores run, or with none good the hub runs without a set. -/
def Obligations.BootDecidesByTheStone : Prop :=
  ∀ (s : State) (addr : BitVec 3) (reads : List StoneRead) (tb : Byte), s.settled →
    let k := stoneRead reads { s with dev := { s.dev with addr := addr } }
    let ends (m : HubMode) (result : BitVec 4) (P : State → Prop) : Prop :=
      answers (.boot addr reads tb) s fun t => t.dev.mode = m ∧ t.bt.result = result ∧ t.bt.tboot = tb ∧ t.dev.addr = addr
        ∧ t.stone.life = lifeOf (readOf (bootReads reads s.stone) 0).any ∧ t.led = s.led ∧ t.freeCtr = s.freeCtr ∧ P t
    let normal := k.stone.life = 2 ∨ k.stone.life = 3
    (s.dev.mode ≠ .booting ∨ s.dev.hold ≠ .none ∨ s.fd.vhost = false → idles (.boot addr reads tb) s)
    ∧ (s.dev.mode = .booting → s.dev.hold = .none → s.fd.vhost = true →
      (k.stone.life.toNat ≤ 1 → ends .vendor 7 fun t =>
        (t.core coreSV).run = .run ∧ (t.core coreSV).inRom = true ∧ (t.core corePC0).run = .halted)
      ∧ (k.stone.life = 4 → ends .scrapped 8 fun t => t.stone.restrict = true ∧ (t.core corePC0).run = .reset)
      ∧ (normal → k.stone.integrityFails = true → k.stone.variant = 3 → ends .integrity 6 fun t => t.cores = s.cores)
      ∧ (normal → k.stone.integrityFails = true → k.stone.variant ≠ 3 → ends .restrictive 6 fun t => t.stone.restrict = true)
      ∧ (normal → k.stone.integrityFails = false → headerAt k (slotBase 1) = none → (checkSlot k 0).1 ≠ 1 →
        (checkSlot k 1).1 ≠ 1 →
        ends .noset 5 fun t => t.bt.chkA = (checkSlot k 0).1 ∧ (t.core coreSV).inRom = true)
      ∧ (normal → k.stone.integrityFails = false → headerAt k (slotBase 1) = none → (checkSlot k 0).1 = 1 →
        ends .running 1 fun t => t.bt.chkA = 1 ∧ t.bt.slotUsed = some false ∧ (t.core coreSV).run = .run
          ∧ (t.core coreSV).inRom = false ∧ (t.core corePC0).run = .run ∧ (t.core corePC1).run = .run))

/-! ## The host bus -/

/-- EVCOUNT returns the number of entries in the host ring in [9:0]: a ring with at most 512 entries stays so when an event
is written, is so after reset, and its count is what the host reads. Where SCL rises too early after a change of SDA, SETUP is
recorded with the command byte, no event is fired, and the read goes on. -/
def Obligations.EvcountReturnsTheRing : Prop :=
  State.reset.host.evcount = 0
  ∧ ∀ (s : State) (x : Xact), s.host.evcount ≤ 512 →
      (∀ e arg, (s.writeEvent e arg).host.evcount ≤ 512)
      ∧ (s.settled → isRead x → codeAccepted s.hostState 0x02 = true →
          hostSays (.evcount x) s (s.asked 0x02) (toBytesLE 2 s.host.evcount)
            (if s.early x = true then { s.host with errcode := 9, errcmd := 0x02, errcnt := satInc s.host.errcnt } else s.host))

/-- WINSEL takes a base of four bytes, refuses one whose low half is not 0, and returns it; MEMRD reads from the base plus the
pointer, and MEMWR writes there, here into the free part of shared SRAM. -/
def Obligations.WinselSetsTheWindow : Prop :=
  ∀ (s : State) (x : Xact) (base : BitVec 16) (low ptr : BitVec 16) (len : Byte) (whole : Bool) (d : Byte), s.settled →
    let bytes (w : BitVec 16) : List Byte := toBytesLE 2 w.toNat
    let at_ (i : Nat) : Nat := s.host.winbase.toNat * 65536 + (ptr.toNat + i) % 65536
    (codeAccepted s.hostState 0xD0 = true →
      (low = 0 → answers (.winsel (s.writes 0xD0 true (bytes low ++ bytes base))) s fun t =>
        t.host = { s.host with winbase := base, sent := [], nack := none } ∧ changesOnly [.bus, .sources] s t)
      ∧ (low ≠ 0 → hostError (.winsel (s.writes 0xD0 true (bytes low ++ bytes base))) s 0xD0 2 [] none)
      ∧ (s.takes x → hostSays (.winsel x) s (s.asked 0xD0) (4 :: (0 :: 0 :: bytes s.host.winbase)) s.host))
    ∧ (codeAccepted s.hostState 0xD1 = true → len ≠ 0 →
      hostSays (.memrd ⟨.processCall, 3, bytes ptr ++ [len], .repStart, whole, none⟩) s
        ((s.addrByte :: 0xD1 :: 3 :: (bytes ptr ++ [len])) ++ [s.addrByte + 1])
        (len :: (List.range len.toNat).map fun i => hostByte s (at_ i)) s.host
      ∧ hostSays (.memrd ⟨.processCall, 2, bytes ptr, .repStart, whole, none⟩) s
        ((s.addrByte :: 0xD1 :: 2 :: bytes ptr) ++ [s.addrByte + 1])
        (32 :: (List.range 32).map fun i => hostByte s (at_ i)) s.host)
    ∧ (codeAccepted s.hostState 0xD2 = true → 0x30015400 ≤ at_ 0 → at_ 0 < 0x30020000 →
      answers (.memwr (s.writes 0xD2 true (bytes ptr ++ [d]))) s fun t =>
        memRead t.mem (at_ 0) = d ∧ changesOnly [.bus, .sources, .mem (at_ 0) (at_ 0 + 1)] s t)

/-- Reads: STATUS, with or without a command byte, EVPOP with the oldest entries, which leave once the host has them, PORTSEL,
the register blocks and RINGPOP answer their bytes; a code the hub does not accept now is not acknowledged and does nothing. -/
def Obligations.HostReadsAnswer : Prop :=
  ∀ (s : State) (x : Xact) (c r : Byte) (whole : Bool) (n : Port), s.settled →
    let h := s.host
    let k := min 4 h.evcount
    let acc (cmd : Byte) : Prop := codeAccepted s.hostState cmd = true
    let refused (i : Instr) : Prop := answers i s fun t => t.host = { h with sent := [], nack := some 0 } ∧ changesOnly [.bus] s t
    let pop : Xact := ⟨.processCall, 1, [r], .repStart, whole, none⟩
    let l := (s.port n).ln
    let before := s.addrByte :: 0xE1 :: 1 :: [r, s.addrByte + 1]
    (s.takes x → acc 0x00 → hostSays (.status x) s (s.asked 0x00) (toBytesLE 2 (statusWord s)) h)
    ∧ (s.hostState ≠ .deaf → hostSays (.readWithoutCommand whole) s [s.addrByte + 1] (toBytesLE 2 (statusWord s)) h)
    ∧ (answers .quick s fun t => t.host = { h with sent := [], nack := none } ∧ changesOnly [.bus] s t)
    ∧ (s.takes x → acc 0x01 → hostSays (.evpop x) s (s.asked 0x01) (BitVec.ofNat 8 (8 * k) :: evEntries s k)
        (if x.whole = true then { h with evhead := (h.evhead + k) % 512, evcount := h.evcount - k } else h))
    ∧ (s.takes x → acc 0x08 → hostSays (.portsel x) s (s.asked 0x08) [h.portsel.setWidth 8] h)
    ∧ (s.takes x → acc c → 0x10 ≤ c.toNat → c.toNat < 0x40 →
        hostSays (.portBlockRead c x) s (s.asked c)
          (32 :: (List.range 8).flatMap fun i => bytesLE (regRead s
            (0x40010000 + h.portsel.toNat * 0x1000 + (c.toNat - 0x10) / 8 * 0x100 + (c.toNat - 0x10) % 8 * 0x20 + 4 * i))) h)
    ∧ (s.takes x → acc c → 0x40 ≤ c.toNat → c.toNat < 0x70 →
        hostSays (.globalBlockRead c x) s (s.asked c)
          (32 :: (List.range 8).flatMap fun i => bytesLE (regRead s
            (0x40000000 + (c.toNat - 0x40) / 4 * 0x100 + (c.toNat - 0x40) % 4 * 0x20 + 4 * i))) h)
    ∧ (acc 0xE1 → r.toNat = 2 * n.val + 1 → l.owner = true →
        (l.rxCount = 0 → hostSays (.ringpop pop) s before [0] h)
        ∧ (0 < l.rxCount → answers (.ringpop pop) s fun t =>
            t.host = { h with
              sent := (80 :: s.readMem (ringAddr (2 * n.val + 1) l.rxHead) 80)
                ++ (if s.pecOn = true then [pecOf (before ++ (80 :: s.readMem (ringAddr (2 * n.val + 1) l.rxHead) 80))] else [])
              nack := none }
            ∧ (t.port n).ln = (if whole = true then { l with rxHead := (l.rxHead + 1) % 16, rxCount := l.rxCount - 1 } else l)
            ∧ changesOnly [.bus, .port n] s t))
    ∧ (acc 0xE1 → r.toNat = 2 * n.val + 1 → l.owner = false →
        hostError (.ringpop pop) s 0xE1 3 ([0] ++ (if s.pecOn = true then [pecOf (before ++ [0])] else [])) none)
    ∧ (s.hostState = .deaf →
        refused (.status x) ∧ refused (.readWithoutCommand whole) ∧ refused (.evpop x) ∧ refused (.evcount x) ∧ refused (.portsel x)
        ∧ refused (.portBlockRead c x) ∧ refused (.globalBlockRead c x) ∧ refused (.winsel x) ∧ refused (.memrd x)
        ∧ refused (.ringpop x) ∧ refused (.memwr x) ∧ refused (.ringpush x))

/-- Writes: PORTSEL takes a port and refuses other values; a register is written by its rule, or the write is refused with its
reason, whether it comes from a core, as a block or by MEMWR, and an address with no register is refused; the host's message
goes into a TX ring it owns with room; RESET resets the hub and SLEEP asks for sleep, each with its own byte only. A whole write
of the host fires SV's source HOSTCMD (DESIGN CHOICE, log entry 113). -/
def Obligations.HostWritesAct : Prop :=
  ∀ (s : State) (b c : Byte) (w : Writer) (a v : Word) (n : Port) (img : List Byte) (src : Option WakeSource), s.settled →
    let h := s.host
    let s0 := { s with host := { h with sent := [], nack := none } }.fireSrc coreSV 0
    let slot := txSlot s n
    let push : Xact := s.writes 0xE0 true (BitVec.ofNat 8 (2 * n.val) :: img)
    let l := (s.port n).ln
    let row := rowAddr s c
    let acc (cmd : Byte) : Prop := codeAccepted s.hostState cmd = true
    let reg (i : Instr) : Prop := acc c → s.hostState ≠ .boot → ∀ p, regPlace row = some p →
      (placeRefused s0 .host p v = none → exec i s = .next (placeWrite p v s0).flush)
      ∧ (∀ code, placeRefused s0 .host p v = some code → hostError i s c code [] none)
    (acc 0x08 →
      (b.toNat < 16 → answers (.portsel (s.writes 0x08 false [b])) s fun t =>
        t.host = { h with portsel := b.setWidth 4, sent := [], nack := none } ∧ bitOf (t.core coreSV).evtPend 0 = true
        ∧ changesOnly [.bus, .sources] s t)
      ∧ (16 ≤ b.toNat → hostError (.portsel (s.writes 0x08 false [b])) s 0x08 2 [] none))
    ∧ (0x10 ≤ c.toNat → c.toNat < 0x40 → reg (.portBlockWrite c (s.writes c true (bytesLE v))))
    ∧ (0x40 ≤ c.toNat → c.toNat < 0x70 → reg (.globalBlockWrite c (s.writes c true (bytesLE v))))
    ∧ (regPlace a.toNat = none → refusesWrite (.registerWrite w a v) s w 0xA)
    ∧ (∀ p, regPlace a.toNat = some p →
      (∀ code, placeRefused s w p v = some code → refusesWrite (.registerWrite w a v) s w code)
      ∧ (placeRefused s w p v = none → exec (.registerWrite w a v) s = .next (placeWrite p v s).flush))
    ∧ (a = 0x40000B0C → fld v 23 16 ≠ 0 → answers (.registerWrite w a v) s fun t =>
        t.host = { h with busctl := v &&& 0x00FF0007 } ∧ changesOnly [.bus] s t)
    ∧ (a.toNat = 0x40010110 + 0x1000 * n.val → s.signals n = true → answers (.registerWrite w a v) s fun t =>
        (t.port n).ln = { l with
          crcerr := if fld v 31 24 = 0 then l.crcerr else l.crcerr &&& ~~~(BitVec.ofNat 8 (fld v 31 24))
          drop := l.drop &&& ~~~(BitVec.ofNat 8 (fld v 23 16)), rxfull := l.rxfull &&& ~~~(BitVec.ofNat 8 (fld v 15 8))
          notsup := l.notsup &&& ~~~(BitVec.ofNat 8 (fld v 7 0)) } ∧ changesOnly [.port n] s t)
    ∧ (acc 0xE0 → img.length = 80 →
      (l.owner = true → l.txCount < 16 → answers (.ringpush push) s fun t =>
        (t.port n).ln = l.pushed
        ∧ t.readMem slot 80 = toBytesLE 2 (setFld (setFld (setFld (BitVec.ofNat 16 (natLE (img.take 2))) 15 15 1) 11 8 0) 7 4 0).toNat
            ++ img.drop 2
        ∧ changesOnly [.bus, .sources, .port n, .mem slot (slot + 80)] s t)
      ∧ (l.owner = true → 16 ≤ l.txCount → hostError (.ringpush push) s 0xE0 0xB [] none)
      ∧ (l.owner = false → hostError (.ringpush push) s 0xE0 3 [] none))
    ∧ (acc 0xF2 →
      (answers (.reset (s.writes 0xF2 false [0xA5])) s fun t =>
        t.dev.mode = .booting ∧ t.cc = 0 ∧ t.bt.rcause = 2 ∧ t.cores = State.reset.cores ∧ t.pending = s.pending)
      ∧ (b ≠ 0xA5 → hostError (.reset (s.writes 0xF2 false [b])) s 0xF2 2 [] none))
    ∧ (acc 0xF1 →
      (b ≠ 0x5A → hostError (.sleep (s.writes 0xF1 false [b]) src) s 0xF1 2 [] none)
      ∧ (s.sleepOk = false ∨ src.any (wakeEnabled s) = true → hostError (.sleep (s.writes 0xF1 false [0x5A]) src) s 0xF1 6 [] none)
      ∧ (s.sleepOk = true → src.any (wakeEnabled s) = false → answers (.sleep (s.writes 0xF1 false [0x5A]) src) s fun t =>
        t.dev = { s.dev with sleepDue := true } ∧ t.host = { h with sent := [], nack := none }
        ∧ changesOnly [.dev, .bus, .sources] s t))

/-- Broken transactions and sleep: a misplaced condition, an SCL held low and a wrong PEC end a write with their codes and none
of its effect; an SDA held too long is released with its event alone; the entry into sleep goes through only while its
conditions hold and no wake source that is enabled is active, and B's stage goes into START_REG, its mode waiting for the first
period start after the wake; a wake source that is enabled restarts the clocks with EV_WAKE. -/
def Obligations.BusFailuresAndSleep : Prop :=
  ∀ (s : State) (cmd p q : Byte) (writing : Bool) (w : WakeSource), s.settled → s.eventsOn = true →
    let h := s.host
    let acc : Bool := codeAccepted s.hostState cmd
    let on : Bool := wakeEnabled s w
    let fails (i : Instr) (code : BitVec 4) : Prop := answers i s fun t =>
      errorShown s t cmd code ∧ logs s t 148 code.toNat ∧ changesOnly [.bus, .events] s t
    let woke : Nat := match w with
      | .pin => 1
      | .comparator n _ => 2 + 16 * n.val
      | .supply => 3
    let b := s.port portB
    let back : Option StageMode := if b.st.mode = .startReg then b.st.pendMode else some b.st.lastMode
    let low : PortSt := { b with st := { b.st with
      mode := .startReg, pendMode := back, prevMode := back, bypExit := none, active := false } }
    let sleeps (i : Instr) : Prop := answers i s fun t =>
      t.dev = { s.dev with sleepDue := false, asleep := true } ∧ t.port portB = low ∧ changesOnly [.dev, .port portB] s t
    (acc = true → fails (.busConditionMisplaced cmd true) 8)
    ∧ (acc = false ∨ writing = false → idles (.busConditionMisplaced cmd writing) s)
    ∧ (acc = true → bitOf h.busctl 2 = true → fails (.sclLowTimeout cmd true) 7)
    ∧ (acc = false ∨ bitOf h.busctl 2 = false ∨ writing = false → idles (.sclLowTimeout cmd writing) s)
    ∧ (codeAccepted s.hostState 0x08 = true →
        (s.pecOn = true → q ≠ pecOf [s.addrByte, 0x08, p] →
          hostError (.portsel ⟨.writeByte, 0, [p, q], .stop, false, none⟩) s 0x08 1 [] none)
        ∧ hostError (.portsel ⟨.writeByte, 0, [p], .broken, false, none⟩) s 0x08 8 [] none
        ∧ (bitOf h.busctl 2 = true → hostError (.portsel ⟨.writeByte, 0, [p], .timeout, false, none⟩) s 0x08 7 [] none))
    ∧ (s.hostState ≠ .deaf → answers .sdaHoldRelease s fun t => logs s t 149 0 ∧ changesOnly [.events] s t)
    ∧ (s.hostState = .deaf → idles .sdaHoldRelease s)
    ∧ (s.dev.sleepDue = true →
        (on = true → answers (.sleepEntry (some w)) s fun t =>
          t.dev = { s.dev with sleepDue := false } ∧ logs s t 150 woke ∧ changesOnly [.dev, .events] s t)
        ∧ (s.sleepOk = false → answers (.sleepEntry none) s fun t =>
          t.dev = { s.dev with sleepDue := false } ∧ errorShown s t 0xF1 6 ∧ logs s t 148 6
          ∧ changesOnly [.dev, .bus, .events] s t)
        ∧ (s.sleepOk = true → (∀ c, (s.core c).still) →
          sleeps (.sleepEntry none) ∧ (on = false → sleeps (.sleepEntry (some w)))))
    ∧ (s.dev.sleepDue = false → idles (.sleepEntry none) s ∧ idles (.sleepEntry (some w)) s)
    ∧ (s.dev.asleep = true → on = true → answers (.wake w) s fun t =>
        t.dev = { s.dev with asleep := false } ∧ logs s t 150 woke ∧ changesOnly [.dev, .events] s t)
    ∧ (s.dev.asleep = false ∨ on = false → idles (.wake w) s)

/-! ## The Stone and the image store -/

/-- Requests to the Stone, from SV or the host, begin the operation where nothing stops it and end with their code where
something does; while one runs another is BUSY. An operation that ends well leaves its bits reading 1 at all three references,
and every other word as it was; one that fails ends with VERIFY. -/
def Obligations.StoneOperationsRun : Prop :=
  ∀ (s : State) (v : Word) (ok : Bool), s.settled → s.eventsOn = true →
    let t0 := s.stone
    let b (i : Nat) : Byte := BitVec.ofNat 8 (v.toNat / 256 ^ i)
    let host (l : List Byte) : Xact := s.writes 0xF3 true l
    let held (h : HostSt) : HostSt := { h with sent := [], nack := none }
    let asks (i : Instr) (src : BitVec 2) (o : StoneOp) : Prop :=
      let on : StoneSt := { t0 with src := src, op := o.op, arg := o.arg, otpuDone := t0.otpuDone && decide (src ≠ 2) }
      (t0.busy = none → stoneRefusal s o = none → answers i s fun t =>
        t.stone = { on with busy := some o } ∧ t.host = (if src = 1 then held s.host else s.host)
        ∧ changesOnly (if src = 1 then [.stone, .bus, .sources] else [.stone]) s t)
      ∧ (∀ code, t0.busy = none → stoneRefusal s o = some code → answers i s fun t =>
        t.stone = { on with
          done := true, code := code, otpuDone := on.otpuDone || decide (src = 2)
          otpuCode := if src = 2 then code else t0.otpuCode }
        ∧ bitOf (t.core coreSV).evtPend 6 = true ∧ logs s t 147 code.toNat ∧ changesOnly [.stone, .bus, .events] s t)
      ∧ (t0.busy ≠ none → answers i s fun t =>
        t.stone = { t0 with
          done := true, code := 2, otpuDone := t0.otpuDone || decide (src = 2), otpuCode := if src = 2 then 2 else t0.otpuCode }
        ∧ logs s t 147 2 ∧ changesOnly [.stone, .bus, .events] s t)
    let sets (w : Nat) (m : Word) (t : State) : Prop :=
      t.stone.fuse w = { t0.fuse w with
        normal := (t0.fuse w).normal ||| m, low := (t0.fuse w).low ||| m, high := (t0.fuse w).high ||| m }
      ∧ (∀ x : Fin 2048, x.val ≠ w → t.stone.fuse x.val = t0.fuse x.val)
      ∧ t.stone.busy = none ∧ t.stone.done = true ∧ t.stone.code = 1 ∧ logs s t 147 1 ∧ changesOnly [.stone, .events] s t
    asks (.pgm (.sv v)) 2 ⟨1, v.extractLsb' 0 16⟩ ∧ asks (.lock (.sv v)) 2 ⟨2, v.extractLsb' 0 2 |>.setWidth 16⟩
    ∧ (codeAccepted s.hostState 0xF3 = true →
        asks (.pgm (.host (host [1, b 0, b 1]))) 1 ⟨1, v.extractLsb' 0 16⟩
        ∧ asks (.lock (.host (host [2, b 0, 0]))) 1 ⟨2, v.extractLsb' 0 2 |>.setWidth 16⟩
        ∧ asks (.advance (host [3, 0x5A, 0xA5])) 1 ⟨3, 0⟩ ∧ asks (.scrap (host [4, 0x5A, 0xA5])) 1 ⟨4, 0⟩
        ∧ hostError (.scrap (host [4, 0xA5, 0x5A])) s 0xF3 2 [] none)
    ∧ (∀ bit : BitVec 16, t0.busy = some ⟨1, bit⟩ →
        answers (.stoneOperationDone true) s (sets (bit.toNat / 32) (1 <<< (bit.toNat % 32))))
    ∧ (∀ a : BitVec 16, t0.busy = some ⟨2, a⟩ →
        answers (.stoneOperationDone true) s (sets 1 (0xF <<< (8 * (a.toNat % 4)))))
    ∧ (t0.busy = some ⟨3, 0⟩ → t0.life.toNat < 4 →
        answers (.stoneOperationDone true) s (sets 0 (0xFF <<< (8 * t0.life.toNat))))
    ∧ (t0.busy = some ⟨4, 0⟩ → answers (.stoneOperationDone true) s (sets 0 0xFF000000))
    ∧ (t0.busy ≠ none → answers (.stoneOperationDone false) s fun t =>
        t.stone.busy = none ∧ t.stone.done = true ∧ t.stone.code = 6 ∧ logs s t 147 6 ∧ changesOnly [.stone, .open_, .events] s t)
    ∧ (t0.busy = none → idles (.stoneOperationDone ok) s)

/-- Requests to the image store, from SV or the host: an erase or a write of a slot that does not run, a check and a LOADGREEN
begin; of a running slot they end with RUNNING, in heat with HOT, while one runs with BUSY. At its end an erase leaves the slot
blank, a write its bytes with bits cleared only, a check its code, a LOADGREEN the image in the green banks or its code. -/
def Obligations.ImageOperationsRun : Prop :=
  ∀ (s : State) (slot kind sel : Byte) (off : BitVec 24) (len : BitVec 16) (src : Word), s.settled →
    let b0 := s.bt
    let le (k n : Nat) : List Byte := toBytesLE k n
    let wargs : List Byte := slot :: (le 3 off.toNat ++ le 2 len.toNat ++ le 4 src.toNat)
    let wop : ImageOp := ⟨2, slot.toNat, off.toNat, len.toNat, src.toNat, 0, 0⟩
    let may : Prop := s.dev.mode ≠ .restrictive ∧ s.dev.mode ≠ .scrapped
    let starts (i : ImageReq → Instr) (args : List Byte) (o : ImageOp) (left : Nat) : Prop :=
      let on (t : State) : Prop := t.bt = { b0 with imgOp := o.op, img := some o, imgLeft := BitVec.ofNat 16 left }
      answers (i (.sv args)) s (fun t => on t ∧ changesOnly [.bt] s t)
      ∧ (codeAccepted s.hostState 0xF4 = true →
        answers (i (.host (s.writes 0xF4 true (o.op.setWidth 8 :: args)))) s fun t => on t ∧ changesOnly [.bt, .bus, .sources] s t)
    let ends (i : Instr) (op code : BitVec 4) : Prop := answers i s fun t =>
      t.bt = { b0 with imgOp := op, imgDone := true, imgCode := code, imgLeft := 0 }
      ∧ bitOf (t.core coreSV).evtPend 7 = true ∧ changesOnly [.bt, .events] s t
    let done_ (code : BitVec 4) (chk : BitVec 4) (t : State) : Prop :=
      t.bt = { b0 with img := none, imgDone := true, imgCode := code, imgCheck := chk, imgLeft := 0 }
      ∧ bitOf (t.core coreSV).evtPend 7 = true
    (b0.img = none → s.stone.busy = none → may → slot.toNat ≤ 1 →
      (s.slotRuns slot.toNat = false → s.storeHot = false →
        starts .erase [slot] ⟨1, slot.toNat, 0, 0, 0, 0, 0⟩ 32
        ∧ (imageRange wop = false → starts .write wargs wop ((len.toNat + 255) / 256)))
      ∧ starts .check [slot] ⟨3, slot.toNat, 0, 0, 0, 0, 0⟩ 0
      ∧ (kind = 1 ∨ kind = 2 ∨ (kind = 4 ∧ (sel.toNat ≤ 15 ∨ sel = 0xFF)) → greenHeld s kind.toNat = false →
        starts .loadgreen [slot, kind, sel] ⟨4, slot.toNat, 0, 0, 0, kind, sel⟩ 0)
      ∧ (s.slotRuns slot.toNat = true → ends (.erase (.sv [slot])) 1 4)
      ∧ (s.slotRuns slot.toNat = false → s.storeHot = true → ends (.erase (.sv [slot])) 1 5))
    ∧ (b0.img = none → s.stone.busy = none → may → 1 < slot.toNat → ends (.check (.sv [slot])) 3 3)
    ∧ (b0.img ≠ none → answers (.check (.sv [slot])) s fun t =>
        t.bt = { b0 with imgDone := true, imgCode := 2 } ∧ changesOnly [.bt, .events] s t)
    ∧ (b0.img = some ⟨1, slot.toNat, 0, 0, 0, 0, 0⟩ → slot.toNat ≤ 1 → answers .imageOperationDone s fun t =>
        done_ 1 b0.imgCheck t ∧ (∀ i : Fin 0x200000, memRead t.mem (slotBase slot.toNat + i.val) = 0xFF)
        ∧ changesOnly [.bt, .events, .mem (slotBase slot.toNat) (slotBase slot.toNat + 0x200000)] s t)
    ∧ (b0.img = some wop → slot.toNat ≤ 1 → imageRange wop = false → answers .imageOperationDone s fun t =>
        let at_ := slotBase slot.toNat + off.toNat
        let got := programmed s.mem at_ (s.readMem src.toNat len.toNat)
        done_ (if got = s.readMem src.toNat len.toNat then 1 else 7) b0.imgCheck t ∧ t.readMem at_ len.toNat = got
        ∧ changesOnly [.bt, .events, .mem at_ (at_ + len.toNat)] s t)
    ∧ (b0.img = some ⟨3, slot.toNat, 0, 0, 0, 0, 0⟩ → answers .imageOperationDone s fun t =>
        done_ (if (checkSlot s slot.toNat).1 = 1 then 1 else 8) (checkSlot s slot.toNat).1 t ∧ changesOnly [.bt, .events] s t)
    ∧ (b0.img = some ⟨4, slot.toNat, 0, 0, 0, kind, sel⟩ →
      ((checkGreen s slot.toNat kind.toNat).2 = none → answers .imageOperationDone s fun t =>
        done_ 8 (checkGreen s slot.toNat kind.toNat).1 t ∧ changesOnly [.bt, .events] s t)
      ∧ (∀ i : Fin 2, kind = 2 → (checkGreen s slot.toNat 2).2 ≠ none → answers .imageOperationDone s fun t =>
        let c : Core := ⟨4 + i.val, by omega⟩
        t.bt.img = none ∧ t.bt.imgCode = 1 ∧ (t.core c).verified = true ∧ (t.core c).bank = (s.core c).bank
        ∧ (t.core c).greenMeta.slot = some (decide (slot = 1))))
    ∧ (b0.img = none → idles .imageOperationDone s)

/-! ## RIPEN -/

/-- A RIPEN of a port's set is taken from the host or a writer that may, and waits for the period start, where green and ripe
change places with the parameter sets and the engine's slices, the contract's window follows WINPCT, and event 145 reports it. A
RIPEN of a core's bank: asked of a halted core it exchanges the banks at once, of a running one it waits for a safe point; a
core in reset, a second request and an unverified bank in FIELD are refused with their cause; at the safe point the core goes on
at instruction 0 of the new bank, unless its watchdog runs out in that cc; without one in its time the request ends. -/
def Obligations.RipensWaitAndExchange : Prop :=
  (∀ (s : State) (n : Port) (w : Writer) (b : Byte), s.settled → s.has n = true → s.eventsOn = true →
    let p := s.port n
    let waits : PortSt := { p with st := { p.st with ripPend := true } }
    let g := setBase n
    let y := ySlice n
    (setClaimClash s n = false → writerPolicy w n = true → setsPort (.setripReq n w) s n waits)
    ∧ (setClaimClash s n = true → writerPolicy w n = true →
        setsPortFires (.setripReq n w) s n { p with st := { p.st with ripCause := 2, ripRefused := true } } 146 (0x210 + n.val))
    ∧ (writerPolicy w n = false → refusesWrite (.setripReq n w) s w 2)
    ∧ (codeAccepted s.hostState 0xF0 = true →
        (setClaimClash s n = false → b.toNat = n.val → answers (.ripen (s.writes 0xF0 false [b])) s fun t =>
          t.port n = waits ∧ t.host = { s.host with sent := [], nack := none } ∧ changesOnly [.port n, .bus, .sources] s t)
        ∧ (fld b 6 4 ≠ 0 ∨ (bitOf b 7 = true ∧ 5 < fld b 3 0) →
          hostError (.ripen (s.writes 0xF0 false [b])) s 0xF0 2 [] none))
    ∧ (p.st.ripPend = true → bitOf s.bt.paramLoaded n.val = false → s.fedElsewhere n → p.pw.offElapsed = false →
        (n = portKU → supplyLoss s = none) → answers (.portSetExchange n) s fun t =>
          t.port n = { p with
            green := p.ripe, ripe := p.green, pw := { p.pw with ripenedSinceTrip := true }
            st := { p.st with ripPend := false, ripDone := true }
            ct := { p.ct with window := (t.port n).ct.window } }
          ∧ (p.ct.narrowing = false → p.ct.trans = false → p.ct.state = .default ∨ p.ct.state = .negotiated →
              (t.port n).ct.window = windowOf n p.green (decide (p.ct.state = .default)) p.ct.volt)
          ∧ (p.ct.narrowing = true → (t.port n).ct.window = p.ct.window)
          ∧ t.readMem g 0x400 = s.readMem (g + 0x400) 0x400 ∧ t.readMem (g + 0x400) 0x400 = s.readMem g 0x400
          ∧ t.readMem y 0x800 = s.readMem (y + 0x2000) 0x800 ∧ t.readMem (y + 0x2000) 0x800 = s.readMem y 0x800
          ∧ bitOf (t.core (leOf n)).evtPend (24 + leLocal n) = true ∧ logs s t 145 (0x10 + n.val)
          ∧ changesOnly [.port n, .events, .mem g (g + 0x800), .mem y (y + 0x800), .mem (y + 0x2000) (y + 0x2800)] s t)
    ∧ (p.st.ripPend = false → idles (.portSetExchange n) s))
  ∧ (∀ (s : State) (c : Core) (w : Writer), s.settled → s.eventsOn = true →
    let k := s.core c
    let wait : CoreSt := { k with ripenPend := true }
    let refused (i : Instr) (code : BitVec 4) (q : CoreSt) (more : List Area) : Prop := answers i s fun t =>
      (t.core c).quiet = q.quiet ∧ t.bt = { s.bt with ripStatCause := code, ripStatCore := BitVec.ofNat 4 c.val }
      ∧ logs s t 146 (c.val + 256 * code.toNat) ∧ changesOnly ([.bt, .events] ++ more) s t
    let swapped (q : CoreSt) (t : State) : Prop :=
      (t.core c).quiet = { q with
        bank := !k.bank, ripenPend := false, verified := k.ripeVerified, ripeVerified := k.verified }.quiet
      ∧ t.bt = { s.bt with ripDone := setFld s.bt.ripDone c.val c.val 1, ripStatCore := BitVec.ofNat 4 c.val }
      ∧ logs s t 145 c.val ∧ changesOnly [.core c, .bt, .events] s t
    (writerCore w = false → refusesWrite (.ripreqReq c w) s w 2)
    ∧ (writerCore w = true → c ≠ coreSV →
      (k.run = .reset → refused (.ripreqReq c w) 4 k [])
      ∧ (k.run ≠ .reset → k.ripenPend = true → refused (.ripreqReq c w) 5 k [])
      ∧ (k.run ≠ .reset → k.ripenPend = false → s.stone.life = 3 → k.verified = false → refused (.ripreqReq c w) 6 k [])
      ∧ (s.stone.life ≠ 3 → k.verified = false → k.ripenPend = false →
        (k.run = .run ∨ k.run = .wait → answers (.ripreqReq c w) s fun t => t.core c = wait ∧ changesOnly [.core c] s t)
        ∧ (k.run = .halted → answers (.ripreqReq c w) s (swapped k))))
    ∧ (writerCore w = true → c = coreSV → idles (.ripreqReq c w) s)
    ∧ (k.ripenPend = true → k.safePoint s.cc = true → k.wdOut s.cc = false → s.stone.life ≠ 3 → k.verified = false →
        answers (.imemRipenSafePoint c) s (swapped { k with run := .run, pc := 0, jump := none, waitCc := none }))
    ∧ (k.ripenPend = true → k.safePoint s.cc = true → k.wdOut s.cc = false → s.stone.life = 3 → k.verified = false →
        refused (.imemRipenSafePoint c) 6 { k with ripenPend := false } [.core c])
    ∧ (k.ripenPend = false ∨ k.safePoint s.cc = false ∨ k.wdOut s.cc = true → idles (.imemRipenSafePoint c) s)
    ∧ (k.ripenPend = true → refused (.ripenTimeout c) 3 { k with ripenPend := false } [.core c])
    ∧ (k.ripenPend = false → idles (.ripenTimeout c) s))

/-! ## Cores -/

/-- Restarts and watchdogs: SV and the host restart a halted core, a policy core restarts itself, and no one else restarts any;
an expired watchdog traps its core, and SV's resets the hub; in the cc of another trap it is a second cause. -/
def Obligations.RestartsAndWatchdogs : Prop :=
  ∀ (s : State) (c : Core) (w : Writer), s.settled →
    let k := s.core c
    let sv := s.core coreSV
    let ports : List Area := allPorts.filterMap fun n => if c = leOf n ∨ c = pcOf n then some (.port n) else none
    let free : Prop := ∀ n, (s.port n).pw.offElapsed = false
    let bare : Prop := ∀ n, c = pcOf n → s.isFeed n = true ∨ (s.port n).ct.state = .none ∨ (s.port n).ct.state = .legacy
    let again (i : Instr) : Prop := answers i s fun t => restarts s t c ∧ (bare → changesOnly (.core c :: ports) s t)
    let second (i : Instr) (d : Core) : Prop := answers i s fun t =>
      t.core d = { s.core d with trapRec := (s.core d).trapRec ||| 0x00800000 } ∧ changesOnly [.core d] s t
    (c ≠ coreSV → k.run = .halted → writerCore w = true → free → again (.restart c w))
    ∧ (c ≠ coreSV → writerCore w = false → refusesWrite (.restart c w) s w 2)
    ∧ (c ≠ coreSV → k.run = .wait ∨ k.run = .reset ∨ (k.run = .run ∧ k.startCc ≠ s.cc) → refusesWrite (.restart c w) s w 2)
    ∧ (c = coreSV → idles (.restart c w) s)
    ∧ (isPc c = true → k.run = .halted → k.trapCc ≠ none → free → again (.pcAutoRestart c))
    ∧ (isPc c = false ∨ k.run ≠ .halted → idles (.pcAutoRestart c) s)
    ∧ (c ≠ coreSV → k.run = .run ∨ k.run = .wait → traps (.watchdogExpiry c) s c 7 0 (k.wdLim.setWidth 32))
    ∧ (c ≠ coreSV → k.run = .halted → k.trapCc = some s.cc → second (.watchdogExpiry c) c)
    ∧ (k.run = .reset ∨ c = coreSV ∨ (k.run = .halted ∧ k.trapCc ≠ some s.cc) → idles (.watchdogExpiry c) s)
    ∧ (sv.run = .run ∨ sv.run = .wait → answers .svWatchdogExpiry s fun t =>
        t.dev.mode = .booting ∧ t.cc = 0 ∧ t.bt.rcause = 3 ∧ t.led.held = .replicate 16 0
        ∧ fld (t.core coreSV).trapRec 31 28 = 7 ∧ (t.core coreSV).run = .reset ∧ t.pending = s.pending)
    ∧ (sv.run = .reset ∨ sv.run = .halted →
        (s.svTrapped = true → second .svWatchdogExpiry coreSV) ∧ (s.svTrapped = false → idles .svWatchdogExpiry s))

/-- An instruction of a core with nothing under way: moves to locals and guards take the values their sources held at issue and
nothing else changes but the index; an ALU trigger puts its result on the way for the next cc; a jump takes effect after its two
delay slots; a wait holds the core while nothing it waits for is pending, and answers with the lowest source that is; a reserved
format, a fetch with a double-bit error and an index past the bank trap. -/
def Obligations.InstructionsIssue : Prop :=
  ∀ (s : State) (c : Core) (e : Ecc), s.settled →
    let k := s.core c
    let w := fetchWord s c
    let l := movesOf s c w
    let i := k.pc
    let becomes (q : CoreSt) : Prop := answers (.instructionIssue c .none) s fun t => t.core c = q ∧ changesOnly [.core c] s t
    let next : CoreSt := { k with pc := i + 1, lastPc := i, lastIssue := some s.cc }
    k.run = .run → s.dev.asleep = false → k.lastIssue ≠ some s.cc → k.still → k.jump = none → k.loops = [] →
    (i < k.bankLen c → causesOf s c w .none = [] → (∀ x, x ∈ readsOf s c w → x < 0x120 ∨ 0x124 ≤ x) →
      ((∀ m, m ∈ l → m.dst < 0x028) → answers (.instructionIssue c .none) s fun t =>
        t.core c = { next with locals := (t.core c).locals, guards := (t.core c).guards }
        ∧ (∀ j : Fin 32, (t.core c).locals[j] = ((l.find? fun m => decide (m.dst = j.val)).map Move.val).getD k.locals[j])
        ∧ (∀ j : Fin 8, bitOf (t.core c).guards j.val =
            ((l.find? fun m => decide (m.dst = 0x020 + j.val)).map fun m => decide (m.val ≠ 0)).getD (bitOf k.guards j.val))
        ∧ changesOnly [.core c] s t)
      ∧ (∀ m, l = [m] → 0x081 ≤ m.dst → m.dst ≤ 0x094 →
        let o := aluOp m.dst k.aluA m.val
        becomes { next with inflight := [⟨s.cc, s.cc + 1, .alu o.r o.c o.v⟩] })
      ∧ (∀ m, l = [m] → m.dst = 0x040 → becomes { next with jump := some (2, m.val.toNat, true) })
      ∧ (∀ m, l = [m] → m.dst = 0x042 → becomes { next with jump := some (2, m.val.toNat, false), stack := (i + 3) :: k.stack })
      ∧ (∀ m, l = [m] → m.dst = 0x045 → k.ready c = 0 →
        becomes { next with run := .wait, waitT := m.val.setWidth 17, waitCc := some s.cc })
      ∧ (∀ m, l = [m] → m.dst = 0x045 → k.ready c ≠ 0 → answers (.instructionIssue c .none) s fun t =>
        (t.core c).run = .run ∧ (t.core c).pc = i + 1 ∧ (t.core c).evtSrc = BitVec.ofNat 32 (lowestBit (k.ready c))
        ∧ changesOnly [.core c] s t))
    ∧ (i < k.bankLen c → 2 ≤ formatOf w → c ≠ coreSV → traps (.instructionIssue c .none) s c 1 1 (w.extractLsb' 96 32))
    ∧ (i < k.bankLen c → c ≠ coreSV → traps (.instructionIssue c .fetch) s c 9 1 (BitVec.ofNat 32 (k.instrAddr c i)))
    ∧ (k.bankLen c ≤ i → c ≠ coreSV → s.eventsOn = true → k.ripenPend = false → s.fd.feed = .none →
        (∀ n, (s.port n).ct.state = .none ∧ (s.port n).pw.pg = false) → answers (.instructionIssue c e) s fun t =>
          (t.core c).run = .halted ∧ fld (t.core c).trapRec 31 28 = 5 ∧ fld (t.core c).trapRec 27 24 = 3
          ∧ logs s t (128 + c.val) 0x53)

/-- What a core began comes to its end: its result reaches its socket in its cc; a far store lands and a far load is on its way
two cc more, each in its turn among those of all cores, of two stores in one cc that of the higher core last; a message
operation shows its status, but for a core that has restarted since, with the entry of a POP copied and taken; a wait ends at a
source that is pending, the lowest first, or when its timeout has run out. -/
def Obligations.CoresCompleteTheirWork : Prop :=
  ∀ (s : State) (c : Core) (at_ : Nat) (x : InFlight) (f : FarAccess) (fs : List FarAccess) (m : MsgOp), s.settled → s.cc ≤ at_ →
    let k := s.core c
    let put (q : CoreSt) (t : State) : Prop := t.core c = q
    let shows (st : Word) : Word := if m.due < k.startCc + 24 then k.msgSt else st
    let free (g : FarAccess) : Prop := g.kind = .st32 ∧ 0x30015400 ≤ g.addr.toNat ∧ g.addr.toNat + 4 ≤ 0x30020000
    let unit : Nat := if bitOf k.waitT 16 = true then 300 else 1
    (k.inflight = [x] → s.cc ≤ x.due → k.segNext = [] → k.msgOp = none → k.ledServe = [] → k.ledTokw = [] →
      answers (.resultCommit c) s fun t =>
        t.cc = x.due ∧ put (commitVal { k with inflight := [] } x.val) t ∧ changesOnly [.clock, .core c] s t)
    ∧ (k.still → idles (.resultCommit c) s)
    ∧ (k.far = f :: fs → nextFar s = some c → free f → s.cc ≤ f.due →
      answers (.farAccessPerformed c) s fun t =>
        t.cc = f.due ∧ put { k with far := fs } t ∧ t.readMem f.addr.toNat 4 = bytesLE f.data
        ∧ changesOnly [.clock, .core c, .mem f.addr.toNat (f.addr.toNat + 4)] s t)
    ∧ (k.far = f :: fs → nextFar s = some c → f.kind = .ld32 → s.cc ≤ f.due → k.inflight = [] →
      answers (.farAccessPerformed c) s fun t =>
        let v := busNat { s with cc := f.due } f.addr.toNat 4
        t.cc = f.due ∧ (t.core c).far = fs
        ∧ (regionOf f.addr.toNat = some .sram →
            (t.core c).inflight = [⟨f.issued, f.due + 2, .lsuDf (BitVec.ofNat 32 v)⟩])
        ∧ changesOnly [.clock, .core c] s t)
    ∧ (∀ (d : Core) (g : FarAccess), c < d → k.far = [f] → (s.core d).far = [g] → (∀ e, e ≠ c → e ≠ d → (s.core e).far = []) →
      free f → free g → f.addr = g.addr → f.due = g.due → s.cc ≤ f.due → answers (.farAccessPerformed d) s fun t =>
        t.cc = f.due ∧ (t.core c).far = [] ∧ (t.core d).far = [] ∧ t.readMem f.addr.toNat 4 = bytesLE g.data
        ∧ changesOnly [.clock, .core c, .core d, .mem f.addr.toNat (f.addr.toNat + 4)] s t)
    ∧ (k.far = [] → idles (.farAccessPerformed c) s)
    ∧ (k.msgOp = some m → s.cc ≤ m.due → m.copy = none → answers (.msgComplete c) s fun t =>
        t.cc = m.due ∧ put { k with msgOp := none, msgSt := shows m.st } t ∧ changesOnly [.clock, .core c] s t)
    ∧ (∀ n : Port, ∀ a : Word, ∀ pop : Bool, k.msgOp = some m → s.cc ≤ m.due →
      m.copy = some (⟨2 * n.val + 1, by omega⟩, a, pop) → 0 < (s.port n).ln.rxCount → 0x20000000 ≤ a.toNat → a.toNat < 0x30000000 →
      answers (.msgComplete c) s fun t =>
        let l := (s.port n).ln
        t.cc = m.due ∧ t.readMem a.toNat 80 = s.readMem (ringAddr (2 * n.val + 1) l.rxHead) 80
        ∧ (t.port n).ln = (if pop = true then { l with rxHead := (l.rxHead + 1) % 16, rxCount := l.rxCount - 1 } else l)
        ∧ put { k with
            msgOp := none
            msgSt := shows (place (if pop = true then l.rxCount - 1 else l.rxCount) 16 ||| place l.rxHead 8 ||| place 1 0) } t
        ∧ changesOnly [.clock, .core c, .port n, .mem a.toNat (a.toNat + 80)] s t)
    ∧ (k.msgOp = none → idles (.msgComplete c) s)
    ∧ (∀ b : Fin 32, ∀ tmo : Bool, k.run = .wait → bitOf (k.ready c) b.val = true → (∀ j : Fin 32, j < b → bitOf (k.ready c) j.val = false) →
      answers (.waitEnd c tmo at_) s fun t =>
        t.cc = at_
        ∧ put { k with run := .run, lastIssue := some at_, evtSrc := BitVec.ofNat 32 b.val
                       evtPend := setFld k.evtPend b.val b.val 0 } t
        ∧ changesOnly [.clock, .core c] s t)
    ∧ (∀ j, k.run = .wait → k.ready c = 0 → k.waitCc = some j →
      (fld k.waitT 15 0 ≠ 0 → j + fld k.waitT 15 0 * unit ≤ at_ → answers (.waitEnd c true at_) s fun t =>
        t.cc = at_ ∧ put { k with run := .run, lastIssue := some at_, evtSrc := 32 } t ∧ changesOnly [.clock, .core c] s t)
      ∧ (fld k.waitT 15 0 = 0 ∨ at_ < j + fld k.waitT 15 0 * unit → answers (.waitEnd c true at_) s fun t =>
        put k t ∧ changesOnly [.clock] s t))
    ∧ (k.run = .wait → k.ready c = 0 → answers (.waitEnd c false at_) s fun t => put k t ∧ changesOnly [.clock] s t)

end
end

