-- ==== Sys2Proof/Laws/State.lean ====
section
/-! SUPPORT. What each update of the state leaves alone and what it changes: one small lemma per field per update, so that no
proof unfolds a record update. -/

namespace Sys2Proof.Machine

/-! ## What an update leaves alone -/

@[simp] theorem State.updPort_cc (s : State) (n : Port) (f : PortSt → PortSt) : (s.updPort n f).cc = s.cc := rfl
@[simp] theorem State.updPort_evq (s : State) (n : Port) (f : PortSt → PortSt) : (s.updPort n f).evq = s.evq := rfl
@[simp] theorem State.updPort_dev (s : State) (n : Port) (f : PortSt → PortSt) : (s.updPort n f).dev = s.dev := rfl
@[simp] theorem State.updPort_cores (s : State) (n : Port) (f : PortSt → PortSt) : (s.updPort n f).cores = s.cores := rfl
@[simp] theorem State.updPort_led (s : State) (n : Port) (f : PortSt → PortSt) : (s.updPort n f).led = s.led := rfl
@[simp] theorem State.updPort_tim (s : State) (n : Port) (f : PortSt → PortSt) : (s.updPort n f).tim = s.tim := rfl
@[simp] theorem State.updPort_fd (s : State) (n : Port) (f : PortSt → PortSt) : (s.updPort n f).fd = s.fd := rfl
@[simp] theorem State.updPort_th (s : State) (n : Port) (f : PortSt → PortSt) : (s.updPort n f).th = s.th := rfl
@[simp] theorem State.updPort_stone (s : State) (n : Port) (f : PortSt → PortSt) : (s.updPort n f).stone = s.stone := rfl
@[simp] theorem State.updPort_bt (s : State) (n : Port) (f : PortSt → PortSt) : (s.updPort n f).bt = s.bt := rfl
@[simp] theorem State.updPort_host (s : State) (n : Port) (f : PortSt → PortSt) : (s.updPort n f).host = s.host := rfl
@[simp] theorem State.updPort_mem (s : State) (n : Port) (f : PortSt → PortSt) : (s.updPort n f).mem = s.mem := rfl
@[simp] theorem State.updPort_freeCtr (s : State) (n : Port) (f : PortSt → PortSt) : (s.updPort n f).freeCtr = s.freeCtr := rfl
@[simp] theorem State.updPort_pending (s : State) (n : Port) (f : PortSt → PortSt) : (s.updPort n f).pending = s.pending := rfl
@[simp] theorem State.core_updPort (s : State) (n : Port) (f : PortSt → PortSt) (d : Core) : (s.updPort n f).core d = s.core d := rfl

@[simp] theorem State.updPw_cc (s : State) (n : Port) (f : PowerSt → PowerSt) : (s.updPw n f).cc = s.cc := rfl
@[simp] theorem State.updPw_evq (s : State) (n : Port) (f : PowerSt → PowerSt) : (s.updPw n f).evq = s.evq := rfl
@[simp] theorem State.updPw_dev (s : State) (n : Port) (f : PowerSt → PowerSt) : (s.updPw n f).dev = s.dev := rfl
@[simp] theorem State.updPw_cores (s : State) (n : Port) (f : PowerSt → PowerSt) : (s.updPw n f).cores = s.cores := rfl
@[simp] theorem State.updPw_led (s : State) (n : Port) (f : PowerSt → PowerSt) : (s.updPw n f).led = s.led := rfl
@[simp] theorem State.updPw_tim (s : State) (n : Port) (f : PowerSt → PowerSt) : (s.updPw n f).tim = s.tim := rfl
@[simp] theorem State.updPw_fd (s : State) (n : Port) (f : PowerSt → PowerSt) : (s.updPw n f).fd = s.fd := rfl
@[simp] theorem State.updPw_th (s : State) (n : Port) (f : PowerSt → PowerSt) : (s.updPw n f).th = s.th := rfl
@[simp] theorem State.updPw_stone (s : State) (n : Port) (f : PowerSt → PowerSt) : (s.updPw n f).stone = s.stone := rfl
@[simp] theorem State.updPw_bt (s : State) (n : Port) (f : PowerSt → PowerSt) : (s.updPw n f).bt = s.bt := rfl
@[simp] theorem State.updPw_host (s : State) (n : Port) (f : PowerSt → PowerSt) : (s.updPw n f).host = s.host := rfl
@[simp] theorem State.updPw_mem (s : State) (n : Port) (f : PowerSt → PowerSt) : (s.updPw n f).mem = s.mem := rfl
@[simp] theorem State.updPw_freeCtr (s : State) (n : Port) (f : PowerSt → PowerSt) : (s.updPw n f).freeCtr = s.freeCtr := rfl
@[simp] theorem State.updPw_pending (s : State) (n : Port) (f : PowerSt → PowerSt) : (s.updPw n f).pending = s.pending := rfl
@[simp] theorem State.core_updPw (s : State) (n : Port) (f : PowerSt → PowerSt) (d : Core) : (s.updPw n f).core d = s.core d := rfl

@[simp] theorem State.updCf_cc (s : State) (n : Port) (f : CfSt → CfSt) : (s.updCf n f).cc = s.cc := rfl
@[simp] theorem State.updCf_evq (s : State) (n : Port) (f : CfSt → CfSt) : (s.updCf n f).evq = s.evq := rfl
@[simp] theorem State.updCf_dev (s : State) (n : Port) (f : CfSt → CfSt) : (s.updCf n f).dev = s.dev := rfl
@[simp] theorem State.updCf_cores (s : State) (n : Port) (f : CfSt → CfSt) : (s.updCf n f).cores = s.cores := rfl
@[simp] theorem State.updCf_led (s : State) (n : Port) (f : CfSt → CfSt) : (s.updCf n f).led = s.led := rfl
@[simp] theorem State.updCf_tim (s : State) (n : Port) (f : CfSt → CfSt) : (s.updCf n f).tim = s.tim := rfl
@[simp] theorem State.updCf_fd (s : State) (n : Port) (f : CfSt → CfSt) : (s.updCf n f).fd = s.fd := rfl
@[simp] theorem State.updCf_th (s : State) (n : Port) (f : CfSt → CfSt) : (s.updCf n f).th = s.th := rfl
@[simp] theorem State.updCf_stone (s : State) (n : Port) (f : CfSt → CfSt) : (s.updCf n f).stone = s.stone := rfl
@[simp] theorem State.updCf_bt (s : State) (n : Port) (f : CfSt → CfSt) : (s.updCf n f).bt = s.bt := rfl
@[simp] theorem State.updCf_host (s : State) (n : Port) (f : CfSt → CfSt) : (s.updCf n f).host = s.host := rfl
@[simp] theorem State.updCf_mem (s : State) (n : Port) (f : CfSt → CfSt) : (s.updCf n f).mem = s.mem := rfl
@[simp] theorem State.updCf_freeCtr (s : State) (n : Port) (f : CfSt → CfSt) : (s.updCf n f).freeCtr = s.freeCtr := rfl
@[simp] theorem State.updCf_pending (s : State) (n : Port) (f : CfSt → CfSt) : (s.updCf n f).pending = s.pending := rfl
@[simp] theorem State.core_updCf (s : State) (n : Port) (f : CfSt → CfSt) (d : Core) : (s.updCf n f).core d = s.core d := rfl

@[simp] theorem State.updLn_cc (s : State) (n : Port) (f : LineSt → LineSt) : (s.updLn n f).cc = s.cc := rfl
@[simp] theorem State.updLn_evq (s : State) (n : Port) (f : LineSt → LineSt) : (s.updLn n f).evq = s.evq := rfl
@[simp] theorem State.updLn_dev (s : State) (n : Port) (f : LineSt → LineSt) : (s.updLn n f).dev = s.dev := rfl
@[simp] theorem State.updLn_cores (s : State) (n : Port) (f : LineSt → LineSt) : (s.updLn n f).cores = s.cores := rfl
@[simp] theorem State.updLn_led (s : State) (n : Port) (f : LineSt → LineSt) : (s.updLn n f).led = s.led := rfl
@[simp] theorem State.updLn_tim (s : State) (n : Port) (f : LineSt → LineSt) : (s.updLn n f).tim = s.tim := rfl
@[simp] theorem State.updLn_fd (s : State) (n : Port) (f : LineSt → LineSt) : (s.updLn n f).fd = s.fd := rfl
@[simp] theorem State.updLn_th (s : State) (n : Port) (f : LineSt → LineSt) : (s.updLn n f).th = s.th := rfl
@[simp] theorem State.updLn_stone (s : State) (n : Port) (f : LineSt → LineSt) : (s.updLn n f).stone = s.stone := rfl
@[simp] theorem State.updLn_bt (s : State) (n : Port) (f : LineSt → LineSt) : (s.updLn n f).bt = s.bt := rfl
@[simp] theorem State.updLn_host (s : State) (n : Port) (f : LineSt → LineSt) : (s.updLn n f).host = s.host := rfl
@[simp] theorem State.updLn_mem (s : State) (n : Port) (f : LineSt → LineSt) : (s.updLn n f).mem = s.mem := rfl
@[simp] theorem State.updLn_freeCtr (s : State) (n : Port) (f : LineSt → LineSt) : (s.updLn n f).freeCtr = s.freeCtr := rfl
@[simp] theorem State.updLn_pending (s : State) (n : Port) (f : LineSt → LineSt) : (s.updLn n f).pending = s.pending := rfl
@[simp] theorem State.core_updLn (s : State) (n : Port) (f : LineSt → LineSt) (d : Core) : (s.updLn n f).core d = s.core d := rfl

@[simp] theorem State.updCt_cc (s : State) (n : Port) (f : ContractSt → ContractSt) : (s.updCt n f).cc = s.cc := rfl
@[simp] theorem State.updCt_evq (s : State) (n : Port) (f : ContractSt → ContractSt) : (s.updCt n f).evq = s.evq := rfl
@[simp] theorem State.updCt_dev (s : State) (n : Port) (f : ContractSt → ContractSt) : (s.updCt n f).dev = s.dev := rfl
@[simp] theorem State.updCt_cores (s : State) (n : Port) (f : ContractSt → ContractSt) : (s.updCt n f).cores = s.cores := rfl
@[simp] theorem State.updCt_led (s : State) (n : Port) (f : ContractSt → ContractSt) : (s.updCt n f).led = s.led := rfl
@[simp] theorem State.updCt_tim (s : State) (n : Port) (f : ContractSt → ContractSt) : (s.updCt n f).tim = s.tim := rfl
@[simp] theorem State.updCt_fd (s : State) (n : Port) (f : ContractSt → ContractSt) : (s.updCt n f).fd = s.fd := rfl
@[simp] theorem State.updCt_th (s : State) (n : Port) (f : ContractSt → ContractSt) : (s.updCt n f).th = s.th := rfl
@[simp] theorem State.updCt_stone (s : State) (n : Port) (f : ContractSt → ContractSt) : (s.updCt n f).stone = s.stone := rfl
@[simp] theorem State.updCt_bt (s : State) (n : Port) (f : ContractSt → ContractSt) : (s.updCt n f).bt = s.bt := rfl
@[simp] theorem State.updCt_host (s : State) (n : Port) (f : ContractSt → ContractSt) : (s.updCt n f).host = s.host := rfl
@[simp] theorem State.updCt_mem (s : State) (n : Port) (f : ContractSt → ContractSt) : (s.updCt n f).mem = s.mem := rfl
@[simp] theorem State.updCt_freeCtr (s : State) (n : Port) (f : ContractSt → ContractSt) : (s.updCt n f).freeCtr = s.freeCtr := rfl
@[simp] theorem State.updCt_pending (s : State) (n : Port) (f : ContractSt → ContractSt) : (s.updCt n f).pending = s.pending := rfl
@[simp] theorem State.core_updCt (s : State) (n : Port) (f : ContractSt → ContractSt) (d : Core) : (s.updCt n f).core d = s.core d := rfl

@[simp] theorem State.updSt_cc (s : State) (n : Port) (f : StageSt → StageSt) : (s.updSt n f).cc = s.cc := rfl
@[simp] theorem State.updSt_evq (s : State) (n : Port) (f : StageSt → StageSt) : (s.updSt n f).evq = s.evq := rfl
@[simp] theorem State.updSt_dev (s : State) (n : Port) (f : StageSt → StageSt) : (s.updSt n f).dev = s.dev := rfl
@[simp] theorem State.updSt_cores (s : State) (n : Port) (f : StageSt → StageSt) : (s.updSt n f).cores = s.cores := rfl
@[simp] theorem State.updSt_led (s : State) (n : Port) (f : StageSt → StageSt) : (s.updSt n f).led = s.led := rfl
@[simp] theorem State.updSt_tim (s : State) (n : Port) (f : StageSt → StageSt) : (s.updSt n f).tim = s.tim := rfl
@[simp] theorem State.updSt_fd (s : State) (n : Port) (f : StageSt → StageSt) : (s.updSt n f).fd = s.fd := rfl
@[simp] theorem State.updSt_th (s : State) (n : Port) (f : StageSt → StageSt) : (s.updSt n f).th = s.th := rfl
@[simp] theorem State.updSt_stone (s : State) (n : Port) (f : StageSt → StageSt) : (s.updSt n f).stone = s.stone := rfl
@[simp] theorem State.updSt_bt (s : State) (n : Port) (f : StageSt → StageSt) : (s.updSt n f).bt = s.bt := rfl
@[simp] theorem State.updSt_host (s : State) (n : Port) (f : StageSt → StageSt) : (s.updSt n f).host = s.host := rfl
@[simp] theorem State.updSt_mem (s : State) (n : Port) (f : StageSt → StageSt) : (s.updSt n f).mem = s.mem := rfl
@[simp] theorem State.updSt_freeCtr (s : State) (n : Port) (f : StageSt → StageSt) : (s.updSt n f).freeCtr = s.freeCtr := rfl
@[simp] theorem State.updSt_pending (s : State) (n : Port) (f : StageSt → StageSt) : (s.updSt n f).pending = s.pending := rfl
@[simp] theorem State.core_updSt (s : State) (n : Port) (f : StageSt → StageSt) (d : Core) : (s.updSt n f).core d = s.core d := rfl

@[simp] theorem State.updWh_cc (s : State) (n : Port) (f : WheelSt → WheelSt) : (s.updWh n f).cc = s.cc := rfl
@[simp] theorem State.updWh_evq (s : State) (n : Port) (f : WheelSt → WheelSt) : (s.updWh n f).evq = s.evq := rfl
@[simp] theorem State.updWh_dev (s : State) (n : Port) (f : WheelSt → WheelSt) : (s.updWh n f).dev = s.dev := rfl
@[simp] theorem State.updWh_cores (s : State) (n : Port) (f : WheelSt → WheelSt) : (s.updWh n f).cores = s.cores := rfl
@[simp] theorem State.updWh_led (s : State) (n : Port) (f : WheelSt → WheelSt) : (s.updWh n f).led = s.led := rfl
@[simp] theorem State.updWh_tim (s : State) (n : Port) (f : WheelSt → WheelSt) : (s.updWh n f).tim = s.tim := rfl
@[simp] theorem State.updWh_fd (s : State) (n : Port) (f : WheelSt → WheelSt) : (s.updWh n f).fd = s.fd := rfl
@[simp] theorem State.updWh_th (s : State) (n : Port) (f : WheelSt → WheelSt) : (s.updWh n f).th = s.th := rfl
@[simp] theorem State.updWh_stone (s : State) (n : Port) (f : WheelSt → WheelSt) : (s.updWh n f).stone = s.stone := rfl
@[simp] theorem State.updWh_bt (s : State) (n : Port) (f : WheelSt → WheelSt) : (s.updWh n f).bt = s.bt := rfl
@[simp] theorem State.updWh_host (s : State) (n : Port) (f : WheelSt → WheelSt) : (s.updWh n f).host = s.host := rfl
@[simp] theorem State.updWh_mem (s : State) (n : Port) (f : WheelSt → WheelSt) : (s.updWh n f).mem = s.mem := rfl
@[simp] theorem State.updWh_freeCtr (s : State) (n : Port) (f : WheelSt → WheelSt) : (s.updWh n f).freeCtr = s.freeCtr := rfl
@[simp] theorem State.updWh_pending (s : State) (n : Port) (f : WheelSt → WheelSt) : (s.updWh n f).pending = s.pending := rfl
@[simp] theorem State.core_updWh (s : State) (n : Port) (f : WheelSt → WheelSt) (d : Core) : (s.updWh n f).core d = s.core d := rfl

@[simp] theorem State.updMo_cc (s : State) (n : Port) (f : MoistSt → MoistSt) : (s.updMo n f).cc = s.cc := rfl
@[simp] theorem State.updMo_evq (s : State) (n : Port) (f : MoistSt → MoistSt) : (s.updMo n f).evq = s.evq := rfl
@[simp] theorem State.updMo_dev (s : State) (n : Port) (f : MoistSt → MoistSt) : (s.updMo n f).dev = s.dev := rfl
@[simp] theorem State.updMo_cores (s : State) (n : Port) (f : MoistSt → MoistSt) : (s.updMo n f).cores = s.cores := rfl
@[simp] theorem State.updMo_led (s : State) (n : Port) (f : MoistSt → MoistSt) : (s.updMo n f).led = s.led := rfl
@[simp] theorem State.updMo_tim (s : State) (n : Port) (f : MoistSt → MoistSt) : (s.updMo n f).tim = s.tim := rfl
@[simp] theorem State.updMo_fd (s : State) (n : Port) (f : MoistSt → MoistSt) : (s.updMo n f).fd = s.fd := rfl
@[simp] theorem State.updMo_th (s : State) (n : Port) (f : MoistSt → MoistSt) : (s.updMo n f).th = s.th := rfl
@[simp] theorem State.updMo_stone (s : State) (n : Port) (f : MoistSt → MoistSt) : (s.updMo n f).stone = s.stone := rfl
@[simp] theorem State.updMo_bt (s : State) (n : Port) (f : MoistSt → MoistSt) : (s.updMo n f).bt = s.bt := rfl
@[simp] theorem State.updMo_host (s : State) (n : Port) (f : MoistSt → MoistSt) : (s.updMo n f).host = s.host := rfl
@[simp] theorem State.updMo_mem (s : State) (n : Port) (f : MoistSt → MoistSt) : (s.updMo n f).mem = s.mem := rfl
@[simp] theorem State.updMo_freeCtr (s : State) (n : Port) (f : MoistSt → MoistSt) : (s.updMo n f).freeCtr = s.freeCtr := rfl
@[simp] theorem State.updMo_pending (s : State) (n : Port) (f : MoistSt → MoistSt) : (s.updMo n f).pending = s.pending := rfl
@[simp] theorem State.core_updMo (s : State) (n : Port) (f : MoistSt → MoistSt) (d : Core) : (s.updMo n f).core d = s.core d := rfl

@[simp] theorem State.updMe_cc (s : State) (n : Port) (f : MeterSt → MeterSt) : (s.updMe n f).cc = s.cc := rfl
@[simp] theorem State.updMe_evq (s : State) (n : Port) (f : MeterSt → MeterSt) : (s.updMe n f).evq = s.evq := rfl
@[simp] theorem State.updMe_dev (s : State) (n : Port) (f : MeterSt → MeterSt) : (s.updMe n f).dev = s.dev := rfl
@[simp] theorem State.updMe_cores (s : State) (n : Port) (f : MeterSt → MeterSt) : (s.updMe n f).cores = s.cores := rfl
@[simp] theorem State.updMe_led (s : State) (n : Port) (f : MeterSt → MeterSt) : (s.updMe n f).led = s.led := rfl
@[simp] theorem State.updMe_tim (s : State) (n : Port) (f : MeterSt → MeterSt) : (s.updMe n f).tim = s.tim := rfl
@[simp] theorem State.updMe_fd (s : State) (n : Port) (f : MeterSt → MeterSt) : (s.updMe n f).fd = s.fd := rfl
@[simp] theorem State.updMe_th (s : State) (n : Port) (f : MeterSt → MeterSt) : (s.updMe n f).th = s.th := rfl
@[simp] theorem State.updMe_stone (s : State) (n : Port) (f : MeterSt → MeterSt) : (s.updMe n f).stone = s.stone := rfl
@[simp] theorem State.updMe_bt (s : State) (n : Port) (f : MeterSt → MeterSt) : (s.updMe n f).bt = s.bt := rfl
@[simp] theorem State.updMe_host (s : State) (n : Port) (f : MeterSt → MeterSt) : (s.updMe n f).host = s.host := rfl
@[simp] theorem State.updMe_mem (s : State) (n : Port) (f : MeterSt → MeterSt) : (s.updMe n f).mem = s.mem := rfl
@[simp] theorem State.updMe_freeCtr (s : State) (n : Port) (f : MeterSt → MeterSt) : (s.updMe n f).freeCtr = s.freeCtr := rfl
@[simp] theorem State.updMe_pending (s : State) (n : Port) (f : MeterSt → MeterSt) : (s.updMe n f).pending = s.pending := rfl
@[simp] theorem State.core_updMe (s : State) (n : Port) (f : MeterSt → MeterSt) (d : Core) : (s.updMe n f).core d = s.core d := rfl

@[simp] theorem State.updCore_cc (s : State) (c : Core) (f : CoreSt → CoreSt) : (s.updCore c f).cc = s.cc := rfl
@[simp] theorem State.updCore_evq (s : State) (c : Core) (f : CoreSt → CoreSt) : (s.updCore c f).evq = s.evq := rfl
@[simp] theorem State.updCore_dev (s : State) (c : Core) (f : CoreSt → CoreSt) : (s.updCore c f).dev = s.dev := rfl
@[simp] theorem State.updCore_ports (s : State) (c : Core) (f : CoreSt → CoreSt) : (s.updCore c f).ports = s.ports := rfl
@[simp] theorem State.updCore_led (s : State) (c : Core) (f : CoreSt → CoreSt) : (s.updCore c f).led = s.led := rfl
@[simp] theorem State.updCore_tim (s : State) (c : Core) (f : CoreSt → CoreSt) : (s.updCore c f).tim = s.tim := rfl
@[simp] theorem State.updCore_fd (s : State) (c : Core) (f : CoreSt → CoreSt) : (s.updCore c f).fd = s.fd := rfl
@[simp] theorem State.updCore_th (s : State) (c : Core) (f : CoreSt → CoreSt) : (s.updCore c f).th = s.th := rfl
@[simp] theorem State.updCore_stone (s : State) (c : Core) (f : CoreSt → CoreSt) : (s.updCore c f).stone = s.stone := rfl
@[simp] theorem State.updCore_bt (s : State) (c : Core) (f : CoreSt → CoreSt) : (s.updCore c f).bt = s.bt := rfl
@[simp] theorem State.updCore_host (s : State) (c : Core) (f : CoreSt → CoreSt) : (s.updCore c f).host = s.host := rfl
@[simp] theorem State.updCore_mem (s : State) (c : Core) (f : CoreSt → CoreSt) : (s.updCore c f).mem = s.mem := rfl
@[simp] theorem State.updCore_freeCtr (s : State) (c : Core) (f : CoreSt → CoreSt) : (s.updCore c f).freeCtr = s.freeCtr := rfl
@[simp] theorem State.updCore_pending (s : State) (c : Core) (f : CoreSt → CoreSt) : (s.updCore c f).pending = s.pending := rfl
@[simp] theorem State.port_updCore (s : State) (c : Core) (f : CoreSt → CoreSt) (n : Port) : (s.updCore c f).port n = s.port n := rfl

@[simp] theorem State.fireSrc_cc (s : State) (c : Core) (b : Nat) : (s.fireSrc c b).cc = s.cc := rfl
@[simp] theorem State.fireSrc_evq (s : State) (c : Core) (b : Nat) : (s.fireSrc c b).evq = s.evq := rfl
@[simp] theorem State.fireSrc_dev (s : State) (c : Core) (b : Nat) : (s.fireSrc c b).dev = s.dev := rfl
@[simp] theorem State.fireSrc_ports (s : State) (c : Core) (b : Nat) : (s.fireSrc c b).ports = s.ports := rfl
@[simp] theorem State.fireSrc_led (s : State) (c : Core) (b : Nat) : (s.fireSrc c b).led = s.led := rfl
@[simp] theorem State.fireSrc_tim (s : State) (c : Core) (b : Nat) : (s.fireSrc c b).tim = s.tim := rfl
@[simp] theorem State.fireSrc_fd (s : State) (c : Core) (b : Nat) : (s.fireSrc c b).fd = s.fd := rfl
@[simp] theorem State.fireSrc_th (s : State) (c : Core) (b : Nat) : (s.fireSrc c b).th = s.th := rfl
@[simp] theorem State.fireSrc_stone (s : State) (c : Core) (b : Nat) : (s.fireSrc c b).stone = s.stone := rfl
@[simp] theorem State.fireSrc_bt (s : State) (c : Core) (b : Nat) : (s.fireSrc c b).bt = s.bt := rfl
@[simp] theorem State.fireSrc_host (s : State) (c : Core) (b : Nat) : (s.fireSrc c b).host = s.host := rfl
@[simp] theorem State.fireSrc_mem (s : State) (c : Core) (b : Nat) : (s.fireSrc c b).mem = s.mem := rfl
@[simp] theorem State.fireSrc_freeCtr (s : State) (c : Core) (b : Nat) : (s.fireSrc c b).freeCtr = s.freeCtr := rfl
@[simp] theorem State.fireSrc_pending (s : State) (c : Core) (b : Nat) : (s.fireSrc c b).pending = s.pending := rfl
@[simp] theorem State.port_fireSrc (s : State) (c : Core) (b : Nat) (n : Port) : (s.fireSrc c b).port n = s.port n := rfl

@[simp] theorem State.updCounter_cc (s : State) (k : Fin 24) (f : Counter → Counter) : (s.updCounter k f).cc = s.cc := rfl
@[simp] theorem State.updCounter_evq (s : State) (k : Fin 24) (f : Counter → Counter) : (s.updCounter k f).evq = s.evq := rfl
@[simp] theorem State.updCounter_dev (s : State) (k : Fin 24) (f : Counter → Counter) : (s.updCounter k f).dev = s.dev := rfl
@[simp] theorem State.updCounter_cores (s : State) (k : Fin 24) (f : Counter → Counter) : (s.updCounter k f).cores = s.cores := rfl
@[simp] theorem State.updCounter_ports (s : State) (k : Fin 24) (f : Counter → Counter) : (s.updCounter k f).ports = s.ports := rfl
@[simp] theorem State.updCounter_led (s : State) (k : Fin 24) (f : Counter → Counter) : (s.updCounter k f).led = s.led := rfl
@[simp] theorem State.updCounter_fd (s : State) (k : Fin 24) (f : Counter → Counter) : (s.updCounter k f).fd = s.fd := rfl
@[simp] theorem State.updCounter_th (s : State) (k : Fin 24) (f : Counter → Counter) : (s.updCounter k f).th = s.th := rfl
@[simp] theorem State.updCounter_stone (s : State) (k : Fin 24) (f : Counter → Counter) : (s.updCounter k f).stone = s.stone := rfl
@[simp] theorem State.updCounter_bt (s : State) (k : Fin 24) (f : Counter → Counter) : (s.updCounter k f).bt = s.bt := rfl
@[simp] theorem State.updCounter_host (s : State) (k : Fin 24) (f : Counter → Counter) : (s.updCounter k f).host = s.host := rfl
@[simp] theorem State.updCounter_mem (s : State) (k : Fin 24) (f : Counter → Counter) : (s.updCounter k f).mem = s.mem := rfl
@[simp] theorem State.updCounter_freeCtr (s : State) (k : Fin 24) (f : Counter → Counter) : (s.updCounter k f).freeCtr = s.freeCtr := rfl
@[simp] theorem State.updCounter_pending (s : State) (k : Fin 24) (f : Counter → Counter) : (s.updCounter k f).pending = s.pending := rfl
@[simp] theorem State.port_updCounter (s : State) (k : Fin 24) (f : Counter → Counter) (n : Port) : (s.updCounter k f).port n = s.port n := rfl
@[simp] theorem State.core_updCounter (s : State) (k : Fin 24) (f : Counter → Counter) (d : Core) : (s.updCounter k f).core d = s.core d := rfl

@[simp] theorem State.writeMem_cc (s : State) (a : Nat) (bs : List Byte) : (s.writeMem a bs).cc = s.cc := rfl
@[simp] theorem State.writeMem_evq (s : State) (a : Nat) (bs : List Byte) : (s.writeMem a bs).evq = s.evq := rfl
@[simp] theorem State.writeMem_dev (s : State) (a : Nat) (bs : List Byte) : (s.writeMem a bs).dev = s.dev := rfl
@[simp] theorem State.writeMem_cores (s : State) (a : Nat) (bs : List Byte) : (s.writeMem a bs).cores = s.cores := rfl
@[simp] theorem State.writeMem_ports (s : State) (a : Nat) (bs : List Byte) : (s.writeMem a bs).ports = s.ports := rfl
@[simp] theorem State.writeMem_led (s : State) (a : Nat) (bs : List Byte) : (s.writeMem a bs).led = s.led := rfl
@[simp] theorem State.writeMem_tim (s : State) (a : Nat) (bs : List Byte) : (s.writeMem a bs).tim = s.tim := rfl
@[simp] theorem State.writeMem_fd (s : State) (a : Nat) (bs : List Byte) : (s.writeMem a bs).fd = s.fd := rfl
@[simp] theorem State.writeMem_th (s : State) (a : Nat) (bs : List Byte) : (s.writeMem a bs).th = s.th := rfl
@[simp] theorem State.writeMem_stone (s : State) (a : Nat) (bs : List Byte) : (s.writeMem a bs).stone = s.stone := rfl
@[simp] theorem State.writeMem_bt (s : State) (a : Nat) (bs : List Byte) : (s.writeMem a bs).bt = s.bt := rfl
@[simp] theorem State.writeMem_host (s : State) (a : Nat) (bs : List Byte) : (s.writeMem a bs).host = s.host := rfl
@[simp] theorem State.writeMem_freeCtr (s : State) (a : Nat) (bs : List Byte) : (s.writeMem a bs).freeCtr = s.freeCtr := rfl
@[simp] theorem State.writeMem_pending (s : State) (a : Nat) (bs : List Byte) : (s.writeMem a bs).pending = s.pending := rfl
@[simp] theorem State.port_writeMem (s : State) (a : Nat) (bs : List Byte) (n : Port) : (s.writeMem a bs).port n = s.port n := rfl
@[simp] theorem State.core_writeMem (s : State) (a : Nat) (bs : List Byte) (d : Core) : (s.writeMem a bs).core d = s.core d := rfl

/-! ## What an update changes -/

@[simp] theorem State.port_updPort_same (s : State) (n : Port) (f : PortSt → PortSt) : (s.updPort n f).port n = f (s.port n) := by
  simp [State.port, State.updPort]

@[simp] theorem State.port_updPort_ne (s : State) (n m : Port) (f : PortSt → PortSt) (h : m ≠ n) :
    (s.updPort n f).port m = s.port m := by
  simp [State.port, State.updPort, show ¬(n.val = m.val) from fun e => h (Fin.ext e.symm)]

@[simp] theorem State.core_updCore_same (s : State) (c : Core) (f : CoreSt → CoreSt) : (s.updCore c f).core c = f (s.core c) := by
  simp [State.core, State.updCore]

@[simp] theorem State.core_updCore_ne (s : State) (c d : Core) (f : CoreSt → CoreSt) (h : d ≠ c) :
    (s.updCore c f).core d = s.core d := by
  simp [State.core, State.updCore, show ¬(c.val = d.val) from fun e => h (Fin.ext e.symm)]

@[simp] theorem State.updCounter_same (s : State) (k : Fin 24) (f : Counter → Counter) :
    (s.updCounter k f).tim.counters[k] = f s.tim.counters[k] := by
  simp [State.updCounter]

@[simp] theorem State.port_updPw_same (s : State) (n : Port) (f : PowerSt → PowerSt) :
    ((s.updPw n f).port n).pw = f (s.port n).pw := by simp [State.updPw]
@[simp] theorem State.port_updPw_green (s : State) (n m : Port) (f : PowerSt → PowerSt) :
    ((s.updPw n f).port m).green = (s.port m).green := by
  by_cases h : m = n
  · subst h; simp [State.updPw]
  · simp [State.updPw, h]
@[simp] theorem State.port_updPw_ripe (s : State) (n m : Port) (f : PowerSt → PowerSt) :
    ((s.updPw n f).port m).ripe = (s.port m).ripe := by
  by_cases h : m = n
  · subst h; simp [State.updPw]
  · simp [State.updPw, h]
@[simp] theorem State.port_updPw_me (s : State) (n m : Port) (f : PowerSt → PowerSt) :
    ((s.updPw n f).port m).me = (s.port m).me := by
  by_cases h : m = n
  · subst h; simp [State.updPw]
  · simp [State.updPw, h]
@[simp] theorem State.port_updPw_mo (s : State) (n m : Port) (f : PowerSt → PowerSt) :
    ((s.updPw n f).port m).mo = (s.port m).mo := by
  by_cases h : m = n
  · subst h; simp [State.updPw]
  · simp [State.updPw, h]
@[simp] theorem State.port_updPw_cf (s : State) (n m : Port) (f : PowerSt → PowerSt) :
    ((s.updPw n f).port m).cf = (s.port m).cf := by
  by_cases h : m = n
  · subst h; simp [State.updPw]
  · simp [State.updPw, h]
@[simp] theorem State.port_updPw_ln (s : State) (n m : Port) (f : PowerSt → PowerSt) :
    ((s.updPw n f).port m).ln = (s.port m).ln := by
  by_cases h : m = n
  · subst h; simp [State.updPw]
  · simp [State.updPw, h]
@[simp] theorem State.port_updPw_ct (s : State) (n m : Port) (f : PowerSt → PowerSt) :
    ((s.updPw n f).port m).ct = (s.port m).ct := by
  by_cases h : m = n
  · subst h; simp [State.updPw]
  · simp [State.updPw, h]
@[simp] theorem State.port_updPw_st (s : State) (n m : Port) (f : PowerSt → PowerSt) :
    ((s.updPw n f).port m).st = (s.port m).st := by
  by_cases h : m = n
  · subst h; simp [State.updPw]
  · simp [State.updPw, h]
@[simp] theorem State.port_updPw_wh (s : State) (n m : Port) (f : PowerSt → PowerSt) :
    ((s.updPw n f).port m).wh = (s.port m).wh := by
  by_cases h : m = n
  · subst h; simp [State.updPw]
  · simp [State.updPw, h]
@[simp] theorem State.port_updPw_ne (s : State) (n m : Port) (f : PowerSt → PowerSt) (h : m ≠ n) :
    (s.updPw n f).port m = s.port m := by simp [State.updPw, h]

@[simp] theorem State.port_updCf_same (s : State) (n : Port) (f : CfSt → CfSt) :
    ((s.updCf n f).port n).cf = f (s.port n).cf := by simp [State.updCf]
@[simp] theorem State.port_updCf_green (s : State) (n m : Port) (f : CfSt → CfSt) :
    ((s.updCf n f).port m).green = (s.port m).green := by
  by_cases h : m = n
  · subst h; simp [State.updCf]
  · simp [State.updCf, h]
@[simp] theorem State.port_updCf_ripe (s : State) (n m : Port) (f : CfSt → CfSt) :
    ((s.updCf n f).port m).ripe = (s.port m).ripe := by
  by_cases h : m = n
  · subst h; simp [State.updCf]
  · simp [State.updCf, h]
@[simp] theorem State.port_updCf_pw (s : State) (n m : Port) (f : CfSt → CfSt) :
    ((s.updCf n f).port m).pw = (s.port m).pw := by
  by_cases h : m = n
  · subst h; simp [State.updCf]
  · simp [State.updCf, h]
@[simp] theorem State.port_updCf_me (s : State) (n m : Port) (f : CfSt → CfSt) :
    ((s.updCf n f).port m).me = (s.port m).me := by
  by_cases h : m = n
  · subst h; simp [State.updCf]
  · simp [State.updCf, h]
@[simp] theorem State.port_updCf_mo (s : State) (n m : Port) (f : CfSt → CfSt) :
    ((s.updCf n f).port m).mo = (s.port m).mo := by
  by_cases h : m = n
  · subst h; simp [State.updCf]
  · simp [State.updCf, h]
@[simp] theorem State.port_updCf_ln (s : State) (n m : Port) (f : CfSt → CfSt) :
    ((s.updCf n f).port m).ln = (s.port m).ln := by
  by_cases h : m = n
  · subst h; simp [State.updCf]
  · simp [State.updCf, h]
@[simp] theorem State.port_updCf_ct (s : State) (n m : Port) (f : CfSt → CfSt) :
    ((s.updCf n f).port m).ct = (s.port m).ct := by
  by_cases h : m = n
  · subst h; simp [State.updCf]
  · simp [State.updCf, h]
@[simp] theorem State.port_updCf_st (s : State) (n m : Port) (f : CfSt → CfSt) :
    ((s.updCf n f).port m).st = (s.port m).st := by
  by_cases h : m = n
  · subst h; simp [State.updCf]
  · simp [State.updCf, h]
@[simp] theorem State.port_updCf_wh (s : State) (n m : Port) (f : CfSt → CfSt) :
    ((s.updCf n f).port m).wh = (s.port m).wh := by
  by_cases h : m = n
  · subst h; simp [State.updCf]
  · simp [State.updCf, h]
@[simp] theorem State.port_updCf_ne (s : State) (n m : Port) (f : CfSt → CfSt) (h : m ≠ n) :
    (s.updCf n f).port m = s.port m := by simp [State.updCf, h]

@[simp] theorem State.port_updLn_same (s : State) (n : Port) (f : LineSt → LineSt) :
    ((s.updLn n f).port n).ln = f (s.port n).ln := by simp [State.updLn]
@[simp] theorem State.port_updLn_green (s : State) (n m : Port) (f : LineSt → LineSt) :
    ((s.updLn n f).port m).green = (s.port m).green := by
  by_cases h : m = n
  · subst h; simp [State.updLn]
  · simp [State.updLn, h]
@[simp] theorem State.port_updLn_ripe (s : State) (n m : Port) (f : LineSt → LineSt) :
    ((s.updLn n f).port m).ripe = (s.port m).ripe := by
  by_cases h : m = n
  · subst h; simp [State.updLn]
  · simp [State.updLn, h]
@[simp] theorem State.port_updLn_pw (s : State) (n m : Port) (f : LineSt → LineSt) :
    ((s.updLn n f).port m).pw = (s.port m).pw := by
  by_cases h : m = n
  · subst h; simp [State.updLn]
  · simp [State.updLn, h]
@[simp] theorem State.port_updLn_me (s : State) (n m : Port) (f : LineSt → LineSt) :
    ((s.updLn n f).port m).me = (s.port m).me := by
  by_cases h : m = n
  · subst h; simp [State.updLn]
  · simp [State.updLn, h]
@[simp] theorem State.port_updLn_mo (s : State) (n m : Port) (f : LineSt → LineSt) :
    ((s.updLn n f).port m).mo = (s.port m).mo := by
  by_cases h : m = n
  · subst h; simp [State.updLn]
  · simp [State.updLn, h]
@[simp] theorem State.port_updLn_cf (s : State) (n m : Port) (f : LineSt → LineSt) :
    ((s.updLn n f).port m).cf = (s.port m).cf := by
  by_cases h : m = n
  · subst h; simp [State.updLn]
  · simp [State.updLn, h]
@[simp] theorem State.port_updLn_ct (s : State) (n m : Port) (f : LineSt → LineSt) :
    ((s.updLn n f).port m).ct = (s.port m).ct := by
  by_cases h : m = n
  · subst h; simp [State.updLn]
  · simp [State.updLn, h]
@[simp] theorem State.port_updLn_st (s : State) (n m : Port) (f : LineSt → LineSt) :
    ((s.updLn n f).port m).st = (s.port m).st := by
  by_cases h : m = n
  · subst h; simp [State.updLn]
  · simp [State.updLn, h]
@[simp] theorem State.port_updLn_wh (s : State) (n m : Port) (f : LineSt → LineSt) :
    ((s.updLn n f).port m).wh = (s.port m).wh := by
  by_cases h : m = n
  · subst h; simp [State.updLn]
  · simp [State.updLn, h]
@[simp] theorem State.port_updLn_ne (s : State) (n m : Port) (f : LineSt → LineSt) (h : m ≠ n) :
    (s.updLn n f).port m = s.port m := by simp [State.updLn, h]

@[simp] theorem State.port_updCt_same (s : State) (n : Port) (f : ContractSt → ContractSt) :
    ((s.updCt n f).port n).ct = f (s.port n).ct := by simp [State.updCt]
@[simp] theorem State.port_updCt_green (s : State) (n m : Port) (f : ContractSt → ContractSt) :
    ((s.updCt n f).port m).green = (s.port m).green := by
  by_cases h : m = n
  · subst h; simp [State.updCt]
  · simp [State.updCt, h]
@[simp] theorem State.port_updCt_ripe (s : State) (n m : Port) (f : ContractSt → ContractSt) :
    ((s.updCt n f).port m).ripe = (s.port m).ripe := by
  by_cases h : m = n
  · subst h; simp [State.updCt]
  · simp [State.updCt, h]
@[simp] theorem State.port_updCt_pw (s : State) (n m : Port) (f : ContractSt → ContractSt) :
    ((s.updCt n f).port m).pw = (s.port m).pw := by
  by_cases h : m = n
  · subst h; simp [State.updCt]
  · simp [State.updCt, h]
@[simp] theorem State.port_updCt_me (s : State) (n m : Port) (f : ContractSt → ContractSt) :
    ((s.updCt n f).port m).me = (s.port m).me := by
  by_cases h : m = n
  · subst h; simp [State.updCt]
  · simp [State.updCt, h]
@[simp] theorem State.port_updCt_mo (s : State) (n m : Port) (f : ContractSt → ContractSt) :
    ((s.updCt n f).port m).mo = (s.port m).mo := by
  by_cases h : m = n
  · subst h; simp [State.updCt]
  · simp [State.updCt, h]
@[simp] theorem State.port_updCt_cf (s : State) (n m : Port) (f : ContractSt → ContractSt) :
    ((s.updCt n f).port m).cf = (s.port m).cf := by
  by_cases h : m = n
  · subst h; simp [State.updCt]
  · simp [State.updCt, h]
@[simp] theorem State.port_updCt_ln (s : State) (n m : Port) (f : ContractSt → ContractSt) :
    ((s.updCt n f).port m).ln = (s.port m).ln := by
  by_cases h : m = n
  · subst h; simp [State.updCt]
  · simp [State.updCt, h]
@[simp] theorem State.port_updCt_st (s : State) (n m : Port) (f : ContractSt → ContractSt) :
    ((s.updCt n f).port m).st = (s.port m).st := by
  by_cases h : m = n
  · subst h; simp [State.updCt]
  · simp [State.updCt, h]
@[simp] theorem State.port_updCt_wh (s : State) (n m : Port) (f : ContractSt → ContractSt) :
    ((s.updCt n f).port m).wh = (s.port m).wh := by
  by_cases h : m = n
  · subst h; simp [State.updCt]
  · simp [State.updCt, h]
@[simp] theorem State.port_updCt_ne (s : State) (n m : Port) (f : ContractSt → ContractSt) (h : m ≠ n) :
    (s.updCt n f).port m = s.port m := by simp [State.updCt, h]

@[simp] theorem State.port_updSt_same (s : State) (n : Port) (f : StageSt → StageSt) :
    ((s.updSt n f).port n).st = f (s.port n).st := by simp [State.updSt]
@[simp] theorem State.port_updSt_green (s : State) (n m : Port) (f : StageSt → StageSt) :
    ((s.updSt n f).port m).green = (s.port m).green := by
  by_cases h : m = n
  · subst h; simp [State.updSt]
  · simp [State.updSt, h]
@[simp] theorem State.port_updSt_ripe (s : State) (n m : Port) (f : StageSt → StageSt) :
    ((s.updSt n f).port m).ripe = (s.port m).ripe := by
  by_cases h : m = n
  · subst h; simp [State.updSt]
  · simp [State.updSt, h]
@[simp] theorem State.port_updSt_pw (s : State) (n m : Port) (f : StageSt → StageSt) :
    ((s.updSt n f).port m).pw = (s.port m).pw := by
  by_cases h : m = n
  · subst h; simp [State.updSt]
  · simp [State.updSt, h]
@[simp] theorem State.port_updSt_me (s : State) (n m : Port) (f : StageSt → StageSt) :
    ((s.updSt n f).port m).me = (s.port m).me := by
  by_cases h : m = n
  · subst h; simp [State.updSt]
  · simp [State.updSt, h]
@[simp] theorem State.port_updSt_mo (s : State) (n m : Port) (f : StageSt → StageSt) :
    ((s.updSt n f).port m).mo = (s.port m).mo := by
  by_cases h : m = n
  · subst h; simp [State.updSt]
  · simp [State.updSt, h]
@[simp] theorem State.port_updSt_cf (s : State) (n m : Port) (f : StageSt → StageSt) :
    ((s.updSt n f).port m).cf = (s.port m).cf := by
  by_cases h : m = n
  · subst h; simp [State.updSt]
  · simp [State.updSt, h]
@[simp] theorem State.port_updSt_ln (s : State) (n m : Port) (f : StageSt → StageSt) :
    ((s.updSt n f).port m).ln = (s.port m).ln := by
  by_cases h : m = n
  · subst h; simp [State.updSt]
  · simp [State.updSt, h]
@[simp] theorem State.port_updSt_ct (s : State) (n m : Port) (f : StageSt → StageSt) :
    ((s.updSt n f).port m).ct = (s.port m).ct := by
  by_cases h : m = n
  · subst h; simp [State.updSt]
  · simp [State.updSt, h]
@[simp] theorem State.port_updSt_wh (s : State) (n m : Port) (f : StageSt → StageSt) :
    ((s.updSt n f).port m).wh = (s.port m).wh := by
  by_cases h : m = n
  · subst h; simp [State.updSt]
  · simp [State.updSt, h]
@[simp] theorem State.port_updSt_ne (s : State) (n m : Port) (f : StageSt → StageSt) (h : m ≠ n) :
    (s.updSt n f).port m = s.port m := by simp [State.updSt, h]

@[simp] theorem State.port_updWh_same (s : State) (n : Port) (f : WheelSt → WheelSt) :
    ((s.updWh n f).port n).wh = f (s.port n).wh := by simp [State.updWh]
@[simp] theorem State.port_updWh_green (s : State) (n m : Port) (f : WheelSt → WheelSt) :
    ((s.updWh n f).port m).green = (s.port m).green := by
  by_cases h : m = n
  · subst h; simp [State.updWh]
  · simp [State.updWh, h]
@[simp] theorem State.port_updWh_ripe (s : State) (n m : Port) (f : WheelSt → WheelSt) :
    ((s.updWh n f).port m).ripe = (s.port m).ripe := by
  by_cases h : m = n
  · subst h; simp [State.updWh]
  · simp [State.updWh, h]
@[simp] theorem State.port_updWh_pw (s : State) (n m : Port) (f : WheelSt → WheelSt) :
    ((s.updWh n f).port m).pw = (s.port m).pw := by
  by_cases h : m = n
  · subst h; simp [State.updWh]
  · simp [State.updWh, h]
@[simp] theorem State.port_updWh_me (s : State) (n m : Port) (f : WheelSt → WheelSt) :
    ((s.updWh n f).port m).me = (s.port m).me := by
  by_cases h : m = n
  · subst h; simp [State.updWh]
  · simp [State.updWh, h]
@[simp] theorem State.port_updWh_mo (s : State) (n m : Port) (f : WheelSt → WheelSt) :
    ((s.updWh n f).port m).mo = (s.port m).mo := by
  by_cases h : m = n
  · subst h; simp [State.updWh]
  · simp [State.updWh, h]
@[simp] theorem State.port_updWh_cf (s : State) (n m : Port) (f : WheelSt → WheelSt) :
    ((s.updWh n f).port m).cf = (s.port m).cf := by
  by_cases h : m = n
  · subst h; simp [State.updWh]
  · simp [State.updWh, h]
@[simp] theorem State.port_updWh_ln (s : State) (n m : Port) (f : WheelSt → WheelSt) :
    ((s.updWh n f).port m).ln = (s.port m).ln := by
  by_cases h : m = n
  · subst h; simp [State.updWh]
  · simp [State.updWh, h]
@[simp] theorem State.port_updWh_ct (s : State) (n m : Port) (f : WheelSt → WheelSt) :
    ((s.updWh n f).port m).ct = (s.port m).ct := by
  by_cases h : m = n
  · subst h; simp [State.updWh]
  · simp [State.updWh, h]
@[simp] theorem State.port_updWh_st (s : State) (n m : Port) (f : WheelSt → WheelSt) :
    ((s.updWh n f).port m).st = (s.port m).st := by
  by_cases h : m = n
  · subst h; simp [State.updWh]
  · simp [State.updWh, h]
@[simp] theorem State.port_updWh_ne (s : State) (n m : Port) (f : WheelSt → WheelSt) (h : m ≠ n) :
    (s.updWh n f).port m = s.port m := by simp [State.updWh, h]

@[simp] theorem State.port_updMo_same (s : State) (n : Port) (f : MoistSt → MoistSt) :
    ((s.updMo n f).port n).mo = f (s.port n).mo := by simp [State.updMo]
@[simp] theorem State.port_updMo_green (s : State) (n m : Port) (f : MoistSt → MoistSt) :
    ((s.updMo n f).port m).green = (s.port m).green := by
  by_cases h : m = n
  · subst h; simp [State.updMo]
  · simp [State.updMo, h]
@[simp] theorem State.port_updMo_ripe (s : State) (n m : Port) (f : MoistSt → MoistSt) :
    ((s.updMo n f).port m).ripe = (s.port m).ripe := by
  by_cases h : m = n
  · subst h; simp [State.updMo]
  · simp [State.updMo, h]
@[simp] theorem State.port_updMo_pw (s : State) (n m : Port) (f : MoistSt → MoistSt) :
    ((s.updMo n f).port m).pw = (s.port m).pw := by
  by_cases h : m = n
  · subst h; simp [State.updMo]
  · simp [State.updMo, h]
@[simp] theorem State.port_updMo_me (s : State) (n m : Port) (f : MoistSt → MoistSt) :
    ((s.updMo n f).port m).me = (s.port m).me := by
  by_cases h : m = n
  · subst h; simp [State.updMo]
  · simp [State.updMo, h]
@[simp] theorem State.port_updMo_cf (s : State) (n m : Port) (f : MoistSt → MoistSt) :
    ((s.updMo n f).port m).cf = (s.port m).cf := by
  by_cases h : m = n
  · subst h; simp [State.updMo]
  · simp [State.updMo, h]
@[simp] theorem State.port_updMo_ln (s : State) (n m : Port) (f : MoistSt → MoistSt) :
    ((s.updMo n f).port m).ln = (s.port m).ln := by
  by_cases h : m = n
  · subst h; simp [State.updMo]
  · simp [State.updMo, h]
@[simp] theorem State.port_updMo_ct (s : State) (n m : Port) (f : MoistSt → MoistSt) :
    ((s.updMo n f).port m).ct = (s.port m).ct := by
  by_cases h : m = n
  · subst h; simp [State.updMo]
  · simp [State.updMo, h]
@[simp] theorem State.port_updMo_st (s : State) (n m : Port) (f : MoistSt → MoistSt) :
    ((s.updMo n f).port m).st = (s.port m).st := by
  by_cases h : m = n
  · subst h; simp [State.updMo]
  · simp [State.updMo, h]
@[simp] theorem State.port_updMo_wh (s : State) (n m : Port) (f : MoistSt → MoistSt) :
    ((s.updMo n f).port m).wh = (s.port m).wh := by
  by_cases h : m = n
  · subst h; simp [State.updMo]
  · simp [State.updMo, h]
@[simp] theorem State.port_updMo_ne (s : State) (n m : Port) (f : MoistSt → MoistSt) (h : m ≠ n) :
    (s.updMo n f).port m = s.port m := by simp [State.updMo, h]

@[simp] theorem State.port_updMe_same (s : State) (n : Port) (f : MeterSt → MeterSt) :
    ((s.updMe n f).port n).me = f (s.port n).me := by simp [State.updMe]
@[simp] theorem State.port_updMe_green (s : State) (n m : Port) (f : MeterSt → MeterSt) :
    ((s.updMe n f).port m).green = (s.port m).green := by
  by_cases h : m = n
  · subst h; simp [State.updMe]
  · simp [State.updMe, h]
@[simp] theorem State.port_updMe_ripe (s : State) (n m : Port) (f : MeterSt → MeterSt) :
    ((s.updMe n f).port m).ripe = (s.port m).ripe := by
  by_cases h : m = n
  · subst h; simp [State.updMe]
  · simp [State.updMe, h]
@[simp] theorem State.port_updMe_pw (s : State) (n m : Port) (f : MeterSt → MeterSt) :
    ((s.updMe n f).port m).pw = (s.port m).pw := by
  by_cases h : m = n
  · subst h; simp [State.updMe]
  · simp [State.updMe, h]
@[simp] theorem State.port_updMe_mo (s : State) (n m : Port) (f : MeterSt → MeterSt) :
    ((s.updMe n f).port m).mo = (s.port m).mo := by
  by_cases h : m = n
  · subst h; simp [State.updMe]
  · simp [State.updMe, h]
@[simp] theorem State.port_updMe_cf (s : State) (n m : Port) (f : MeterSt → MeterSt) :
    ((s.updMe n f).port m).cf = (s.port m).cf := by
  by_cases h : m = n
  · subst h; simp [State.updMe]
  · simp [State.updMe, h]
@[simp] theorem State.port_updMe_ln (s : State) (n m : Port) (f : MeterSt → MeterSt) :
    ((s.updMe n f).port m).ln = (s.port m).ln := by
  by_cases h : m = n
  · subst h; simp [State.updMe]
  · simp [State.updMe, h]
@[simp] theorem State.port_updMe_ct (s : State) (n m : Port) (f : MeterSt → MeterSt) :
    ((s.updMe n f).port m).ct = (s.port m).ct := by
  by_cases h : m = n
  · subst h; simp [State.updMe]
  · simp [State.updMe, h]
@[simp] theorem State.port_updMe_st (s : State) (n m : Port) (f : MeterSt → MeterSt) :
    ((s.updMe n f).port m).st = (s.port m).st := by
  by_cases h : m = n
  · subst h; simp [State.updMe]
  · simp [State.updMe, h]
@[simp] theorem State.port_updMe_wh (s : State) (n m : Port) (f : MeterSt → MeterSt) :
    ((s.updMe n f).port m).wh = (s.port m).wh := by
  by_cases h : m = n
  · subst h; simp [State.updMe]
  · simp [State.updMe, h]
@[simp] theorem State.port_updMe_ne (s : State) (n m : Port) (f : MeterSt → MeterSt) (h : m ≠ n) :
    (s.updMe n f).port m = s.port m := by simp [State.updMe, h]

/-! ## The clock and the free values -/

@[simp] theorem State.at_evq (s : State) (t : Nat) : (s.at t).evq = s.evq := by unfold State.at; split <;> rfl
@[simp] theorem State.at_dev (s : State) (t : Nat) : (s.at t).dev = s.dev := by unfold State.at; split <;> rfl
@[simp] theorem State.at_cores (s : State) (t : Nat) : (s.at t).cores = s.cores := by unfold State.at; split <;> rfl
@[simp] theorem State.at_ports (s : State) (t : Nat) : (s.at t).ports = s.ports := by unfold State.at; split <;> rfl
@[simp] theorem State.at_led (s : State) (t : Nat) : (s.at t).led = s.led := by unfold State.at; split <;> rfl
@[simp] theorem State.at_tim (s : State) (t : Nat) : (s.at t).tim = s.tim := by unfold State.at; split <;> rfl
@[simp] theorem State.at_fd (s : State) (t : Nat) : (s.at t).fd = s.fd := by unfold State.at; split <;> rfl
@[simp] theorem State.at_th (s : State) (t : Nat) : (s.at t).th = s.th := by unfold State.at; split <;> rfl
@[simp] theorem State.at_stone (s : State) (t : Nat) : (s.at t).stone = s.stone := by unfold State.at; split <;> rfl
@[simp] theorem State.at_bt (s : State) (t : Nat) : (s.at t).bt = s.bt := by unfold State.at; split <;> rfl
@[simp] theorem State.at_host (s : State) (t : Nat) : (s.at t).host = s.host := by unfold State.at; split <;> rfl
@[simp] theorem State.at_mem (s : State) (t : Nat) : (s.at t).mem = s.mem := by unfold State.at; split <;> rfl
@[simp] theorem State.at_freeCtr (s : State) (t : Nat) : (s.at t).freeCtr = s.freeCtr := by unfold State.at; split <;> rfl
@[simp] theorem State.at_pending (s : State) (t : Nat) : (s.at t).pending = s.pending := by unfold State.at; split <;> rfl
@[simp] theorem State.port_at (s : State) (t : Nat) (n : Port) : (s.at t).port n = s.port n := by simp [State.port]
@[simp] theorem State.core_at (s : State) (t : Nat) (c : Core) : (s.at t).core c = s.core c := by simp [State.core]
@[simp] theorem State.at_cc (s : State) (t : Nat) : (s.at t).cc = max s.cc t := by unfold State.at; split <;> simp <;> omega

@[simp] theorem State.free_cc (s : State) : s.free.2.cc = s.cc := rfl
@[simp] theorem State.free_evq (s : State) : s.free.2.evq = s.evq := rfl
@[simp] theorem State.free_dev (s : State) : s.free.2.dev = s.dev := rfl
@[simp] theorem State.free_cores (s : State) : s.free.2.cores = s.cores := rfl
@[simp] theorem State.free_ports (s : State) : s.free.2.ports = s.ports := rfl
@[simp] theorem State.free_led (s : State) : s.free.2.led = s.led := rfl
@[simp] theorem State.free_tim (s : State) : s.free.2.tim = s.tim := rfl
@[simp] theorem State.free_fd (s : State) : s.free.2.fd = s.fd := rfl
@[simp] theorem State.free_th (s : State) : s.free.2.th = s.th := rfl
@[simp] theorem State.free_stone (s : State) : s.free.2.stone = s.stone := rfl
@[simp] theorem State.free_bt (s : State) : s.free.2.bt = s.bt := rfl
@[simp] theorem State.free_host (s : State) : s.free.2.host = s.host := rfl
@[simp] theorem State.free_mem (s : State) : s.free.2.mem = s.mem := rfl
@[simp] theorem State.free_pending (s : State) : s.free.2.pending = s.pending := rfl
@[simp] theorem State.free_freeCtr (s : State) : s.free.2.freeCtr = s.freeCtr + 1 := rfl

@[simp] theorem State.freeB_cc (s : State) : s.freeB.2.cc = s.cc := rfl
@[simp] theorem State.freeB_evq (s : State) : s.freeB.2.evq = s.evq := rfl
@[simp] theorem State.freeB_dev (s : State) : s.freeB.2.dev = s.dev := rfl
@[simp] theorem State.freeB_cores (s : State) : s.freeB.2.cores = s.cores := rfl
@[simp] theorem State.freeB_ports (s : State) : s.freeB.2.ports = s.ports := rfl
@[simp] theorem State.freeB_led (s : State) : s.freeB.2.led = s.led := rfl
@[simp] theorem State.freeB_tim (s : State) : s.freeB.2.tim = s.tim := rfl
@[simp] theorem State.freeB_fd (s : State) : s.freeB.2.fd = s.fd := rfl
@[simp] theorem State.freeB_th (s : State) : s.freeB.2.th = s.th := rfl
@[simp] theorem State.freeB_stone (s : State) : s.freeB.2.stone = s.stone := rfl
@[simp] theorem State.freeB_bt (s : State) : s.freeB.2.bt = s.bt := rfl
@[simp] theorem State.freeB_host (s : State) : s.freeB.2.host = s.host := rfl
@[simp] theorem State.freeB_mem (s : State) : s.freeB.2.mem = s.mem := rfl
@[simp] theorem State.freeB_pending (s : State) : s.freeB.2.pending = s.pending := rfl
@[simp] theorem State.freeB_freeCtr (s : State) : s.freeB.2.freeCtr = s.freeCtr + 1 := rfl

end Sys2Proof.Machine
end

