-- ==== Sys2Proof/Laws/Memory.lean ====
section
/-! SUPPORT. The memory: a read after a write, and that every memory operation keeps the canonical form. -/

namespace Sys2Proof.Machine

/-! ## A read after a write -/

theorem memRead_of_absent (m : Memory) (a : Nat) (h : ∀ c ∈ m, c.1 ≠ a) : memRead m a = memDefault a := by
  induction m with
  | nil => rfl
  | cons c m ih =>
    have h1 : c.1 ≠ a := h c (by simp)
    have h2 := ih fun d hd => h d (by simp [hd])
    simp [memRead, h1, h2]

theorem memRead_memInsert (m : Memory) (a x : Nat) (b : Byte) :
    memRead (memInsert a b m) x = if x = a then b else memRead m x := by
  induction m with
  | nil => by_cases h : a = x
           · subst h; simp [memInsert, memRead]
           · simp [memInsert, memRead, h, Ne.symm h]
  | cons c m ih =>
    obtain ⟨k, d⟩ := c
    unfold memInsert
    split
    · by_cases h : a = x
      · subst h; simp [memRead]
      · simp [memRead, h, Ne.symm h]
    · split
      · rename_i hk
        subst hk
        by_cases h : k = x
        · subst h; simp [memRead]
        · simp [memRead, h, Ne.symm h]
      · rename_i hk
        by_cases h : k = x
        · subst h; simp [memRead, hk]
        · simp [memRead, h, ih]

theorem memErase_absent (m : Memory) (a : Nat) (h : m.Pairwise fun x y => x.1 < y.1) : ∀ c ∈ memErase a m, c.1 ≠ a := by
  induction m with
  | nil => simp [memErase]
  | cons c m ih =>
    obtain ⟨k, d⟩ := c
    rw [List.pairwise_cons] at h
    unfold memErase
    split
    · rename_i hk
      intro e he
      have := h.1 e he
      simp only at this
      omega
    · rename_i hk
      intro e he
      rcases List.mem_cons.mp he with rfl | he
      · exact hk
      · exact ih h.2 e he

theorem memRead_memErase (m : Memory) (a x : Nat) (h : m.Pairwise fun x y => x.1 < y.1) :
    memRead (memErase a m) x = if x = a then memDefault a else memRead m x := by
  by_cases hx : x = a
  · subst hx
    simpa using memRead_of_absent _ _ (memErase_absent m x h)
  · rw [if_neg hx]
    clear h
    induction m with
    | nil => simp [memErase, memRead]
    | cons c m ih =>
      obtain ⟨k, d⟩ := c
      unfold memErase
      split
      · rename_i hk
        subst hk
        simp [memRead, Ne.symm hx]
      · simp [memRead, ih]

/-- A read after a write: the byte written at its address, the old byte everywhere else. -/
theorem memRead_memWrite (m : Memory) (a x : Nat) (b : Byte) (h : m.Pairwise fun x y => x.1 < y.1) :
    memRead (memWrite m a b) x = if x = a then b else memRead m x := by
  unfold memWrite
  split
  · rename_i hb
    rw [memRead_memErase m a x h, hb]
  · exact memRead_memInsert m a x b

/-! ## The canonical form -/

theorem memErase_mem (m : Memory) (a : Nat) : ∀ c ∈ memErase a m, c ∈ m := by
  induction m with
  | nil => simp [memErase]
  | cons c m ih =>
    obtain ⟨k, d⟩ := c
    unfold memErase
    split
    · intro e he; exact List.mem_cons_of_mem _ he
    · intro e he
      rcases List.mem_cons.mp he with rfl | he
      · simp
      · exact List.mem_cons_of_mem _ (ih e he)

theorem memInsert_mem (m : Memory) (a : Nat) (b : Byte) : ∀ c ∈ memInsert a b m, c = (a, b) ∨ c ∈ m := by
  induction m with
  | nil => simp [memInsert]
  | cons c m ih =>
    obtain ⟨k, d⟩ := c
    unfold memInsert
    split
    · intro e he; rcases List.mem_cons.mp he with rfl | he <;> simp_all
    · split
      · intro e he; rcases List.mem_cons.mp he with rfl | he <;> simp_all
      · intro e he
        rcases List.mem_cons.mp he with rfl | he
        · simp
        · rcases ih e he with h | h <;> simp [h]

theorem memErase_sorted (m : Memory) (a : Nat) (h : m.Pairwise fun x y => x.1 < y.1) :
    (memErase a m).Pairwise fun x y => x.1 < y.1 := by
  induction m with
  | nil => simp [memErase]
  | cons c m ih =>
    obtain ⟨k, d⟩ := c
    rw [List.pairwise_cons] at h
    unfold memErase
    split
    · exact h.2
    · exact List.pairwise_cons.mpr ⟨fun e he => h.1 e (memErase_mem m a e he), ih h.2⟩

theorem memInsert_sorted (m : Memory) (a : Nat) (b : Byte) (h : m.Pairwise fun x y => x.1 < y.1) :
    (memInsert a b m).Pairwise fun x y => x.1 < y.1 := by
  induction m with
  | nil => simp [memInsert]
  | cons c m ih =>
    obtain ⟨k, d⟩ := c
    have hh := h
    rw [List.pairwise_cons] at h
    unfold memInsert
    split
    · rename_i hk
      refine List.pairwise_cons.mpr ⟨fun e he => ?_, hh⟩
      rcases List.mem_cons.mp he with rfl | he
      · exact hk
      · exact lt_trans hk (h.1 e he)
    · split
      · rename_i hk
        subst hk
        exact List.pairwise_cons.mpr ⟨h.1, h.2⟩
      · rename_i h1 h2
        refine List.pairwise_cons.mpr ⟨fun e he => ?_, ih h.2⟩
        rcases memInsert_mem m a b e he with rfl | he
        · simp only; omega
        · exact h.1 e he

/-- Writing a byte keeps the canonical form. -/
theorem memWrite_wf (m : Memory) (a : Nat) (b : Byte) (h : Memory.wf m) : Memory.wf (memWrite m a b) := by
  unfold memWrite
  split
  · exact ⟨memErase_sorted m a h.1, fun c hc => h.2 c (memErase_mem m a c hc)⟩
  · rename_i hb
    refine ⟨memInsert_sorted m a b h.1, fun c hc => ?_⟩
    rcases memInsert_mem m a b c hc with rfl | hc
    · exact hb
    · exact h.2 c hc

/-- Writing bytes keeps the canonical form. -/
theorem memWriteN_wf (bs : List Byte) : ∀ (m : Memory) (a : Nat), Memory.wf m → Memory.wf (memWriteN m a bs) := by
  induction bs with
  | nil => intro m a h; exact h
  | cons b bs ih => intro m a h; exact ih _ _ (memWrite_wf m a b h)

/-- Writing a word keeps the canonical form. -/
theorem memWriteWord_wf (m : Memory) (a : Nat) (w : Word) (h : Memory.wf m) : Memory.wf (memWriteWord m a w) :=
  memWriteN_wf _ m a h

/-- Exchanging two blocks keeps the canonical form. -/
theorem memExchange_wf (m : Memory) (a b len : Nat) (h : Memory.wf m) : Memory.wf (memExchange m a b len) :=
  memWriteN_wf _ _ _ (memWriteN_wf _ _ _ h)

/-- A store to shared SRAM keeps the canonical form. -/
theorem sramPut_wf (bs : List Byte) : ∀ (m : Memory) (a : Nat), Memory.wf m → Memory.wf (sramPut a bs m) := by
  induction bs with
  | nil => intro m a h; exact h
  | cons b bs ih =>
    intro m a h
    refine ih _ _ ?_
    split
    · exact h
    · exact memWrite_wf m a b h

/-- A store to a Y bank keeps the canonical form. -/
theorem writeY_wf (bs : List Byte) : ∀ (s : State) (a : Nat), Memory.wf s.mem → Memory.wf (writeY a bs s).mem := by
  induction bs with
  | nil => intro s a h; exact h
  | cons b bs ih =>
    intro s a h
    refine ih _ _ ?_
    split
    · exact memWrite_wf s.mem a b h
    · exact h

/-- Leaving cells out keeps the canonical form. -/
theorem filter_wf (m : Memory) (p : Host.Cell → Bool) (h : Memory.wf m) : Memory.wf (m.filter p) :=
  ⟨h.1.filter _, fun c hc => h.2 c (List.mem_of_mem_filter hc)⟩

/-- Clearing a block keeps the canonical form. -/
theorem clearMem_wf (s : State) (a len : Nat) (h : Memory.wf s.mem) : Memory.wf (clearMem a len s).mem := filter_wf _ _ h

/-- The memory after reset is in canonical form. -/
theorem reset_mem_wf : Memory.wf State.reset.mem := by
  constructor <;> simp [State.reset]

/-! ## Blocks of bytes -/

/-- The bytes outside a block that is written read as before. -/
theorem memRead_memWriteN_out (bs : List Byte) : ∀ (m : Memory) (a x : Nat), Memory.wf m → x < a ∨ a + bs.length ≤ x →
    memRead (memWriteN m a bs) x = memRead m x := by
  induction bs with
  | nil => intro m a x _ _; rfl
  | cons b bs ih =>
    intro m a x h hx
    simp only [List.length_cons] at hx
    rw [memWriteN, ih _ _ _ (memWrite_wf m a b h) (by omega), memRead_memWrite m a x b h.1, if_neg (by omega)]

/-- A block that is written reads back. -/
theorem memReadN_memWriteN (bs : List Byte) : ∀ (m : Memory) (a : Nat), Memory.wf m →
    memReadN (memWriteN m a bs) a bs.length = bs := by
  induction bs with
  | nil => intro m a _; rfl
  | cons b bs ih =>
    intro m a h
    rw [List.length_cons, memReadN, memWriteN, ih _ _ (memWrite_wf m a b h),
      memRead_memWriteN_out bs _ _ _ (memWrite_wf m a b h) (by omega), memRead_memWrite m a a b h.1, if_pos rfl]

/-- Bytes read outside a block that is written. -/
theorem memReadN_memWriteN_out (k : Nat) : ∀ (m : Memory) (a x : Nat) (bs : List Byte), Memory.wf m →
    x + k ≤ a ∨ a + bs.length ≤ x → memReadN (memWriteN m a bs) x k = memReadN m x k := by
  induction k with
  | zero => intro m a x bs _ _; rfl
  | succ k ih =>
    intro m a x bs h hx
    rw [memReadN, memReadN, memRead_memWriteN_out bs m a x h (by omega), ih m a (x + 1) bs h (by omega)]

/-- Host memory writes of the state keep the canonical form. -/
theorem State.writeMem_wf (s : State) (a : Nat) (bs : List Byte) (h : Memory.wf s.mem) : Memory.wf (s.writeMem a bs).mem :=
  memWriteN_wf _ _ _ h

end Sys2Proof.Machine
end

