-- ==== Sys2Proof/Laws/Events.lean ====
section
/-! SUPPORT. Firing events and writing them to the rings: what each leaves alone, once for all commands. -/

namespace Sys2Proof.Machine

/-! ## One event into the rings -/

@[simp] theorem State.writeEvent_cc (s : State) (e arg : Nat) : (s.writeEvent e arg).cc = s.cc := by
  unfold State.writeEvent; simp only []; split <;> (try split) <;> rfl
@[simp] theorem State.writeEvent_evq (s : State) (e arg : Nat) : (s.writeEvent e arg).evq = s.evq := by
  unfold State.writeEvent; simp only []; split <;> (try split) <;> rfl
@[simp] theorem State.writeEvent_dev (s : State) (e arg : Nat) : (s.writeEvent e arg).dev = s.dev := by
  unfold State.writeEvent; simp only []; split <;> (try split) <;> rfl
@[simp] theorem State.writeEvent_cores (s : State) (e arg : Nat) : (s.writeEvent e arg).cores = s.cores := by
  unfold State.writeEvent; simp only []; split <;> (try split) <;> rfl
@[simp] theorem State.writeEvent_ports (s : State) (e arg : Nat) : (s.writeEvent e arg).ports = s.ports := by
  unfold State.writeEvent; simp only []; split <;> (try split) <;> rfl
@[simp] theorem State.writeEvent_led (s : State) (e arg : Nat) : (s.writeEvent e arg).led = s.led := by
  unfold State.writeEvent; simp only []; split <;> (try split) <;> rfl
@[simp] theorem State.writeEvent_tim (s : State) (e arg : Nat) : (s.writeEvent e arg).tim = s.tim := by
  unfold State.writeEvent; simp only []; split <;> (try split) <;> rfl
@[simp] theorem State.writeEvent_fd (s : State) (e arg : Nat) : (s.writeEvent e arg).fd = s.fd := by
  unfold State.writeEvent; simp only []; split <;> (try split) <;> rfl
@[simp] theorem State.writeEvent_th (s : State) (e arg : Nat) : (s.writeEvent e arg).th = s.th := by
  unfold State.writeEvent; simp only []; split <;> (try split) <;> rfl
@[simp] theorem State.writeEvent_stone (s : State) (e arg : Nat) : (s.writeEvent e arg).stone = s.stone := by
  unfold State.writeEvent; simp only []; split <;> (try split) <;> rfl
@[simp] theorem State.writeEvent_bt (s : State) (e arg : Nat) : (s.writeEvent e arg).bt = s.bt := by
  unfold State.writeEvent; simp only []; split <;> (try split) <;> rfl
@[simp] theorem State.writeEvent_freeCtr (s : State) (e arg : Nat) : (s.writeEvent e arg).freeCtr = s.freeCtr := by
  unfold State.writeEvent; simp only []; split <;> (try split) <;> rfl
@[simp] theorem State.writeEvent_pending (s : State) (e arg : Nat) : (s.writeEvent e arg).pending = s.pending := by
  unfold State.writeEvent; simp only []; split <;> (try split) <;> rfl
@[simp] theorem State.writeEvent_host_portsel (s : State) (e arg : Nat) : (s.writeEvent e arg).host.portsel = s.host.portsel := by
  unfold State.writeEvent; simp only []; split <;> (try split) <;> rfl
@[simp] theorem State.writeEvent_host_winbase (s : State) (e arg : Nat) : (s.writeEvent e arg).host.winbase = s.host.winbase := by
  unfold State.writeEvent; simp only []; split <;> (try split) <;> rfl
@[simp] theorem State.writeEvent_host_bushold (s : State) (e arg : Nat) : (s.writeEvent e arg).host.bushold = s.host.bushold := by
  unfold State.writeEvent; simp only []; split <;> (try split) <;> rfl
@[simp] theorem State.writeEvent_host_bussetup (s : State) (e arg : Nat) : (s.writeEvent e arg).host.bussetup = s.host.bussetup := by
  unfold State.writeEvent; simp only []; split <;> (try split) <;> rfl
@[simp] theorem State.writeEvent_host_busfilt (s : State) (e arg : Nat) : (s.writeEvent e arg).host.busfilt = s.host.busfilt := by
  unfold State.writeEvent; simp only []; split <;> (try split) <;> rfl
@[simp] theorem State.writeEvent_host_busctl (s : State) (e arg : Nat) : (s.writeEvent e arg).host.busctl = s.host.busctl := by
  unfold State.writeEvent; simp only []; split <;> (try split) <;> rfl
@[simp] theorem State.writeEvent_host_errcnt (s : State) (e arg : Nat) : (s.writeEvent e arg).host.errcnt = s.host.errcnt := by
  unfold State.writeEvent; simp only []; split <;> (try split) <;> rfl
@[simp] theorem State.writeEvent_host_errcmd (s : State) (e arg : Nat) : (s.writeEvent e arg).host.errcmd = s.host.errcmd := by
  unfold State.writeEvent; simp only []; split <;> (try split) <;> rfl
@[simp] theorem State.writeEvent_host_errcode (s : State) (e arg : Nat) : (s.writeEvent e arg).host.errcode = s.host.errcode := by
  unfold State.writeEvent; simp only []; split <;> (try split) <;> rfl
@[simp] theorem State.writeEvent_host_evhead (s : State) (e arg : Nat) : (s.writeEvent e arg).host.evhead = s.host.evhead := by
  unfold State.writeEvent; simp only []; split <;> (try split) <;> rfl
@[simp] theorem State.writeEvent_host_even (s : State) (e arg : Nat) : (s.writeEvent e arg).host.even = s.host.even := by
  unfold State.writeEvent; simp only []; split <;> (try split) <;> rfl
@[simp] theorem State.writeEvent_host_sent (s : State) (e arg : Nat) : (s.writeEvent e arg).host.sent = s.host.sent := by
  unfold State.writeEvent; simp only []; split <;> (try split) <;> rfl
@[simp] theorem State.writeEvent_host_nack (s : State) (e arg : Nat) : (s.writeEvent e arg).host.nack = s.host.nack := by
  unfold State.writeEvent; simp only []; split <;> (try split) <;> rfl

@[simp] theorem State.writeEvent_loghead (s : State) (e arg : Nat) : (s.writeEvent e arg).host.loghead = s.host.loghead + 1 := by
  unfold State.writeEvent; simp only []; split <;> (try split) <;> rfl

/-- Writing an event keeps the canonical form. -/
theorem State.writeEvent_wf (s : State) (e arg : Nat) (h : Memory.wf s.mem) : Memory.wf (s.writeEvent e arg).mem := by
  unfold State.writeEvent
  simp only []
  split
  · split
    · exact s.writeMem_wf _ _ h
    · exact memWriteN_wf _ _ _ (s.writeMem_wf _ _ h)
  · exact s.writeMem_wf _ _ h

theorem eventBytes_length (e arg t : Nat) : (eventBytes e arg t).length = 8 := by simp [eventBytes, toBytesLE]

/-- Writing an event touches the two event rings and nothing else in memory (R515, R517). -/
theorem State.writeEvent_read (s : State) (e arg a : Nat) (h : Memory.wf s.mem) (ha : a < 0x3000A000 ∨ 0x3000B800 ≤ a) :
    memRead (s.writeEvent e arg).mem a = memRead s.mem a := by
  have hl := s.host.loghead.isLt
  have h1 := memRead_memWriteN_out (eventBytes e arg s.timeUs) s.mem (0x3000B000 + 8 * s.host.loghead.toNat) a h
    (by rw [eventBytes_length]; omega)
  unfold State.writeEvent
  simp only []
  split
  · split
    · exact h1
    · rw [← h1]
      exact memRead_memWriteN_out _ _ _ _ (s.writeMem_wf _ _ h) (by rw [eventBytes_length]; omega)
  · exact h1

/-- The event's entry stands in the log ring (R515, R517). -/
theorem State.writeEvent_log (s : State) (e arg : Nat) (h : Memory.wf s.mem) :
    (s.writeEvent e arg).readMem (0x3000B000 + 8 * s.host.loghead.toNat) 8 = eventBytes e arg s.timeUs := by
  have hl := s.host.loghead.isLt
  have h0 := memReadN_memWriteN (eventBytes e arg s.timeUs) s.mem (0x3000B000 + 8 * s.host.loghead.toNat) h
  rw [eventBytes_length] at h0
  unfold State.writeEvent
  simp only []
  split
  · split
    · exact h0
    · refine Eq.trans ?_ h0
      exact memReadN_memWriteN_out 8 _ _ _ _ (s.writeMem_wf _ _ h) (by rw [eventBytes_length]; omega)
  · exact h0

/-! ## Writing all events of a command -/

theorem foldl_writeEvent {α : Type} (f : State → α) (h : ∀ s e arg, f (State.writeEvent s e arg) = f s) (l : List (Nat × Nat)) :
    ∀ s : State, f (l.foldl (fun t x => t.writeEvent x.1 x.2) s) = f s := by
  induction l with
  | nil => intro s; rfl
  | cons x l ih => intro s; rw [List.foldl_cons, ih, h]

@[simp] theorem State.flush_evq (s : State) : s.flush.evq = [] := foldl_writeEvent State.evq (by simp) _ _

@[simp] theorem State.flush_cc (s : State) : s.flush.cc = s.cc := foldl_writeEvent State.cc (by simp) _ _
@[simp] theorem State.flush_dev (s : State) : s.flush.dev = s.dev := foldl_writeEvent State.dev (by simp) _ _
@[simp] theorem State.flush_cores (s : State) : s.flush.cores = s.cores := foldl_writeEvent State.cores (by simp) _ _
@[simp] theorem State.flush_ports (s : State) : s.flush.ports = s.ports := foldl_writeEvent State.ports (by simp) _ _
@[simp] theorem State.flush_led (s : State) : s.flush.led = s.led := foldl_writeEvent State.led (by simp) _ _
@[simp] theorem State.flush_tim (s : State) : s.flush.tim = s.tim := foldl_writeEvent State.tim (by simp) _ _
@[simp] theorem State.flush_fd (s : State) : s.flush.fd = s.fd := foldl_writeEvent State.fd (by simp) _ _
@[simp] theorem State.flush_th (s : State) : s.flush.th = s.th := foldl_writeEvent State.th (by simp) _ _
@[simp] theorem State.flush_stone (s : State) : s.flush.stone = s.stone := foldl_writeEvent State.stone (by simp) _ _
@[simp] theorem State.flush_bt (s : State) : s.flush.bt = s.bt := foldl_writeEvent State.bt (by simp) _ _
@[simp] theorem State.flush_freeCtr (s : State) : s.flush.freeCtr = s.freeCtr := foldl_writeEvent State.freeCtr (by simp) _ _
@[simp] theorem State.flush_pending (s : State) : s.flush.pending = s.pending := foldl_writeEvent State.pending (by simp) _ _
@[simp] theorem State.flush_host_portsel (s : State) : s.flush.host.portsel = s.host.portsel :=
  foldl_writeEvent (fun s => s.host.portsel) (by simp) _ _
@[simp] theorem State.flush_host_winbase (s : State) : s.flush.host.winbase = s.host.winbase :=
  foldl_writeEvent (fun s => s.host.winbase) (by simp) _ _
@[simp] theorem State.flush_host_bushold (s : State) : s.flush.host.bushold = s.host.bushold :=
  foldl_writeEvent (fun s => s.host.bushold) (by simp) _ _
@[simp] theorem State.flush_host_bussetup (s : State) : s.flush.host.bussetup = s.host.bussetup :=
  foldl_writeEvent (fun s => s.host.bussetup) (by simp) _ _
@[simp] theorem State.flush_host_busfilt (s : State) : s.flush.host.busfilt = s.host.busfilt :=
  foldl_writeEvent (fun s => s.host.busfilt) (by simp) _ _
@[simp] theorem State.flush_host_busctl (s : State) : s.flush.host.busctl = s.host.busctl :=
  foldl_writeEvent (fun s => s.host.busctl) (by simp) _ _
@[simp] theorem State.flush_host_errcnt (s : State) : s.flush.host.errcnt = s.host.errcnt :=
  foldl_writeEvent (fun s => s.host.errcnt) (by simp) _ _
@[simp] theorem State.flush_host_errcmd (s : State) : s.flush.host.errcmd = s.host.errcmd :=
  foldl_writeEvent (fun s => s.host.errcmd) (by simp) _ _
@[simp] theorem State.flush_host_errcode (s : State) : s.flush.host.errcode = s.host.errcode :=
  foldl_writeEvent (fun s => s.host.errcode) (by simp) _ _
@[simp] theorem State.flush_host_evhead (s : State) : s.flush.host.evhead = s.host.evhead :=
  foldl_writeEvent (fun s => s.host.evhead) (by simp) _ _
@[simp] theorem State.flush_host_even (s : State) : s.flush.host.even = s.host.even :=
  foldl_writeEvent (fun s => s.host.even) (by simp) _ _
@[simp] theorem State.flush_host_sent (s : State) : s.flush.host.sent = s.host.sent :=
  foldl_writeEvent (fun s => s.host.sent) (by simp) _ _
@[simp] theorem State.flush_host_nack (s : State) : s.flush.host.nack = s.host.nack :=
  foldl_writeEvent (fun s => s.host.nack) (by simp) _ _

@[simp] theorem State.port_flush (s : State) (n : Port) : s.flush.port n = s.port n := by simp [State.port]

@[simp] theorem State.core_flush (s : State) (c : Core) : s.flush.core c = s.core c := by simp [State.core]

/-- With nothing fired, writing the events changes nothing. -/
theorem State.flush_nil (s : State) (h : s.evq = []) : s.flush = s := by
  unfold State.flush
  rw [h]
  show ({ s with evq := [] } : State) = s
  rw [← h]

/-- One fired event is written. -/
theorem State.flush_one (s : State) (e arg : Nat) (h : s.evq = [(e, arg)]) :
    s.flush = ({ s with evq := [] } : State).writeEvent e arg := by
  unfold State.flush
  rw [h]
  rfl

/-- Writing the events keeps the canonical form. -/
theorem State.flush_wf (s : State) (h : Memory.wf s.mem) : Memory.wf s.flush.mem := by
  unfold State.flush
  generalize sortEvents s.evq = l
  have : ∀ t : State, Memory.wf t.mem → Memory.wf (l.foldl (fun t x => State.writeEvent t x.1 x.2) t).mem := by
    induction l with
    | nil => intro t ht; exact ht
    | cons x l ih => intro t ht; exact ih _ (t.writeEvent_wf _ _ ht)
  exact this _ h

/-- Writing the events touches the two event rings and nothing else in memory. -/
theorem State.flush_read (s : State) (a : Nat) (h : Memory.wf s.mem) (ha : a < 0x3000A000 ∨ 0x3000B800 ≤ a) :
    memRead s.flush.mem a = memRead s.mem a := by
  unfold State.flush
  generalize sortEvents s.evq = l
  have : ∀ t : State, Memory.wf t.mem →
      memRead (l.foldl (fun t x => State.writeEvent t x.1 x.2) t).mem a = memRead t.mem a := by
    induction l with
    | nil => intro t _; rfl
    | cons x l ih => intro t ht; rw [List.foldl_cons, ih _ (t.writeEvent_wf _ _ ht), t.writeEvent_read _ _ a ht ha]
  exact this _ h

/-! ## Every command ends so -/

/-- What a command answers that ends with `done`: a next state in which no fired event is unwritten. -/
theorem done_next (s t : State) (h : done s = .next t) : t = s.flush ∧ t.evq = [] := by
  cases h
  exact ⟨rfl, s.flush_evq⟩

/-! ## Firing -/

@[simp] theorem State.globalSrc_cc (s : State) (e : Nat) : (s.globalSrc e).cc = s.cc := by
  unfold State.globalSrc; (repeat' split) <;> rfl
@[simp] theorem State.fire_cc (s : State) (e arg : Nat) : (s.fire e arg).cc = s.cc := by
  unfold State.fire; split <;> simp
@[simp] theorem State.firePort_cc (s : State) (n : Port) (k arg : Nat) : (s.firePort n k arg).cc = s.cc := by
  unfold State.firePort; split <;> rfl
@[simp] theorem State.globalSrc_dev (s : State) (e : Nat) : (s.globalSrc e).dev = s.dev := by
  unfold State.globalSrc; (repeat' split) <;> rfl
@[simp] theorem State.fire_dev (s : State) (e arg : Nat) : (s.fire e arg).dev = s.dev := by
  unfold State.fire; split <;> simp
@[simp] theorem State.firePort_dev (s : State) (n : Port) (k arg : Nat) : (s.firePort n k arg).dev = s.dev := by
  unfold State.firePort; split <;> rfl
@[simp] theorem State.globalSrc_ports (s : State) (e : Nat) : (s.globalSrc e).ports = s.ports := by
  unfold State.globalSrc; (repeat' split) <;> rfl
@[simp] theorem State.fire_ports (s : State) (e arg : Nat) : (s.fire e arg).ports = s.ports := by
  unfold State.fire; split <;> simp
@[simp] theorem State.firePort_ports (s : State) (n : Port) (k arg : Nat) : (s.firePort n k arg).ports = s.ports := by
  unfold State.firePort; split <;> rfl
@[simp] theorem State.globalSrc_led (s : State) (e : Nat) : (s.globalSrc e).led = s.led := by
  unfold State.globalSrc; (repeat' split) <;> rfl
@[simp] theorem State.fire_led (s : State) (e arg : Nat) : (s.fire e arg).led = s.led := by
  unfold State.fire; split <;> simp
@[simp] theorem State.firePort_led (s : State) (n : Port) (k arg : Nat) : (s.firePort n k arg).led = s.led := by
  unfold State.firePort; split <;> rfl
@[simp] theorem State.globalSrc_tim (s : State) (e : Nat) : (s.globalSrc e).tim = s.tim := by
  unfold State.globalSrc; (repeat' split) <;> rfl
@[simp] theorem State.fire_tim (s : State) (e arg : Nat) : (s.fire e arg).tim = s.tim := by
  unfold State.fire; split <;> simp
@[simp] theorem State.firePort_tim (s : State) (n : Port) (k arg : Nat) : (s.firePort n k arg).tim = s.tim := by
  unfold State.firePort; split <;> rfl
@[simp] theorem State.globalSrc_fd (s : State) (e : Nat) : (s.globalSrc e).fd = s.fd := by
  unfold State.globalSrc; (repeat' split) <;> rfl
@[simp] theorem State.fire_fd (s : State) (e arg : Nat) : (s.fire e arg).fd = s.fd := by
  unfold State.fire; split <;> simp
@[simp] theorem State.firePort_fd (s : State) (n : Port) (k arg : Nat) : (s.firePort n k arg).fd = s.fd := by
  unfold State.firePort; split <;> rfl
@[simp] theorem State.globalSrc_th (s : State) (e : Nat) : (s.globalSrc e).th = s.th := by
  unfold State.globalSrc; (repeat' split) <;> rfl
@[simp] theorem State.fire_th (s : State) (e arg : Nat) : (s.fire e arg).th = s.th := by
  unfold State.fire; split <;> simp
@[simp] theorem State.firePort_th (s : State) (n : Port) (k arg : Nat) : (s.firePort n k arg).th = s.th := by
  unfold State.firePort; split <;> rfl
@[simp] theorem State.globalSrc_stone (s : State) (e : Nat) : (s.globalSrc e).stone = s.stone := by
  unfold State.globalSrc; (repeat' split) <;> rfl
@[simp] theorem State.fire_stone (s : State) (e arg : Nat) : (s.fire e arg).stone = s.stone := by
  unfold State.fire; split <;> simp
@[simp] theorem State.firePort_stone (s : State) (n : Port) (k arg : Nat) : (s.firePort n k arg).stone = s.stone := by
  unfold State.firePort; split <;> rfl
@[simp] theorem State.globalSrc_bt (s : State) (e : Nat) : (s.globalSrc e).bt = s.bt := by
  unfold State.globalSrc; (repeat' split) <;> rfl
@[simp] theorem State.fire_bt (s : State) (e arg : Nat) : (s.fire e arg).bt = s.bt := by
  unfold State.fire; split <;> simp
@[simp] theorem State.firePort_bt (s : State) (n : Port) (k arg : Nat) : (s.firePort n k arg).bt = s.bt := by
  unfold State.firePort; split <;> rfl
@[simp] theorem State.globalSrc_freeCtr (s : State) (e : Nat) : (s.globalSrc e).freeCtr = s.freeCtr := by
  unfold State.globalSrc; (repeat' split) <;> rfl
@[simp] theorem State.fire_freeCtr (s : State) (e arg : Nat) : (s.fire e arg).freeCtr = s.freeCtr := by
  unfold State.fire; split <;> simp
@[simp] theorem State.firePort_freeCtr (s : State) (n : Port) (k arg : Nat) : (s.firePort n k arg).freeCtr = s.freeCtr := by
  unfold State.firePort; split <;> rfl
@[simp] theorem State.globalSrc_pending (s : State) (e : Nat) : (s.globalSrc e).pending = s.pending := by
  unfold State.globalSrc; (repeat' split) <;> rfl
@[simp] theorem State.fire_pending (s : State) (e arg : Nat) : (s.fire e arg).pending = s.pending := by
  unfold State.fire; split <;> simp
@[simp] theorem State.firePort_pending (s : State) (n : Port) (k arg : Nat) : (s.firePort n k arg).pending = s.pending := by
  unfold State.firePort; split <;> rfl
@[simp] theorem State.globalSrc_mem (s : State) (e : Nat) : (s.globalSrc e).mem = s.mem := by
  unfold State.globalSrc; (repeat' split) <;> rfl
@[simp] theorem State.fire_mem (s : State) (e arg : Nat) : (s.fire e arg).mem = s.mem := by
  unfold State.fire; split <;> simp
@[simp] theorem State.firePort_mem (s : State) (n : Port) (k arg : Nat) : (s.firePort n k arg).mem = s.mem := by
  unfold State.firePort; split <;> rfl
@[simp] theorem State.globalSrc_host (s : State) (e : Nat) : (s.globalSrc e).host = s.host := by
  unfold State.globalSrc; (repeat' split) <;> rfl
@[simp] theorem State.fire_host (s : State) (e arg : Nat) : (s.fire e arg).host = s.host := by
  unfold State.fire; split <;> simp
@[simp] theorem State.firePort_host (s : State) (n : Port) (k arg : Nat) : (s.firePort n k arg).host = s.host := by
  unfold State.firePort; split <;> rfl
@[simp] theorem State.globalSrc_evq (s : State) (e : Nat) : (s.globalSrc e).evq = s.evq := by
  unfold State.globalSrc; (repeat' split) <;> rfl
@[simp] theorem State.port_fire (s : State) (e arg : Nat) (n : Port) : (s.fire e arg).port n = s.port n := by simp [State.port]
@[simp] theorem State.port_firePort (s : State) (m : Port) (k arg : Nat) (n : Port) : (s.firePort m k arg).port n = s.port n := by
  simp [State.port]

/-- A global event is queued while events fire (R448, R469). -/
theorem State.fire_evq (s : State) (e arg : Nat) (h : s.eventsOn = true) : (s.fire e arg).evq = s.evq ++ [(e, arg)] := by
  simp [State.fire, h]

/-- A port event is queued while events fire, on a port the variant populates (R3, R11). -/
theorem State.firePort_evq (s : State) (n : Port) (k arg : Nat) (h : s.eventsOn = true) (hp : s.has n = true) (hb : n ≠ portB) :
    (s.firePort n k arg).evq = s.evq ++ [(8 * n.val + k, arg)] := by
  simp [State.firePort, h, hp, hb]

end Sys2Proof.Machine
end

