-- ==== Sys2Proof/Laws/Frames.lean ====
section
/-! SUPPORT. One frame lemma for each shared operation: the parts of the state it leaves as they are, and that it keeps the
memory's canonical form. `X_frame` is a conjunction of equations that simp uses one by one; `X_memGood` is there where X writes
memory. A core's wait sources apart, `cores.map CoreSt.quiet` says that no core changes. -/

namespace Sys2Proof.Machine

/-! ## Folds and the memory -/

theorem foldl_get {α β : Type} (g : State → β) (f : State → α → State) (h : ∀ t x, g (f t x) = g t) (l : List α) :
    ∀ s, g (l.foldl f s) = g s := by
  induction l with
  | nil => intro s; rfl
  | cons x l ih => intro s; rw [List.foldl_cons, ih, h]

theorem foldl_memGood {α : Type} (f : State → α → State) (h : ∀ t x, memGood t.mem → memGood (f t x).mem) (l : List α) :
    ∀ s, memGood s.mem → memGood (l.foldl f s).mem := by
  induction l with
  | nil => intro s hs; exact hs
  | cons x l ih => intro s hs; exact ih _ (h s x hs)
@[simp] theorem memGood_memWrite (m : Memory) (a : Nat) (b : Byte) (h : memGood m) : memGood (memWrite m a b) :=
  decide_eq_true (memWrite_wf m a b (of_decide_eq_true h))
@[simp] theorem memGood_memWriteN (m : Memory) (a : Nat) (b : List Byte) (h : memGood m) : memGood (memWriteN m a b) :=
  decide_eq_true (memWriteN_wf b m a (of_decide_eq_true h))
@[simp] theorem memGood_memWriteWord (m : Memory) (a : Nat) (w : Word) (h : memGood m) : memGood (memWriteWord m a w) :=
  decide_eq_true (memWriteWord_wf m a w (of_decide_eq_true h))
@[simp] theorem memGood_memExchange (m : Memory) (a b len : Nat) (h : memGood m) : memGood (memExchange m a b len) :=
  decide_eq_true (memExchange_wf m a b len (of_decide_eq_true h))
@[simp] theorem memGood_sramPut (bs : List Byte) (m : Memory) (a : Nat) (h : memGood m) : memGood (sramPut a bs m) :=
  decide_eq_true (sramPut_wf bs m a (of_decide_eq_true h))
@[simp] theorem memGood_filter (m : Memory) (p : Host.Cell → Bool) (h : memGood m) : memGood (m.filter p) :=
  decide_eq_true (filter_wf m p (of_decide_eq_true h))
@[simp] theorem memGood_nil : memGood [] := by decide
@[simp] theorem writeMem_memGood (s : State) (a : Nat) (bs : List Byte) (h : memGood s.mem) : memGood (s.writeMem a bs).mem :=
  decide_eq_true (memWriteN_wf _ _ _ (of_decide_eq_true h))
@[simp] theorem flush_memGood (s : State) (h : memGood s.mem) : memGood s.flush.mem :=
  decide_eq_true (s.flush_wf (of_decide_eq_true h))
@[simp] theorem writeEvent_memGood (s : State) (e arg : Nat) (h : memGood s.mem) : memGood (s.writeEvent e arg).mem :=
  decide_eq_true (s.writeEvent_wf e arg (of_decide_eq_true h))

theorem foldl_cc {α : Type} (f : State → α → State) (l : List α) (s : State) (h : ∀ t x, (f t x).cc = t.cc) : (l.foldl f s).cc = s.cc := foldl_get State.cc f h l s
theorem foldl_dev {α : Type} (f : State → α → State) (l : List α) (s : State) (h : ∀ t x, (f t x).dev = t.dev) : (l.foldl f s).dev = s.dev := foldl_get State.dev f h l s
theorem foldl_cores {α : Type} (f : State → α → State) (l : List α) (s : State) (h : ∀ t x, (f t x).cores = t.cores) : (l.foldl f s).cores = s.cores := foldl_get State.cores f h l s
theorem foldl_ports {α : Type} (f : State → α → State) (l : List α) (s : State) (h : ∀ t x, (f t x).ports = t.ports) : (l.foldl f s).ports = s.ports := foldl_get State.ports f h l s
theorem foldl_led {α : Type} (f : State → α → State) (l : List α) (s : State) (h : ∀ t x, (f t x).led = t.led) : (l.foldl f s).led = s.led := foldl_get State.led f h l s
theorem foldl_tim {α : Type} (f : State → α → State) (l : List α) (s : State) (h : ∀ t x, (f t x).tim = t.tim) : (l.foldl f s).tim = s.tim := foldl_get State.tim f h l s
theorem foldl_fd {α : Type} (f : State → α → State) (l : List α) (s : State) (h : ∀ t x, (f t x).fd = t.fd) : (l.foldl f s).fd = s.fd := foldl_get State.fd f h l s
theorem foldl_th {α : Type} (f : State → α → State) (l : List α) (s : State) (h : ∀ t x, (f t x).th = t.th) : (l.foldl f s).th = s.th := foldl_get State.th f h l s
theorem foldl_stone {α : Type} (f : State → α → State) (l : List α) (s : State) (h : ∀ t x, (f t x).stone = t.stone) : (l.foldl f s).stone = s.stone := foldl_get State.stone f h l s
theorem foldl_bt {α : Type} (f : State → α → State) (l : List α) (s : State) (h : ∀ t x, (f t x).bt = t.bt) : (l.foldl f s).bt = s.bt := foldl_get State.bt f h l s
theorem foldl_host {α : Type} (f : State → α → State) (l : List α) (s : State) (h : ∀ t x, (f t x).host = t.host) : (l.foldl f s).host = s.host := foldl_get State.host f h l s
theorem foldl_mem {α : Type} (f : State → α → State) (l : List α) (s : State) (h : ∀ t x, (f t x).mem = t.mem) : (l.foldl f s).mem = s.mem := foldl_get State.mem f h l s
theorem foldl_freeCtr {α : Type} (f : State → α → State) (l : List α) (s : State) (h : ∀ t x, (f t x).freeCtr = t.freeCtr) : (l.foldl f s).freeCtr = s.freeCtr := foldl_get State.freeCtr f h l s
theorem foldl_pending {α : Type} (f : State → α → State) (l : List α) (s : State) (h : ∀ t x, (f t x).pending = t.pending) : (l.foldl f s).pending = s.pending := foldl_get State.pending f h l s

theorem tickCounter_get {β : Type} (g : State → β) (hu : ∀ s k f, g (State.updCounter s k f) = g s)
    (hb : ∀ ch e s, g (fireBound ch e s) = g s) : ∀ fuel k s, g (tickCounter fuel k s) = g s := by
  have hl : ∀ next : Fin 24 → State → State, (∀ k s, g (next k s) = g s) → ∀ k e s, g (followLink next k e s) = g s := by
    intro next h k e s
    unfold followLink
    dsimp only
    (repeat' split) <;> simp [startCounter, stopCounter, forceReload, askCounter, hu, h]
  have hm : ∀ next : Fin 24 → State → State, (∀ k s, g (next k s) = g s) → ∀ k s, g (counterMatches next k s) = g s := by
    intro next h k s
    unfold counterMatches
    dsimp only
    rw [hl next h]
    (repeat' split) <;> simp [hu, hb]
  intro fuel
  induction fuel with
  | zero => intro k s; rfl
  | succ n ih =>
    intro k s
    show g (tickOnce (tickCounter n) k s) = g s
    unfold tickOnce
    dsimp only
    (repeat' split) <;> simp [hu, hb, hl _ ih, hm _ ih]

/-- The same with the list's start given as a hypothesis. -/
theorem foldl_memGood2 {α : Type} (f : State → α → State) (l : List α) (s : State) (h : ∀ t x, memGood t.mem → memGood (f t x).mem)
    (hs : memGood s.mem) : memGood (l.foldl f s).mem := foldl_memGood f h l s hs
theorem cores_set_quiet (v : Vector CoreSt 7) (c : Core) (k : CoreSt) (h : k.quiet = v[c].quiet) :
    (v.set c k).map CoreSt.quiet = v.map CoreSt.quiet := by
  ext i hi
  simp only [Vector.getElem_map, Vector.getElem_set]
  split
  · rename_i e; subst e; simpa using h
  · rfl
theorem updCore_quiet (s : State) (c : Core) (f : CoreSt → CoreSt) (h : ∀ k, (f k).quiet = k.quiet) :
    (s.updCore c f).cores.map CoreSt.quiet = s.cores.map CoreSt.quiet := cores_set_quiet _ _ _ (h _)
@[simp] theorem fireSrc_quiet (s : State) (c : Core) (b : Nat) : (s.fireSrc c b).cores.map CoreSt.quiet = s.cores.map CoreSt.quiet :=
  updCore_quiet _ _ _ fun _ => rfl
@[simp] theorem globalSrc_quiet (s : State) (e : Nat) : (s.globalSrc e).cores.map CoreSt.quiet = s.cores.map CoreSt.quiet := by
  unfold State.globalSrc; (repeat' split) <;> simp
@[simp] theorem fire_quiet (s : State) (e a : Nat) : (s.fire e a).cores.map CoreSt.quiet = s.cores.map CoreSt.quiet := by
  unfold State.fire; split <;> simp
@[simp] theorem firePort_quiet (s : State) (n : Port) (k a : Nat) : (s.firePort n k a).cores.map CoreSt.quiet = s.cores.map CoreSt.quiet := by
  unfold State.firePort; split
  · dsimp only
    exact updCore_quiet s (pcOf n) _ fun _ => rfl
  · rfl

theorem foldl_quiet {α : Type} (f : State → α → State) (l : List α) (s : State)
    (h : ∀ t x, (f t x).cores.map CoreSt.quiet = t.cores.map CoreSt.quiet) :
    (l.foldl f s).cores.map CoreSt.quiet = s.cores.map CoreSt.quiet := foldl_get (fun s => s.cores.map CoreSt.quiet) f h l s

theorem ite_holds {α : Type} (P : α → Prop) (c : Prop) [Decidable c] (a b : α) (ha : P a) (hb : P b) : P (if c then a else b) := by
  split <;> assumption

/-! ## The operations, in the order of the model's files -/

@[simp] theorem State.busError_frame (s : State) (a2 : Byte) (a3 : BitVec 4) : (State.busError s a2 a3).cc = s.cc ∧
    (State.busError s a2 a3).dev = s.dev ∧ (State.busError s a2 a3).ports = s.ports ∧ (State.busError s a2 a3).led = s.led ∧
    (State.busError s a2 a3).tim = s.tim ∧ (State.busError s a2 a3).fd = s.fd ∧ (State.busError s a2 a3).th = s.th ∧
    (State.busError s a2 a3).stone = s.stone ∧ (State.busError s a2 a3).bt = s.bt ∧ (State.busError s a2 a3).mem = s.mem ∧
    (State.busError s a2 a3).freeCtr = s.freeCtr ∧ (State.busError s a2 a3).pending = s.pending ∧
    (State.busError s a2 a3).cores.map CoreSt.quiet = s.cores.map CoreSt.quiet := by
  unfold State.busError; (try dsimp only); (repeat' split) <;> simp -implicitDefEqProofs

@[simp] theorem State.refuseWrite_frame (s : State) (a2 : Writer) (a3 : BitVec 4) : (State.refuseWrite s a2 a3).cc = s.cc ∧
    (State.refuseWrite s a2 a3).dev = s.dev ∧ (State.refuseWrite s a2 a3).ports = s.ports ∧
    (State.refuseWrite s a2 a3).led = s.led ∧ (State.refuseWrite s a2 a3).tim = s.tim ∧
    (State.refuseWrite s a2 a3).fd = s.fd ∧ (State.refuseWrite s a2 a3).th = s.th ∧
    (State.refuseWrite s a2 a3).stone = s.stone ∧ (State.refuseWrite s a2 a3).bt = s.bt ∧
    (State.refuseWrite s a2 a3).mem = s.mem ∧ (State.refuseWrite s a2 a3).freeCtr = s.freeCtr ∧
    (State.refuseWrite s a2 a3).pending = s.pending := by
  unfold State.refuseWrite; (try dsimp only); (repeat' split) <;> simp -implicitDefEqProofs

@[simp] theorem pushEntry_frame (a1 : Port) (a2 : List Byte) (s : State) : (pushEntry a1 a2 s).cc = s.cc ∧
    (pushEntry a1 a2 s).dev = s.dev ∧ (pushEntry a1 a2 s).cores = s.cores ∧ (pushEntry a1 a2 s).led = s.led ∧
    (pushEntry a1 a2 s).tim = s.tim ∧ (pushEntry a1 a2 s).fd = s.fd ∧ (pushEntry a1 a2 s).th = s.th ∧
    (pushEntry a1 a2 s).stone = s.stone ∧ (pushEntry a1 a2 s).bt = s.bt ∧ (pushEntry a1 a2 s).host = s.host ∧
    (pushEntry a1 a2 s).freeCtr = s.freeCtr ∧ (pushEntry a1 a2 s).pending = s.pending := by
  and_intros <;> simp -implicitDefEqProofs [pushEntry]

@[simp] theorem pushEntry_memGood (a1 : Port) (a2 : List Byte) (s : State) (h : memGood s.mem) : memGood (pushEntry a1 a2
    s).mem := by
  simp (maxDischargeDepth := 9) -implicitDefEqProofs [pushEntry, h]

@[simp] theorem pushMsg_frame (a1 : Port) (a2 : Bool) (a3 : BitVec 5) (a4 : List Word) (s : State) : (pushMsg a1 a2 a3 a4
    s).cc = s.cc ∧ (pushMsg a1 a2 a3 a4 s).dev = s.dev ∧ (pushMsg a1 a2 a3 a4 s).cores = s.cores ∧
    (pushMsg a1 a2 a3 a4 s).led = s.led ∧ (pushMsg a1 a2 a3 a4 s).tim = s.tim ∧ (pushMsg a1 a2 a3 a4 s).fd = s.fd ∧
    (pushMsg a1 a2 a3 a4 s).th = s.th ∧ (pushMsg a1 a2 a3 a4 s).stone = s.stone ∧ (pushMsg a1 a2 a3 a4 s).bt = s.bt ∧
    (pushMsg a1 a2 a3 a4 s).host = s.host ∧ (pushMsg a1 a2 a3 a4 s).freeCtr = s.freeCtr ∧
    (pushMsg a1 a2 a3 a4 s).pending = s.pending := by
  unfold pushMsg; (try dsimp only); (repeat' split) <;> simp -implicitDefEqProofs

@[simp] theorem pushMsg_memGood (a1 : Port) (a2 : Bool) (a3 : BitVec 5) (a4 : List Word) (s : State) (h : memGood s.mem) :
    memGood (pushMsg a1 a2 a3 a4 s).mem := by
  unfold pushMsg; (try dsimp only); (repeat' split) <;> simp (maxDischargeDepth := 9) -implicitDefEqProofs [h]

@[simp] theorem closeWindow_frame (a1 : Port) (s : State) : (closeWindow a1 s).cc = s.cc ∧ (closeWindow a1 s).dev = s.dev ∧
    (closeWindow a1 s).cores = s.cores ∧ (closeWindow a1 s).led = s.led ∧ (closeWindow a1 s).tim = s.tim ∧
    (closeWindow a1 s).fd = s.fd ∧ (closeWindow a1 s).th = s.th ∧ (closeWindow a1 s).stone = s.stone ∧
    (closeWindow a1 s).bt = s.bt ∧ (closeWindow a1 s).host = s.host ∧ (closeWindow a1 s).mem = s.mem ∧
    (closeWindow a1 s).freeCtr = s.freeCtr ∧ (closeWindow a1 s).pending = s.pending := by
  unfold closeWindow; (try dsimp only); (repeat' split) <;> simp -implicitDefEqProofs

@[simp] theorem forcedClose_frame (a1 : Port) (s : State) : (forcedClose a1 s).cc = s.cc ∧ (forcedClose a1 s).dev = s.dev ∧
    (forcedClose a1 s).cores = s.cores ∧ (forcedClose a1 s).led = s.led ∧ (forcedClose a1 s).tim = s.tim ∧
    (forcedClose a1 s).fd = s.fd ∧ (forcedClose a1 s).th = s.th ∧ (forcedClose a1 s).stone = s.stone ∧
    (forcedClose a1 s).bt = s.bt ∧ (forcedClose a1 s).host = s.host ∧ (forcedClose a1 s).mem = s.mem ∧
    (forcedClose a1 s).freeCtr = s.freeCtr ∧ (forcedClose a1 s).pending = s.pending := by
  unfold forcedClose; (try dsimp only); (repeat' split) <;> simp -implicitDefEqProofs

@[simp] theorem forceOff_frame (a1 : ForceSource) (a2 : Port) (s : State) : (forceOff a1 a2 s).cc = s.cc ∧
    (forceOff a1 a2 s).dev = s.dev ∧ (forceOff a1 a2 s).led = s.led ∧ (forceOff a1 a2 s).tim = s.tim ∧
    (forceOff a1 a2 s).fd = s.fd ∧ (forceOff a1 a2 s).th = s.th ∧ (forceOff a1 a2 s).stone = s.stone ∧
    (forceOff a1 a2 s).bt = s.bt ∧ (forceOff a1 a2 s).host = s.host ∧ (forceOff a1 a2 s).mem = s.mem ∧
    (forceOff a1 a2 s).freeCtr = s.freeCtr ∧ (forceOff a1 a2 s).pending = s.pending ∧
    (forceOff a1 a2 s).cores.map CoreSt.quiet = s.cores.map CoreSt.quiet := by
  and_intros <;> simp -implicitDefEqProofs [forceOff]

@[simp] theorem liftForce_frame (a1 : List ForceSource) (a2 : Port) (s : State) : (liftForce a1 a2 s).cc = s.cc ∧
    (liftForce a1 a2 s).dev = s.dev ∧ (liftForce a1 a2 s).cores = s.cores ∧ (liftForce a1 a2 s).led = s.led ∧
    (liftForce a1 a2 s).tim = s.tim ∧ (liftForce a1 a2 s).fd = s.fd ∧ (liftForce a1 a2 s).th = s.th ∧
    (liftForce a1 a2 s).stone = s.stone ∧ (liftForce a1 a2 s).bt = s.bt ∧ (liftForce a1 a2 s).host = s.host ∧
    (liftForce a1 a2 s).mem = s.mem ∧ (liftForce a1 a2 s).freeCtr = s.freeCtr ∧ (liftForce a1 a2 s).pending = s.pending := by
  and_intros <;> simp -implicitDefEqProofs [liftForce]

@[simp] theorem dropPg_frame (a1 : Port) (s : State) : (dropPg a1 s).cc = s.cc ∧ (dropPg a1 s).dev = s.dev ∧
    (dropPg a1 s).led = s.led ∧ (dropPg a1 s).tim = s.tim ∧ (dropPg a1 s).fd = s.fd ∧ (dropPg a1 s).th = s.th ∧
    (dropPg a1 s).stone = s.stone ∧ (dropPg a1 s).bt = s.bt ∧ (dropPg a1 s).host = s.host ∧ (dropPg a1 s).mem = s.mem ∧
    (dropPg a1 s).freeCtr = s.freeCtr ∧ (dropPg a1 s).pending = s.pending ∧
    (dropPg a1 s).cores.map CoreSt.quiet = s.cores.map CoreSt.quiet := by
  unfold dropPg; (try dsimp only); (repeat' split) <;> simp -implicitDefEqProofs

@[simp] theorem promoteWaiting_frame (s : State) : (promoteWaiting s).cc = s.cc ∧ (promoteWaiting s).dev = s.dev ∧
    (promoteWaiting s).cores = s.cores ∧ (promoteWaiting s).led = s.led ∧ (promoteWaiting s).tim = s.tim ∧
    (promoteWaiting s).fd = s.fd ∧ (promoteWaiting s).th = s.th ∧ (promoteWaiting s).stone = s.stone ∧
    (promoteWaiting s).bt = s.bt ∧ (promoteWaiting s).host = s.host ∧ (promoteWaiting s).mem = s.mem ∧
    (promoteWaiting s).freeCtr = s.freeCtr ∧ (promoteWaiting s).pending = s.pending := by
  and_intros <;> simp -implicitDefEqProofs [promoteWaiting, apply_ite State.cc, apply_ite State.dev, apply_ite State.cores, apply_ite State.led, apply_ite State.tim, apply_ite State.fd, apply_ite State.th, apply_ite State.stone, apply_ite State.bt, apply_ite State.host, apply_ite State.mem, apply_ite State.freeCtr, apply_ite State.pending, foldl_cc, foldl_dev, foldl_cores, foldl_led, foldl_tim, foldl_fd, foldl_th, foldl_stone, foldl_bt, foldl_host, foldl_mem, foldl_freeCtr, foldl_pending]

@[simp] theorem openSwitch_frame (a1 : SwState) (a2 : Port) (s : State) : (openSwitch a1 a2 s).cc = s.cc ∧
    (openSwitch a1 a2 s).dev = s.dev ∧ (openSwitch a1 a2 s).led = s.led ∧ (openSwitch a1 a2 s).tim = s.tim ∧
    (openSwitch a1 a2 s).fd = s.fd ∧ (openSwitch a1 a2 s).th = s.th ∧ (openSwitch a1 a2 s).stone = s.stone ∧
    (openSwitch a1 a2 s).bt = s.bt ∧ (openSwitch a1 a2 s).host = s.host ∧ (openSwitch a1 a2 s).mem = s.mem ∧
    (openSwitch a1 a2 s).freeCtr = s.freeCtr ∧ (openSwitch a1 a2 s).pending = s.pending ∧
    (openSwitch a1 a2 s).cores.map CoreSt.quiet = s.cores.map CoreSt.quiet := by
  unfold openSwitch; (try dsimp only); (repeat' split) <;> simp -implicitDefEqProofs

@[simp] theorem fault_frame (a1 : Port) (a2 : BitVec 4) (s : State) : (fault a1 a2 s).cc = s.cc ∧
    (fault a1 a2 s).dev = s.dev ∧ (fault a1 a2 s).led = s.led ∧ (fault a1 a2 s).tim = s.tim ∧ (fault a1 a2 s).fd = s.fd ∧
    (fault a1 a2 s).th = s.th ∧ (fault a1 a2 s).stone = s.stone ∧ (fault a1 a2 s).bt = s.bt ∧ (fault a1 a2 s).host = s.host ∧
    (fault a1 a2 s).mem = s.mem ∧ (fault a1 a2 s).freeCtr = s.freeCtr ∧ (fault a1 a2 s).pending = s.pending ∧
    (fault a1 a2 s).cores.map CoreSt.quiet = s.cores.map CoreSt.quiet := by
  and_intros <;> simp -implicitDefEqProofs [fault]

@[simp] theorem setContract_frame (a1 : Port) (a2 : CtrState) (a3 : BitVec 11) (a4 : BitVec 9) (a5 : Bool) (s : State) :
    (setContract a1 a2 a3 a4 a5 s).cc = s.cc ∧ (setContract a1 a2 a3 a4 a5 s).dev = s.dev ∧
    (setContract a1 a2 a3 a4 a5 s).led = s.led ∧ (setContract a1 a2 a3 a4 a5 s).tim = s.tim ∧
    (setContract a1 a2 a3 a4 a5 s).fd = s.fd ∧ (setContract a1 a2 a3 a4 a5 s).th = s.th ∧
    (setContract a1 a2 a3 a4 a5 s).stone = s.stone ∧ (setContract a1 a2 a3 a4 a5 s).bt = s.bt ∧
    (setContract a1 a2 a3 a4 a5 s).host = s.host ∧ (setContract a1 a2 a3 a4 a5 s).mem = s.mem ∧
    (setContract a1 a2 a3 a4 a5 s).freeCtr = s.freeCtr ∧ (setContract a1 a2 a3 a4 a5 s).pending = s.pending ∧
    (setContract a1 a2 a3 a4 a5 s).cores.map CoreSt.quiet = s.cores.map CoreSt.quiet := by
  unfold setContract; (try dsimp only); (repeat' split) <;> simp -implicitDefEqProofs

@[simp] theorem resumeDetach_frame (a1 : Port) (s : State) : (resumeDetach a1 s).cc = s.cc ∧
    (resumeDetach a1 s).dev = s.dev ∧ (resumeDetach a1 s).cores = s.cores ∧ (resumeDetach a1 s).led = s.led ∧
    (resumeDetach a1 s).tim = s.tim ∧ (resumeDetach a1 s).fd = s.fd ∧ (resumeDetach a1 s).th = s.th ∧
    (resumeDetach a1 s).stone = s.stone ∧ (resumeDetach a1 s).bt = s.bt ∧ (resumeDetach a1 s).host = s.host ∧
    (resumeDetach a1 s).mem = s.mem ∧ (resumeDetach a1 s).freeCtr = s.freeCtr ∧ (resumeDetach a1 s).pending = s.pending := by
  unfold resumeDetach; (try dsimp only); (repeat' split) <;> simp -implicitDefEqProofs

@[simp] theorem endContract_frame (a1 : Port) (s : State) : (endContract a1 s).cc = s.cc ∧ (endContract a1 s).dev = s.dev ∧
    (endContract a1 s).led = s.led ∧ (endContract a1 s).tim = s.tim ∧ (endContract a1 s).fd = s.fd ∧
    (endContract a1 s).th = s.th ∧ (endContract a1 s).stone = s.stone ∧ (endContract a1 s).bt = s.bt ∧
    (endContract a1 s).host = s.host ∧ (endContract a1 s).mem = s.mem ∧ (endContract a1 s).freeCtr = s.freeCtr ∧
    (endContract a1 s).pending = s.pending ∧ (endContract a1 s).cores.map CoreSt.quiet = s.cores.map CoreSt.quiet := by
  and_intros <;> simp -implicitDefEqProofs [endContract]

@[simp] theorem sendBye_frame (a1 : Port) (a2 : Nat) (a3 : Bool) (s : State) : (sendBye a1 a2 a3 s).cc = s.cc ∧
    (sendBye a1 a2 a3 s).dev = s.dev ∧ (sendBye a1 a2 a3 s).led = s.led ∧ (sendBye a1 a2 a3 s).tim = s.tim ∧
    (sendBye a1 a2 a3 s).fd = s.fd ∧ (sendBye a1 a2 a3 s).th = s.th ∧ (sendBye a1 a2 a3 s).stone = s.stone ∧
    (sendBye a1 a2 a3 s).bt = s.bt ∧ (sendBye a1 a2 a3 s).host = s.host ∧ (sendBye a1 a2 a3 s).mem = s.mem ∧
    (sendBye a1 a2 a3 s).freeCtr = s.freeCtr ∧ (sendBye a1 a2 a3 s).pending = s.pending ∧
    (sendBye a1 a2 a3 s).cores.map CoreSt.quiet = s.cores.map CoreSt.quiet := by
  unfold sendBye; (try dsimp only); (repeat' split) <;> simp -implicitDefEqProofs

@[simp] theorem shedPort_frame (a1 : Port) (s : State) : (shedPort a1 s).cc = s.cc ∧ (shedPort a1 s).dev = s.dev ∧
    (shedPort a1 s).tim = s.tim ∧ (shedPort a1 s).fd = s.fd ∧ (shedPort a1 s).th = s.th ∧ (shedPort a1 s).stone = s.stone ∧
    (shedPort a1 s).bt = s.bt ∧ (shedPort a1 s).host = s.host ∧ (shedPort a1 s).mem = s.mem ∧
    (shedPort a1 s).freeCtr = s.freeCtr ∧ (shedPort a1 s).pending = s.pending ∧
    (shedPort a1 s).cores.map CoreSt.quiet = s.cores.map CoreSt.quiet := by
  and_intros <;> simp -implicitDefEqProofs [shedPort]

@[simp] theorem shedLoop_frame (a1 : Nat) (a2 : Nat) (s : State) : (shedLoop a1 a2 s).cc = s.cc ∧
    (shedLoop a1 a2 s).dev = s.dev ∧ (shedLoop a1 a2 s).tim = s.tim ∧ (shedLoop a1 a2 s).fd = s.fd ∧
    (shedLoop a1 a2 s).th = s.th ∧ (shedLoop a1 a2 s).stone = s.stone ∧ (shedLoop a1 a2 s).bt = s.bt ∧
    (shedLoop a1 a2 s).host = s.host ∧ (shedLoop a1 a2 s).mem = s.mem ∧ (shedLoop a1 a2 s).freeCtr = s.freeCtr ∧
    (shedLoop a1 a2 s).pending = s.pending ∧ (shedLoop a1 a2 s).cores.map CoreSt.quiet = s.cores.map CoreSt.quiet := by
  induction a2 generalizing a1 s <;> (try unfold shedLoop) <;> (try dsimp only) <;> (repeat' split) <;> (first | (and_intros <;> rfl) | (and_intros <;> simp -implicitDefEqProofs [*, apply_ite State.cc, apply_ite State.dev, apply_ite State.tim, apply_ite State.fd, apply_ite State.th, apply_ite State.stone, apply_ite State.bt, apply_ite State.host, apply_ite State.mem, apply_ite State.freeCtr, apply_ite State.pending, apply_ite State.cores, apply_ite (Vector.map CoreSt.quiet), updCore_quiet, CoreSt.quiet]))

@[simp] theorem ledgerAct_frame (s : State) : (ledgerAct s).cc = s.cc ∧ (ledgerAct s).dev = s.dev ∧
    (ledgerAct s).tim = s.tim ∧ (ledgerAct s).fd = s.fd ∧ (ledgerAct s).th = s.th ∧ (ledgerAct s).stone = s.stone ∧
    (ledgerAct s).bt = s.bt ∧ (ledgerAct s).host = s.host ∧ (ledgerAct s).mem = s.mem ∧ (ledgerAct s).freeCtr = s.freeCtr ∧
    (ledgerAct s).pending = s.pending ∧ (ledgerAct s).cores.map CoreSt.quiet = s.cores.map CoreSt.quiet := by
  unfold ledgerAct; (try dsimp only); (repeat' split) <;> simp -implicitDefEqProofs

@[simp] theorem ledgerRefresh_frame (s : State) : (ledgerRefresh s).cc = s.cc ∧ (ledgerRefresh s).dev = s.dev ∧
    (ledgerRefresh s).tim = s.tim ∧ (ledgerRefresh s).fd = s.fd ∧ (ledgerRefresh s).th = s.th ∧
    (ledgerRefresh s).stone = s.stone ∧ (ledgerRefresh s).bt = s.bt ∧ (ledgerRefresh s).host = s.host ∧
    (ledgerRefresh s).mem = s.mem ∧ (ledgerRefresh s).freeCtr = s.freeCtr ∧ (ledgerRefresh s).pending = s.pending ∧
    (ledgerRefresh s).cores.map CoreSt.quiet = s.cores.map CoreSt.quiet := by
  and_intros <;> simp -implicitDefEqProofs [ledgerRefresh]

@[simp] theorem writeGrant_frame (a1 : Port) (a2 : Nat) (a3 : Nat) (s : State) : (writeGrant a1 a2 a3 s).cc = s.cc ∧
    (writeGrant a1 a2 a3 s).dev = s.dev ∧ (writeGrant a1 a2 a3 s).cores = s.cores ∧ (writeGrant a1 a2 a3 s).ports = s.ports ∧
    (writeGrant a1 a2 a3 s).led = s.led ∧ (writeGrant a1 a2 a3 s).tim = s.tim ∧ (writeGrant a1 a2 a3 s).fd = s.fd ∧
    (writeGrant a1 a2 a3 s).th = s.th ∧ (writeGrant a1 a2 a3 s).stone = s.stone ∧ (writeGrant a1 a2 a3 s).bt = s.bt ∧
    (writeGrant a1 a2 a3 s).host = s.host ∧ (writeGrant a1 a2 a3 s).freeCtr = s.freeCtr ∧
    (writeGrant a1 a2 a3 s).pending = s.pending := by
  and_intros <;> simp -implicitDefEqProofs [writeGrant]

@[simp] theorem writeGrant_memGood (a1 : Port) (a2 : Nat) (a3 : Nat) (s : State) (h : memGood s.mem) : memGood (writeGrant a1
    a2 a3 s).mem := by
  simp (maxDischargeDepth := 9) -implicitDefEqProofs [writeGrant, h]

@[simp] theorem journal_frame (a1 : Port) (a2 : Nat) (a3 : Nat) (s : State) : (journal a1 a2 a3 s).cc = s.cc ∧
    (journal a1 a2 a3 s).dev = s.dev ∧ (journal a1 a2 a3 s).cores = s.cores ∧ (journal a1 a2 a3 s).ports = s.ports ∧
    (journal a1 a2 a3 s).tim = s.tim ∧ (journal a1 a2 a3 s).fd = s.fd ∧ (journal a1 a2 a3 s).th = s.th ∧
    (journal a1 a2 a3 s).stone = s.stone ∧ (journal a1 a2 a3 s).bt = s.bt ∧ (journal a1 a2 a3 s).host = s.host ∧
    (journal a1 a2 a3 s).freeCtr = s.freeCtr ∧ (journal a1 a2 a3 s).pending = s.pending := by
  and_intros <;> simp -implicitDefEqProofs [journal]

@[simp] theorem journal_memGood (a1 : Port) (a2 : Nat) (a3 : Nat) (s : State) (h : memGood s.mem) : memGood (journal a1 a2 a3
    s).mem := by
  simp (maxDischargeDepth := 9) -implicitDefEqProofs [journal, h]

@[simp] theorem setHeld_frame (a1 : Port) (a2 : Nat) (a3 : Nat) (s : State) : (setHeld a1 a2 a3 s).cc = s.cc ∧
    (setHeld a1 a2 a3 s).dev = s.dev ∧ (setHeld a1 a2 a3 s).cores = s.cores ∧ (setHeld a1 a2 a3 s).tim = s.tim ∧
    (setHeld a1 a2 a3 s).fd = s.fd ∧ (setHeld a1 a2 a3 s).th = s.th ∧ (setHeld a1 a2 a3 s).stone = s.stone ∧
    (setHeld a1 a2 a3 s).bt = s.bt ∧ (setHeld a1 a2 a3 s).host = s.host ∧ (setHeld a1 a2 a3 s).mem = s.mem ∧
    (setHeld a1 a2 a3 s).freeCtr = s.freeCtr ∧ (setHeld a1 a2 a3 s).pending = s.pending := by
  unfold setHeld; (try dsimp only); (repeat' split) <;> simp -implicitDefEqProofs

@[simp] theorem opRaise_frame (a1 : Port) (a2 : Nat) (a3 : Nat) (s : State) : (opRaise a1 a2 a3 s).2.cc = s.cc ∧
    (opRaise a1 a2 a3 s).2.dev = s.dev ∧ (opRaise a1 a2 a3 s).2.tim = s.tim ∧ (opRaise a1 a2 a3 s).2.fd = s.fd ∧
    (opRaise a1 a2 a3 s).2.th = s.th ∧ (opRaise a1 a2 a3 s).2.stone = s.stone ∧ (opRaise a1 a2 a3 s).2.bt = s.bt ∧
    (opRaise a1 a2 a3 s).2.host = s.host ∧ (opRaise a1 a2 a3 s).2.freeCtr = s.freeCtr ∧
    (opRaise a1 a2 a3 s).2.pending = s.pending ∧
    (opRaise a1 a2 a3 s).2.cores.map CoreSt.quiet = s.cores.map CoreSt.quiet := by
  unfold opRaise; (try dsimp only); (repeat' split) <;> simp -implicitDefEqProofs

@[simp] theorem opRaise_memGood (a1 : Port) (a2 : Nat) (a3 : Nat) (s : State) (h : memGood s.mem) : memGood (opRaise a1 a2 a3
    s).2.mem := by
  unfold opRaise; (try dsimp only); (repeat' split) <;> simp (maxDischargeDepth := 9) -implicitDefEqProofs [h]

@[simp] theorem opSettle_frame (a1 : Port) (a2 : Nat) (a3 : Nat) (s : State) : (opSettle a1 a2 a3 s).cc = s.cc ∧
    (opSettle a1 a2 a3 s).dev = s.dev ∧ (opSettle a1 a2 a3 s).tim = s.tim ∧ (opSettle a1 a2 a3 s).fd = s.fd ∧
    (opSettle a1 a2 a3 s).th = s.th ∧ (opSettle a1 a2 a3 s).stone = s.stone ∧ (opSettle a1 a2 a3 s).bt = s.bt ∧
    (opSettle a1 a2 a3 s).host = s.host ∧ (opSettle a1 a2 a3 s).freeCtr = s.freeCtr ∧
    (opSettle a1 a2 a3 s).pending = s.pending ∧ (opSettle a1 a2 a3 s).cores.map CoreSt.quiet = s.cores.map CoreSt.quiet := by
  and_intros <;> simp -implicitDefEqProofs [opSettle]

@[simp] theorem opSettle_memGood (a1 : Port) (a2 : Nat) (a3 : Nat) (s : State) (h : memGood s.mem) : memGood (opSettle a1 a2
    a3 s).mem := by
  simp (maxDischargeDepth := 9) -implicitDefEqProofs [opSettle, h]

@[simp] theorem opRelease_frame (a1 : Port) (s : State) : (opRelease a1 s).cc = s.cc ∧ (opRelease a1 s).dev = s.dev ∧
    (opRelease a1 s).tim = s.tim ∧ (opRelease a1 s).fd = s.fd ∧ (opRelease a1 s).th = s.th ∧
    (opRelease a1 s).stone = s.stone ∧ (opRelease a1 s).bt = s.bt ∧ (opRelease a1 s).host = s.host ∧
    (opRelease a1 s).freeCtr = s.freeCtr ∧ (opRelease a1 s).pending = s.pending ∧
    (opRelease a1 s).cores.map CoreSt.quiet = s.cores.map CoreSt.quiet := by
  and_intros <;> simp -implicitDefEqProofs [opRelease]

@[simp] theorem opRelease_memGood (a1 : Port) (s : State) (h : memGood s.mem) : memGood (opRelease a1 s).mem := by
  simp (maxDischargeDepth := 9) -implicitDefEqProofs [opRelease, h]

@[simp] theorem serveSlot_frame (a1 : Port) (s : State) : (serveSlot a1 s).2.cc = s.cc ∧ (serveSlot a1 s).2.dev = s.dev ∧
    (serveSlot a1 s).2.tim = s.tim ∧ (serveSlot a1 s).2.fd = s.fd ∧ (serveSlot a1 s).2.th = s.th ∧
    (serveSlot a1 s).2.stone = s.stone ∧ (serveSlot a1 s).2.bt = s.bt ∧ (serveSlot a1 s).2.host = s.host ∧
    (serveSlot a1 s).2.freeCtr = s.freeCtr ∧ (serveSlot a1 s).2.pending = s.pending ∧
    (serveSlot a1 s).2.cores.map CoreSt.quiet = s.cores.map CoreSt.quiet := by
  unfold serveSlot; (try dsimp only); (repeat' split) <;> simp -implicitDefEqProofs

@[simp] theorem serveSlot_memGood (a1 : Port) (s : State) (h : memGood s.mem) : memGood (serveSlot a1 s).2.mem := by
  unfold serveSlot; (try dsimp only); (repeat' split) <;> simp (maxDischargeDepth := 9) -implicitDefEqProofs [h]

@[simp] theorem ledgerPost_frame (a1 : Port) (a2 : Nat) (a3 : Nat) (a4 : Nat) (s : State) : (ledgerPost a1 a2 a3 a4 s).2.cc =
    s.cc ∧ (ledgerPost a1 a2 a3 a4 s).2.dev = s.dev ∧ (ledgerPost a1 a2 a3 a4 s).2.tim = s.tim ∧
    (ledgerPost a1 a2 a3 a4 s).2.fd = s.fd ∧ (ledgerPost a1 a2 a3 a4 s).2.th = s.th ∧
    (ledgerPost a1 a2 a3 a4 s).2.stone = s.stone ∧ (ledgerPost a1 a2 a3 a4 s).2.bt = s.bt ∧
    (ledgerPost a1 a2 a3 a4 s).2.host = s.host ∧ (ledgerPost a1 a2 a3 a4 s).2.freeCtr = s.freeCtr ∧
    (ledgerPost a1 a2 a3 a4 s).2.pending = s.pending ∧
    (ledgerPost a1 a2 a3 a4 s).2.cores.map CoreSt.quiet = s.cores.map CoreSt.quiet := by
  unfold ledgerPost; (try dsimp only); (repeat' split) <;> simp -implicitDefEqProofs

@[simp] theorem ledgerPost_memGood (a1 : Port) (a2 : Nat) (a3 : Nat) (a4 : Nat) (s : State) (h : memGood s.mem) : memGood
    (ledgerPost a1 a2 a3 a4 s).2.mem := by
  unfold ledgerPost; (try dsimp only); (repeat' split) <;> simp (maxDischargeDepth := 9) -implicitDefEqProofs [h]

@[simp] theorem opTokens_frame (a1 : BitVec 4) (s : State) : (opTokens a1 s).2.2.cc = s.cc ∧
    (opTokens a1 s).2.2.dev = s.dev ∧ (opTokens a1 s).2.2.tim = s.tim ∧ (opTokens a1 s).2.2.fd = s.fd ∧
    (opTokens a1 s).2.2.th = s.th ∧ (opTokens a1 s).2.2.stone = s.stone ∧ (opTokens a1 s).2.2.bt = s.bt ∧
    (opTokens a1 s).2.2.host = s.host ∧ (opTokens a1 s).2.2.mem = s.mem ∧ (opTokens a1 s).2.2.freeCtr = s.freeCtr ∧
    (opTokens a1 s).2.2.pending = s.pending ∧ (opTokens a1 s).2.2.cores.map CoreSt.quiet = s.cores.map CoreSt.quiet := by
  unfold opTokens; (try dsimp only); (repeat' split) <;> simp -implicitDefEqProofs

@[simp] theorem selectFeed_frame (a1 : Feed) (s : State) : (selectFeed a1 s).cc = s.cc ∧ (selectFeed a1 s).dev = s.dev ∧
    (selectFeed a1 s).tim = s.tim ∧ (selectFeed a1 s).th = s.th ∧ (selectFeed a1 s).stone = s.stone ∧
    (selectFeed a1 s).bt = s.bt ∧ (selectFeed a1 s).host = s.host ∧ (selectFeed a1 s).mem = s.mem ∧
    (selectFeed a1 s).freeCtr = s.freeCtr ∧ (selectFeed a1 s).pending = s.pending ∧
    (selectFeed a1 s).cores.map CoreSt.quiet = s.cores.map CoreSt.quiet := by
  unfold selectFeed; (try dsimp only); (repeat' split) <;> simp -implicitDefEqProofs

@[simp] theorem noFeed_frame (s : State) : (noFeed s).cc = s.cc ∧ (noFeed s).dev = s.dev ∧ (noFeed s).tim = s.tim ∧
    (noFeed s).th = s.th ∧ (noFeed s).stone = s.stone ∧ (noFeed s).bt = s.bt ∧ (noFeed s).host = s.host ∧
    (noFeed s).mem = s.mem ∧ (noFeed s).freeCtr = s.freeCtr ∧ (noFeed s).pending = s.pending ∧
    (noFeed s).cores.map CoreSt.quiet = s.cores.map CoreSt.quiet := by
  unfold noFeed; (try dsimp only); and_intros <;> (repeat' split) <;> simp -implicitDefEqProofs [foldl_cc, foldl_dev, foldl_tim, foldl_th, foldl_stone, foldl_bt, foldl_host, foldl_mem, foldl_freeCtr, foldl_pending, foldl_quiet]

@[simp] theorem endStartReg_frame (s : State) : (endStartReg s).cc = s.cc ∧ (endStartReg s).dev = s.dev ∧
    (endStartReg s).cores = s.cores ∧ (endStartReg s).led = s.led ∧ (endStartReg s).tim = s.tim ∧ (endStartReg s).fd = s.fd ∧
    (endStartReg s).th = s.th ∧ (endStartReg s).stone = s.stone ∧ (endStartReg s).bt = s.bt ∧ (endStartReg s).host = s.host ∧
    (endStartReg s).mem = s.mem ∧ (endStartReg s).freeCtr = s.freeCtr ∧ (endStartReg s).pending = s.pending := by
  and_intros <;> simp -implicitDefEqProofs [endStartReg]

@[simp] theorem abortFeedSwap_frame (a1 : Port) (s : State) : (abortFeedSwap a1 s).cc = s.cc ∧
    (abortFeedSwap a1 s).dev = s.dev ∧ (abortFeedSwap a1 s).cores = s.cores ∧ (abortFeedSwap a1 s).led = s.led ∧
    (abortFeedSwap a1 s).tim = s.tim ∧ (abortFeedSwap a1 s).fd = s.fd ∧ (abortFeedSwap a1 s).th = s.th ∧
    (abortFeedSwap a1 s).stone = s.stone ∧ (abortFeedSwap a1 s).bt = s.bt ∧ (abortFeedSwap a1 s).host = s.host ∧
    (abortFeedSwap a1 s).freeCtr = s.freeCtr ∧ (abortFeedSwap a1 s).pending = s.pending := by
  unfold abortFeedSwap; (try dsimp only); (repeat' split) <;> simp -implicitDefEqProofs

@[simp] theorem abortFeedSwap_memGood (a1 : Port) (s : State) (h : memGood s.mem) : memGood (abortFeedSwap a1 s).mem := by
  unfold abortFeedSwap; (try dsimp only); (repeat' split) <;> simp (maxDischargeDepth := 9) -implicitDefEqProofs [h]

@[simp] theorem abortFeedSwaps_frame (s : State) : (abortFeedSwaps s).cc = s.cc ∧ (abortFeedSwaps s).dev = s.dev ∧
    (abortFeedSwaps s).cores = s.cores ∧ (abortFeedSwaps s).led = s.led ∧ (abortFeedSwaps s).tim = s.tim ∧
    (abortFeedSwaps s).fd = s.fd ∧ (abortFeedSwaps s).th = s.th ∧ (abortFeedSwaps s).stone = s.stone ∧
    (abortFeedSwaps s).bt = s.bt ∧ (abortFeedSwaps s).host = s.host ∧ (abortFeedSwaps s).freeCtr = s.freeCtr ∧
    (abortFeedSwaps s).pending = s.pending := by
  and_intros <;> simp -implicitDefEqProofs [abortFeedSwaps]

@[simp] theorem abortFeedSwaps_memGood (s : State) (h : memGood s.mem) : memGood (abortFeedSwaps s).mem := by
  simp (maxDischargeDepth := 9) -implicitDefEqProofs [abortFeedSwaps, h]

@[simp] theorem feedLossBy_frame (a1 : State → Feed) (a2 : BitVec 4) (s : State) : (feedLossBy a1 a2 s).cc = s.cc ∧
    (feedLossBy a1 a2 s).dev = s.dev ∧ (feedLossBy a1 a2 s).tim = s.tim ∧ (feedLossBy a1 a2 s).th = s.th ∧
    (feedLossBy a1 a2 s).stone = s.stone ∧ (feedLossBy a1 a2 s).bt = s.bt ∧ (feedLossBy a1 a2 s).host = s.host ∧
    (feedLossBy a1 a2 s).freeCtr = s.freeCtr ∧ (feedLossBy a1 a2 s).pending = s.pending ∧
    (feedLossBy a1 a2 s).cores.map CoreSt.quiet = s.cores.map CoreSt.quiet := by
  unfold feedLossBy; (try dsimp only); (repeat' split) <;> simp -implicitDefEqProofs

@[simp] theorem feedLossBy_memGood (a1 : State → Feed) (a2 : BitVec 4) (s : State) (h : memGood s.mem) : memGood (feedLossBy
    a1 a2 s).mem := by
  unfold feedLossBy; (try dsimp only); (repeat' split) <;> simp (maxDischargeDepth := 9) -implicitDefEqProofs [h]

@[simp] theorem feedLoss_frame (a1 : BitVec 4) (s : State) : (feedLoss a1 s).cc = s.cc ∧ (feedLoss a1 s).dev = s.dev ∧
    (feedLoss a1 s).tim = s.tim ∧ (feedLoss a1 s).th = s.th ∧ (feedLoss a1 s).stone = s.stone ∧ (feedLoss a1 s).bt = s.bt ∧
    (feedLoss a1 s).host = s.host ∧ (feedLoss a1 s).freeCtr = s.freeCtr ∧ (feedLoss a1 s).pending = s.pending ∧
    (feedLoss a1 s).cores.map CoreSt.quiet = s.cores.map CoreSt.quiet := by
  and_intros <;> simp -implicitDefEqProofs [feedLoss]

@[simp] theorem feedLoss_memGood (a1 : BitVec 4) (s : State) (h : memGood s.mem) : memGood (feedLoss a1 s).mem := by
  simp (maxDischargeDepth := 9) -implicitDefEqProofs [feedLoss, h]

@[simp] theorem feedSeek_frame (s : State) : (feedSeek s).cc = s.cc ∧ (feedSeek s).dev = s.dev ∧ (feedSeek s).tim = s.tim ∧
    (feedSeek s).th = s.th ∧ (feedSeek s).stone = s.stone ∧ (feedSeek s).bt = s.bt ∧ (feedSeek s).host = s.host ∧
    (feedSeek s).mem = s.mem ∧ (feedSeek s).freeCtr = s.freeCtr ∧ (feedSeek s).pending = s.pending ∧
    (feedSeek s).cores.map CoreSt.quiet = s.cores.map CoreSt.quiet := by
  unfold feedSeek; (try dsimp only); (repeat' split) <;> simp -implicitDefEqProofs

@[simp] theorem preLost_frame (a1 : Bool) (s : State) : (preLost a1 s).cc = s.cc ∧ (preLost a1 s).dev = s.dev ∧
    (preLost a1 s).tim = s.tim ∧ (preLost a1 s).th = s.th ∧ (preLost a1 s).stone = s.stone ∧ (preLost a1 s).bt = s.bt ∧
    (preLost a1 s).host = s.host ∧ (preLost a1 s).mem = s.mem ∧ (preLost a1 s).freeCtr = s.freeCtr ∧
    (preLost a1 s).pending = s.pending ∧ (preLost a1 s).cores.map CoreSt.quiet = s.cores.map CoreSt.quiet := by
  unfold preLost; (try dsimp only); (repeat' split) <;> simp -implicitDefEqProofs

@[simp] theorem feedReview_frame (s : State) : (feedReview s).cc = s.cc ∧ (feedReview s).dev = s.dev ∧
    (feedReview s).tim = s.tim ∧ (feedReview s).th = s.th ∧ (feedReview s).stone = s.stone ∧ (feedReview s).bt = s.bt ∧
    (feedReview s).host = s.host ∧ (feedReview s).mem = s.mem ∧ (feedReview s).freeCtr = s.freeCtr ∧
    (feedReview s).pending = s.pending ∧ (feedReview s).cores.map CoreSt.quiet = s.cores.map CoreSt.quiet := by
  unfold feedReview; (try dsimp only); (repeat' split) <;> simp -implicitDefEqProofs

@[simp] theorem contractChanged_frame (a1 : Port) (s : State) : (contractChanged a1 s).cc = s.cc ∧
    (contractChanged a1 s).dev = s.dev ∧ (contractChanged a1 s).tim = s.tim ∧ (contractChanged a1 s).th = s.th ∧
    (contractChanged a1 s).stone = s.stone ∧ (contractChanged a1 s).bt = s.bt ∧ (contractChanged a1 s).host = s.host ∧
    (contractChanged a1 s).mem = s.mem ∧ (contractChanged a1 s).freeCtr = s.freeCtr ∧
    (contractChanged a1 s).pending = s.pending ∧
    (contractChanged a1 s).cores.map CoreSt.quiet = s.cores.map CoreSt.quiet := by
  unfold contractChanged; (try dsimp only); (repeat' split) <;> simp -implicitDefEqProofs

@[simp] theorem finishContract_frame (a1 : Port) (s : State) : (finishContract a1 s).cc = s.cc ∧
    (finishContract a1 s).dev = s.dev ∧ (finishContract a1 s).tim = s.tim ∧ (finishContract a1 s).fd = s.fd ∧
    (finishContract a1 s).th = s.th ∧ (finishContract a1 s).stone = s.stone ∧ (finishContract a1 s).bt = s.bt ∧
    (finishContract a1 s).host = s.host ∧ (finishContract a1 s).freeCtr = s.freeCtr ∧
    (finishContract a1 s).pending = s.pending ∧ (finishContract a1 s).cores.map CoreSt.quiet = s.cores.map CoreSt.quiet := by
  unfold finishContract; (try dsimp only); (repeat' split) <;> simp -implicitDefEqProofs

@[simp] theorem finishContract_memGood (a1 : Port) (s : State) (h : memGood s.mem) : memGood (finishContract a1 s).mem := by
  unfold finishContract; (try dsimp only); (repeat' split) <;> simp (maxDischargeDepth := 9) -implicitDefEqProofs [h]

@[simp] theorem openTripped_frame (a1 : SwState) (a2 : Port) (s : State) : (openTripped a1 a2 s).cc = s.cc ∧
    (openTripped a1 a2 s).dev = s.dev ∧ (openTripped a1 a2 s).led = s.led ∧ (openTripped a1 a2 s).tim = s.tim ∧
    (openTripped a1 a2 s).fd = s.fd ∧ (openTripped a1 a2 s).th = s.th ∧ (openTripped a1 a2 s).stone = s.stone ∧
    (openTripped a1 a2 s).bt = s.bt ∧ (openTripped a1 a2 s).host = s.host ∧ (openTripped a1 a2 s).mem = s.mem ∧
    (openTripped a1 a2 s).freeCtr = s.freeCtr ∧ (openTripped a1 a2 s).pending = s.pending ∧
    (openTripped a1 a2 s).cores.map CoreSt.quiet = s.cores.map CoreSt.quiet := by
  unfold openTripped; (try dsimp only); (repeat' split) <;> simp -implicitDefEqProofs

@[simp] theorem trip_frame (a1 : Port) (a2 : BitVec 4) (s : State) : (trip a1 a2 s).cc = s.cc ∧ (trip a1 a2 s).dev = s.dev ∧
    (trip a1 a2 s).tim = s.tim ∧ (trip a1 a2 s).th = s.th ∧ (trip a1 a2 s).stone = s.stone ∧ (trip a1 a2 s).bt = s.bt ∧
    (trip a1 a2 s).host = s.host ∧ (trip a1 a2 s).freeCtr = s.freeCtr ∧ (trip a1 a2 s).pending = s.pending ∧
    (trip a1 a2 s).cores.map CoreSt.quiet = s.cores.map CoreSt.quiet := by
  unfold trip; (try dsimp only); (repeat' split) <;> simp -implicitDefEqProofs

@[simp] theorem trip_memGood (a1 : Port) (a2 : BitVec 4) (s : State) (h : memGood s.mem) : memGood (trip a1 a2 s).mem := by
  unfold trip; (try dsimp only); (repeat' split) <;> simp (maxDischargeDepth := 9) -implicitDefEqProofs [h]

@[simp] theorem attachEvent_frame (a1 : Port) (a2 : BitVec 2) (s : State) : (attachEvent a1 a2 s).cc = s.cc ∧
    (attachEvent a1 a2 s).dev = s.dev ∧ (attachEvent a1 a2 s).led = s.led ∧ (attachEvent a1 a2 s).tim = s.tim ∧
    (attachEvent a1 a2 s).fd = s.fd ∧ (attachEvent a1 a2 s).th = s.th ∧ (attachEvent a1 a2 s).stone = s.stone ∧
    (attachEvent a1 a2 s).bt = s.bt ∧ (attachEvent a1 a2 s).host = s.host ∧ (attachEvent a1 a2 s).mem = s.mem ∧
    (attachEvent a1 a2 s).freeCtr = s.freeCtr ∧ (attachEvent a1 a2 s).pending = s.pending ∧
    (attachEvent a1 a2 s).cores.map CoreSt.quiet = s.cores.map CoreSt.quiet := by
  and_intros <;> simp -implicitDefEqProofs [attachEvent]

@[simp] theorem enterUnattached_frame (a1 : Port) (s : State) : (enterUnattached a1 s).cc = s.cc ∧
    (enterUnattached a1 s).dev = s.dev ∧ (enterUnattached a1 s).cores = s.cores ∧ (enterUnattached a1 s).led = s.led ∧
    (enterUnattached a1 s).tim = s.tim ∧ (enterUnattached a1 s).fd = s.fd ∧ (enterUnattached a1 s).th = s.th ∧
    (enterUnattached a1 s).stone = s.stone ∧ (enterUnattached a1 s).bt = s.bt ∧ (enterUnattached a1 s).host = s.host ∧
    (enterUnattached a1 s).mem = s.mem ∧ (enterUnattached a1 s).freeCtr = s.freeCtr ∧
    (enterUnattached a1 s).pending = s.pending := by
  and_intros <;> simp -implicitDefEqProofs [enterUnattached]

@[simp] theorem seekPartner_frame (a1 : Port) (s : State) : (seekPartner a1 s).cc = s.cc ∧ (seekPartner a1 s).dev = s.dev ∧
    (seekPartner a1 s).cores = s.cores ∧ (seekPartner a1 s).led = s.led ∧ (seekPartner a1 s).tim = s.tim ∧
    (seekPartner a1 s).fd = s.fd ∧ (seekPartner a1 s).th = s.th ∧ (seekPartner a1 s).stone = s.stone ∧
    (seekPartner a1 s).bt = s.bt ∧ (seekPartner a1 s).host = s.host ∧ (seekPartner a1 s).mem = s.mem ∧
    (seekPartner a1 s).freeCtr = s.freeCtr ∧ (seekPartner a1 s).pending = s.pending := by
  unfold seekPartner; (try dsimp only); (repeat' split) <;> simp -implicitDefEqProofs

@[simp] theorem enterLegacy_frame (s : State) : (enterLegacy s).cc = s.cc ∧ (enterLegacy s).dev = s.dev ∧
    (enterLegacy s).tim = s.tim ∧ (enterLegacy s).th = s.th ∧ (enterLegacy s).stone = s.stone ∧ (enterLegacy s).bt = s.bt ∧
    (enterLegacy s).host = s.host ∧ (enterLegacy s).mem = s.mem ∧ (enterLegacy s).freeCtr = s.freeCtr ∧
    (enterLegacy s).pending = s.pending ∧ (enterLegacy s).cores.map CoreSt.quiet = s.cores.map CoreSt.quiet := by
  and_intros <;> simp -implicitDefEqProofs [enterLegacy]

@[simp] theorem applyDefault_frame (a1 : Port) (s : State) : (applyDefault a1 s).cc = s.cc ∧
    (applyDefault a1 s).dev = s.dev ∧ (applyDefault a1 s).tim = s.tim ∧ (applyDefault a1 s).fd = s.fd ∧
    (applyDefault a1 s).th = s.th ∧ (applyDefault a1 s).stone = s.stone ∧ (applyDefault a1 s).bt = s.bt ∧
    (applyDefault a1 s).host = s.host ∧ (applyDefault a1 s).freeCtr = s.freeCtr ∧ (applyDefault a1 s).pending = s.pending ∧
    (applyDefault a1 s).cores.map CoreSt.quiet = s.cores.map CoreSt.quiet := by
  unfold applyDefault; (try dsimp only); (repeat' split) <;> simp -implicitDefEqProofs

@[simp] theorem applyDefault_memGood (a1 : Port) (s : State) (h : memGood s.mem) : memGood (applyDefault a1 s).mem := by
  unfold applyDefault; (try dsimp only); (repeat' split) <;> simp (maxDischargeDepth := 9) -implicitDefEqProofs [h]

@[simp] theorem attachAs_frame (a1 : Port) (a2 : Bool) (a3 : Bool) (s : State) : (attachAs a1 a2 a3 s).cc = s.cc ∧
    (attachAs a1 a2 a3 s).dev = s.dev ∧ (attachAs a1 a2 a3 s).tim = s.tim ∧ (attachAs a1 a2 a3 s).th = s.th ∧
    (attachAs a1 a2 a3 s).stone = s.stone ∧ (attachAs a1 a2 a3 s).bt = s.bt ∧ (attachAs a1 a2 a3 s).host = s.host ∧
    (attachAs a1 a2 a3 s).freeCtr = s.freeCtr ∧ (attachAs a1 a2 a3 s).pending = s.pending ∧
    (attachAs a1 a2 a3 s).cores.map CoreSt.quiet = s.cores.map CoreSt.quiet := by
  unfold attachAs; (try dsimp only); (repeat' split) <;> simp -implicitDefEqProofs

@[simp] theorem attachAs_memGood (a1 : Port) (a2 : Bool) (a3 : Bool) (s : State) (h : memGood s.mem) : memGood (attachAs a1
    a2 a3 s).mem := by
  unfold attachAs; (try dsimp only); (repeat' split) <;> simp (maxDischargeDepth := 9) -implicitDefEqProofs [h]

@[simp] theorem enterTry_frame (a1 : Port) (a2 : AttachState) (a3 : Bool) (s : State) : (enterTry a1 a2 a3 s).cc = s.cc ∧
    (enterTry a1 a2 a3 s).dev = s.dev ∧ (enterTry a1 a2 a3 s).cores = s.cores ∧ (enterTry a1 a2 a3 s).led = s.led ∧
    (enterTry a1 a2 a3 s).tim = s.tim ∧ (enterTry a1 a2 a3 s).fd = s.fd ∧ (enterTry a1 a2 a3 s).th = s.th ∧
    (enterTry a1 a2 a3 s).stone = s.stone ∧ (enterTry a1 a2 a3 s).bt = s.bt ∧ (enterTry a1 a2 a3 s).host = s.host ∧
    (enterTry a1 a2 a3 s).mem = s.mem ∧ (enterTry a1 a2 a3 s).freeCtr = s.freeCtr ∧
    (enterTry a1 a2 a3 s).pending = s.pending := by
  and_intros <;> simp -implicitDefEqProofs [enterTry]

@[simp] theorem debounceDone_frame (a1 : Port) (s : State) : (debounceDone a1 s).cc = s.cc ∧
    (debounceDone a1 s).dev = s.dev ∧ (debounceDone a1 s).tim = s.tim ∧ (debounceDone a1 s).th = s.th ∧
    (debounceDone a1 s).stone = s.stone ∧ (debounceDone a1 s).bt = s.bt ∧ (debounceDone a1 s).host = s.host ∧
    (debounceDone a1 s).freeCtr = s.freeCtr ∧ (debounceDone a1 s).pending = s.pending ∧
    (debounceDone a1 s).cores.map CoreSt.quiet = s.cores.map CoreSt.quiet := by
  unfold debounceDone; (try dsimp only); (repeat' split) <;> simp -implicitDefEqProofs

@[simp] theorem debounceDone_memGood (a1 : Port) (s : State) (h : memGood s.mem) : memGood (debounceDone a1 s).mem := by
  unfold debounceDone; (try dsimp only); (repeat' split) <;> simp (maxDischargeDepth := 9) -implicitDefEqProofs [h]

@[simp] theorem endEntry_frame (a1 : Port) (a2 : Nat) (a3 : Nat) (a4 : Nat) (s : State) : (endEntry a1 a2 a3 a4 s).cc = s.cc
    ∧ (endEntry a1 a2 a3 a4 s).dev = s.dev ∧ (endEntry a1 a2 a3 a4 s).led = s.led ∧ (endEntry a1 a2 a3 a4 s).tim = s.tim ∧
    (endEntry a1 a2 a3 a4 s).fd = s.fd ∧ (endEntry a1 a2 a3 a4 s).th = s.th ∧ (endEntry a1 a2 a3 a4 s).stone = s.stone ∧
    (endEntry a1 a2 a3 a4 s).bt = s.bt ∧ (endEntry a1 a2 a3 a4 s).host = s.host ∧
    (endEntry a1 a2 a3 a4 s).freeCtr = s.freeCtr ∧ (endEntry a1 a2 a3 a4 s).pending = s.pending ∧
    (endEntry a1 a2 a3 a4 s).cores.map CoreSt.quiet = s.cores.map CoreSt.quiet := by
  and_intros <;> simp -implicitDefEqProofs [endEntry]

@[simp] theorem endEntry_memGood (a1 : Port) (a2 : Nat) (a3 : Nat) (a4 : Nat) (s : State) (h : memGood s.mem) : memGood
    (endEntry a1 a2 a3 a4 s).mem := by
  simp (maxDischargeDepth := 9) -implicitDefEqProofs [endEntry, h]

@[simp] theorem flushTx_frame (a1 : Port) (a2 : Nat) (s : State) : (flushTx a1 a2 s).cc = s.cc ∧
    (flushTx a1 a2 s).dev = s.dev ∧ (flushTx a1 a2 s).led = s.led ∧ (flushTx a1 a2 s).tim = s.tim ∧
    (flushTx a1 a2 s).fd = s.fd ∧ (flushTx a1 a2 s).th = s.th ∧ (flushTx a1 a2 s).stone = s.stone ∧
    (flushTx a1 a2 s).bt = s.bt ∧ (flushTx a1 a2 s).host = s.host ∧ (flushTx a1 a2 s).freeCtr = s.freeCtr ∧
    (flushTx a1 a2 s).pending = s.pending ∧ (flushTx a1 a2 s).cores.map CoreSt.quiet = s.cores.map CoreSt.quiet := by
  unfold flushTx; (try dsimp only); and_intros <;> (repeat' split) <;> simp -implicitDefEqProofs [foldl_cc, foldl_dev, foldl_led, foldl_tim, foldl_fd, foldl_th, foldl_stone, foldl_bt, foldl_host, foldl_freeCtr, foldl_pending, foldl_quiet]

@[simp] theorem flushTx_memGood (a1 : Port) (a2 : Nat) (s : State) (h : memGood s.mem) : memGood (flushTx a1 a2 s).mem := by
  unfold flushTx; (try dsimp only); (repeat' split) <;> simp (maxDischargeDepth := 9) -implicitDefEqProofs +contextual [h, foldl_memGood2]

@[simp] theorem closeLine_frame (a1 : Port) (s : State) : (closeLine a1 s).cc = s.cc ∧ (closeLine a1 s).dev = s.dev ∧
    (closeLine a1 s).led = s.led ∧ (closeLine a1 s).tim = s.tim ∧ (closeLine a1 s).fd = s.fd ∧ (closeLine a1 s).th = s.th ∧
    (closeLine a1 s).stone = s.stone ∧ (closeLine a1 s).bt = s.bt ∧ (closeLine a1 s).host = s.host ∧
    (closeLine a1 s).freeCtr = s.freeCtr ∧ (closeLine a1 s).pending = s.pending ∧
    (closeLine a1 s).cores.map CoreSt.quiet = s.cores.map CoreSt.quiet := by
  and_intros <;> simp -implicitDefEqProofs [closeLine]

@[simp] theorem closeLine_memGood (a1 : Port) (s : State) (h : memGood s.mem) : memGood (closeLine a1 s).mem := by
  simp (maxDischargeDepth := 9) -implicitDefEqProofs [closeLine, h]

@[simp] theorem detach_frame (a1 : Port) (a2 : BitVec 2) (a3 : BitVec 4) (s : State) : (detach a1 a2 a3 s).cc = s.cc ∧
    (detach a1 a2 a3 s).dev = s.dev ∧ (detach a1 a2 a3 s).tim = s.tim ∧ (detach a1 a2 a3 s).th = s.th ∧
    (detach a1 a2 a3 s).stone = s.stone ∧ (detach a1 a2 a3 s).bt = s.bt ∧ (detach a1 a2 a3 s).host = s.host ∧
    (detach a1 a2 a3 s).freeCtr = s.freeCtr ∧ (detach a1 a2 a3 s).pending = s.pending ∧
    (detach a1 a2 a3 s).cores.map CoreSt.quiet = s.cores.map CoreSt.quiet := by
  unfold detach; (try dsimp only); (repeat' split) <;> simp -implicitDefEqProofs

@[simp] theorem detach_memGood (a1 : Port) (a2 : BitVec 2) (a3 : BitVec 4) (s : State) (h : memGood s.mem) : memGood (detach
    a1 a2 a3 s).mem := by
  unfold detach; (try dsimp only); (repeat' split) <;> simp (maxDischargeDepth := 9) -implicitDefEqProofs [h]

@[simp] theorem leaveLegacy_frame (s : State) : (leaveLegacy s).cc = s.cc ∧ (leaveLegacy s).dev = s.dev ∧
    (leaveLegacy s).led = s.led ∧ (leaveLegacy s).tim = s.tim ∧ (leaveLegacy s).fd = s.fd ∧ (leaveLegacy s).th = s.th ∧
    (leaveLegacy s).stone = s.stone ∧ (leaveLegacy s).bt = s.bt ∧ (leaveLegacy s).host = s.host ∧
    (leaveLegacy s).freeCtr = s.freeCtr ∧ (leaveLegacy s).pending = s.pending ∧
    (leaveLegacy s).cores.map CoreSt.quiet = s.cores.map CoreSt.quiet := by
  and_intros <;> simp -implicitDefEqProofs [leaveLegacy]

@[simp] theorem leaveLegacy_memGood (s : State) (h : memGood s.mem) : memGood (leaveLegacy s).mem := by
  simp (maxDischargeDepth := 9) -implicitDefEqProofs [leaveLegacy, h]

@[simp] theorem endLegacy_frame (s : State) : (endLegacy s).cc = s.cc ∧ (endLegacy s).dev = s.dev ∧
    (endLegacy s).tim = s.tim ∧ (endLegacy s).th = s.th ∧ (endLegacy s).stone = s.stone ∧ (endLegacy s).bt = s.bt ∧
    (endLegacy s).host = s.host ∧ (endLegacy s).freeCtr = s.freeCtr ∧ (endLegacy s).pending = s.pending ∧
    (endLegacy s).cores.map CoreSt.quiet = s.cores.map CoreSt.quiet := by
  unfold endLegacy; (try dsimp only); (repeat' split) <;> simp -implicitDefEqProofs

@[simp] theorem endLegacy_memGood (s : State) (h : memGood s.mem) : memGood (endLegacy s).mem := by
  unfold endLegacy; (try dsimp only); (repeat' split) <;> simp (maxDischargeDepth := 9) -implicitDefEqProofs [h]

@[simp] theorem onReading_frame (a1 : Port) (a2 : Reading) (a3 : Reading) (s : State) : (onReading a1 a2 a3 s).cc = s.cc ∧
    (onReading a1 a2 a3 s).dev = s.dev ∧ (onReading a1 a2 a3 s).tim = s.tim ∧ (onReading a1 a2 a3 s).th = s.th ∧
    (onReading a1 a2 a3 s).stone = s.stone ∧ (onReading a1 a2 a3 s).bt = s.bt ∧ (onReading a1 a2 a3 s).host = s.host ∧
    (onReading a1 a2 a3 s).freeCtr = s.freeCtr ∧ (onReading a1 a2 a3 s).pending = s.pending ∧
    (onReading a1 a2 a3 s).cores.map CoreSt.quiet = s.cores.map CoreSt.quiet := by
  unfold onReading; (try dsimp only); (repeat' split) <;> simp -implicitDefEqProofs

@[simp] theorem onReading_memGood (a1 : Port) (a2 : Reading) (a3 : Reading) (s : State) (h : memGood s.mem) : memGood
    (onReading a1 a2 a3 s).mem := by
  unfold onReading; (try dsimp only); (repeat' split) <;> simp (maxDischargeDepth := 9) -implicitDefEqProofs [h]

@[simp] theorem seatBroken_frame (a1 : Port) (s : State) : (seatBroken a1 s).cc = s.cc ∧ (seatBroken a1 s).dev = s.dev ∧
    (seatBroken a1 s).tim = s.tim ∧ (seatBroken a1 s).th = s.th ∧ (seatBroken a1 s).stone = s.stone ∧
    (seatBroken a1 s).bt = s.bt ∧ (seatBroken a1 s).host = s.host ∧ (seatBroken a1 s).freeCtr = s.freeCtr ∧
    (seatBroken a1 s).pending = s.pending ∧ (seatBroken a1 s).cores.map CoreSt.quiet = s.cores.map CoreSt.quiet := by
  unfold seatBroken; (try dsimp only); (repeat' split) <;> simp -implicitDefEqProofs

@[simp] theorem seatBroken_memGood (a1 : Port) (s : State) (h : memGood s.mem) : memGood (seatBroken a1 s).mem := by
  unfold seatBroken; (try dsimp only); (repeat' split) <;> simp (maxDischargeDepth := 9) -implicitDefEqProofs [h]

@[simp] theorem cfctlApply_frame (a1 : Port) (a2 : Word) (s : State) : (cfctlApply a1 a2 s).cc = s.cc ∧
    (cfctlApply a1 a2 s).dev = s.dev ∧ (cfctlApply a1 a2 s).tim = s.tim ∧ (cfctlApply a1 a2 s).th = s.th ∧
    (cfctlApply a1 a2 s).stone = s.stone ∧ (cfctlApply a1 a2 s).bt = s.bt ∧ (cfctlApply a1 a2 s).host = s.host ∧
    (cfctlApply a1 a2 s).freeCtr = s.freeCtr ∧ (cfctlApply a1 a2 s).pending = s.pending ∧
    (cfctlApply a1 a2 s).cores.map CoreSt.quiet = s.cores.map CoreSt.quiet := by
  unfold cfctlApply; (try dsimp only); (repeat' split) <;> simp -implicitDefEqProofs

@[simp] theorem cfctlApply_memGood (a1 : Port) (a2 : Word) (s : State) (h : memGood s.mem) : memGood (cfctlApply a1 a2 s).mem
    := by
  unfold cfctlApply; (try dsimp only); (repeat' split) <;> simp (maxDischargeDepth := 9) -implicitDefEqProofs [h]

@[simp] theorem fireBound_frame (a1 : Nat) (a2 : Nat) (s : State) : (fireBound a1 a2 s).cc = s.cc ∧
    (fireBound a1 a2 s).dev = s.dev ∧ (fireBound a1 a2 s).ports = s.ports ∧ (fireBound a1 a2 s).led = s.led ∧
    (fireBound a1 a2 s).tim = s.tim ∧ (fireBound a1 a2 s).fd = s.fd ∧ (fireBound a1 a2 s).th = s.th ∧
    (fireBound a1 a2 s).stone = s.stone ∧ (fireBound a1 a2 s).bt = s.bt ∧ (fireBound a1 a2 s).host = s.host ∧
    (fireBound a1 a2 s).mem = s.mem ∧ (fireBound a1 a2 s).freeCtr = s.freeCtr ∧ (fireBound a1 a2 s).pending = s.pending ∧
    (fireBound a1 a2 s).cores.map CoreSt.quiet = s.cores.map CoreSt.quiet := by
  and_intros <;> simp -implicitDefEqProofs [fireBound, apply_ite State.cc, apply_ite State.dev, apply_ite State.ports, apply_ite State.led, apply_ite State.tim, apply_ite State.fd, apply_ite State.th, apply_ite State.stone, apply_ite State.bt, apply_ite State.host, apply_ite State.mem, apply_ite State.freeCtr, apply_ite State.pending, apply_ite State.cores, apply_ite (Vector.map CoreSt.quiet), updCore_quiet, CoreSt.quiet, foldl_cc, foldl_dev, foldl_ports, foldl_led, foldl_tim, foldl_fd, foldl_th, foldl_stone, foldl_bt, foldl_host, foldl_mem, foldl_freeCtr, foldl_pending, foldl_quiet]

@[simp] theorem askCounter_frame (a1 : Fin 24) (a2 : Nat) (a3 : CtOp) (s : State) : (askCounter a1 a2 a3 s).cc = s.cc ∧
    (askCounter a1 a2 a3 s).dev = s.dev ∧ (askCounter a1 a2 a3 s).cores = s.cores ∧ (askCounter a1 a2 a3 s).ports = s.ports ∧
    (askCounter a1 a2 a3 s).led = s.led ∧ (askCounter a1 a2 a3 s).fd = s.fd ∧ (askCounter a1 a2 a3 s).th = s.th ∧
    (askCounter a1 a2 a3 s).stone = s.stone ∧ (askCounter a1 a2 a3 s).bt = s.bt ∧ (askCounter a1 a2 a3 s).host = s.host ∧
    (askCounter a1 a2 a3 s).mem = s.mem ∧ (askCounter a1 a2 a3 s).freeCtr = s.freeCtr ∧
    (askCounter a1 a2 a3 s).pending = s.pending := by
  and_intros <;> simp -implicitDefEqProofs [askCounter]

@[simp] theorem forceReload_frame (a1 : Fin 24) (s : State) : (forceReload a1 s).cc = s.cc ∧ (forceReload a1 s).dev = s.dev ∧
    (forceReload a1 s).cores = s.cores ∧ (forceReload a1 s).ports = s.ports ∧ (forceReload a1 s).led = s.led ∧
    (forceReload a1 s).fd = s.fd ∧ (forceReload a1 s).th = s.th ∧ (forceReload a1 s).stone = s.stone ∧
    (forceReload a1 s).bt = s.bt ∧ (forceReload a1 s).host = s.host ∧ (forceReload a1 s).mem = s.mem ∧
    (forceReload a1 s).freeCtr = s.freeCtr ∧ (forceReload a1 s).pending = s.pending := by
  and_intros <;> simp -implicitDefEqProofs [forceReload]

@[simp] theorem startCounter_frame (a1 : Fin 24) (s : State) : (startCounter a1 s).cc = s.cc ∧
    (startCounter a1 s).dev = s.dev ∧ (startCounter a1 s).cores = s.cores ∧ (startCounter a1 s).ports = s.ports ∧
    (startCounter a1 s).led = s.led ∧ (startCounter a1 s).fd = s.fd ∧ (startCounter a1 s).th = s.th ∧
    (startCounter a1 s).stone = s.stone ∧ (startCounter a1 s).bt = s.bt ∧ (startCounter a1 s).host = s.host ∧
    (startCounter a1 s).mem = s.mem ∧ (startCounter a1 s).freeCtr = s.freeCtr ∧ (startCounter a1 s).pending = s.pending := by
  and_intros <;> simp -implicitDefEqProofs [startCounter]

@[simp] theorem stopCounter_frame (a1 : Fin 24) (s : State) : (stopCounter a1 s).cc = s.cc ∧ (stopCounter a1 s).dev = s.dev ∧
    (stopCounter a1 s).cores = s.cores ∧ (stopCounter a1 s).ports = s.ports ∧ (stopCounter a1 s).led = s.led ∧
    (stopCounter a1 s).fd = s.fd ∧ (stopCounter a1 s).th = s.th ∧ (stopCounter a1 s).stone = s.stone ∧
    (stopCounter a1 s).bt = s.bt ∧ (stopCounter a1 s).host = s.host ∧ (stopCounter a1 s).mem = s.mem ∧
    (stopCounter a1 s).freeCtr = s.freeCtr ∧ (stopCounter a1 s).pending = s.pending := by
  and_intros <;> simp -implicitDefEqProofs [stopCounter]

@[simp] theorem tickCounter_frame (a1 : Nat) (a2 : Fin 24) (s : State) : (tickCounter a1 a2 s).cc = s.cc ∧
    (tickCounter a1 a2 s).dev = s.dev ∧ (tickCounter a1 a2 s).ports = s.ports ∧ (tickCounter a1 a2 s).led = s.led ∧
    (tickCounter a1 a2 s).fd = s.fd ∧ (tickCounter a1 a2 s).th = s.th ∧ (tickCounter a1 a2 s).stone = s.stone ∧
    (tickCounter a1 a2 s).bt = s.bt ∧ (tickCounter a1 a2 s).host = s.host ∧ (tickCounter a1 a2 s).mem = s.mem ∧
    (tickCounter a1 a2 s).freeCtr = s.freeCtr ∧ (tickCounter a1 a2 s).pending = s.pending ∧
    (tickCounter a1 a2 s).cores.map CoreSt.quiet = s.cores.map CoreSt.quiet := by
  and_intros <;> first | exact tickCounter_get (fun s => s.cores.map CoreSt.quiet) (fun s k f => rfl) (by simp) _ _ _ | exact tickCounter_get _ (by simp) (by simp) _ _ _

@[simp] theorem timWrite_frame (a1 : Nat) (a2 : Nat) (a3 : Nat) (a4 : Word) (s : State) : (timWrite a1 a2 a3 a4 s).cc = s.cc
    ∧ (timWrite a1 a2 a3 a4 s).dev = s.dev ∧ (timWrite a1 a2 a3 a4 s).cores = s.cores ∧
    (timWrite a1 a2 a3 a4 s).ports = s.ports ∧ (timWrite a1 a2 a3 a4 s).led = s.led ∧ (timWrite a1 a2 a3 a4 s).fd = s.fd ∧
    (timWrite a1 a2 a3 a4 s).th = s.th ∧ (timWrite a1 a2 a3 a4 s).stone = s.stone ∧ (timWrite a1 a2 a3 a4 s).bt = s.bt ∧
    (timWrite a1 a2 a3 a4 s).host = s.host ∧ (timWrite a1 a2 a3 a4 s).mem = s.mem ∧
    (timWrite a1 a2 a3 a4 s).freeCtr = s.freeCtr ∧ (timWrite a1 a2 a3 a4 s).pending = s.pending := by
  unfold timWrite; (try dsimp only); (repeat' split) <;> simp -implicitDefEqProofs

@[simp] theorem timCmd_frame (a1 : Nat) (a2 : Nat) (s : State) : (timCmd a1 a2 s).cc = s.cc ∧ (timCmd a1 a2 s).dev = s.dev ∧
    (timCmd a1 a2 s).cores = s.cores ∧ (timCmd a1 a2 s).ports = s.ports ∧ (timCmd a1 a2 s).led = s.led ∧
    (timCmd a1 a2 s).fd = s.fd ∧ (timCmd a1 a2 s).th = s.th ∧ (timCmd a1 a2 s).stone = s.stone ∧ (timCmd a1 a2 s).bt = s.bt ∧
    (timCmd a1 a2 s).host = s.host ∧ (timCmd a1 a2 s).mem = s.mem ∧ (timCmd a1 a2 s).freeCtr = s.freeCtr ∧
    (timCmd a1 a2 s).pending = s.pending := by
  unfold timCmd; (try dsimp only); (repeat' split) <;> simp -implicitDefEqProofs

@[simp] theorem setPipW1_frame (a1 : Nat) (a2 : Word) (s : State) : (setPipW1 a1 a2 s).cc = s.cc ∧
    (setPipW1 a1 a2 s).dev = s.dev ∧ (setPipW1 a1 a2 s).cores = s.cores ∧ (setPipW1 a1 a2 s).ports = s.ports ∧
    (setPipW1 a1 a2 s).led = s.led ∧ (setPipW1 a1 a2 s).tim = s.tim ∧ (setPipW1 a1 a2 s).fd = s.fd ∧
    (setPipW1 a1 a2 s).th = s.th ∧ (setPipW1 a1 a2 s).stone = s.stone ∧ (setPipW1 a1 a2 s).bt = s.bt ∧
    (setPipW1 a1 a2 s).host = s.host ∧ (setPipW1 a1 a2 s).freeCtr = s.freeCtr ∧ (setPipW1 a1 a2 s).pending = s.pending := by
  and_intros <;> simp -implicitDefEqProofs [setPipW1]

@[simp] theorem setPipW1_memGood (a1 : Nat) (a2 : Word) (s : State) (h : memGood s.mem) : memGood (setPipW1 a1 a2 s).mem :=
    by
  simp (maxDischargeDepth := 9) -implicitDefEqProofs [setPipW1, h]

@[simp] theorem keepShadow_frame (a1 : Fin 256) (a2 : Bool) (s : State) : (keepShadow a1 a2 s).cc = s.cc ∧
    (keepShadow a1 a2 s).dev = s.dev ∧ (keepShadow a1 a2 s).cores = s.cores ∧ (keepShadow a1 a2 s).ports = s.ports ∧
    (keepShadow a1 a2 s).led = s.led ∧ (keepShadow a1 a2 s).fd = s.fd ∧ (keepShadow a1 a2 s).th = s.th ∧
    (keepShadow a1 a2 s).stone = s.stone ∧ (keepShadow a1 a2 s).bt = s.bt ∧ (keepShadow a1 a2 s).host = s.host ∧
    (keepShadow a1 a2 s).mem = s.mem ∧ (keepShadow a1 a2 s).freeCtr = s.freeCtr ∧
    (keepShadow a1 a2 s).pending = s.pending := by
  and_intros <;> simp -implicitDefEqProofs [keepShadow]

@[simp] theorem setPipLast_frame (a1 : Nat) (a2 : Nat) (s : State) : (setPipLast a1 a2 s).cc = s.cc ∧
    (setPipLast a1 a2 s).dev = s.dev ∧ (setPipLast a1 a2 s).cores = s.cores ∧ (setPipLast a1 a2 s).ports = s.ports ∧
    (setPipLast a1 a2 s).led = s.led ∧ (setPipLast a1 a2 s).tim = s.tim ∧ (setPipLast a1 a2 s).fd = s.fd ∧
    (setPipLast a1 a2 s).th = s.th ∧ (setPipLast a1 a2 s).stone = s.stone ∧ (setPipLast a1 a2 s).bt = s.bt ∧
    (setPipLast a1 a2 s).host = s.host ∧ (setPipLast a1 a2 s).freeCtr = s.freeCtr ∧
    (setPipLast a1 a2 s).pending = s.pending := by
  and_intros <;> simp -implicitDefEqProofs [setPipLast]

@[simp] theorem setPipLast_memGood (a1 : Nat) (a2 : Nat) (s : State) (h : memGood s.mem) : memGood (setPipLast a1 a2 s).mem
    := by
  simp (maxDischargeDepth := 9) -implicitDefEqProofs [setPipLast, h]

@[simp] theorem enqueue_frame (a1 : Port) (a2 : List (Fin 256 × Nat × Bool)) (a3 : Bool) (s : State) : (enqueue a1 a2 a3
    s).cc = s.cc ∧ (enqueue a1 a2 a3 s).dev = s.dev ∧ (enqueue a1 a2 a3 s).ports = s.ports ∧
    (enqueue a1 a2 a3 s).led = s.led ∧ (enqueue a1 a2 a3 s).fd = s.fd ∧ (enqueue a1 a2 a3 s).th = s.th ∧
    (enqueue a1 a2 a3 s).stone = s.stone ∧ (enqueue a1 a2 a3 s).bt = s.bt ∧ (enqueue a1 a2 a3 s).host = s.host ∧
    (enqueue a1 a2 a3 s).freeCtr = s.freeCtr ∧ (enqueue a1 a2 a3 s).pending = s.pending ∧
    (enqueue a1 a2 a3 s).cores.map CoreSt.quiet = s.cores.map CoreSt.quiet := by
  unfold enqueue; (try dsimp only); and_intros <;> (repeat' split) <;> simp -implicitDefEqProofs [foldl_cc, foldl_dev, foldl_ports, foldl_led, foldl_fd, foldl_th, foldl_stone, foldl_bt, foldl_host, foldl_freeCtr, foldl_pending, foldl_quiet]

@[simp] theorem enqueue_memGood (a1 : Port) (a2 : List (Fin 256 × Nat × Bool)) (a3 : Bool) (s : State) (h : memGood s.mem) :
    memGood (enqueue a1 a2 a3 s).mem := by
  unfold enqueue; (try dsimp only); (repeat' split) <;> simp (maxDischargeDepth := 9) -implicitDefEqProofs +contextual [h, foldl_memGood2]

@[simp] theorem sweepTurn_frame (a1 : Port) (a2 : Nat) (s : State) : (sweepTurn a1 a2 s).cc = s.cc ∧
    (sweepTurn a1 a2 s).dev = s.dev ∧ (sweepTurn a1 a2 s).ports = s.ports ∧ (sweepTurn a1 a2 s).led = s.led ∧
    (sweepTurn a1 a2 s).fd = s.fd ∧ (sweepTurn a1 a2 s).th = s.th ∧ (sweepTurn a1 a2 s).stone = s.stone ∧
    (sweepTurn a1 a2 s).bt = s.bt ∧ (sweepTurn a1 a2 s).host = s.host ∧ (sweepTurn a1 a2 s).freeCtr = s.freeCtr ∧
    (sweepTurn a1 a2 s).pending = s.pending ∧ (sweepTurn a1 a2 s).cores.map CoreSt.quiet = s.cores.map CoreSt.quiet := by
  and_intros <;> simp -implicitDefEqProofs [sweepTurn]

@[simp] theorem sweepTurn_memGood (a1 : Port) (a2 : Nat) (s : State) (h : memGood s.mem) : memGood (sweepTurn a1 a2 s).mem :=
    by
  simp (maxDischargeDepth := 9) -implicitDefEqProofs [sweepTurn, h]

@[simp] theorem sweepJump_frame (a1 : Port) (a2 : Nat) (a3 : Nat) (s : State) : (sweepJump a1 a2 a3 s).cc = s.cc ∧
    (sweepJump a1 a2 a3 s).dev = s.dev ∧ (sweepJump a1 a2 a3 s).ports = s.ports ∧ (sweepJump a1 a2 a3 s).led = s.led ∧
    (sweepJump a1 a2 a3 s).fd = s.fd ∧ (sweepJump a1 a2 a3 s).th = s.th ∧ (sweepJump a1 a2 a3 s).stone = s.stone ∧
    (sweepJump a1 a2 a3 s).bt = s.bt ∧ (sweepJump a1 a2 a3 s).host = s.host ∧ (sweepJump a1 a2 a3 s).freeCtr = s.freeCtr ∧
    (sweepJump a1 a2 a3 s).pending = s.pending ∧
    (sweepJump a1 a2 a3 s).cores.map CoreSt.quiet = s.cores.map CoreSt.quiet := by
  and_intros <;> simp -implicitDefEqProofs [sweepJump]

@[simp] theorem sweepJump_memGood (a1 : Port) (a2 : Nat) (a3 : Nat) (s : State) (h : memGood s.mem) : memGood (sweepJump a1
    a2 a3 s).mem := by
  simp (maxDischargeDepth := 9) -implicitDefEqProofs [sweepJump, h]

@[simp] theorem stepForward_frame (a1 : Port) (s : State) : (stepForward a1 s).cc = s.cc ∧ (stepForward a1 s).dev = s.dev ∧
    (stepForward a1 s).led = s.led ∧ (stepForward a1 s).fd = s.fd ∧ (stepForward a1 s).th = s.th ∧
    (stepForward a1 s).stone = s.stone ∧ (stepForward a1 s).bt = s.bt ∧ (stepForward a1 s).host = s.host ∧
    (stepForward a1 s).freeCtr = s.freeCtr ∧ (stepForward a1 s).pending = s.pending ∧
    (stepForward a1 s).cores.map CoreSt.quiet = s.cores.map CoreSt.quiet := by
  unfold stepForward; (try dsimp only); (repeat' split) <;> simp -implicitDefEqProofs

@[simp] theorem stepForward_memGood (a1 : Port) (s : State) (h : memGood s.mem) : memGood (stepForward a1 s).mem := by
  unfold stepForward; (try dsimp only); (repeat' split) <;> simp (maxDischargeDepth := 9) -implicitDefEqProofs [h]

@[simp] theorem stepBackward_frame (a1 : Port) (s : State) : (stepBackward a1 s).cc = s.cc ∧
    (stepBackward a1 s).dev = s.dev ∧ (stepBackward a1 s).cores = s.cores ∧ (stepBackward a1 s).led = s.led ∧
    (stepBackward a1 s).tim = s.tim ∧ (stepBackward a1 s).fd = s.fd ∧ (stepBackward a1 s).th = s.th ∧
    (stepBackward a1 s).stone = s.stone ∧ (stepBackward a1 s).bt = s.bt ∧ (stepBackward a1 s).host = s.host ∧
    (stepBackward a1 s).mem = s.mem ∧ (stepBackward a1 s).freeCtr = s.freeCtr ∧ (stepBackward a1 s).pending = s.pending := by
  and_intros <;> simp -implicitDefEqProofs [stepBackward]

@[simp] theorem recordJump_frame (a1 : Port) (a2 : Int) (s : State) : (recordJump a1 a2 s).cc = s.cc ∧
    (recordJump a1 a2 s).dev = s.dev ∧ (recordJump a1 a2 s).cores = s.cores ∧ (recordJump a1 a2 s).led = s.led ∧
    (recordJump a1 a2 s).tim = s.tim ∧ (recordJump a1 a2 s).fd = s.fd ∧ (recordJump a1 a2 s).th = s.th ∧
    (recordJump a1 a2 s).stone = s.stone ∧ (recordJump a1 a2 s).bt = s.bt ∧ (recordJump a1 a2 s).host = s.host ∧
    (recordJump a1 a2 s).mem = s.mem ∧ (recordJump a1 a2 s).freeCtr = s.freeCtr ∧
    (recordJump a1 a2 s).pending = s.pending := by
  and_intros <;> simp -implicitDefEqProofs [recordJump]

@[simp] theorem setWheelMode_frame (a1 : Port) (a2 : WheelMode) (s : State) : (setWheelMode a1 a2 s).cc = s.cc ∧
    (setWheelMode a1 a2 s).dev = s.dev ∧ (setWheelMode a1 a2 s).led = s.led ∧ (setWheelMode a1 a2 s).fd = s.fd ∧
    (setWheelMode a1 a2 s).th = s.th ∧ (setWheelMode a1 a2 s).stone = s.stone ∧ (setWheelMode a1 a2 s).bt = s.bt ∧
    (setWheelMode a1 a2 s).host = s.host ∧ (setWheelMode a1 a2 s).freeCtr = s.freeCtr ∧
    (setWheelMode a1 a2 s).pending = s.pending ∧
    (setWheelMode a1 a2 s).cores.map CoreSt.quiet = s.cores.map CoreSt.quiet := by
  unfold setWheelMode; (try dsimp only); (repeat' split) <;> simp -implicitDefEqProofs

@[simp] theorem setWheelMode_memGood (a1 : Port) (a2 : WheelMode) (s : State) (h : memGood s.mem) : memGood (setWheelMode a1
    a2 s).mem := by
  unfold setWheelMode; (try dsimp only); (repeat' split) <;> simp (maxDischargeDepth := 9) -implicitDefEqProofs [h]

@[simp] theorem resync_frame (a1 : Port) (s : State) : (resync a1 s).cc = s.cc ∧ (resync a1 s).dev = s.dev ∧
    (resync a1 s).led = s.led ∧ (resync a1 s).fd = s.fd ∧ (resync a1 s).th = s.th ∧ (resync a1 s).stone = s.stone ∧
    (resync a1 s).bt = s.bt ∧ (resync a1 s).host = s.host ∧ (resync a1 s).freeCtr = s.freeCtr ∧
    (resync a1 s).pending = s.pending ∧ (resync a1 s).cores.map CoreSt.quiet = s.cores.map CoreSt.quiet := by
  unfold resync; (try dsimp only); (repeat' split) <;> simp -implicitDefEqProofs

@[simp] theorem resync_memGood (a1 : Port) (s : State) (h : memGood s.mem) : memGood (resync a1 s).mem := by
  unfold resync; (try dsimp only); (repeat' split) <;> simp (maxDischargeDepth := 9) -implicitDefEqProofs [h]

@[simp] theorem toothForward_memGood (a1 : Port) (a2 : Bool) (s : State) (h : memGood s.mem) : memGood (toothForward a1 a2
    s).mem := by
  unfold toothForward; dsimp only; (repeat' split) <;> simp (maxDischargeDepth := 9) -implicitDefEqProofs [h]

@[simp] theorem toothForward_frame (a1 : Port) (a2 : Bool) (s : State) : (toothForward a1 a2 s).cc = s.cc ∧
    (toothForward a1 a2 s).dev = s.dev ∧ (toothForward a1 a2 s).led = s.led ∧ (toothForward a1 a2 s).fd = s.fd ∧
    (toothForward a1 a2 s).th = s.th ∧ (toothForward a1 a2 s).stone = s.stone ∧ (toothForward a1 a2 s).bt = s.bt ∧
    (toothForward a1 a2 s).host = s.host ∧ (toothForward a1 a2 s).freeCtr = s.freeCtr ∧
    (toothForward a1 a2 s).pending = s.pending ∧
    (toothForward a1 a2 s).cores.map CoreSt.quiet = s.cores.map CoreSt.quiet := by
  unfold toothForward; (try dsimp only); (repeat' split) <;> simp -implicitDefEqProofs

@[simp] theorem toothReverse_frame (a1 : Port) (s : State) : (toothReverse a1 s).cc = s.cc ∧
    (toothReverse a1 s).dev = s.dev ∧ (toothReverse a1 s).cores = s.cores ∧ (toothReverse a1 s).led = s.led ∧
    (toothReverse a1 s).tim = s.tim ∧ (toothReverse a1 s).fd = s.fd ∧ (toothReverse a1 s).th = s.th ∧
    (toothReverse a1 s).stone = s.stone ∧ (toothReverse a1 s).bt = s.bt ∧ (toothReverse a1 s).host = s.host ∧
    (toothReverse a1 s).mem = s.mem ∧ (toothReverse a1 s).freeCtr = s.freeCtr ∧ (toothReverse a1 s).pending = s.pending := by
  unfold toothReverse; (try dsimp only); (repeat' split) <;> simp -implicitDefEqProofs

@[simp] theorem toothInvalid_frame (a1 : Port) (s : State) : (toothInvalid a1 s).cc = s.cc ∧
    (toothInvalid a1 s).dev = s.dev ∧ (toothInvalid a1 s).led = s.led ∧ (toothInvalid a1 s).fd = s.fd ∧
    (toothInvalid a1 s).th = s.th ∧ (toothInvalid a1 s).stone = s.stone ∧ (toothInvalid a1 s).bt = s.bt ∧
    (toothInvalid a1 s).host = s.host ∧ (toothInvalid a1 s).freeCtr = s.freeCtr ∧ (toothInvalid a1 s).pending = s.pending ∧
    (toothInvalid a1 s).cores.map CoreSt.quiet = s.cores.map CoreSt.quiet := by
  unfold toothInvalid; (try dsimp only); (repeat' split) <;> simp -implicitDefEqProofs

@[simp] theorem toothInvalid_memGood (a1 : Port) (s : State) (h : memGood s.mem) : memGood (toothInvalid a1 s).mem := by
  unfold toothInvalid; (try dsimp only); (repeat' split) <;> simp (maxDischargeDepth := 9) -implicitDefEqProofs [h]

@[simp] theorem angctlApply_frame (a1 : Port) (a2 : Word) (s : State) : (angctlApply a1 a2 s).cc = s.cc ∧
    (angctlApply a1 a2 s).dev = s.dev ∧ (angctlApply a1 a2 s).led = s.led ∧ (angctlApply a1 a2 s).fd = s.fd ∧
    (angctlApply a1 a2 s).th = s.th ∧ (angctlApply a1 a2 s).stone = s.stone ∧ (angctlApply a1 a2 s).bt = s.bt ∧
    (angctlApply a1 a2 s).host = s.host ∧ (angctlApply a1 a2 s).freeCtr = s.freeCtr ∧
    (angctlApply a1 a2 s).pending = s.pending ∧ (angctlApply a1 a2 s).cores.map CoreSt.quiet = s.cores.map CoreSt.quiet := by
  unfold angctlApply; (try dsimp only); (repeat' split) <;> simp -implicitDefEqProofs

@[simp] theorem angctlApply_memGood (a1 : Port) (a2 : Word) (s : State) (h : memGood s.mem) : memGood (angctlApply a1 a2
    s).mem := by
  unfold angctlApply; (try dsimp only); (repeat' split) <;> simp (maxDischargeDepth := 9) -implicitDefEqProofs [h]

@[simp] theorem skipLate_frame (a1 : Port) (s : State) : (skipLate a1 s).cc = s.cc ∧ (skipLate a1 s).dev = s.dev ∧
    (skipLate a1 s).led = s.led ∧ (skipLate a1 s).tim = s.tim ∧ (skipLate a1 s).fd = s.fd ∧ (skipLate a1 s).th = s.th ∧
    (skipLate a1 s).stone = s.stone ∧ (skipLate a1 s).bt = s.bt ∧ (skipLate a1 s).host = s.host ∧
    (skipLate a1 s).mem = s.mem ∧ (skipLate a1 s).freeCtr = s.freeCtr ∧ (skipLate a1 s).pending = s.pending ∧
    (skipLate a1 s).cores.map CoreSt.quiet = s.cores.map CoreSt.quiet := by
  and_intros <;> simp -implicitDefEqProofs [skipLate]

@[simp] theorem armProfile_frame (a1 : Port) (s : State) : (armProfile a1 s).cc = s.cc ∧ (armProfile a1 s).dev = s.dev ∧
    (armProfile a1 s).cores = s.cores ∧ (armProfile a1 s).led = s.led ∧ (armProfile a1 s).tim = s.tim ∧
    (armProfile a1 s).fd = s.fd ∧ (armProfile a1 s).th = s.th ∧ (armProfile a1 s).stone = s.stone ∧
    (armProfile a1 s).bt = s.bt ∧ (armProfile a1 s).host = s.host ∧ (armProfile a1 s).mem = s.mem ∧
    (armProfile a1 s).freeCtr = s.freeCtr ∧ (armProfile a1 s).pending = s.pending := by
  and_intros <;> simp -implicitDefEqProofs [armProfile]

@[simp] theorem openPip_frame (a1 : Port) (a2 : Bool) (a3 : Bool) (s : State) : (openPip a1 a2 a3 s).cc = s.cc ∧
    (openPip a1 a2 a3 s).dev = s.dev ∧ (openPip a1 a2 a3 s).tim = s.tim ∧ (openPip a1 a2 a3 s).fd = s.fd ∧
    (openPip a1 a2 a3 s).th = s.th ∧ (openPip a1 a2 a3 s).stone = s.stone ∧ (openPip a1 a2 a3 s).bt = s.bt ∧
    (openPip a1 a2 a3 s).host = s.host ∧ (openPip a1 a2 a3 s).mem = s.mem ∧ (openPip a1 a2 a3 s).freeCtr = s.freeCtr ∧
    (openPip a1 a2 a3 s).pending = s.pending ∧ (openPip a1 a2 a3 s).cores.map CoreSt.quiet = s.cores.map CoreSt.quiet := by
  unfold openPip; (try dsimp only); (repeat' split) <;> simp -implicitDefEqProofs

@[simp] theorem closePip_frame (a1 : Port) (s : State) : (closePip a1 s).cc = s.cc ∧ (closePip a1 s).dev = s.dev ∧
    (closePip a1 s).led = s.led ∧ (closePip a1 s).tim = s.tim ∧ (closePip a1 s).fd = s.fd ∧ (closePip a1 s).th = s.th ∧
    (closePip a1 s).stone = s.stone ∧ (closePip a1 s).bt = s.bt ∧ (closePip a1 s).host = s.host ∧
    (closePip a1 s).mem = s.mem ∧ (closePip a1 s).freeCtr = s.freeCtr ∧ (closePip a1 s).pending = s.pending ∧
    (closePip a1 s).cores.map CoreSt.quiet = s.cores.map CoreSt.quiet := by
  unfold closePip; (try dsimp only); (repeat' split) <;> simp -implicitDefEqProofs

@[simp] theorem notifyPip_frame (a1 : Port) (a2 : Fin 256) (a3 : Nat) (a4 : Bool) (s : State) : (notifyPip a1 a2 a3 a4 s).cc
    = s.cc ∧ (notifyPip a1 a2 a3 a4 s).dev = s.dev ∧ (notifyPip a1 a2 a3 a4 s).ports = s.ports ∧
    (notifyPip a1 a2 a3 a4 s).led = s.led ∧ (notifyPip a1 a2 a3 a4 s).fd = s.fd ∧ (notifyPip a1 a2 a3 a4 s).th = s.th ∧
    (notifyPip a1 a2 a3 a4 s).stone = s.stone ∧ (notifyPip a1 a2 a3 a4 s).bt = s.bt ∧
    (notifyPip a1 a2 a3 a4 s).host = s.host ∧ (notifyPip a1 a2 a3 a4 s).mem = s.mem ∧
    (notifyPip a1 a2 a3 a4 s).freeCtr = s.freeCtr ∧ (notifyPip a1 a2 a3 a4 s).pending = s.pending ∧
    (notifyPip a1 a2 a3 a4 s).cores.map CoreSt.quiet = s.cores.map CoreSt.quiet := by
  unfold notifyPip; (try dsimp only); (repeat' split) <;> simp -implicitDefEqProofs

@[simp] theorem countFiring_frame (a1 : Fin 256) (a2 : Bool) (s : State) : (countFiring a1 a2 s).cc = s.cc ∧
    (countFiring a1 a2 s).dev = s.dev ∧ (countFiring a1 a2 s).cores = s.cores ∧ (countFiring a1 a2 s).ports = s.ports ∧
    (countFiring a1 a2 s).led = s.led ∧ (countFiring a1 a2 s).tim = s.tim ∧ (countFiring a1 a2 s).fd = s.fd ∧
    (countFiring a1 a2 s).th = s.th ∧ (countFiring a1 a2 s).stone = s.stone ∧ (countFiring a1 a2 s).bt = s.bt ∧
    (countFiring a1 a2 s).host = s.host ∧ (countFiring a1 a2 s).freeCtr = s.freeCtr ∧
    (countFiring a1 a2 s).pending = s.pending := by
  unfold countFiring; (try dsimp only); (repeat' split) <;> simp -implicitDefEqProofs

@[simp] theorem countFiring_memGood (a1 : Fin 256) (a2 : Bool) (s : State) (h : memGood s.mem) : memGood (countFiring a1 a2
    s).mem := by
  unfold countFiring; (try dsimp only); (repeat' split) <;> simp (maxDischargeDepth := 9) -implicitDefEqProofs [h]

@[simp] theorem pipAct_frame (a1 : Fin 256) (a2 : Word) (a3 : Bool) (a4 : Bool) (s : State) : (pipAct a1 a2 a3 a4 s).cc =
    s.cc ∧ (pipAct a1 a2 a3 a4 s).dev = s.dev ∧ (pipAct a1 a2 a3 a4 s).fd = s.fd ∧ (pipAct a1 a2 a3 a4 s).th = s.th ∧
    (pipAct a1 a2 a3 a4 s).stone = s.stone ∧ (pipAct a1 a2 a3 a4 s).bt = s.bt ∧ (pipAct a1 a2 a3 a4 s).host = s.host ∧
    (pipAct a1 a2 a3 a4 s).mem = s.mem ∧ (pipAct a1 a2 a3 a4 s).freeCtr = s.freeCtr ∧
    (pipAct a1 a2 a3 a4 s).pending = s.pending ∧
    (pipAct a1 a2 a3 a4 s).cores.map CoreSt.quiet = s.cores.map CoreSt.quiet := by
  unfold pipAct; (try dsimp only); (repeat' split) <;> simp -implicitDefEqProofs

@[simp] theorem firePip_frame (a1 : Fin 256) (a2 : Bool) (a3 : Bool) (s : State) : (firePip a1 a2 a3 s).cc = s.cc ∧
    (firePip a1 a2 a3 s).dev = s.dev ∧ (firePip a1 a2 a3 s).fd = s.fd ∧ (firePip a1 a2 a3 s).th = s.th ∧
    (firePip a1 a2 a3 s).stone = s.stone ∧ (firePip a1 a2 a3 s).bt = s.bt ∧ (firePip a1 a2 a3 s).host = s.host ∧
    (firePip a1 a2 a3 s).freeCtr = s.freeCtr ∧ (firePip a1 a2 a3 s).pending = s.pending ∧
    (firePip a1 a2 a3 s).cores.map CoreSt.quiet = s.cores.map CoreSt.quiet := by
  unfold firePip; (try dsimp only); (repeat' split) <;> simp -implicitDefEqProofs

@[simp] theorem firePip_memGood (a1 : Fin 256) (a2 : Bool) (a3 : Bool) (s : State) (h : memGood s.mem) : memGood (firePip a1
    a2 a3 s).mem := by
  unfold firePip; (try dsimp only); (repeat' split) <;> simp (maxDischargeDepth := 9) -implicitDefEqProofs [h]

@[simp] theorem closeDisarmed_frame (a1 : Word) (a2 : Word) (s : State) : (closeDisarmed a1 a2 s).cc = s.cc ∧
    (closeDisarmed a1 a2 s).dev = s.dev ∧ (closeDisarmed a1 a2 s).cores = s.cores ∧ (closeDisarmed a1 a2 s).led = s.led ∧
    (closeDisarmed a1 a2 s).tim = s.tim ∧ (closeDisarmed a1 a2 s).fd = s.fd ∧ (closeDisarmed a1 a2 s).th = s.th ∧
    (closeDisarmed a1 a2 s).stone = s.stone ∧ (closeDisarmed a1 a2 s).bt = s.bt ∧ (closeDisarmed a1 a2 s).host = s.host ∧
    (closeDisarmed a1 a2 s).mem = s.mem ∧ (closeDisarmed a1 a2 s).freeCtr = s.freeCtr ∧
    (closeDisarmed a1 a2 s).pending = s.pending := by
  unfold closeDisarmed; (try dsimp only); (repeat' split) <;> simp -implicitDefEqProofs

@[simp] theorem pipArm_frame (a1 : Fin 256) (a2 : Word) (a3 : Word) (s : State) : (pipArm a1 a2 a3 s).cc = s.cc ∧
    (pipArm a1 a2 a3 s).dev = s.dev ∧ (pipArm a1 a2 a3 s).cores = s.cores ∧ (pipArm a1 a2 a3 s).led = s.led ∧
    (pipArm a1 a2 a3 s).fd = s.fd ∧ (pipArm a1 a2 a3 s).th = s.th ∧ (pipArm a1 a2 a3 s).stone = s.stone ∧
    (pipArm a1 a2 a3 s).bt = s.bt ∧ (pipArm a1 a2 a3 s).host = s.host ∧ (pipArm a1 a2 a3 s).freeCtr = s.freeCtr ∧
    (pipArm a1 a2 a3 s).pending = s.pending := by
  unfold pipArm; (try dsimp only); (repeat' split) <;> simp -implicitDefEqProofs

@[simp] theorem pipArm_memGood (a1 : Fin 256) (a2 : Word) (a3 : Word) (s : State) (h : memGood s.mem) : memGood (pipArm a1 a2
    a3 s).mem := by
  unfold pipArm; (try dsimp only); (repeat' split) <;> simp (maxDischargeDepth := 9) -implicitDefEqProofs [h]

@[simp] theorem pipDis_frame (a1 : Fin 256) (s : State) : (pipDis a1 s).cc = s.cc ∧ (pipDis a1 s).dev = s.dev ∧
    (pipDis a1 s).cores = s.cores ∧ (pipDis a1 s).led = s.led ∧ (pipDis a1 s).fd = s.fd ∧ (pipDis a1 s).th = s.th ∧
    (pipDis a1 s).stone = s.stone ∧ (pipDis a1 s).bt = s.bt ∧ (pipDis a1 s).host = s.host ∧
    (pipDis a1 s).freeCtr = s.freeCtr ∧ (pipDis a1 s).pending = s.pending := by
  and_intros <;> simp -implicitDefEqProofs [pipDis]

@[simp] theorem pipDis_memGood (a1 : Fin 256) (s : State) (h : memGood s.mem) : memGood (pipDis a1 s).mem := by
  simp (maxDischargeDepth := 9) -implicitDefEqProofs [pipDis, h]

@[simp] theorem deliver_frame (a1 : Port) (a2 : Nat) (a3 : FrameRx) (a4 : Bool) (a5 : Bool) (s : State) : (deliver a1 a2 a3
    a4 a5 s).cc = s.cc ∧ (deliver a1 a2 a3 a4 a5 s).dev = s.dev ∧ (deliver a1 a2 a3 a4 a5 s).led = s.led ∧
    (deliver a1 a2 a3 a4 a5 s).tim = s.tim ∧ (deliver a1 a2 a3 a4 a5 s).fd = s.fd ∧ (deliver a1 a2 a3 a4 a5 s).th = s.th ∧
    (deliver a1 a2 a3 a4 a5 s).stone = s.stone ∧ (deliver a1 a2 a3 a4 a5 s).bt = s.bt ∧
    (deliver a1 a2 a3 a4 a5 s).host = s.host ∧ (deliver a1 a2 a3 a4 a5 s).freeCtr = s.freeCtr ∧
    (deliver a1 a2 a3 a4 a5 s).pending = s.pending ∧
    (deliver a1 a2 a3 a4 a5 s).cores.map CoreSt.quiet = s.cores.map CoreSt.quiet := by
  and_intros <;> simp -implicitDefEqProofs [deliver]

@[simp] theorem deliver_memGood (a1 : Port) (a2 : Nat) (a3 : FrameRx) (a4 : Bool) (a5 : Bool) (s : State) (h : memGood s.mem)
    : memGood (deliver a1 a2 a3 a4 a5 s).mem := by
  simp (maxDischargeDepth := 9) -implicitDefEqProofs [deliver, h]

@[simp] theorem popRx_frame (a1 : Port) (s : State) : (popRx a1 s).cc = s.cc ∧ (popRx a1 s).dev = s.dev ∧
    (popRx a1 s).cores = s.cores ∧ (popRx a1 s).led = s.led ∧ (popRx a1 s).tim = s.tim ∧ (popRx a1 s).fd = s.fd ∧
    (popRx a1 s).th = s.th ∧ (popRx a1 s).stone = s.stone ∧ (popRx a1 s).bt = s.bt ∧ (popRx a1 s).host = s.host ∧
    (popRx a1 s).mem = s.mem ∧ (popRx a1 s).freeCtr = s.freeCtr ∧ (popRx a1 s).pending = s.pending := by
  and_intros <;> simp -implicitDefEqProofs [popRx]

@[simp] theorem closeSeq_frame (a1 : Port) (s : State) : (closeSeq a1 s).cc = s.cc ∧ (closeSeq a1 s).dev = s.dev ∧
    (closeSeq a1 s).cores = s.cores ∧ (closeSeq a1 s).led = s.led ∧ (closeSeq a1 s).tim = s.tim ∧ (closeSeq a1 s).fd = s.fd ∧
    (closeSeq a1 s).th = s.th ∧ (closeSeq a1 s).stone = s.stone ∧ (closeSeq a1 s).bt = s.bt ∧ (closeSeq a1 s).host = s.host ∧
    (closeSeq a1 s).mem = s.mem ∧ (closeSeq a1 s).freeCtr = s.freeCtr ∧ (closeSeq a1 s).pending = s.pending := by
  and_intros <;> simp -implicitDefEqProofs [closeSeq]

@[simp] theorem openSeq_frame (a1 : Port) (a2 : SeqKind) (a3 : BitVec 5) (a4 : BitVec 3) (s : State) : (openSeq a1 a2 a3 a4
    s).cc = s.cc ∧ (openSeq a1 a2 a3 a4 s).dev = s.dev ∧ (openSeq a1 a2 a3 a4 s).cores = s.cores ∧
    (openSeq a1 a2 a3 a4 s).led = s.led ∧ (openSeq a1 a2 a3 a4 s).tim = s.tim ∧ (openSeq a1 a2 a3 a4 s).fd = s.fd ∧
    (openSeq a1 a2 a3 a4 s).th = s.th ∧ (openSeq a1 a2 a3 a4 s).stone = s.stone ∧ (openSeq a1 a2 a3 a4 s).bt = s.bt ∧
    (openSeq a1 a2 a3 a4 s).host = s.host ∧ (openSeq a1 a2 a3 a4 s).mem = s.mem ∧
    (openSeq a1 a2 a3 a4 s).freeCtr = s.freeCtr ∧ (openSeq a1 a2 a3 a4 s).pending = s.pending := by
  and_intros <;> simp -implicitDefEqProofs [openSeq]

@[simp] theorem clearWait_frame (a1 : Port) (s : State) : (clearWait a1 s).cc = s.cc ∧ (clearWait a1 s).dev = s.dev ∧
    (clearWait a1 s).cores = s.cores ∧ (clearWait a1 s).led = s.led ∧ (clearWait a1 s).tim = s.tim ∧
    (clearWait a1 s).fd = s.fd ∧ (clearWait a1 s).th = s.th ∧ (clearWait a1 s).stone = s.stone ∧ (clearWait a1 s).bt = s.bt ∧
    (clearWait a1 s).host = s.host ∧ (clearWait a1 s).mem = s.mem ∧ (clearWait a1 s).freeCtr = s.freeCtr ∧
    (clearWait a1 s).pending = s.pending := by
  and_intros <;> simp -implicitDefEqProofs [clearWait]

@[simp] theorem setPhase_frame (a1 : Port) (a2 : SeqPhase) (s : State) : (setPhase a1 a2 s).cc = s.cc ∧
    (setPhase a1 a2 s).dev = s.dev ∧ (setPhase a1 a2 s).cores = s.cores ∧ (setPhase a1 a2 s).led = s.led ∧
    (setPhase a1 a2 s).tim = s.tim ∧ (setPhase a1 a2 s).fd = s.fd ∧ (setPhase a1 a2 s).th = s.th ∧
    (setPhase a1 a2 s).stone = s.stone ∧ (setPhase a1 a2 s).bt = s.bt ∧ (setPhase a1 a2 s).host = s.host ∧
    (setPhase a1 a2 s).mem = s.mem ∧ (setPhase a1 a2 s).freeCtr = s.freeCtr ∧ (setPhase a1 a2 s).pending = s.pending := by
  and_intros <;> simp -implicitDefEqProofs [setPhase]

@[simp] theorem countStale_frame (a1 : Port) (s : State) : (countStale a1 s).cc = s.cc ∧ (countStale a1 s).dev = s.dev ∧
    (countStale a1 s).cores = s.cores ∧ (countStale a1 s).led = s.led ∧ (countStale a1 s).tim = s.tim ∧
    (countStale a1 s).fd = s.fd ∧ (countStale a1 s).th = s.th ∧ (countStale a1 s).stone = s.stone ∧
    (countStale a1 s).bt = s.bt ∧ (countStale a1 s).host = s.host ∧ (countStale a1 s).mem = s.mem ∧
    (countStale a1 s).freeCtr = s.freeCtr ∧ (countStale a1 s).pending = s.pending := by
  and_intros <;> simp -implicitDefEqProofs [countStale]

@[simp] theorem answer_frame (a1 : Port) (a2 : BitVec 5) (a3 : BitVec 5) (a4 : BitVec 3) (a5 : Nat) (a6 : Nat) (a7 : List
    Word) (s : State) : (answer a1 a2 a3 a4 a5 a6 a7 s).cc = s.cc ∧ (answer a1 a2 a3 a4 a5 a6 a7 s).dev = s.dev ∧
    (answer a1 a2 a3 a4 a5 a6 a7 s).cores = s.cores ∧ (answer a1 a2 a3 a4 a5 a6 a7 s).led = s.led ∧
    (answer a1 a2 a3 a4 a5 a6 a7 s).tim = s.tim ∧ (answer a1 a2 a3 a4 a5 a6 a7 s).fd = s.fd ∧
    (answer a1 a2 a3 a4 a5 a6 a7 s).th = s.th ∧ (answer a1 a2 a3 a4 a5 a6 a7 s).stone = s.stone ∧
    (answer a1 a2 a3 a4 a5 a6 a7 s).bt = s.bt ∧ (answer a1 a2 a3 a4 a5 a6 a7 s).host = s.host ∧
    (answer a1 a2 a3 a4 a5 a6 a7 s).freeCtr = s.freeCtr ∧ (answer a1 a2 a3 a4 a5 a6 a7 s).pending = s.pending := by
  and_intros <;> simp -implicitDefEqProofs [answer]

@[simp] theorem answer_memGood (a1 : Port) (a2 : BitVec 5) (a3 : BitVec 5) (a4 : BitVec 3) (a5 : Nat) (a6 : Nat) (a7 : List
    Word) (s : State) (h : memGood s.mem) : memGood (answer a1 a2 a3 a4 a5 a6 a7 s).mem := by
  simp (maxDischargeDepth := 9) -implicitDefEqProofs [answer, h]

@[simp] theorem denyWith_frame (a1 : Port) (a2 : BitVec 5) (a3 : Msg) (a4 : Nat) (s : State) : (denyWith a1 a2 a3 a4 s).cc =
    s.cc ∧ (denyWith a1 a2 a3 a4 s).dev = s.dev ∧ (denyWith a1 a2 a3 a4 s).cores = s.cores ∧
    (denyWith a1 a2 a3 a4 s).led = s.led ∧ (denyWith a1 a2 a3 a4 s).tim = s.tim ∧ (denyWith a1 a2 a3 a4 s).fd = s.fd ∧
    (denyWith a1 a2 a3 a4 s).th = s.th ∧ (denyWith a1 a2 a3 a4 s).stone = s.stone ∧ (denyWith a1 a2 a3 a4 s).bt = s.bt ∧
    (denyWith a1 a2 a3 a4 s).host = s.host ∧ (denyWith a1 a2 a3 a4 s).freeCtr = s.freeCtr ∧
    (denyWith a1 a2 a3 a4 s).pending = s.pending := by
  and_intros <;> simp -implicitDefEqProofs [denyWith]

@[simp] theorem denyWith_memGood (a1 : Port) (a2 : BitVec 5) (a3 : Msg) (a4 : Nat) (s : State) (h : memGood s.mem) : memGood
    (denyWith a1 a2 a3 a4 s).mem := by
  simp (maxDischargeDepth := 9) -implicitDefEqProofs [denyWith, h]

@[simp] theorem answerWait_frame (a1 : Port) (a2 : BitVec 5) (a3 : Msg) (a4 : Option (BitVec 16)) (s : State) :
    (answerWait a1 a2 a3 a4 s).cc = s.cc ∧ (answerWait a1 a2 a3 a4 s).dev = s.dev ∧ (answerWait a1 a2 a3 a4 s).cores = s.cores ∧
    (answerWait a1 a2 a3 a4 s).led = s.led ∧ (answerWait a1 a2 a3 a4 s).tim = s.tim ∧ (answerWait a1 a2 a3 a4 s).fd = s.fd ∧
    (answerWait a1 a2 a3 a4 s).th = s.th ∧ (answerWait a1 a2 a3 a4 s).stone = s.stone ∧
    (answerWait a1 a2 a3 a4 s).bt = s.bt ∧ (answerWait a1 a2 a3 a4 s).host = s.host ∧
    (answerWait a1 a2 a3 a4 s).pending = s.pending := by
  unfold answerWait; (try dsimp only); (repeat' split) <;> simp -implicitDefEqProofs

@[simp] theorem answerWait_memGood (a1 : Port) (a2 : BitVec 5) (a3 : Msg) (a4 : Option (BitVec 16)) (s : State) (h : memGood s.mem) :
    memGood (answerWait a1 a2 a3 a4 s).mem := by
  unfold answerWait; (try dsimp only); (repeat' split) <;> simp (maxDischargeDepth := 9) -implicitDefEqProofs [h]

@[simp] theorem leaveBypass_frame (a1 : Port) (a2 : StageMode) (s : State) : (leaveBypass a1 a2 s).cc = s.cc ∧
    (leaveBypass a1 a2 s).dev = s.dev ∧ (leaveBypass a1 a2 s).cores = s.cores ∧ (leaveBypass a1 a2 s).led = s.led ∧
    (leaveBypass a1 a2 s).tim = s.tim ∧ (leaveBypass a1 a2 s).fd = s.fd ∧ (leaveBypass a1 a2 s).th = s.th ∧
    (leaveBypass a1 a2 s).stone = s.stone ∧ (leaveBypass a1 a2 s).bt = s.bt ∧ (leaveBypass a1 a2 s).host = s.host ∧
    (leaveBypass a1 a2 s).mem = s.mem ∧ (leaveBypass a1 a2 s).freeCtr = s.freeCtr ∧
    (leaveBypass a1 a2 s).pending = s.pending := by
  unfold leaveBypass; (try dsimp only); (repeat' split) <;> simp -implicitDefEqProofs

@[simp] theorem convertFeed_frame (a1 : Port) (a2 : BitVec 11) (s : State) : (convertFeed a1 a2 s).cc = s.cc ∧
    (convertFeed a1 a2 s).dev = s.dev ∧ (convertFeed a1 a2 s).cores = s.cores ∧ (convertFeed a1 a2 s).led = s.led ∧
    (convertFeed a1 a2 s).tim = s.tim ∧ (convertFeed a1 a2 s).fd = s.fd ∧ (convertFeed a1 a2 s).th = s.th ∧
    (convertFeed a1 a2 s).stone = s.stone ∧ (convertFeed a1 a2 s).bt = s.bt ∧ (convertFeed a1 a2 s).host = s.host ∧
    (convertFeed a1 a2 s).mem = s.mem ∧ (convertFeed a1 a2 s).freeCtr = s.freeCtr ∧
    (convertFeed a1 a2 s).pending = s.pending := by
  unfold convertFeed; (try dsimp only); (repeat' split) <;> simp -implicitDefEqProofs

@[simp] theorem enterBypassAgain_frame (a1 : Port) (a2 : Bool) (s : State) : (enterBypassAgain a1 a2 s).cc = s.cc ∧
    (enterBypassAgain a1 a2 s).dev = s.dev ∧ (enterBypassAgain a1 a2 s).cores = s.cores ∧
    (enterBypassAgain a1 a2 s).led = s.led ∧ (enterBypassAgain a1 a2 s).tim = s.tim ∧ (enterBypassAgain a1 a2 s).fd = s.fd ∧
    (enterBypassAgain a1 a2 s).th = s.th ∧ (enterBypassAgain a1 a2 s).stone = s.stone ∧
    (enterBypassAgain a1 a2 s).bt = s.bt ∧ (enterBypassAgain a1 a2 s).host = s.host ∧
    (enterBypassAgain a1 a2 s).mem = s.mem ∧ (enterBypassAgain a1 a2 s).freeCtr = s.freeCtr ∧
    (enterBypassAgain a1 a2 s).pending = s.pending := by
  unfold enterBypassAgain; (try dsimp only); (repeat' split) <;> simp -implicitDefEqProofs

@[simp] theorem rebypass_frame (a1 : Port) (s : State) : (rebypass a1 s).cc = s.cc ∧ (rebypass a1 s).dev = s.dev ∧
    (rebypass a1 s).cores = s.cores ∧ (rebypass a1 s).led = s.led ∧ (rebypass a1 s).tim = s.tim ∧ (rebypass a1 s).fd = s.fd ∧
    (rebypass a1 s).th = s.th ∧ (rebypass a1 s).stone = s.stone ∧ (rebypass a1 s).bt = s.bt ∧ (rebypass a1 s).host = s.host ∧
    (rebypass a1 s).mem = s.mem ∧ (rebypass a1 s).freeCtr = s.freeCtr ∧ (rebypass a1 s).pending = s.pending := by
  unfold rebypass; (try dsimp only); (repeat' split) <;> simp -implicitDefEqProofs

@[simp] theorem beginTransition_frame (a1 : Port) (a2 : BitVec 11) (a3 : BitVec 9) (a4 : Bool) (s : State) : (beginTransition
    a1 a2 a3 a4 s).cc = s.cc ∧ (beginTransition a1 a2 a3 a4 s).dev = s.dev ∧ (beginTransition a1 a2 a3 a4 s).tim = s.tim ∧
    (beginTransition a1 a2 a3 a4 s).th = s.th ∧ (beginTransition a1 a2 a3 a4 s).stone = s.stone ∧
    (beginTransition a1 a2 a3 a4 s).bt = s.bt ∧ (beginTransition a1 a2 a3 a4 s).host = s.host ∧
    (beginTransition a1 a2 a3 a4 s).mem = s.mem ∧ (beginTransition a1 a2 a3 a4 s).freeCtr = s.freeCtr ∧
    (beginTransition a1 a2 a3 a4 s).pending = s.pending ∧
    (beginTransition a1 a2 a3 a4 s).cores.map CoreSt.quiet = s.cores.map CoreSt.quiet := by
  unfold beginTransition; (try dsimp only); (repeat' split) <;> simp -implicitDefEqProofs

@[simp] theorem stopSlew_frame (a1 : Port) (s : State) : (stopSlew a1 s).cc = s.cc ∧ (stopSlew a1 s).dev = s.dev ∧
    (stopSlew a1 s).cores = s.cores ∧ (stopSlew a1 s).led = s.led ∧ (stopSlew a1 s).tim = s.tim ∧ (stopSlew a1 s).fd = s.fd ∧
    (stopSlew a1 s).th = s.th ∧ (stopSlew a1 s).stone = s.stone ∧ (stopSlew a1 s).bt = s.bt ∧ (stopSlew a1 s).host = s.host ∧
    (stopSlew a1 s).mem = s.mem ∧ (stopSlew a1 s).freeCtr = s.freeCtr ∧ (stopSlew a1 s).pending = s.pending := by
  unfold stopSlew; (try dsimp only); (repeat' split) <;> simp -implicitDefEqProofs

@[simp] theorem startSlew_frame (a1 : Port) (a2 : Bool) (s : State) : (startSlew a1 a2 s).cc = s.cc ∧
    (startSlew a1 a2 s).dev = s.dev ∧ (startSlew a1 a2 s).cores = s.cores ∧ (startSlew a1 a2 s).led = s.led ∧
    (startSlew a1 a2 s).tim = s.tim ∧ (startSlew a1 a2 s).fd = s.fd ∧ (startSlew a1 a2 s).th = s.th ∧
    (startSlew a1 a2 s).stone = s.stone ∧ (startSlew a1 a2 s).bt = s.bt ∧ (startSlew a1 a2 s).host = s.host ∧
    (startSlew a1 a2 s).mem = s.mem ∧ (startSlew a1 a2 s).freeCtr = s.freeCtr ∧ (startSlew a1 a2 s).pending = s.pending := by
  unfold startSlew; (try dsimp only); (repeat' split) <;> simp -implicitDefEqProofs

@[simp] theorem dropTransition_frame (a1 : Port) (a2 : Bool) (s : State) : (dropTransition a1 a2 s).cc = s.cc ∧
    (dropTransition a1 a2 s).dev = s.dev ∧ (dropTransition a1 a2 s).tim = s.tim ∧ (dropTransition a1 a2 s).th = s.th ∧
    (dropTransition a1 a2 s).stone = s.stone ∧ (dropTransition a1 a2 s).bt = s.bt ∧ (dropTransition a1 a2 s).host = s.host ∧
    (dropTransition a1 a2 s).freeCtr = s.freeCtr ∧ (dropTransition a1 a2 s).pending = s.pending ∧
    (dropTransition a1 a2 s).cores.map CoreSt.quiet = s.cores.map CoreSt.quiet := by
  unfold dropTransition; (try dsimp only); (repeat' split) <;> simp -implicitDefEqProofs

@[simp] theorem dropTransition_memGood (a1 : Port) (a2 : Bool) (s : State) (h : memGood s.mem) : memGood (dropTransition a1
    a2 s).mem := by
  unfold dropTransition; (try dsimp only); (repeat' split) <;> simp (maxDischargeDepth := 9) -implicitDefEqProofs [h]

@[simp] theorem completeTransition_frame (a1 : Port) (s : State) : (completeTransition a1 s).cc = s.cc ∧
    (completeTransition a1 s).dev = s.dev ∧ (completeTransition a1 s).tim = s.tim ∧ (completeTransition a1 s).th = s.th ∧
    (completeTransition a1 s).stone = s.stone ∧ (completeTransition a1 s).bt = s.bt ∧
    (completeTransition a1 s).host = s.host ∧ (completeTransition a1 s).freeCtr = s.freeCtr ∧
    (completeTransition a1 s).pending = s.pending ∧
    (completeTransition a1 s).cores.map CoreSt.quiet = s.cores.map CoreSt.quiet := by
  unfold completeTransition; (try dsimp only); (repeat' split) <;> simp -implicitDefEqProofs

@[simp] theorem completeTransition_memGood (a1 : Port) (s : State) (h : memGood s.mem) : memGood (completeTransition a1
    s).mem := by
  unfold completeTransition; (try dsimp only); (repeat' split) <;> simp (maxDischargeDepth := 9) -implicitDefEqProofs [h]

@[simp] theorem fallToDefault_frame (a1 : Port) (s : State) : (fallToDefault a1 s).cc = s.cc ∧
    (fallToDefault a1 s).dev = s.dev ∧ (fallToDefault a1 s).tim = s.tim ∧ (fallToDefault a1 s).th = s.th ∧
    (fallToDefault a1 s).stone = s.stone ∧ (fallToDefault a1 s).bt = s.bt ∧ (fallToDefault a1 s).host = s.host ∧
    (fallToDefault a1 s).freeCtr = s.freeCtr ∧ (fallToDefault a1 s).pending = s.pending ∧
    (fallToDefault a1 s).cores.map CoreSt.quiet = s.cores.map CoreSt.quiet := by
  unfold fallToDefault; (try dsimp only); (repeat' split) <;> simp -implicitDefEqProofs

@[simp] theorem fallToDefault_memGood (a1 : Port) (s : State) (h : memGood s.mem) : memGood (fallToDefault a1 s).mem := by
  unfold fallToDefault; (try dsimp only); (repeat' split) <;> simp (maxDischargeDepth := 9) -implicitDefEqProofs [h]

@[simp] theorem requestSent_frame (a1 : Port) (a2 : BitVec 5) (a3 : BitVec 3) (a4 : List Word) (s : State) : (requestSent a1
    a2 a3 a4 s).cc = s.cc ∧ (requestSent a1 a2 a3 a4 s).dev = s.dev ∧ (requestSent a1 a2 a3 a4 s).cores = s.cores ∧
    (requestSent a1 a2 a3 a4 s).led = s.led ∧ (requestSent a1 a2 a3 a4 s).tim = s.tim ∧
    (requestSent a1 a2 a3 a4 s).fd = s.fd ∧ (requestSent a1 a2 a3 a4 s).th = s.th ∧
    (requestSent a1 a2 a3 a4 s).stone = s.stone ∧ (requestSent a1 a2 a3 a4 s).bt = s.bt ∧
    (requestSent a1 a2 a3 a4 s).host = s.host ∧ (requestSent a1 a2 a3 a4 s).mem = s.mem ∧
    (requestSent a1 a2 a3 a4 s).freeCtr = s.freeCtr ∧ (requestSent a1 a2 a3 a4 s).pending = s.pending := by
  unfold requestSent; (try dsimp only); (repeat' split) <;> simp -implicitDefEqProofs

@[simp] theorem settleBack_frame (a1 : Port) (a2 : Bool) (a3 : Nat) (a4 : Nat) (s : State) : (settleBack a1 a2 a3 a4 s).cc =
    s.cc ∧ (settleBack a1 a2 a3 a4 s).dev = s.dev ∧ (settleBack a1 a2 a3 a4 s).tim = s.tim ∧
    (settleBack a1 a2 a3 a4 s).fd = s.fd ∧ (settleBack a1 a2 a3 a4 s).th = s.th ∧
    (settleBack a1 a2 a3 a4 s).stone = s.stone ∧ (settleBack a1 a2 a3 a4 s).bt = s.bt ∧
    (settleBack a1 a2 a3 a4 s).host = s.host ∧ (settleBack a1 a2 a3 a4 s).freeCtr = s.freeCtr ∧
    (settleBack a1 a2 a3 a4 s).pending = s.pending ∧
    (settleBack a1 a2 a3 a4 s).cores.map CoreSt.quiet = s.cores.map CoreSt.quiet := by
  unfold settleBack; (try dsimp only); (repeat' split) <;> simp -implicitDefEqProofs

@[simp] theorem settleBack_memGood (a1 : Port) (a2 : Bool) (a3 : Nat) (a4 : Nat) (s : State) (h : memGood s.mem) : memGood
    (settleBack a1 a2 a3 a4 s).mem := by
  unfold settleBack; (try dsimp only); (repeat' split) <;> simp (maxDischargeDepth := 9) -implicitDefEqProofs [h]

@[simp] theorem abortSeq_frame (a1 : Port) (s : State) : (abortSeq a1 s).cc = s.cc ∧
    (abortSeq a1 s).dev = s.dev ∧
    (abortSeq a1 s).tim = s.tim ∧
    (abortSeq a1 s).th = s.th ∧
    (abortSeq a1 s).stone = s.stone ∧
    (abortSeq a1 s).bt = s.bt ∧
    (abortSeq a1 s).host = s.host ∧
    (abortSeq a1 s).freeCtr = s.freeCtr ∧
    (abortSeq a1 s).pending = s.pending ∧
    (abortSeq a1 s).cores.map CoreSt.quiet = s.cores.map CoreSt.quiet := by
  unfold abortSeq; (try dsimp only); (repeat' split) <;> simp -implicitDefEqProofs

@[simp] theorem abortSeq_memGood (a1 : Port) (s : State) (h : memGood s.mem) : memGood (abortSeq a1 s).mem := by
  unfold abortSeq; (try dsimp only); (repeat' split) <;> simp (maxDischargeDepth := 9) -implicitDefEqProofs [h]

@[simp] theorem ownAbort_frame (a1 : Port) (s : State) : (ownAbort a1 s).cc = s.cc ∧
    (ownAbort a1 s).dev = s.dev ∧
    (ownAbort a1 s).tim = s.tim ∧
    (ownAbort a1 s).th = s.th ∧
    (ownAbort a1 s).stone = s.stone ∧
    (ownAbort a1 s).bt = s.bt ∧
    (ownAbort a1 s).host = s.host ∧
    (ownAbort a1 s).freeCtr = s.freeCtr ∧
    (ownAbort a1 s).pending = s.pending ∧
    (ownAbort a1 s).cores.map CoreSt.quiet = s.cores.map CoreSt.quiet := by
  unfold ownAbort; (try dsimp only); (repeat' split) <;> simp -implicitDefEqProofs

@[simp] theorem ownAbort_memGood (a1 : Port) (s : State) (h : memGood s.mem) : memGood (ownAbort a1 s).mem := by
  unfold ownAbort; (try dsimp only); (repeat' split) <;> simp (maxDischargeDepth := 9) -implicitDefEqProofs [h]

@[simp] theorem suspendDetach_frame (a1 : Port) (s : State) : (suspendDetach a1 s).cc = s.cc ∧
    (suspendDetach a1 s).dev = s.dev ∧ (suspendDetach a1 s).cores = s.cores ∧ (suspendDetach a1 s).led = s.led ∧
    (suspendDetach a1 s).tim = s.tim ∧ (suspendDetach a1 s).fd = s.fd ∧ (suspendDetach a1 s).th = s.th ∧
    (suspendDetach a1 s).stone = s.stone ∧ (suspendDetach a1 s).bt = s.bt ∧ (suspendDetach a1 s).host = s.host ∧
    (suspendDetach a1 s).mem = s.mem ∧ (suspendDetach a1 s).freeCtr = s.freeCtr ∧
    (suspendDetach a1 s).pending = s.pending := by
  and_intros <;> simp -implicitDefEqProofs [suspendDetach]

@[simp] theorem noteNod_frame (a1 : Port) (a2 : BitVec 5) (s : State) : (noteNod a1 a2 s).cc = s.cc ∧
    (noteNod a1 a2 s).dev = s.dev ∧ (noteNod a1 a2 s).cores = s.cores ∧ (noteNod a1 a2 s).led = s.led ∧
    (noteNod a1 a2 s).tim = s.tim ∧ (noteNod a1 a2 s).fd = s.fd ∧ (noteNod a1 a2 s).th = s.th ∧
    (noteNod a1 a2 s).stone = s.stone ∧ (noteNod a1 a2 s).bt = s.bt ∧ (noteNod a1 a2 s).host = s.host ∧
    (noteNod a1 a2 s).mem = s.mem ∧ (noteNod a1 a2 s).freeCtr = s.freeCtr ∧ (noteNod a1 a2 s).pending = s.pending := by
  and_intros <;> simp -implicitDefEqProofs [noteNod]

@[simp] theorem messageNodded_frame (a1 : Port) (a2 : BitVec 5) (a3 : List Word) (s : State) : (messageNodded a1 a2 a3 s).cc
    = s.cc ∧ (messageNodded a1 a2 a3 s).dev = s.dev ∧ (messageNodded a1 a2 a3 s).tim = s.tim ∧
    (messageNodded a1 a2 a3 s).th = s.th ∧ (messageNodded a1 a2 a3 s).stone = s.stone ∧
    (messageNodded a1 a2 a3 s).bt = s.bt ∧ (messageNodded a1 a2 a3 s).host = s.host ∧
    (messageNodded a1 a2 a3 s).freeCtr = s.freeCtr ∧ (messageNodded a1 a2 a3 s).pending = s.pending ∧
    (messageNodded a1 a2 a3 s).cores.map CoreSt.quiet = s.cores.map CoreSt.quiet := by
  unfold messageNodded; (try dsimp only); (repeat' split) <;> simp -implicitDefEqProofs

@[simp] theorem messageNodded_memGood (a1 : Port) (a2 : BitVec 5) (a3 : List Word) (s : State) (h : memGood s.mem) : memGood
    (messageNodded a1 a2 a3 s).mem := by
  unfold messageNodded; (try dsimp only); (repeat' split) <;> simp (maxDischargeDepth := 9) -implicitDefEqProofs [h]

@[simp] theorem messageFailed_frame (a1 : Port) (a2 : BitVec 5) (a3 : List Word) (s : State) : (messageFailed a1 a2 a3 s).cc
    = s.cc ∧ (messageFailed a1 a2 a3 s).dev = s.dev ∧ (messageFailed a1 a2 a3 s).tim = s.tim ∧
    (messageFailed a1 a2 a3 s).fd = s.fd ∧ (messageFailed a1 a2 a3 s).th = s.th ∧
    (messageFailed a1 a2 a3 s).stone = s.stone ∧ (messageFailed a1 a2 a3 s).bt = s.bt ∧
    (messageFailed a1 a2 a3 s).host = s.host ∧ (messageFailed a1 a2 a3 s).freeCtr = s.freeCtr ∧
    (messageFailed a1 a2 a3 s).pending = s.pending ∧
    (messageFailed a1 a2 a3 s).cores.map CoreSt.quiet = s.cores.map CoreSt.quiet := by
  unfold messageFailed; (try dsimp only); (repeat' split) <;> simp -implicitDefEqProofs

@[simp] theorem messageFailed_memGood (a1 : Port) (a2 : BitVec 5) (a3 : List Word) (s : State) (h : memGood s.mem) : memGood
    (messageFailed a1 a2 a3 s).mem := by
  unfold messageFailed; (try dsimp only); (repeat' split) <;> simp (maxDischargeDepth := 9) -implicitDefEqProofs [h]

@[simp] theorem onCaps_frame (a1 : Port) (a2 : Msg) (a3 : CapsChoice) (s : State) : (onCaps a1 a2 a3 s).cc = s.cc ∧
    (onCaps a1 a2 a3 s).dev = s.dev ∧ (onCaps a1 a2 a3 s).cores = s.cores ∧ (onCaps a1 a2 a3 s).led = s.led ∧
    (onCaps a1 a2 a3 s).tim = s.tim ∧ (onCaps a1 a2 a3 s).fd = s.fd ∧ (onCaps a1 a2 a3 s).th = s.th ∧
    (onCaps a1 a2 a3 s).stone = s.stone ∧ (onCaps a1 a2 a3 s).bt = s.bt ∧ (onCaps a1 a2 a3 s).host = s.host ∧
    (onCaps a1 a2 a3 s).freeCtr = s.freeCtr ∧ (onCaps a1 a2 a3 s).pending = s.pending := by
  unfold onCaps; (try dsimp only); (repeat' split) <;> simp -implicitDefEqProofs

@[simp] theorem onCaps_memGood (a1 : Port) (a2 : Msg) (a3 : CapsChoice) (s : State) (h : memGood s.mem) : memGood (onCaps a1
    a2 a3 s).mem := by
  unfold onCaps; (try dsimp only); (repeat' split) <;> simp (maxDischargeDepth := 9) -implicitDefEqProofs [h]

@[simp] theorem noteAsk_frame (a1 : Port) (s : State) : (noteAsk a1 s).cc = s.cc ∧ (noteAsk a1 s).dev = s.dev ∧
    (noteAsk a1 s).cores = s.cores ∧ (noteAsk a1 s).led = s.led ∧ (noteAsk a1 s).tim = s.tim ∧ (noteAsk a1 s).fd = s.fd ∧
    (noteAsk a1 s).th = s.th ∧ (noteAsk a1 s).stone = s.stone ∧ (noteAsk a1 s).bt = s.bt ∧ (noteAsk a1 s).host = s.host ∧
    (noteAsk a1 s).mem = s.mem ∧ (noteAsk a1 s).freeCtr = s.freeCtr ∧ (noteAsk a1 s).pending = s.pending := by
  and_intros <;> simp -implicitDefEqProofs [noteAsk]

@[simp] theorem onAsk_frame (a1 : Port) (a2 : Msg) (s : State) : (onAsk a1 a2 s).cc = s.cc ∧ (onAsk a1 a2 s).dev = s.dev ∧
    (onAsk a1 a2 s).tim = s.tim ∧ (onAsk a1 a2 s).fd = s.fd ∧ (onAsk a1 a2 s).th = s.th ∧ (onAsk a1 a2 s).stone = s.stone ∧
    (onAsk a1 a2 s).bt = s.bt ∧ (onAsk a1 a2 s).host = s.host ∧
    (onAsk a1 a2 s).pending = s.pending ∧ (onAsk a1 a2 s).cores.map CoreSt.quiet = s.cores.map CoreSt.quiet := by
  unfold onAsk; (try dsimp only); (repeat' split) <;> simp -implicitDefEqProofs

@[simp] theorem onAsk_memGood (a1 : Port) (a2 : Msg) (s : State) (h : memGood s.mem) : memGood (onAsk a1 a2 s).mem := by
  unfold onAsk; (try dsimp only); (repeat' split) <;> simp (maxDischargeDepth := 9) -implicitDefEqProofs [h]

@[simp] theorem onGrant_frame (a1 : Port) (a2 : Msg) (s : State) : (onGrant a1 a2 s).cc = s.cc ∧
    (onGrant a1 a2 s).dev = s.dev ∧ (onGrant a1 a2 s).tim = s.tim ∧ (onGrant a1 a2 s).th = s.th ∧
    (onGrant a1 a2 s).stone = s.stone ∧ (onGrant a1 a2 s).bt = s.bt ∧ (onGrant a1 a2 s).host = s.host ∧
    (onGrant a1 a2 s).freeCtr = s.freeCtr ∧ (onGrant a1 a2 s).pending = s.pending ∧
    (onGrant a1 a2 s).cores.map CoreSt.quiet = s.cores.map CoreSt.quiet := by
  unfold onGrant; (try dsimp only); (repeat' split) <;> simp -implicitDefEqProofs

@[simp] theorem onGrant_memGood (a1 : Port) (a2 : Msg) (s : State) (h : memGood s.mem) : memGood (onGrant a1 a2 s).mem := by
  unfold onGrant; (try dsimp only); (repeat' split) <;> simp (maxDischargeDepth := 9) -implicitDefEqProofs [h]

@[simp] theorem noteCapsAnswer_frame (a1 : Port) (s : State) : (noteCapsAnswer a1 s).cc = s.cc ∧
    (noteCapsAnswer a1 s).dev = s.dev ∧ (noteCapsAnswer a1 s).cores = s.cores ∧ (noteCapsAnswer a1 s).led = s.led ∧
    (noteCapsAnswer a1 s).tim = s.tim ∧ (noteCapsAnswer a1 s).fd = s.fd ∧ (noteCapsAnswer a1 s).th = s.th ∧
    (noteCapsAnswer a1 s).stone = s.stone ∧ (noteCapsAnswer a1 s).bt = s.bt ∧ (noteCapsAnswer a1 s).host = s.host ∧
    (noteCapsAnswer a1 s).mem = s.mem ∧ (noteCapsAnswer a1 s).freeCtr = s.freeCtr ∧
    (noteCapsAnswer a1 s).pending = s.pending := by
  and_intros <;> simp -implicitDefEqProofs [noteCapsAnswer]

@[simp] theorem putOff_frame (a1 : Port) (s : State) : (putOff a1 s).cc = s.cc ∧ (putOff a1 s).dev = s.dev ∧
    (putOff a1 s).cores = s.cores ∧ (putOff a1 s).led = s.led ∧ (putOff a1 s).tim = s.tim ∧ (putOff a1 s).fd = s.fd ∧
    (putOff a1 s).th = s.th ∧ (putOff a1 s).stone = s.stone ∧ (putOff a1 s).bt = s.bt ∧ (putOff a1 s).host = s.host ∧
    (putOff a1 s).mem = s.mem ∧ (putOff a1 s).freeCtr = s.freeCtr ∧ (putOff a1 s).pending = s.pending := by
  and_intros <;> simp -implicitDefEqProofs [putOff]

@[simp] theorem oldSourceOff_frame (a1 : Port) (s : State) : (oldSourceOff a1 s).cc = s.cc ∧
    (oldSourceOff a1 s).dev = s.dev ∧ (oldSourceOff a1 s).tim = s.tim ∧ (oldSourceOff a1 s).fd = s.fd ∧
    (oldSourceOff a1 s).th = s.th ∧ (oldSourceOff a1 s).stone = s.stone ∧ (oldSourceOff a1 s).bt = s.bt ∧
    (oldSourceOff a1 s).host = s.host ∧ (oldSourceOff a1 s).freeCtr = s.freeCtr ∧ (oldSourceOff a1 s).pending = s.pending ∧
    (oldSourceOff a1 s).cores.map CoreSt.quiet = s.cores.map CoreSt.quiet := by
  unfold oldSourceOff; (try dsimp only); (repeat' split) <;> simp -implicitDefEqProofs

@[simp] theorem oldSourceOff_memGood (a1 : Port) (s : State) (h : memGood s.mem) : memGood (oldSourceOff a1 s).mem := by
  unfold oldSourceOff; (try dsimp only); (repeat' split) <;> simp (maxDischargeDepth := 9) -implicitDefEqProofs [h]

@[simp] theorem grantSwap_frame (a1 : Port) (a2 : SeqKind) (a3 : BitVec 5) (a4 : Msg) (s : State) : (grantSwap a1 a2 a3 a4
    s).cc = s.cc ∧ (grantSwap a1 a2 a3 a4 s).dev = s.dev ∧ (grantSwap a1 a2 a3 a4 s).cores = s.cores ∧
    (grantSwap a1 a2 a3 a4 s).led = s.led ∧ (grantSwap a1 a2 a3 a4 s).tim = s.tim ∧ (grantSwap a1 a2 a3 a4 s).fd = s.fd ∧
    (grantSwap a1 a2 a3 a4 s).th = s.th ∧ (grantSwap a1 a2 a3 a4 s).stone = s.stone ∧ (grantSwap a1 a2 a3 a4 s).bt = s.bt ∧
    (grantSwap a1 a2 a3 a4 s).host = s.host ∧ (grantSwap a1 a2 a3 a4 s).freeCtr = s.freeCtr ∧
    (grantSwap a1 a2 a3 a4 s).pending = s.pending := by
  and_intros <;> simp -implicitDefEqProofs [grantSwap]

@[simp] theorem grantSwap_memGood (a1 : Port) (a2 : SeqKind) (a3 : BitVec 5) (a4 : Msg) (s : State) (h : memGood s.mem) :
    memGood (grantSwap a1 a2 a3 a4 s).mem := by
  simp (maxDischargeDepth := 9) -implicitDefEqProofs [grantSwap, h]

@[simp] theorem swapWait_frame (a1 : Port) (a2 : Msg) (a3 : SwapChoice) (s : State) : (swapWait a1 a2 a3 s).cc = s.cc ∧
    (swapWait a1 a2 a3 s).dev = s.dev ∧ (swapWait a1 a2 a3 s).cores = s.cores ∧ (swapWait a1 a2 a3 s).led = s.led ∧
    (swapWait a1 a2 a3 s).tim = s.tim ∧ (swapWait a1 a2 a3 s).fd = s.fd ∧ (swapWait a1 a2 a3 s).th = s.th ∧
    (swapWait a1 a2 a3 s).stone = s.stone ∧ (swapWait a1 a2 a3 s).bt = s.bt ∧ (swapWait a1 a2 a3 s).host = s.host ∧
    (swapWait a1 a2 a3 s).pending = s.pending := by
  unfold swapWait; (try dsimp only); (repeat' split) <;> simp -implicitDefEqProofs

@[simp] theorem swapWait_memGood (a1 : Port) (a2 : Msg) (a3 : SwapChoice) (s : State) (h : memGood s.mem) : memGood (swapWait
    a1 a2 a3 s).mem := by
  unfold swapWait; (try dsimp only); (repeat' split) <;> simp (maxDischargeDepth := 9) -implicitDefEqProofs [h]

@[simp] theorem releaseIfOff_frame (a1 : Port) (s : State) : (releaseIfOff a1 s).cc = s.cc ∧
    (releaseIfOff a1 s).dev = s.dev ∧ (releaseIfOff a1 s).tim = s.tim ∧ (releaseIfOff a1 s).fd = s.fd ∧
    (releaseIfOff a1 s).th = s.th ∧ (releaseIfOff a1 s).stone = s.stone ∧ (releaseIfOff a1 s).bt = s.bt ∧
    (releaseIfOff a1 s).host = s.host ∧ (releaseIfOff a1 s).freeCtr = s.freeCtr ∧ (releaseIfOff a1 s).pending = s.pending ∧
    (releaseIfOff a1 s).cores.map CoreSt.quiet = s.cores.map CoreSt.quiet := by
  unfold releaseIfOff; (try dsimp only); (repeat' split) <;> simp -implicitDefEqProofs

@[simp] theorem releaseIfOff_memGood (a1 : Port) (s : State) (h : memGood s.mem) : memGood (releaseIfOff a1 s).mem := by
  unfold releaseIfOff; (try dsimp only); (repeat' split) <;> simp (maxDischargeDepth := 9) -implicitDefEqProofs [h]

@[simp] theorem raiseDefault_frame (a1 : Port) (s : State) : (raiseDefault a1 s).cc = s.cc ∧
    (raiseDefault a1 s).dev = s.dev ∧ (raiseDefault a1 s).tim = s.tim ∧ (raiseDefault a1 s).fd = s.fd ∧
    (raiseDefault a1 s).th = s.th ∧ (raiseDefault a1 s).stone = s.stone ∧ (raiseDefault a1 s).bt = s.bt ∧
    (raiseDefault a1 s).host = s.host ∧ (raiseDefault a1 s).freeCtr = s.freeCtr ∧ (raiseDefault a1 s).pending = s.pending ∧
    (raiseDefault a1 s).cores.map CoreSt.quiet = s.cores.map CoreSt.quiet := by
  unfold raiseDefault; (try dsimp only); (repeat' split) <;> simp -implicitDefEqProofs

@[simp] theorem raiseDefault_memGood (a1 : Port) (s : State) (h : memGood s.mem) : memGood (raiseDefault a1 s).mem := by
  unfold raiseDefault; (try dsimp only); (repeat' split) <;> simp (maxDischargeDepth := 9) -implicitDefEqProofs [h]

@[simp] theorem exchangeRoles_memGood (a1 : Port) (s : State) (h : memGood s.mem) : memGood (exchangeRoles a1 s).mem := by
  unfold exchangeRoles; (try dsimp only); (repeat' split) <;> simp (maxDischargeDepth := 9) -implicitDefEqProofs [h]

@[simp] theorem exchangeRoles_frame (a1 : Port) (s : State) : (exchangeRoles a1 s).cc = s.cc ∧
    (exchangeRoles a1 s).dev = s.dev ∧ (exchangeRoles a1 s).tim = s.tim ∧ (exchangeRoles a1 s).th = s.th ∧
    (exchangeRoles a1 s).stone = s.stone ∧ (exchangeRoles a1 s).bt = s.bt ∧ (exchangeRoles a1 s).host = s.host ∧
    (exchangeRoles a1 s).freeCtr = s.freeCtr ∧ (exchangeRoles a1 s).pending = s.pending ∧
    (exchangeRoles a1 s).cores.map CoreSt.quiet = s.cores.map CoreSt.quiet := by
  unfold exchangeRoles; (try dsimp only); (repeat' split) <;> simp -implicitDefEqProofs

@[simp] theorem completeSwap_frame (a1 : Port) (s : State) : (completeSwap a1 s).cc = s.cc ∧
    (completeSwap a1 s).dev = s.dev ∧ (completeSwap a1 s).tim = s.tim ∧ (completeSwap a1 s).th = s.th ∧
    (completeSwap a1 s).stone = s.stone ∧ (completeSwap a1 s).bt = s.bt ∧ (completeSwap a1 s).host = s.host ∧
    (completeSwap a1 s).mem = s.mem ∧ (completeSwap a1 s).freeCtr = s.freeCtr ∧ (completeSwap a1 s).pending = s.pending ∧
    (completeSwap a1 s).cores.map CoreSt.quiet = s.cores.map CoreSt.quiet := by
  and_intros <;> simp -implicitDefEqProofs [completeSwap]

@[simp] theorem completeSswap_frame (a1 : Port) (a2 : Bool) (s : State) : (completeSswap a1 a2 s).cc = s.cc ∧
    (completeSswap a1 a2 s).dev = s.dev ∧ (completeSswap a1 a2 s).led = s.led ∧ (completeSswap a1 a2 s).tim = s.tim ∧
    (completeSswap a1 a2 s).fd = s.fd ∧ (completeSswap a1 a2 s).th = s.th ∧ (completeSswap a1 a2 s).stone = s.stone ∧
    (completeSswap a1 a2 s).bt = s.bt ∧ (completeSswap a1 a2 s).host = s.host ∧ (completeSswap a1 a2 s).mem = s.mem ∧
    (completeSswap a1 a2 s).freeCtr = s.freeCtr ∧ (completeSswap a1 a2 s).pending = s.pending ∧
    (completeSswap a1 a2 s).cores.map CoreSt.quiet = s.cores.map CoreSt.quiet := by
  and_intros <;> simp -implicitDefEqProofs [completeSswap]

@[simp] theorem cedeCsup_frame (a1 : Port) (a2 : Seq) (a3 : Bool) (s : State) : (cedeCsup a1 a2 a3 s).cc = s.cc ∧
    (cedeCsup a1 a2 a3 s).dev = s.dev ∧ (cedeCsup a1 a2 a3 s).cores = s.cores ∧ (cedeCsup a1 a2 a3 s).led = s.led ∧
    (cedeCsup a1 a2 a3 s).tim = s.tim ∧ (cedeCsup a1 a2 a3 s).fd = s.fd ∧ (cedeCsup a1 a2 a3 s).th = s.th ∧
    (cedeCsup a1 a2 a3 s).stone = s.stone ∧ (cedeCsup a1 a2 a3 s).bt = s.bt ∧ (cedeCsup a1 a2 a3 s).host = s.host ∧
    (cedeCsup a1 a2 a3 s).freeCtr = s.freeCtr ∧ (cedeCsup a1 a2 a3 s).pending = s.pending := by
  unfold cedeCsup; (try dsimp only); (repeat' split) <;> simp -implicitDefEqProofs

@[simp] theorem cedeCsup_memGood (a1 : Port) (a2 : Seq) (a3 : Bool) (s : State) (h : memGood s.mem) : memGood (cedeCsup a1 a2
    a3 s).mem := by
  unfold cedeCsup; (try dsimp only); (repeat' split) <;> simp (maxDischargeDepth := 9) -implicitDefEqProofs [h]

@[simp] theorem onReady_frame (a1 : Port) (a2 : Msg) (a3 : Bool) (s : State) : (onReady a1 a2 a3 s).cc = s.cc ∧
    (onReady a1 a2 a3 s).dev = s.dev ∧ (onReady a1 a2 a3 s).tim = s.tim ∧ (onReady a1 a2 a3 s).th = s.th ∧
    (onReady a1 a2 a3 s).stone = s.stone ∧ (onReady a1 a2 a3 s).bt = s.bt ∧ (onReady a1 a2 a3 s).host = s.host ∧
    (onReady a1 a2 a3 s).freeCtr = s.freeCtr ∧ (onReady a1 a2 a3 s).pending = s.pending ∧
    (onReady a1 a2 a3 s).cores.map CoreSt.quiet = s.cores.map CoreSt.quiet := by
  unfold onReady; (try dsimp only); (repeat' split) <;> simp -implicitDefEqProofs

@[simp] theorem onReady_memGood (a1 : Port) (a2 : Msg) (a3 : Bool) (s : State) (h : memGood s.mem) : memGood (onReady a1 a2
    a3 s).mem := by
  unfold onReady; (try dsimp only); (repeat' split) <;> simp (maxDischargeDepth := 9) -implicitDefEqProofs [h]

@[simp] theorem onAbort_frame (a1 : Port) (a2 : Msg) (s : State) : (onAbort a1 a2 s).cc = s.cc ∧
    (onAbort a1 a2 s).dev = s.dev ∧ (onAbort a1 a2 s).tim = s.tim ∧ (onAbort a1 a2 s).th = s.th ∧
    (onAbort a1 a2 s).stone = s.stone ∧ (onAbort a1 a2 s).bt = s.bt ∧ (onAbort a1 a2 s).host = s.host ∧
    (onAbort a1 a2 s).freeCtr = s.freeCtr ∧ (onAbort a1 a2 s).pending = s.pending ∧
    (onAbort a1 a2 s).cores.map CoreSt.quiet = s.cores.map CoreSt.quiet := by
  unfold onAbort; (try dsimp only); (repeat' split) <;> simp -implicitDefEqProofs

@[simp] theorem onAbort_memGood (a1 : Port) (a2 : Msg) (s : State) (h : memGood s.mem) : memGood (onAbort a1 a2 s).mem := by
  unfold onAbort; (try dsimp only); (repeat' split) <;> simp (maxDischargeDepth := 9) -implicitDefEqProofs [h]

@[simp] theorem onProfile_frame (a1 : Port) (a2 : Msg) (s : State) : (onProfile a1 a2 s).cc = s.cc ∧
    (onProfile a1 a2 s).dev = s.dev ∧ (onProfile a1 a2 s).tim = s.tim ∧ (onProfile a1 a2 s).fd = s.fd ∧
    (onProfile a1 a2 s).th = s.th ∧ (onProfile a1 a2 s).stone = s.stone ∧ (onProfile a1 a2 s).bt = s.bt ∧
    (onProfile a1 a2 s).host = s.host ∧ (onProfile a1 a2 s).pending = s.pending ∧
    (onProfile a1 a2 s).cores.map CoreSt.quiet = s.cores.map CoreSt.quiet := by
  unfold onProfile; (try dsimp only); (repeat' split) <;> simp -implicitDefEqProofs

@[simp] theorem onProfile_memGood (a1 : Port) (a2 : Msg) (s : State) (h : memGood s.mem) : memGood (onProfile a1 a2 s).mem :=
    by
  unfold onProfile; (try dsimp only); (repeat' split) <;> simp (maxDischargeDepth := 9) -implicitDefEqProofs [h]

@[simp] theorem answersGetcaps_frame (a1 : Port) (a2 : Nat) (a3 : Msg) (s : State) : (answersGetcaps a1 a2 a3 s).cc = s.cc ∧
    (answersGetcaps a1 a2 a3 s).dev = s.dev ∧ (answersGetcaps a1 a2 a3 s).cores = s.cores ∧
    (answersGetcaps a1 a2 a3 s).led = s.led ∧ (answersGetcaps a1 a2 a3 s).tim = s.tim ∧
    (answersGetcaps a1 a2 a3 s).fd = s.fd ∧ (answersGetcaps a1 a2 a3 s).th = s.th ∧
    (answersGetcaps a1 a2 a3 s).stone = s.stone ∧ (answersGetcaps a1 a2 a3 s).bt = s.bt ∧
    (answersGetcaps a1 a2 a3 s).host = s.host ∧ (answersGetcaps a1 a2 a3 s).mem = s.mem ∧
    (answersGetcaps a1 a2 a3 s).freeCtr = s.freeCtr ∧ (answersGetcaps a1 a2 a3 s).pending = s.pending := by
  unfold answersGetcaps; (try dsimp only); (repeat' split) <;> simp -implicitDefEqProofs

@[simp] theorem onBye_frame (a1 : Port) (a2 : Msg) (s : State) : (onBye a1 a2 s).cc = s.cc ∧ (onBye a1 a2 s).dev = s.dev ∧
    (onBye a1 a2 s).tim = s.tim ∧ (onBye a1 a2 s).th = s.th ∧ (onBye a1 a2 s).stone = s.stone ∧ (onBye a1 a2 s).bt = s.bt ∧
    (onBye a1 a2 s).host = s.host ∧ (onBye a1 a2 s).freeCtr = s.freeCtr ∧ (onBye a1 a2 s).pending = s.pending ∧
    (onBye a1 a2 s).cores.map CoreSt.quiet = s.cores.map CoreSt.quiet := by
  unfold onBye; (try dsimp only); (repeat' split) <;> simp -implicitDefEqProofs

@[simp] theorem onBye_memGood (a1 : Port) (a2 : Msg) (s : State) (h : memGood s.mem) : memGood (onBye a1 a2 s).mem := by
  unfold onBye; (try dsimp only); (repeat' split) <;> simp (maxDischargeDepth := 9) -implicitDefEqProofs [h]

@[simp] theorem commitTokw_frame (a1 : BitVec 4) (s : State) : (commitTokw a1 s).cc = s.cc ∧ (commitTokw a1 s).dev = s.dev ∧
    (commitTokw a1 s).tim = s.tim ∧ (commitTokw a1 s).fd = s.fd ∧ (commitTokw a1 s).th = s.th ∧
    (commitTokw a1 s).stone = s.stone ∧ (commitTokw a1 s).bt = s.bt ∧ (commitTokw a1 s).host = s.host ∧
    (commitTokw a1 s).mem = s.mem ∧ (commitTokw a1 s).freeCtr = s.freeCtr ∧ (commitTokw a1 s).pending = s.pending := by
  and_intros <;> simp -implicitDefEqProofs [commitTokw]

@[simp] theorem takeId_frame (a1 : Port) (a2 : Nat) (s : State) : (takeId a1 a2 s).2.cc = s.cc ∧
    (takeId a1 a2 s).2.dev = s.dev ∧ (takeId a1 a2 s).2.cores = s.cores ∧ (takeId a1 a2 s).2.led = s.led ∧
    (takeId a1 a2 s).2.tim = s.tim ∧ (takeId a1 a2 s).2.fd = s.fd ∧ (takeId a1 a2 s).2.th = s.th ∧
    (takeId a1 a2 s).2.stone = s.stone ∧ (takeId a1 a2 s).2.bt = s.bt ∧ (takeId a1 a2 s).2.host = s.host ∧
    (takeId a1 a2 s).2.mem = s.mem ∧ (takeId a1 a2 s).2.freeCtr = s.freeCtr ∧ (takeId a1 a2 s).2.pending = s.pending := by
  unfold takeId; (try dsimp only); (repeat' split) <;> simp -implicitDefEqProofs

@[simp] theorem beginEntry_frame (a1 : Port) (a2 : Nat) (s : State) : (beginEntry a1 a2 s).cc = s.cc ∧
    (beginEntry a1 a2 s).dev = s.dev ∧ (beginEntry a1 a2 s).cores = s.cores ∧ (beginEntry a1 a2 s).led = s.led ∧
    (beginEntry a1 a2 s).tim = s.tim ∧ (beginEntry a1 a2 s).fd = s.fd ∧ (beginEntry a1 a2 s).th = s.th ∧
    (beginEntry a1 a2 s).stone = s.stone ∧ (beginEntry a1 a2 s).bt = s.bt ∧ (beginEntry a1 a2 s).host = s.host ∧
    (beginEntry a1 a2 s).freeCtr = s.freeCtr ∧ (beginEntry a1 a2 s).pending = s.pending := by
  unfold beginEntry; (try dsimp only); (repeat' split) <;> simp -implicitDefEqProofs

@[simp] theorem beginEntry_memGood (a1 : Port) (a2 : Nat) (s : State) (h : memGood s.mem) : memGood (beginEntry a1 a2 s).mem
    := by
  unfold beginEntry; (try dsimp only); (repeat' split) <;> simp (maxDischargeDepth := 9) -implicitDefEqProofs [h]

@[simp] theorem raiseHold_frame (a1 : Port) (s : State) : (raiseHold a1 s).cc = s.cc ∧ (raiseHold a1 s).dev = s.dev ∧
    (raiseHold a1 s).cores = s.cores ∧ (raiseHold a1 s).led = s.led ∧ (raiseHold a1 s).tim = s.tim ∧
    (raiseHold a1 s).fd = s.fd ∧ (raiseHold a1 s).th = s.th ∧ (raiseHold a1 s).stone = s.stone ∧ (raiseHold a1 s).bt = s.bt ∧
    (raiseHold a1 s).host = s.host ∧ (raiseHold a1 s).mem = s.mem ∧ (raiseHold a1 s).freeCtr = s.freeCtr ∧
    (raiseHold a1 s).pending = s.pending := by
  unfold raiseHold; (try dsimp only); (repeat' split) <;> simp -implicitDefEqProofs

@[simp] theorem txScan_frame (a1 : Port) (a2 : Bool) (a3 : List Nat) (s : State) : (txScan a1 a2 a3 s).cc = s.cc ∧
    (txScan a1 a2 a3 s).dev = s.dev ∧ (txScan a1 a2 a3 s).led = s.led ∧ (txScan a1 a2 a3 s).tim = s.tim ∧
    (txScan a1 a2 a3 s).fd = s.fd ∧ (txScan a1 a2 a3 s).th = s.th ∧ (txScan a1 a2 a3 s).stone = s.stone ∧
    (txScan a1 a2 a3 s).bt = s.bt ∧ (txScan a1 a2 a3 s).host = s.host ∧ (txScan a1 a2 a3 s).freeCtr = s.freeCtr ∧
    (txScan a1 a2 a3 s).pending = s.pending ∧ (txScan a1 a2 a3 s).cores.map CoreSt.quiet = s.cores.map CoreSt.quiet := by
  induction a3 generalizing a1 a2 s <;> (try unfold txScan) <;> (try dsimp only) <;> (repeat' split) <;> (first | (and_intros <;> rfl) | (and_intros <;> simp -implicitDefEqProofs [*, apply_ite State.cc, apply_ite State.dev, apply_ite State.led, apply_ite State.tim, apply_ite State.fd, apply_ite State.th, apply_ite State.stone, apply_ite State.bt, apply_ite State.host, apply_ite State.freeCtr, apply_ite State.pending, apply_ite State.cores, apply_ite (Vector.map CoreSt.quiet), updCore_quiet, CoreSt.quiet]))

@[simp] theorem txScan_memGood (a1 : Port) (a2 : Bool) (a3 : List Nat) (s : State) (h : memGood s.mem) : memGood (txScan a1
    a2 a3 s).mem := by
  revert h; induction a3 generalizing a1 a2 s <;> intro h <;> (try unfold txScan) <;> (try dsimp only) <;> (repeat' split) <;> (first | exact h | (simp (maxDischargeDepth := 9) -implicitDefEqProofs [*]; done))

@[simp] theorem beginOwn_frame (a1 : Port) (a2 : PhyFrame) (a3 : List PhyFrame) (s : State) : (beginOwn a1 a2 a3 s).cc = s.cc
    ∧ (beginOwn a1 a2 a3 s).dev = s.dev ∧ (beginOwn a1 a2 a3 s).cores = s.cores ∧ (beginOwn a1 a2 a3 s).led = s.led ∧
    (beginOwn a1 a2 a3 s).tim = s.tim ∧ (beginOwn a1 a2 a3 s).fd = s.fd ∧ (beginOwn a1 a2 a3 s).th = s.th ∧
    (beginOwn a1 a2 a3 s).stone = s.stone ∧ (beginOwn a1 a2 a3 s).bt = s.bt ∧ (beginOwn a1 a2 a3 s).host = s.host ∧
    (beginOwn a1 a2 a3 s).mem = s.mem ∧ (beginOwn a1 a2 a3 s).freeCtr = s.freeCtr ∧
    (beginOwn a1 a2 a3 s).pending = s.pending := by
  unfold beginOwn; (try dsimp only); (repeat' split) <;> simp -implicitDefEqProofs

@[simp] theorem pushGetcaps_frame (a1 : Port) (s : State) : (pushGetcaps a1 s).cc = s.cc ∧ (pushGetcaps a1 s).dev = s.dev ∧
    (pushGetcaps a1 s).cores = s.cores ∧ (pushGetcaps a1 s).led = s.led ∧ (pushGetcaps a1 s).tim = s.tim ∧
    (pushGetcaps a1 s).fd = s.fd ∧ (pushGetcaps a1 s).th = s.th ∧ (pushGetcaps a1 s).stone = s.stone ∧
    (pushGetcaps a1 s).bt = s.bt ∧ (pushGetcaps a1 s).host = s.host ∧ (pushGetcaps a1 s).freeCtr = s.freeCtr ∧
    (pushGetcaps a1 s).pending = s.pending := by
  unfold pushGetcaps; (try dsimp only); (repeat' split) <;> simp -implicitDefEqProofs

@[simp] theorem pushGetcaps_memGood (a1 : Port) (s : State) (h : memGood s.mem) : memGood (pushGetcaps a1 s).mem := by
  unfold pushGetcaps; (try dsimp only); (repeat' split) <;> simp (maxDischargeDepth := 9) -implicitDefEqProofs [h]

@[simp] theorem finishFrame_frame (a1 : Port) (a2 : Nat) (s : State) : (finishFrame a1 a2 s).cc = s.cc ∧
    (finishFrame a1 a2 s).dev = s.dev ∧ (finishFrame a1 a2 s).tim = s.tim ∧ (finishFrame a1 a2 s).th = s.th ∧
    (finishFrame a1 a2 s).stone = s.stone ∧ (finishFrame a1 a2 s).bt = s.bt ∧ (finishFrame a1 a2 s).host = s.host ∧
    (finishFrame a1 a2 s).freeCtr = s.freeCtr ∧ (finishFrame a1 a2 s).pending = s.pending ∧
    (finishFrame a1 a2 s).cores.map CoreSt.quiet = s.cores.map CoreSt.quiet := by
  unfold finishFrame; (try dsimp only); (repeat' split) <;> simp -implicitDefEqProofs

@[simp] theorem finishFrame_memGood (a1 : Port) (a2 : Nat) (s : State) (h : memGood s.mem) : memGood (finishFrame a1 a2
    s).mem := by
  unfold finishFrame; (try dsimp only); (repeat' split) <;> simp (maxDischargeDepth := 9) -implicitDefEqProofs [h]

@[simp] theorem tryFailed_frame (a1 : Port) (s : State) : (tryFailed a1 s).cc = s.cc ∧ (tryFailed a1 s).dev = s.dev ∧
    (tryFailed a1 s).tim = s.tim ∧ (tryFailed a1 s).th = s.th ∧ (tryFailed a1 s).stone = s.stone ∧
    (tryFailed a1 s).bt = s.bt ∧ (tryFailed a1 s).host = s.host ∧ (tryFailed a1 s).freeCtr = s.freeCtr ∧
    (tryFailed a1 s).pending = s.pending ∧ (tryFailed a1 s).cores.map CoreSt.quiet = s.cores.map CoreSt.quiet := by
  unfold tryFailed; (try dsimp only); (repeat' split) <;> simp -implicitDefEqProofs

@[simp] theorem tryFailed_memGood (a1 : Port) (s : State) (h : memGood s.mem) : memGood (tryFailed a1 s).mem := by
  unfold tryFailed; (try dsimp only); (repeat' split) <;> simp (maxDischargeDepth := 9) -implicitDefEqProofs [h]

@[simp] theorem startMark_frame (a1 : Port) (a2 : MarkReq) (s : State) : (startMark a1 a2 s).cc = s.cc ∧
    (startMark a1 a2 s).dev = s.dev ∧ (startMark a1 a2 s).cores = s.cores ∧ (startMark a1 a2 s).led = s.led ∧
    (startMark a1 a2 s).tim = s.tim ∧ (startMark a1 a2 s).fd = s.fd ∧ (startMark a1 a2 s).th = s.th ∧
    (startMark a1 a2 s).stone = s.stone ∧ (startMark a1 a2 s).bt = s.bt ∧ (startMark a1 a2 s).host = s.host ∧
    (startMark a1 a2 s).mem = s.mem ∧ (startMark a1 a2 s).freeCtr = s.freeCtr ∧ (startMark a1 a2 s).pending = s.pending := by
  and_intros <;> simp -implicitDefEqProofs [startMark]

@[simp] theorem startNod_frame (a1 : Port) (s : State) : (startNod a1 s).cc = s.cc ∧ (startNod a1 s).dev = s.dev ∧
    (startNod a1 s).cores = s.cores ∧ (startNod a1 s).led = s.led ∧ (startNod a1 s).tim = s.tim ∧ (startNod a1 s).fd = s.fd ∧
    (startNod a1 s).th = s.th ∧ (startNod a1 s).stone = s.stone ∧ (startNod a1 s).bt = s.bt ∧ (startNod a1 s).host = s.host ∧
    (startNod a1 s).mem = s.mem ∧ (startNod a1 s).freeCtr = s.freeCtr ∧ (startNod a1 s).pending = s.pending := by
  and_intros <;> simp -implicitDefEqProofs [startNod]

@[simp] theorem rxCount_frame (a1 : Port) (a2 : RxVerdict) (s : State) : (rxCount a1 a2 s).cc = s.cc ∧
    (rxCount a1 a2 s).dev = s.dev ∧ (rxCount a1 a2 s).cores = s.cores ∧ (rxCount a1 a2 s).led = s.led ∧
    (rxCount a1 a2 s).tim = s.tim ∧ (rxCount a1 a2 s).fd = s.fd ∧ (rxCount a1 a2 s).th = s.th ∧
    (rxCount a1 a2 s).stone = s.stone ∧ (rxCount a1 a2 s).bt = s.bt ∧ (rxCount a1 a2 s).host = s.host ∧
    (rxCount a1 a2 s).mem = s.mem ∧ (rxCount a1 a2 s).freeCtr = s.freeCtr ∧ (rxCount a1 a2 s).pending = s.pending := by
  unfold rxCount; (try dsimp only); (repeat' split) <;> simp -implicitDefEqProofs

@[simp] theorem oweNod_frame (a1 : Port) (a2 : Nat) (a3 : BitVec 3) (a4 : Option PhyFrame) (s : State) : (oweNod a1 a2 a3 a4
    s).cc = s.cc ∧ (oweNod a1 a2 a3 a4 s).dev = s.dev ∧ (oweNod a1 a2 a3 a4 s).cores = s.cores ∧
    (oweNod a1 a2 a3 a4 s).led = s.led ∧ (oweNod a1 a2 a3 a4 s).tim = s.tim ∧ (oweNod a1 a2 a3 a4 s).fd = s.fd ∧
    (oweNod a1 a2 a3 a4 s).th = s.th ∧ (oweNod a1 a2 a3 a4 s).stone = s.stone ∧ (oweNod a1 a2 a3 a4 s).bt = s.bt ∧
    (oweNod a1 a2 a3 a4 s).host = s.host ∧ (oweNod a1 a2 a3 a4 s).mem = s.mem ∧ (oweNod a1 a2 a3 a4 s).freeCtr = s.freeCtr ∧
    (oweNod a1 a2 a3 a4 s).pending = s.pending := by
  and_intros <;> simp -implicitDefEqProofs [oweNod]

@[simp] theorem refuseFrame_frame (a1 : Port) (a2 : Nat) (a3 : FrameRx) (a4 : Nat) (s : State) : (refuseFrame a1 a2 a3 a4
    s).cc = s.cc ∧ (refuseFrame a1 a2 a3 a4 s).dev = s.dev ∧ (refuseFrame a1 a2 a3 a4 s).cores = s.cores ∧
    (refuseFrame a1 a2 a3 a4 s).led = s.led ∧ (refuseFrame a1 a2 a3 a4 s).tim = s.tim ∧
    (refuseFrame a1 a2 a3 a4 s).fd = s.fd ∧ (refuseFrame a1 a2 a3 a4 s).th = s.th ∧
    (refuseFrame a1 a2 a3 a4 s).stone = s.stone ∧ (refuseFrame a1 a2 a3 a4 s).bt = s.bt ∧
    (refuseFrame a1 a2 a3 a4 s).host = s.host ∧ (refuseFrame a1 a2 a3 a4 s).mem = s.mem ∧
    (refuseFrame a1 a2 a3 a4 s).freeCtr = s.freeCtr ∧ (refuseFrame a1 a2 a3 a4 s).pending = s.pending := by
  and_intros <;> simp -implicitDefEqProofs [refuseFrame]

@[simp] theorem recordRx_frame (a1 : Port) (a2 : Nat) (a3 : BitVec 3) (s : State) : (recordRx a1 a2 a3 s).cc = s.cc ∧
    (recordRx a1 a2 a3 s).dev = s.dev ∧ (recordRx a1 a2 a3 s).cores = s.cores ∧ (recordRx a1 a2 a3 s).led = s.led ∧
    (recordRx a1 a2 a3 s).tim = s.tim ∧ (recordRx a1 a2 a3 s).fd = s.fd ∧ (recordRx a1 a2 a3 s).th = s.th ∧
    (recordRx a1 a2 a3 s).stone = s.stone ∧ (recordRx a1 a2 a3 s).bt = s.bt ∧ (recordRx a1 a2 a3 s).host = s.host ∧
    (recordRx a1 a2 a3 s).mem = s.mem ∧ (recordRx a1 a2 a3 s).freeCtr = s.freeCtr ∧
    (recordRx a1 a2 a3 s).pending = s.pending := by
  and_intros <;> simp -implicitDefEqProofs [recordRx]

@[simp] theorem overtakeOwn_memGood (a1 : Port) (s : State) (h : memGood s.mem) : memGood (overtakeOwn a1 s).mem := by
  unfold overtakeOwn; dsimp only; split
  · exact h
  · split <;> (repeat' split) <;> simp -implicitDefEqProofs +contextual [h, foldl_memGood2, apply_ite memGood, apply_ite State.mem]

@[simp] theorem overtakeOwn_frame (a1 : Port) (s : State) : (overtakeOwn a1 s).cc = s.cc ∧ (overtakeOwn a1 s).dev = s.dev ∧
    (overtakeOwn a1 s).led = s.led ∧ (overtakeOwn a1 s).tim = s.tim ∧ (overtakeOwn a1 s).fd = s.fd ∧
    (overtakeOwn a1 s).th = s.th ∧ (overtakeOwn a1 s).stone = s.stone ∧ (overtakeOwn a1 s).bt = s.bt ∧
    (overtakeOwn a1 s).host = s.host ∧ (overtakeOwn a1 s).freeCtr = s.freeCtr ∧ (overtakeOwn a1 s).pending = s.pending ∧
    (overtakeOwn a1 s).cores.map CoreSt.quiet = s.cores.map CoreSt.quiet := by
  unfold overtakeOwn; (try dsimp only); and_intros <;> (repeat' split) <;> simp -implicitDefEqProofs [foldl_cc, foldl_dev, foldl_led, foldl_tim, foldl_fd, foldl_th, foldl_stone, foldl_bt, foldl_host, foldl_freeCtr, foldl_pending, foldl_quiet]

@[simp] theorem acceptFrame_frame (a1 : Port) (a2 : Nat) (a3 : FrameRx) (s : State) : (acceptFrame a1 a2 a3 s).cc = s.cc ∧
    (acceptFrame a1 a2 a3 s).dev = s.dev ∧ (acceptFrame a1 a2 a3 s).led = s.led ∧ (acceptFrame a1 a2 a3 s).tim = s.tim ∧
    (acceptFrame a1 a2 a3 s).fd = s.fd ∧ (acceptFrame a1 a2 a3 s).th = s.th ∧ (acceptFrame a1 a2 a3 s).stone = s.stone ∧
    (acceptFrame a1 a2 a3 s).bt = s.bt ∧ (acceptFrame a1 a2 a3 s).host = s.host ∧
    (acceptFrame a1 a2 a3 s).freeCtr = s.freeCtr ∧ (acceptFrame a1 a2 a3 s).pending = s.pending ∧
    (acceptFrame a1 a2 a3 s).cores.map CoreSt.quiet = s.cores.map CoreSt.quiet := by
  and_intros <;> simp -implicitDefEqProofs [acceptFrame, apply_ite State.cc, apply_ite State.dev, apply_ite State.led, apply_ite State.tim, apply_ite State.fd, apply_ite State.th, apply_ite State.stone, apply_ite State.bt, apply_ite State.host, apply_ite State.freeCtr, apply_ite State.pending, apply_ite State.cores, apply_ite (Vector.map CoreSt.quiet), updCore_quiet, CoreSt.quiet, foldl_cc, foldl_dev, foldl_led, foldl_tim, foldl_fd, foldl_th, foldl_stone, foldl_bt, foldl_host, foldl_freeCtr, foldl_pending, foldl_quiet]

@[simp] theorem stageRef_frame (a1 : Port) (a2 : BitVec 10) (s : State) : (stageRef a1 a2 s).cc = s.cc ∧
    (stageRef a1 a2 s).dev = s.dev ∧ (stageRef a1 a2 s).cores = s.cores ∧ (stageRef a1 a2 s).led = s.led ∧
    (stageRef a1 a2 s).tim = s.tim ∧ (stageRef a1 a2 s).fd = s.fd ∧ (stageRef a1 a2 s).th = s.th ∧
    (stageRef a1 a2 s).stone = s.stone ∧ (stageRef a1 a2 s).bt = s.bt ∧ (stageRef a1 a2 s).host = s.host ∧
    (stageRef a1 a2 s).mem = s.mem ∧ (stageRef a1 a2 s).freeCtr = s.freeCtr ∧ (stageRef a1 a2 s).pending = s.pending := by
  and_intros <;> simp -implicitDefEqProofs [stageRef]

@[simp] theorem stageDmax_frame (a1 : Port) (a2 : Nat) (s : State) : (stageDmax a1 a2 s).cc = s.cc ∧
    (stageDmax a1 a2 s).dev = s.dev ∧ (stageDmax a1 a2 s).cores = s.cores ∧ (stageDmax a1 a2 s).led = s.led ∧
    (stageDmax a1 a2 s).tim = s.tim ∧ (stageDmax a1 a2 s).fd = s.fd ∧ (stageDmax a1 a2 s).th = s.th ∧
    (stageDmax a1 a2 s).stone = s.stone ∧ (stageDmax a1 a2 s).bt = s.bt ∧ (stageDmax a1 a2 s).host = s.host ∧
    (stageDmax a1 a2 s).mem = s.mem ∧ (stageDmax a1 a2 s).freeCtr = s.freeCtr ∧ (stageDmax a1 a2 s).pending = s.pending := by
  and_intros <;> simp -implicitDefEqProofs [stageDmax]

@[simp] theorem stageMode_frame (a1 : Port) (a2 : Nat) (s : State) : (stageMode a1 a2 s).cc = s.cc ∧
    (stageMode a1 a2 s).dev = s.dev ∧ (stageMode a1 a2 s).cores = s.cores ∧ (stageMode a1 a2 s).led = s.led ∧
    (stageMode a1 a2 s).tim = s.tim ∧ (stageMode a1 a2 s).fd = s.fd ∧ (stageMode a1 a2 s).th = s.th ∧
    (stageMode a1 a2 s).stone = s.stone ∧ (stageMode a1 a2 s).bt = s.bt ∧ (stageMode a1 a2 s).host = s.host ∧
    (stageMode a1 a2 s).mem = s.mem ∧ (stageMode a1 a2 s).freeCtr = s.freeCtr ∧ (stageMode a1 a2 s).pending = s.pending := by
  unfold stageMode; (try dsimp only); (repeat' split) <;> simp -implicitDefEqProofs

@[simp] theorem pkClear_frame (a1 : Port) (s : State) : (pkClear a1 s).cc = s.cc ∧ (pkClear a1 s).dev = s.dev ∧
    (pkClear a1 s).cores = s.cores ∧ (pkClear a1 s).led = s.led ∧ (pkClear a1 s).tim = s.tim ∧ (pkClear a1 s).fd = s.fd ∧
    (pkClear a1 s).th = s.th ∧ (pkClear a1 s).stone = s.stone ∧ (pkClear a1 s).bt = s.bt ∧ (pkClear a1 s).host = s.host ∧
    (pkClear a1 s).mem = s.mem ∧ (pkClear a1 s).freeCtr = s.freeCtr ∧ (pkClear a1 s).pending = s.pending := by
  and_intros <;> simp -implicitDefEqProofs [pkClear]

@[simp] theorem hardShort_frame (a1 : Port) (s : State) : (hardShort a1 s).cc = s.cc ∧ (hardShort a1 s).dev = s.dev ∧
    (hardShort a1 s).tim = s.tim ∧ (hardShort a1 s).th = s.th ∧ (hardShort a1 s).stone = s.stone ∧
    (hardShort a1 s).bt = s.bt ∧ (hardShort a1 s).host = s.host ∧ (hardShort a1 s).freeCtr = s.freeCtr ∧
    (hardShort a1 s).pending = s.pending ∧ (hardShort a1 s).cores.map CoreSt.quiet = s.cores.map CoreSt.quiet := by
  unfold hardShort; (try dsimp only); (repeat' split) <;> simp -implicitDefEqProofs

@[simp] theorem hardShort_memGood (a1 : Port) (s : State) (h : memGood s.mem) : memGood (hardShort a1 s).mem := by
  unfold hardShort; (try dsimp only); (repeat' split) <;> simp (maxDischargeDepth := 9) -implicitDefEqProofs [h]

@[simp] theorem endKuContract_frame (s : State) : (endKuContract s).cc = s.cc ∧ (endKuContract s).dev = s.dev ∧
    (endKuContract s).tim = s.tim ∧ (endKuContract s).fd = s.fd ∧ (endKuContract s).th = s.th ∧
    (endKuContract s).stone = s.stone ∧ (endKuContract s).bt = s.bt ∧ (endKuContract s).host = s.host ∧
    (endKuContract s).freeCtr = s.freeCtr ∧ (endKuContract s).pending = s.pending ∧
    (endKuContract s).cores.map CoreSt.quiet = s.cores.map CoreSt.quiet := by
  unfold endKuContract; (try dsimp only); (repeat' split) <;> simp -implicitDefEqProofs

@[simp] theorem endKuContract_memGood (s : State) (h : memGood s.mem) : memGood (endKuContract s).mem := by
  unfold endKuContract; (try dsimp only); (repeat' split) <;> simp (maxDischargeDepth := 9) -implicitDefEqProofs [h]

@[simp] theorem windowLoss_frame (s : State) : (windowLoss s).cc = s.cc ∧ (windowLoss s).dev = s.dev ∧
    (windowLoss s).tim = s.tim ∧ (windowLoss s).th = s.th ∧ (windowLoss s).stone = s.stone ∧ (windowLoss s).bt = s.bt ∧
    (windowLoss s).host = s.host ∧ (windowLoss s).freeCtr = s.freeCtr ∧ (windowLoss s).pending = s.pending ∧
    (windowLoss s).cores.map CoreSt.quiet = s.cores.map CoreSt.quiet := by
  and_intros <;> simp -implicitDefEqProofs [windowLoss]

@[simp] theorem windowLoss_memGood (s : State) (h : memGood s.mem) : memGood (windowLoss s).mem := by
  simp (maxDischargeDepth := 9) -implicitDefEqProofs [windowLoss, h]

@[simp] theorem ovTripped_frame (a1 : Port) (s : State) : (ovTripped a1 s).cc = s.cc ∧ (ovTripped a1 s).dev = s.dev ∧
    (ovTripped a1 s).tim = s.tim ∧ (ovTripped a1 s).th = s.th ∧ (ovTripped a1 s).stone = s.stone ∧
    (ovTripped a1 s).bt = s.bt ∧ (ovTripped a1 s).host = s.host ∧ (ovTripped a1 s).freeCtr = s.freeCtr ∧
    (ovTripped a1 s).pending = s.pending ∧ (ovTripped a1 s).cores.map CoreSt.quiet = s.cores.map CoreSt.quiet := by
  unfold ovTripped; (try dsimp only); (repeat' split) <;> simp -implicitDefEqProofs

@[simp] theorem ovTripped_memGood (a1 : Port) (s : State) (h : memGood s.mem) : memGood (ovTripped a1 s).mem := by
  unfold ovTripped; (try dsimp only); (repeat' split) <;> simp (maxDischargeDepth := 9) -implicitDefEqProofs [h]

@[simp] theorem uvTripped_frame (a1 : Port) (s : State) : (uvTripped a1 s).cc = s.cc ∧ (uvTripped a1 s).dev = s.dev ∧
    (uvTripped a1 s).tim = s.tim ∧ (uvTripped a1 s).th = s.th ∧ (uvTripped a1 s).stone = s.stone ∧
    (uvTripped a1 s).bt = s.bt ∧ (uvTripped a1 s).host = s.host ∧ (uvTripped a1 s).freeCtr = s.freeCtr ∧
    (uvTripped a1 s).pending = s.pending ∧ (uvTripped a1 s).cores.map CoreSt.quiet = s.cores.map CoreSt.quiet := by
  unfold uvTripped; (try dsimp only); (repeat' split) <;> simp -implicitDefEqProofs

@[simp] theorem uvTripped_memGood (a1 : Port) (s : State) (h : memGood s.mem) : memGood (uvTripped a1 s).mem := by
  unfold uvTripped; (try dsimp only); (repeat' split) <;> simp (maxDischargeDepth := 9) -implicitDefEqProofs [h]

@[simp] theorem cmptestWrite_frame (a1 : Port) (a2 : Word) (s : State) : (cmptestWrite a1 a2 s).cc = s.cc ∧
    (cmptestWrite a1 a2 s).dev = s.dev ∧ (cmptestWrite a1 a2 s).cores = s.cores ∧ (cmptestWrite a1 a2 s).led = s.led ∧
    (cmptestWrite a1 a2 s).tim = s.tim ∧ (cmptestWrite a1 a2 s).fd = s.fd ∧ (cmptestWrite a1 a2 s).th = s.th ∧
    (cmptestWrite a1 a2 s).stone = s.stone ∧ (cmptestWrite a1 a2 s).bt = s.bt ∧ (cmptestWrite a1 a2 s).host = s.host ∧
    (cmptestWrite a1 a2 s).mem = s.mem ∧ (cmptestWrite a1 a2 s).freeCtr = s.freeCtr ∧
    (cmptestWrite a1 a2 s).pending = s.pending := by
  unfold cmptestWrite; (try dsimp only); (repeat' split) <;> simp -implicitDefEqProofs

@[simp] theorem hbuswinWrite_frame (a1 : Word) (s : State) : (hbuswinWrite a1 s).cc = s.cc ∧
    (hbuswinWrite a1 s).dev = s.dev ∧ (hbuswinWrite a1 s).cores = s.cores ∧ (hbuswinWrite a1 s).ports = s.ports ∧
    (hbuswinWrite a1 s).led = s.led ∧ (hbuswinWrite a1 s).tim = s.tim ∧ (hbuswinWrite a1 s).th = s.th ∧
    (hbuswinWrite a1 s).stone = s.stone ∧ (hbuswinWrite a1 s).bt = s.bt ∧ (hbuswinWrite a1 s).host = s.host ∧
    (hbuswinWrite a1 s).mem = s.mem ∧ (hbuswinWrite a1 s).freeCtr = s.freeCtr ∧ (hbuswinWrite a1 s).pending = s.pending := by
  unfold hbuswinWrite; (try dsimp only); (repeat' split) <;> simp -implicitDefEqProofs

@[simp] theorem putSlot_frame (a1 : Core) (a2 : Nat) (a3 : BitVec 12) (s : State) : (putSlot a1 a2 a3 s).cc = s.cc ∧
    (putSlot a1 a2 a3 s).dev = s.dev ∧ (putSlot a1 a2 a3 s).ports = s.ports ∧ (putSlot a1 a2 a3 s).led = s.led ∧
    (putSlot a1 a2 a3 s).tim = s.tim ∧ (putSlot a1 a2 a3 s).fd = s.fd ∧ (putSlot a1 a2 a3 s).th = s.th ∧
    (putSlot a1 a2 a3 s).stone = s.stone ∧ (putSlot a1 a2 a3 s).bt = s.bt ∧ (putSlot a1 a2 a3 s).host = s.host ∧
    (putSlot a1 a2 a3 s).mem = s.mem ∧ (putSlot a1 a2 a3 s).freeCtr = s.freeCtr ∧
    (putSlot a1 a2 a3 s).pending = s.pending := by
  and_intros <;> simp -implicitDefEqProofs [putSlot]

@[simp] theorem refuseStart_frame (a1 : Port) (a2 : BitVec 3) (s : State) : (refuseStart a1 a2 s).cc = s.cc ∧
    (refuseStart a1 a2 s).dev = s.dev ∧ (refuseStart a1 a2 s).cores = s.cores ∧ (refuseStart a1 a2 s).led = s.led ∧
    (refuseStart a1 a2 s).tim = s.tim ∧ (refuseStart a1 a2 s).fd = s.fd ∧ (refuseStart a1 a2 s).th = s.th ∧
    (refuseStart a1 a2 s).stone = s.stone ∧ (refuseStart a1 a2 s).bt = s.bt ∧ (refuseStart a1 a2 s).host = s.host ∧
    (refuseStart a1 a2 s).mem = s.mem ∧ (refuseStart a1 a2 s).freeCtr = s.freeCtr ∧
    (refuseStart a1 a2 s).pending = s.pending := by
  and_intros <;> simp -implicitDefEqProofs [refuseStart]

@[simp] theorem checkStart_frame (a1 : Port) (s : State) : (checkStart a1 s).cc = s.cc ∧ (checkStart a1 s).dev = s.dev ∧
    (checkStart a1 s).cores = s.cores ∧ (checkStart a1 s).led = s.led ∧ (checkStart a1 s).tim = s.tim ∧
    (checkStart a1 s).fd = s.fd ∧ (checkStart a1 s).th = s.th ∧ (checkStart a1 s).stone = s.stone ∧
    (checkStart a1 s).bt = s.bt ∧ (checkStart a1 s).host = s.host ∧ (checkStart a1 s).mem = s.mem ∧
    (checkStart a1 s).freeCtr = s.freeCtr ∧ (checkStart a1 s).pending = s.pending := by
  unfold checkStart; (try dsimp only); (repeat' split) <;> simp -implicitDefEqProofs

@[simp] theorem startCmd_frame (a1 : Port) (s : State) : (startCmd a1 s).cc = s.cc ∧ (startCmd a1 s).dev = s.dev ∧
    (startCmd a1 s).cores = s.cores ∧ (startCmd a1 s).led = s.led ∧ (startCmd a1 s).tim = s.tim ∧ (startCmd a1 s).fd = s.fd ∧
    (startCmd a1 s).th = s.th ∧ (startCmd a1 s).stone = s.stone ∧ (startCmd a1 s).bt = s.bt ∧ (startCmd a1 s).host = s.host ∧
    (startCmd a1 s).mem = s.mem ∧ (startCmd a1 s).freeCtr = s.freeCtr ∧ (startCmd a1 s).pending = s.pending := by
  unfold startCmd; (try dsimp only); (repeat' split) <;> simp -implicitDefEqProofs

@[simp] theorem stopCmd_frame (a1 : Port) (s : State) : (stopCmd a1 s).cc = s.cc ∧ (stopCmd a1 s).dev = s.dev ∧
    (stopCmd a1 s).led = s.led ∧ (stopCmd a1 s).tim = s.tim ∧ (stopCmd a1 s).fd = s.fd ∧ (stopCmd a1 s).th = s.th ∧
    (stopCmd a1 s).stone = s.stone ∧ (stopCmd a1 s).bt = s.bt ∧ (stopCmd a1 s).host = s.host ∧ (stopCmd a1 s).mem = s.mem ∧
    (stopCmd a1 s).freeCtr = s.freeCtr ∧ (stopCmd a1 s).pending = s.pending ∧
    (stopCmd a1 s).cores.map CoreSt.quiet = s.cores.map CoreSt.quiet := by
  unfold stopCmd; (try dsimp only); (repeat' split) <;> simp -implicitDefEqProofs

@[simp] theorem readmitCmd_frame (a1 : Port) (s : State) : (readmitCmd a1 s).cc = s.cc ∧ (readmitCmd a1 s).dev = s.dev ∧
    (readmitCmd a1 s).tim = s.tim ∧ (readmitCmd a1 s).th = s.th ∧ (readmitCmd a1 s).stone = s.stone ∧
    (readmitCmd a1 s).bt = s.bt ∧ (readmitCmd a1 s).host = s.host ∧ (readmitCmd a1 s).mem = s.mem ∧
    (readmitCmd a1 s).freeCtr = s.freeCtr ∧ (readmitCmd a1 s).pending = s.pending ∧
    (readmitCmd a1 s).cores.map CoreSt.quiet = s.cores.map CoreSt.quiet := by
  unfold readmitCmd; (try dsimp only); (repeat' split) <;> simp -implicitDefEqProofs

@[simp] theorem bBroken_frame (s : State) : (bBroken s).cc = s.cc ∧ (bBroken s).dev = s.dev ∧ (bBroken s).led = s.led ∧
    (bBroken s).tim = s.tim ∧ (bBroken s).fd = s.fd ∧ (bBroken s).th = s.th ∧ (bBroken s).stone = s.stone ∧
    (bBroken s).bt = s.bt ∧ (bBroken s).host = s.host ∧ (bBroken s).mem = s.mem ∧ (bBroken s).freeCtr = s.freeCtr ∧
    (bBroken s).pending = s.pending ∧ (bBroken s).cores.map CoreSt.quiet = s.cores.map CoreSt.quiet := by
  unfold bBroken; (try dsimp only); (repeat' split) <;> simp -implicitDefEqProofs

@[simp] theorem endDisch_frame (a1 : Port) (s : State) : (endDisch a1 s).cc = s.cc ∧ (endDisch a1 s).dev = s.dev ∧
    (endDisch a1 s).tim = s.tim ∧ (endDisch a1 s).fd = s.fd ∧ (endDisch a1 s).th = s.th ∧ (endDisch a1 s).stone = s.stone ∧
    (endDisch a1 s).bt = s.bt ∧ (endDisch a1 s).host = s.host ∧ (endDisch a1 s).freeCtr = s.freeCtr ∧
    (endDisch a1 s).pending = s.pending ∧ (endDisch a1 s).cores.map CoreSt.quiet = s.cores.map CoreSt.quiet := by
  unfold endDisch; (try dsimp only); (repeat' split) <;> simp -implicitDefEqProofs

@[simp] theorem endDisch_memGood (a1 : Port) (s : State) (h : memGood s.mem) : memGood (endDisch a1 s).mem := by
  unfold endDisch; (try dsimp only); (repeat' split) <;> simp (maxDischargeDepth := 9) -implicitDefEqProofs [h]

@[simp] theorem giveUp_frame (a1 : Port) (s : State) : (giveUp a1 s).cc = s.cc ∧ (giveUp a1 s).dev = s.dev ∧
    (giveUp a1 s).led = s.led ∧ (giveUp a1 s).tim = s.tim ∧ (giveUp a1 s).fd = s.fd ∧ (giveUp a1 s).th = s.th ∧
    (giveUp a1 s).stone = s.stone ∧ (giveUp a1 s).bt = s.bt ∧ (giveUp a1 s).host = s.host ∧ (giveUp a1 s).mem = s.mem ∧
    (giveUp a1 s).freeCtr = s.freeCtr ∧ (giveUp a1 s).pending = s.pending ∧
    (giveUp a1 s).cores.map CoreSt.quiet = s.cores.map CoreSt.quiet := by
  and_intros <;> simp -implicitDefEqProofs [giveUp]

@[simp] theorem endOffTime_frame (a1 : Port) (s : State) : (endOffTime a1 s).cc = s.cc ∧ (endOffTime a1 s).dev = s.dev ∧
    (endOffTime a1 s).tim = s.tim ∧ (endOffTime a1 s).fd = s.fd ∧ (endOffTime a1 s).th = s.th ∧
    (endOffTime a1 s).stone = s.stone ∧ (endOffTime a1 s).bt = s.bt ∧ (endOffTime a1 s).host = s.host ∧
    (endOffTime a1 s).freeCtr = s.freeCtr ∧ (endOffTime a1 s).pending = s.pending ∧
    (endOffTime a1 s).cores.map CoreSt.quiet = s.cores.map CoreSt.quiet := by
  unfold endOffTime; (try dsimp only); (repeat' split) <;> simp -implicitDefEqProofs

@[simp] theorem endOffTime_memGood (a1 : Port) (s : State) (h : memGood s.mem) : memGood (endOffTime a1 s).mem := by
  unfold endOffTime; (try dsimp only); (repeat' split) <;> simp (maxDischargeDepth := 9) -implicitDefEqProofs [h]

@[simp] theorem resumeOffTime_frame (a1 : Port) (s : State) : (resumeOffTime a1 s).cc = s.cc ∧
    (resumeOffTime a1 s).dev = s.dev ∧ (resumeOffTime a1 s).tim = s.tim ∧ (resumeOffTime a1 s).fd = s.fd ∧
    (resumeOffTime a1 s).th = s.th ∧ (resumeOffTime a1 s).stone = s.stone ∧ (resumeOffTime a1 s).bt = s.bt ∧
    (resumeOffTime a1 s).host = s.host ∧ (resumeOffTime a1 s).freeCtr = s.freeCtr ∧
    (resumeOffTime a1 s).pending = s.pending ∧ (resumeOffTime a1 s).cores.map CoreSt.quiet = s.cores.map CoreSt.quiet := by
  unfold resumeOffTime; (try dsimp only); (repeat' split) <;> simp -implicitDefEqProofs

@[simp] theorem resumeOffTime_memGood (a1 : Port) (s : State) (h : memGood s.mem) : memGood (resumeOffTime a1 s).mem := by
  unfold resumeOffTime; (try dsimp only); (repeat' split) <;> simp (maxDischargeDepth := 9) -implicitDefEqProofs [h]

@[simp] theorem setSupply_frame (a1 : Supply) (a2 : Nat) (s : State) : (setSupply a1 a2 s).cc = s.cc ∧
    (setSupply a1 a2 s).dev = s.dev ∧ (setSupply a1 a2 s).cores = s.cores ∧ (setSupply a1 a2 s).ports = s.ports ∧
    (setSupply a1 a2 s).led = s.led ∧ (setSupply a1 a2 s).tim = s.tim ∧ (setSupply a1 a2 s).th = s.th ∧
    (setSupply a1 a2 s).stone = s.stone ∧ (setSupply a1 a2 s).bt = s.bt ∧ (setSupply a1 a2 s).host = s.host ∧
    (setSupply a1 a2 s).mem = s.mem ∧ (setSupply a1 a2 s).freeCtr = s.freeCtr ∧ (setSupply a1 a2 s).pending = s.pending := by
  unfold setSupply; (try dsimp only); (repeat' split) <;> simp -implicitDefEqProofs

@[simp] theorem noteSupply_frame (a1 : Supply) (a2 : Nat) (s : State) : (noteSupply a1 a2 s).cc = s.cc ∧
    (noteSupply a1 a2 s).dev = s.dev ∧ (noteSupply a1 a2 s).led = s.led ∧ (noteSupply a1 a2 s).tim = s.tim ∧
    (noteSupply a1 a2 s).th = s.th ∧ (noteSupply a1 a2 s).stone = s.stone ∧ (noteSupply a1 a2 s).bt = s.bt ∧
    (noteSupply a1 a2 s).host = s.host ∧ (noteSupply a1 a2 s).mem = s.mem ∧ (noteSupply a1 a2 s).freeCtr = s.freeCtr ∧
    (noteSupply a1 a2 s).pending = s.pending ∧ (noteSupply a1 a2 s).cores.map CoreSt.quiet = s.cores.map CoreSt.quiet := by
  unfold noteSupply; (try dsimp only); (repeat' split) <;> simp -implicitDefEqProofs

@[simp] theorem setUp_frame (a1 : Supply) (a2 : Bool) (s : State) : (setUp a1 a2 s).cc = s.cc ∧ (setUp a1 a2 s).dev = s.dev ∧
    (setUp a1 a2 s).cores = s.cores ∧ (setUp a1 a2 s).ports = s.ports ∧ (setUp a1 a2 s).led = s.led ∧
    (setUp a1 a2 s).tim = s.tim ∧ (setUp a1 a2 s).th = s.th ∧ (setUp a1 a2 s).stone = s.stone ∧ (setUp a1 a2 s).bt = s.bt ∧
    (setUp a1 a2 s).host = s.host ∧ (setUp a1 a2 s).mem = s.mem ∧ (setUp a1 a2 s).freeCtr = s.freeCtr ∧
    (setUp a1 a2 s).pending = s.pending := by
  unfold setUp; (try dsimp only); (repeat' split) <;> simp -implicitDefEqProofs

@[simp] theorem supplyLost_frame (a1 : BitVec 4) (s : State) : (supplyLost a1 s).cc = s.cc ∧ (supplyLost a1 s).dev = s.dev ∧
    (supplyLost a1 s).tim = s.tim ∧ (supplyLost a1 s).th = s.th ∧ (supplyLost a1 s).stone = s.stone ∧
    (supplyLost a1 s).bt = s.bt ∧ (supplyLost a1 s).host = s.host ∧ (supplyLost a1 s).freeCtr = s.freeCtr ∧
    (supplyLost a1 s).pending = s.pending ∧ (supplyLost a1 s).cores.map CoreSt.quiet = s.cores.map CoreSt.quiet := by
  unfold supplyLost; (try dsimp only); (repeat' split) <;> simp -implicitDefEqProofs

@[simp] theorem supplyLost_memGood (a1 : BitVec 4) (s : State) (h : memGood s.mem) : memGood (supplyLost a1 s).mem := by
  unfold supplyLost; (try dsimp only); (repeat' split) <;> simp (maxDischargeDepth := 9) -implicitDefEqProofs [h]

@[simp] theorem supplyChanged_frame (s : State) : (supplyChanged s).cc = s.cc ∧ (supplyChanged s).dev = s.dev ∧
    (supplyChanged s).tim = s.tim ∧ (supplyChanged s).th = s.th ∧ (supplyChanged s).stone = s.stone ∧
    (supplyChanged s).bt = s.bt ∧ (supplyChanged s).host = s.host ∧ (supplyChanged s).freeCtr = s.freeCtr ∧
    (supplyChanged s).pending = s.pending ∧ (supplyChanged s).cores.map CoreSt.quiet = s.cores.map CoreSt.quiet := by
  unfold supplyChanged; (try dsimp only); (repeat' split) <;> simp -implicitDefEqProofs

@[simp] theorem supplyChanged_memGood (s : State) (h : memGood s.mem) : memGood (supplyChanged s).mem := by
  unfold supplyChanged; (try dsimp only); (repeat' split) <;> simp (maxDischargeDepth := 9) -implicitDefEqProofs [h]

@[simp] theorem coldComparators_frame (s : State) : (coldComparators s).cc = s.cc ∧ (coldComparators s).dev = s.dev ∧
    (coldComparators s).cores = s.cores ∧ (coldComparators s).led = s.led ∧ (coldComparators s).tim = s.tim ∧
    (coldComparators s).th = s.th ∧ (coldComparators s).stone = s.stone ∧ (coldComparators s).bt = s.bt ∧
    (coldComparators s).host = s.host ∧ (coldComparators s).mem = s.mem ∧ (coldComparators s).freeCtr = s.freeCtr ∧
    (coldComparators s).pending = s.pending := by
  unfold coldComparators; (try dsimp only); and_intros <;> (repeat' split) <;> simp -implicitDefEqProofs [foldl_cc, foldl_dev, foldl_cores, foldl_led, foldl_tim, foldl_th, foldl_stone, foldl_bt, foldl_host, foldl_mem, foldl_freeCtr, foldl_pending]

@[simp] theorem supplyFell_frame (a1 : Supply) (a2 : Nat) (s : State) : (supplyFell a1 a2 s).cc = s.cc ∧
    (supplyFell a1 a2 s).dev = s.dev ∧ (supplyFell a1 a2 s).tim = s.tim ∧ (supplyFell a1 a2 s).th = s.th ∧
    (supplyFell a1 a2 s).stone = s.stone ∧ (supplyFell a1 a2 s).host = s.host ∧ (supplyFell a1 a2 s).freeCtr = s.freeCtr ∧
    (supplyFell a1 a2 s).pending = s.pending ∧ (supplyFell a1 a2 s).cores.map CoreSt.quiet = s.cores.map CoreSt.quiet := by
  unfold supplyFell; (try dsimp only); (repeat' split) <;> simp -implicitDefEqProofs

@[simp] theorem supplyFell_memGood (a1 : Supply) (a2 : Nat) (s : State) (h : memGood s.mem) : memGood (supplyFell a1 a2
    s).mem := by
  unfold supplyFell; (try dsimp only); (repeat' split) <;> simp (maxDischargeDepth := 9) -implicitDefEqProofs [h]

@[simp] theorem closePath_frame (s : State) : (closePath s).cc = s.cc ∧ (closePath s).dev = s.dev ∧
    (closePath s).cores = s.cores ∧ (closePath s).led = s.led ∧ (closePath s).tim = s.tim ∧ (closePath s).th = s.th ∧
    (closePath s).stone = s.stone ∧ (closePath s).bt = s.bt ∧ (closePath s).host = s.host ∧ (closePath s).mem = s.mem ∧
    (closePath s).freeCtr = s.freeCtr ∧ (closePath s).pending = s.pending := by
  unfold closePath; (try dsimp only); and_intros <;> (repeat' split) <;> simp -implicitDefEqProofs [foldl_cc, foldl_dev, foldl_cores, foldl_led, foldl_tim, foldl_th, foldl_stone, foldl_bt, foldl_host, foldl_mem, foldl_freeCtr, foldl_pending]

@[simp] theorem preDone_frame (s : State) : (preDone s).cc = s.cc ∧ (preDone s).dev = s.dev ∧ (preDone s).tim = s.tim ∧
    (preDone s).th = s.th ∧ (preDone s).stone = s.stone ∧ (preDone s).bt = s.bt ∧ (preDone s).host = s.host ∧
    (preDone s).mem = s.mem ∧ (preDone s).freeCtr = s.freeCtr ∧ (preDone s).pending = s.pending ∧
    (preDone s).cores.map CoreSt.quiet = s.cores.map CoreSt.quiet := by
  and_intros <;> simp -implicitDefEqProofs [preDone]

@[simp] theorem planChange_frame (a1 : Feed) (s : State) : (planChange a1 s).cc = s.cc ∧ (planChange a1 s).dev = s.dev ∧
    (planChange a1 s).tim = s.tim ∧ (planChange a1 s).th = s.th ∧ (planChange a1 s).stone = s.stone ∧
    (planChange a1 s).bt = s.bt ∧ (planChange a1 s).host = s.host ∧ (planChange a1 s).mem = s.mem ∧
    (planChange a1 s).freeCtr = s.freeCtr ∧ (planChange a1 s).pending = s.pending ∧
    (planChange a1 s).cores.map CoreSt.quiet = s.cores.map CoreSt.quiet := by
  unfold planChange; (try dsimp only); (repeat' split) <;> simp -implicitDefEqProofs

@[simp] theorem progClear_frame (s : State) : (progClear s).cc = s.cc ∧ (progClear s).dev = s.dev ∧
    (progClear s).tim = s.tim ∧ (progClear s).th = s.th ∧ (progClear s).stone = s.stone ∧ (progClear s).bt = s.bt ∧
    (progClear s).host = s.host ∧ (progClear s).freeCtr = s.freeCtr ∧ (progClear s).pending = s.pending ∧
    (progClear s).cores.map CoreSt.quiet = s.cores.map CoreSt.quiet := by
  unfold progClear; (try dsimp only); (repeat' split) <;> simp -implicitDefEqProofs

@[simp] theorem progClear_memGood (s : State) (h : memGood s.mem) : memGood (progClear s).mem := by
  unfold progClear; (try dsimp only); (repeat' split) <;> simp (maxDischargeDepth := 9) -implicitDefEqProofs [h]

@[simp] theorem progSet_frame (a1 : Bool) (s : State) : (progSet a1 s).cc = s.cc ∧ (progSet a1 s).dev = s.dev ∧
    (progSet a1 s).tim = s.tim ∧ (progSet a1 s).th = s.th ∧ (progSet a1 s).stone = s.stone ∧ (progSet a1 s).bt = s.bt ∧
    (progSet a1 s).host = s.host ∧ (progSet a1 s).freeCtr = s.freeCtr ∧ (progSet a1 s).pending = s.pending ∧
    (progSet a1 s).cores.map CoreSt.quiet = s.cores.map CoreSt.quiet := by
  unfold progSet; (try dsimp only); (repeat' split) <;> simp -implicitDefEqProofs

@[simp] theorem progSet_memGood (a1 : Bool) (s : State) (h : memGood s.mem) : memGood (progSet a1 s).mem := by
  unfold progSet; (try dsimp only); (repeat' split) <;> simp (maxDischargeDepth := 9) -implicitDefEqProofs [h]

@[simp] theorem benSet_frame (a1 : Bool) (s : State) : (benSet a1 s).cc = s.cc ∧ (benSet a1 s).dev = s.dev ∧
    (benSet a1 s).tim = s.tim ∧ (benSet a1 s).th = s.th ∧ (benSet a1 s).stone = s.stone ∧ (benSet a1 s).bt = s.bt ∧
    (benSet a1 s).host = s.host ∧ (benSet a1 s).freeCtr = s.freeCtr ∧ (benSet a1 s).pending = s.pending ∧
    (benSet a1 s).cores.map CoreSt.quiet = s.cores.map CoreSt.quiet := by
  unfold benSet; (try dsimp only); (repeat' split) <;> simp -implicitDefEqProofs

@[simp] theorem benSet_memGood (a1 : Bool) (s : State) (h : memGood s.mem) : memGood (benSet a1 s).mem := by
  unfold benSet; (try dsimp only); (repeat' split) <;> simp (maxDischargeDepth := 9) -implicitDefEqProofs [h]

@[simp] theorem hbusOvTripped_frame (s : State) : (hbusOvTripped s).cc = s.cc ∧ (hbusOvTripped s).dev = s.dev ∧
    (hbusOvTripped s).tim = s.tim ∧ (hbusOvTripped s).th = s.th ∧ (hbusOvTripped s).stone = s.stone ∧
    (hbusOvTripped s).bt = s.bt ∧ (hbusOvTripped s).host = s.host ∧ (hbusOvTripped s).freeCtr = s.freeCtr ∧
    (hbusOvTripped s).pending = s.pending ∧ (hbusOvTripped s).cores.map CoreSt.quiet = s.cores.map CoreSt.quiet := by
  unfold hbusOvTripped; (try dsimp only); (repeat' split) <;> simp -implicitDefEqProofs

@[simp] theorem hbusOvTripped_memGood (s : State) (h : memGood s.mem) : memGood (hbusOvTripped s).mem := by
  unfold hbusOvTripped; (try dsimp only); (repeat' split) <;> simp (maxDischargeDepth := 9) -implicitDefEqProofs [h]

@[simp] theorem takeSample_frame (a1 : PortSample) (s : State) : (takeSample a1 s).cc = s.cc ∧
    (takeSample a1 s).dev = s.dev ∧ (takeSample a1 s).cores = s.cores ∧ (takeSample a1 s).led = s.led ∧
    (takeSample a1 s).tim = s.tim ∧ (takeSample a1 s).fd = s.fd ∧ (takeSample a1 s).th = s.th ∧
    (takeSample a1 s).stone = s.stone ∧ (takeSample a1 s).bt = s.bt ∧ (takeSample a1 s).host = s.host ∧
    (takeSample a1 s).mem = s.mem ∧ (takeSample a1 s).freeCtr = s.freeCtr ∧ (takeSample a1 s).pending = s.pending := by
  and_intros <;> simp -implicitDefEqProofs [takeSample]

@[simp] theorem tickFault_frame (a1 : Port) (s : State) : (tickFault a1 s).cc = s.cc ∧ (tickFault a1 s).dev = s.dev ∧
    (tickFault a1 s).cores = s.cores ∧ (tickFault a1 s).led = s.led ∧ (tickFault a1 s).tim = s.tim ∧
    (tickFault a1 s).fd = s.fd ∧ (tickFault a1 s).th = s.th ∧ (tickFault a1 s).stone = s.stone ∧ (tickFault a1 s).bt = s.bt ∧
    (tickFault a1 s).host = s.host ∧ (tickFault a1 s).mem = s.mem ∧ (tickFault a1 s).freeCtr = s.freeCtr ∧
    (tickFault a1 s).pending = s.pending := by
  unfold tickFault; (try dsimp only); (repeat' split) <;> simp -implicitDefEqProofs

@[simp] theorem energyWrap_frame (a1 : Port) (a2 : Bool) (s : State) : (energyWrap a1 a2 s).cc = s.cc ∧
    (energyWrap a1 a2 s).dev = s.dev ∧ (energyWrap a1 a2 s).ports = s.ports ∧ (energyWrap a1 a2 s).led = s.led ∧
    (energyWrap a1 a2 s).tim = s.tim ∧ (energyWrap a1 a2 s).th = s.th ∧ (energyWrap a1 a2 s).stone = s.stone ∧
    (energyWrap a1 a2 s).bt = s.bt ∧ (energyWrap a1 a2 s).host = s.host ∧ (energyWrap a1 a2 s).mem = s.mem ∧
    (energyWrap a1 a2 s).freeCtr = s.freeCtr ∧ (energyWrap a1 a2 s).pending = s.pending ∧
    (energyWrap a1 a2 s).cores.map CoreSt.quiet = s.cores.map CoreSt.quiet := by
  and_intros <;> simp -implicitDefEqProofs [energyWrap]

@[simp] theorem tickMeter_frame (a1 : Port) (s : State) : (tickMeter a1 s).cc = s.cc ∧ (tickMeter a1 s).dev = s.dev ∧
    (tickMeter a1 s).led = s.led ∧ (tickMeter a1 s).tim = s.tim ∧ (tickMeter a1 s).th = s.th ∧
    (tickMeter a1 s).stone = s.stone ∧ (tickMeter a1 s).bt = s.bt ∧ (tickMeter a1 s).host = s.host ∧
    (tickMeter a1 s).mem = s.mem ∧ (tickMeter a1 s).freeCtr = s.freeCtr ∧ (tickMeter a1 s).pending = s.pending ∧
    (tickMeter a1 s).cores.map CoreSt.quiet = s.cores.map CoreSt.quiet := by
  unfold tickMeter; (try dsimp only); (repeat' split) <;> simp -implicitDefEqProofs

@[simp] theorem tickStart_frame (a1 : Port) (s : State) : (tickStart a1 s).cc = s.cc ∧ (tickStart a1 s).dev = s.dev ∧
    (tickStart a1 s).tim = s.tim ∧ (tickStart a1 s).th = s.th ∧ (tickStart a1 s).stone = s.stone ∧
    (tickStart a1 s).bt = s.bt ∧ (tickStart a1 s).host = s.host ∧ (tickStart a1 s).freeCtr = s.freeCtr ∧
    (tickStart a1 s).pending = s.pending ∧ (tickStart a1 s).cores.map CoreSt.quiet = s.cores.map CoreSt.quiet := by
  unfold tickStart; (try dsimp only); (repeat' split) <;> simp -implicitDefEqProofs

@[simp] theorem tickStart_memGood (a1 : Port) (s : State) (h : memGood s.mem) : memGood (tickStart a1 s).mem := by
  unfold tickStart; (try dsimp only); (repeat' split) <;> simp (maxDischargeDepth := 9) -implicitDefEqProofs [h]

@[simp] theorem tickPort_frame (a1 : Port) (s : State) : (tickPort a1 s).cc = s.cc ∧ (tickPort a1 s).dev = s.dev ∧
    (tickPort a1 s).tim = s.tim ∧ (tickPort a1 s).th = s.th ∧ (tickPort a1 s).stone = s.stone ∧ (tickPort a1 s).bt = s.bt ∧
    (tickPort a1 s).host = s.host ∧ (tickPort a1 s).freeCtr = s.freeCtr ∧ (tickPort a1 s).pending = s.pending ∧
    (tickPort a1 s).cores.map CoreSt.quiet = s.cores.map CoreSt.quiet := by
  unfold tickPort; (try dsimp only); (repeat' split) <;> simp -implicitDefEqProofs

@[simp] theorem tickPort_memGood (a1 : Port) (s : State) (h : memGood s.mem) : memGood (tickPort a1 s).mem := by
  unfold tickPort; (try dsimp only); (repeat' split) <;> simp (maxDischargeDepth := 9) -implicitDefEqProofs [h]

@[simp] theorem tickHbus_frame (a1 : Nat) (s : State) : (tickHbus a1 s).cc = s.cc ∧ (tickHbus a1 s).dev = s.dev ∧
    (tickHbus a1 s).tim = s.tim ∧ (tickHbus a1 s).th = s.th ∧ (tickHbus a1 s).stone = s.stone ∧ (tickHbus a1 s).bt = s.bt ∧
    (tickHbus a1 s).host = s.host ∧ (tickHbus a1 s).mem = s.mem ∧ (tickHbus a1 s).freeCtr = s.freeCtr ∧
    (tickHbus a1 s).pending = s.pending ∧ (tickHbus a1 s).cores.map CoreSt.quiet = s.cores.map CoreSt.quiet := by
  unfold tickHbus; (try dsimp only); (repeat' split) <;> simp -implicitDefEqProofs

@[simp] theorem updateMeans_frame (a1 : Port) (s : State) : (updateMeans a1 s).cc = s.cc ∧ (updateMeans a1 s).dev = s.dev ∧
    (updateMeans a1 s).cores = s.cores ∧ (updateMeans a1 s).led = s.led ∧ (updateMeans a1 s).tim = s.tim ∧
    (updateMeans a1 s).fd = s.fd ∧ (updateMeans a1 s).th = s.th ∧ (updateMeans a1 s).stone = s.stone ∧
    (updateMeans a1 s).bt = s.bt ∧ (updateMeans a1 s).host = s.host ∧ (updateMeans a1 s).mem = s.mem ∧
    (updateMeans a1 s).freeCtr = s.freeCtr ∧ (updateMeans a1 s).pending = s.pending := by
  and_intros <;> simp -implicitDefEqProofs [updateMeans]

@[simp] theorem portRecord_frame (a1 : Port) (a2 : Word) (s : State) : (portRecord a1 a2 s).cc = s.cc ∧
    (portRecord a1 a2 s).dev = s.dev ∧ (portRecord a1 a2 s).cores = s.cores ∧ (portRecord a1 a2 s).ports = s.ports ∧
    (portRecord a1 a2 s).led = s.led ∧ (portRecord a1 a2 s).tim = s.tim ∧ (portRecord a1 a2 s).fd = s.fd ∧
    (portRecord a1 a2 s).th = s.th ∧ (portRecord a1 a2 s).stone = s.stone ∧ (portRecord a1 a2 s).bt = s.bt ∧
    (portRecord a1 a2 s).host = s.host ∧ (portRecord a1 a2 s).freeCtr = s.freeCtr ∧
    (portRecord a1 a2 s).pending = s.pending := by
  and_intros <;> simp -implicitDefEqProofs [portRecord]

@[simp] theorem portRecord_memGood (a1 : Port) (a2 : Word) (s : State) (h : memGood s.mem) : memGood (portRecord a1 a2 s).mem
    := by
  simp (maxDischargeDepth := 9) -implicitDefEqProofs [portRecord, h]

@[simp] theorem hbusRecord_frame (a1 : Word) (s : State) : (hbusRecord a1 s).cc = s.cc ∧ (hbusRecord a1 s).dev = s.dev ∧
    (hbusRecord a1 s).cores = s.cores ∧ (hbusRecord a1 s).ports = s.ports ∧ (hbusRecord a1 s).led = s.led ∧
    (hbusRecord a1 s).tim = s.tim ∧ (hbusRecord a1 s).fd = s.fd ∧ (hbusRecord a1 s).th = s.th ∧
    (hbusRecord a1 s).stone = s.stone ∧ (hbusRecord a1 s).bt = s.bt ∧ (hbusRecord a1 s).host = s.host ∧
    (hbusRecord a1 s).freeCtr = s.freeCtr ∧ (hbusRecord a1 s).pending = s.pending := by
  and_intros <;> simp -implicitDefEqProofs [hbusRecord]

@[simp] theorem hbusRecord_memGood (a1 : Word) (s : State) (h : memGood s.mem) : memGood (hbusRecord a1 s).mem := by
  simp (maxDischargeDepth := 9) -implicitDefEqProofs [hbusRecord, h]

@[simp] theorem moistEvent_frame (a1 : Port) (s : State) : (moistEvent a1 s).cc = s.cc ∧ (moistEvent a1 s).dev = s.dev ∧
    (moistEvent a1 s).ports = s.ports ∧ (moistEvent a1 s).led = s.led ∧ (moistEvent a1 s).tim = s.tim ∧
    (moistEvent a1 s).fd = s.fd ∧ (moistEvent a1 s).th = s.th ∧ (moistEvent a1 s).stone = s.stone ∧
    (moistEvent a1 s).bt = s.bt ∧ (moistEvent a1 s).host = s.host ∧ (moistEvent a1 s).mem = s.mem ∧
    (moistEvent a1 s).freeCtr = s.freeCtr ∧ (moistEvent a1 s).pending = s.pending ∧
    (moistEvent a1 s).cores.map CoreSt.quiet = s.cores.map CoreSt.quiet := by
  and_intros <;> simp -implicitDefEqProofs [moistEvent]

@[simp] theorem flagWet_frame (a1 : Port) (a2 : BitVec 3) (s : State) : (flagWet a1 a2 s).cc = s.cc ∧
    (flagWet a1 a2 s).dev = s.dev ∧ (flagWet a1 a2 s).tim = s.tim ∧ (flagWet a1 a2 s).th = s.th ∧
    (flagWet a1 a2 s).stone = s.stone ∧ (flagWet a1 a2 s).bt = s.bt ∧ (flagWet a1 a2 s).host = s.host ∧
    (flagWet a1 a2 s).mem = s.mem ∧ (flagWet a1 a2 s).freeCtr = s.freeCtr ∧ (flagWet a1 a2 s).pending = s.pending ∧
    (flagWet a1 a2 s).cores.map CoreSt.quiet = s.cores.map CoreSt.quiet := by
  unfold flagWet; (try dsimp only); (repeat' split) <;> simp -implicitDefEqProofs

@[simp] theorem clearWet_frame (a1 : Port) (s : State) : (clearWet a1 s).cc = s.cc ∧ (clearWet a1 s).dev = s.dev ∧
    (clearWet a1 s).tim = s.tim ∧ (clearWet a1 s).th = s.th ∧ (clearWet a1 s).stone = s.stone ∧ (clearWet a1 s).bt = s.bt ∧
    (clearWet a1 s).host = s.host ∧ (clearWet a1 s).mem = s.mem ∧ (clearWet a1 s).freeCtr = s.freeCtr ∧
    (clearWet a1 s).pending = s.pending ∧ (clearWet a1 s).cores.map CoreSt.quiet = s.cores.map CoreSt.quiet := by
  unfold clearWet; (try dsimp only); (repeat' split) <;> simp -implicitDefEqProofs

@[simp] theorem partBit_frame (a1 : Nat) (s : State) : (partBit a1 s).cc = s.cc ∧ (partBit a1 s).dev = s.dev ∧
    (partBit a1 s).cores = s.cores ∧ (partBit a1 s).ports = s.ports ∧ (partBit a1 s).led = s.led ∧
    (partBit a1 s).tim = s.tim ∧ (partBit a1 s).fd = s.fd ∧ (partBit a1 s).th = s.th ∧ (partBit a1 s).bt = s.bt ∧
    (partBit a1 s).host = s.host ∧ (partBit a1 s).mem = s.mem ∧ (partBit a1 s).pending = s.pending := by
  and_intros <;> simp -implicitDefEqProofs [partBit]

@[simp] theorem cutStone_frame (s : State) : (cutStone s).cc = s.cc ∧ (cutStone s).dev = s.dev ∧
    (cutStone s).cores = s.cores ∧ (cutStone s).ports = s.ports ∧ (cutStone s).led = s.led ∧ (cutStone s).tim = s.tim ∧
    (cutStone s).fd = s.fd ∧ (cutStone s).th = s.th ∧ (cutStone s).bt = s.bt ∧ (cutStone s).host = s.host ∧
    (cutStone s).mem = s.mem ∧ (cutStone s).pending = s.pending := by
  unfold cutStone; (try dsimp only); and_intros <;> (repeat' split) <;> simp -implicitDefEqProofs [foldl_cc, foldl_dev, foldl_cores, foldl_ports, foldl_led, foldl_tim, foldl_fd, foldl_th, foldl_bt, foldl_host, foldl_mem, foldl_pending]

@[simp] theorem cutByte_frame (a1 : Nat) (a2 : Byte) (s : State) : (cutByte a1 a2 s).cc = s.cc ∧
    (cutByte a1 a2 s).dev = s.dev ∧ (cutByte a1 a2 s).cores = s.cores ∧ (cutByte a1 a2 s).ports = s.ports ∧
    (cutByte a1 a2 s).led = s.led ∧ (cutByte a1 a2 s).tim = s.tim ∧ (cutByte a1 a2 s).fd = s.fd ∧
    (cutByte a1 a2 s).th = s.th ∧ (cutByte a1 a2 s).stone = s.stone ∧ (cutByte a1 a2 s).bt = s.bt ∧
    (cutByte a1 a2 s).host = s.host ∧ (cutByte a1 a2 s).pending = s.pending := by
  and_intros <;> simp -implicitDefEqProofs [cutByte]

@[simp] theorem cutByte_memGood (a1 : Nat) (a2 : Byte) (s : State) (h : memGood s.mem) : memGood (cutByte a1 a2 s).mem := by
  simp (maxDischargeDepth := 9) -implicitDefEqProofs [cutByte, h]

@[simp] theorem cutBytes_frame (a1 : Nat) (a2 : List Byte) (s : State) : (cutBytes a1 a2 s).cc = s.cc ∧
    (cutBytes a1 a2 s).dev = s.dev ∧ (cutBytes a1 a2 s).cores = s.cores ∧ (cutBytes a1 a2 s).ports = s.ports ∧
    (cutBytes a1 a2 s).led = s.led ∧ (cutBytes a1 a2 s).tim = s.tim ∧ (cutBytes a1 a2 s).fd = s.fd ∧
    (cutBytes a1 a2 s).th = s.th ∧ (cutBytes a1 a2 s).stone = s.stone ∧ (cutBytes a1 a2 s).bt = s.bt ∧
    (cutBytes a1 a2 s).host = s.host ∧ (cutBytes a1 a2 s).pending = s.pending := by
  induction a2 generalizing a1 s <;> (try unfold cutBytes) <;> (try dsimp only) <;> (repeat' split) <;> (first | (and_intros <;> rfl) | (and_intros <;> simp -implicitDefEqProofs [*, apply_ite State.cc, apply_ite State.dev, apply_ite State.cores, apply_ite State.ports, apply_ite State.led, apply_ite State.tim, apply_ite State.fd, apply_ite State.th, apply_ite State.stone, apply_ite State.bt, apply_ite State.host, apply_ite State.pending]))

@[simp] theorem cutBytes_memGood (a1 : Nat) (a2 : List Byte) (s : State) (h : memGood s.mem) : memGood (cutBytes a1 a2 s).mem
    := by
  revert h; induction a2 generalizing a1 s <;> intro h <;> (try unfold cutBytes) <;> (try dsimp only) <;> (repeat' split) <;> (first | exact h | (simp (maxDischargeDepth := 9) -implicitDefEqProofs [*]; done))

@[simp] theorem cutErased_frame (a1 : Host.Cell) (s : State) : (cutErased a1 s).cc = s.cc ∧ (cutErased a1 s).dev = s.dev ∧
    (cutErased a1 s).cores = s.cores ∧ (cutErased a1 s).ports = s.ports ∧ (cutErased a1 s).led = s.led ∧
    (cutErased a1 s).tim = s.tim ∧ (cutErased a1 s).fd = s.fd ∧ (cutErased a1 s).th = s.th ∧
    (cutErased a1 s).stone = s.stone ∧ (cutErased a1 s).bt = s.bt ∧ (cutErased a1 s).host = s.host ∧
    (cutErased a1 s).pending = s.pending := by
  and_intros <;> simp -implicitDefEqProofs [cutErased]

@[simp] theorem cutErased_memGood (a1 : Host.Cell) (s : State) (h : memGood s.mem) : memGood (cutErased a1 s).mem := by
  simp (maxDischargeDepth := 9) -implicitDefEqProofs [cutErased, h]

@[simp] theorem cutImage_frame (s : State) : (cutImage s).cc = s.cc ∧ (cutImage s).dev = s.dev ∧
    (cutImage s).cores = s.cores ∧ (cutImage s).ports = s.ports ∧ (cutImage s).led = s.led ∧ (cutImage s).tim = s.tim ∧
    (cutImage s).fd = s.fd ∧ (cutImage s).th = s.th ∧ (cutImage s).stone = s.stone ∧ (cutImage s).bt = s.bt ∧
    (cutImage s).host = s.host ∧ (cutImage s).pending = s.pending := by
  unfold cutImage; (try dsimp only); and_intros <;> (repeat' split) <;> simp -implicitDefEqProofs [foldl_cc, foldl_dev, foldl_cores, foldl_ports, foldl_led, foldl_tim, foldl_fd, foldl_th, foldl_stone, foldl_bt, foldl_host, foldl_pending]

@[simp] theorem cutImage_memGood (s : State) (h : memGood s.mem) : memGood (cutImage s).mem := by
  unfold cutImage; (try dsimp only); (repeat' split) <;> (first | (simp (maxDischargeDepth := 9) -implicitDefEqProofs [h]; done) | (apply foldl_memGood; (intro t x ht; (repeat' split) <;> (simp (maxDischargeDepth := 9) -implicitDefEqProofs [ht]; done)); simp (maxDischargeDepth := 9) -implicitDefEqProofs [h]))

@[simp] theorem resetHub_frame (s : State) : (resetHub s).pending = s.pending := by
  and_intros <;> simp -implicitDefEqProofs [resetHub]

@[simp] theorem resetHub_memGood (s : State) (h : memGood s.mem) : memGood (resetHub s).mem := by
  simp (maxDischargeDepth := 9) -implicitDefEqProofs [resetHub, h]

@[simp] theorem resetWith_frame (a1 : BitVec 4) (s : State) : (resetWith a1 s).pending = s.pending := by
  and_intros <;> simp -implicitDefEqProofs [resetWith]

@[simp] theorem resetWith_memGood (a1 : BitVec 4) (s : State) (h : memGood s.mem) : memGood (resetWith a1 s).mem := by
  simp (maxDischargeDepth := 9) -implicitDefEqProofs [resetWith, h]

@[simp] theorem brownOut_frame (s : State) : (brownOut s).pending = s.pending := by
  unfold brownOut; (try dsimp only); (repeat' split) <;> simp -implicitDefEqProofs

@[simp] theorem brownOut_memGood (s : State) (h : memGood s.mem) : memGood (brownOut s).mem := by
  unfold brownOut; (try dsimp only); (repeat' split) <;> simp (maxDischargeDepth := 9) -implicitDefEqProofs [h]

@[simp] theorem enterShutdown_frame (a1 : Fin 24) (s : State) : (enterShutdown a1 s).cc = s.cc ∧
    (enterShutdown a1 s).th = s.th ∧ (enterShutdown a1 s).host = s.host ∧ (enterShutdown a1 s).pending = s.pending := by
  unfold enterShutdown; (try dsimp only); and_intros <;> (repeat' split) <;> simp -implicitDefEqProofs [foldl_cc, foldl_th, foldl_host, foldl_pending]

@[simp] theorem enterShutdown_memGood (a1 : Fin 24) (s : State) (h : memGood s.mem) : memGood (enterShutdown a1 s).mem := by
  unfold enterShutdown; (try dsimp only); (repeat' split) <;> simp (maxDischargeDepth := 9) -implicitDefEqProofs +contextual [h, foldl_memGood2]

@[simp] theorem thermEvent_frame (a1 : Nat) (a2 : Fin 24) (s : State) : (thermEvent a1 a2 s).cc = s.cc ∧
    (thermEvent a1 a2 s).dev = s.dev ∧ (thermEvent a1 a2 s).ports = s.ports ∧ (thermEvent a1 a2 s).led = s.led ∧
    (thermEvent a1 a2 s).tim = s.tim ∧ (thermEvent a1 a2 s).fd = s.fd ∧ (thermEvent a1 a2 s).th = s.th ∧
    (thermEvent a1 a2 s).stone = s.stone ∧ (thermEvent a1 a2 s).bt = s.bt ∧ (thermEvent a1 a2 s).host = s.host ∧
    (thermEvent a1 a2 s).mem = s.mem ∧ (thermEvent a1 a2 s).freeCtr = s.freeCtr ∧ (thermEvent a1 a2 s).pending = s.pending ∧
    (thermEvent a1 a2 s).cores.map CoreSt.quiet = s.cores.map CoreSt.quiet := by
  and_intros <;> simp -implicitDefEqProofs [thermEvent]

@[simp] theorem updSensor_frame (s : State) (i : Fin 24) (f : Sensor → Sensor) : (s.updSensor i f).cc = s.cc ∧
    (s.updSensor i f).dev = s.dev ∧ (s.updSensor i f).cores = s.cores ∧ (s.updSensor i f).ports = s.ports ∧
    (s.updSensor i f).led = s.led ∧ (s.updSensor i f).tim = s.tim ∧ (s.updSensor i f).fd = s.fd ∧
    (s.updSensor i f).stone = s.stone ∧ (s.updSensor i f).bt = s.bt ∧ (s.updSensor i f).host = s.host ∧
    (s.updSensor i f).mem = s.mem ∧ (s.updSensor i f).freeCtr = s.freeCtr ∧ (s.updSensor i f).pending = s.pending ∧
    (s.updSensor i f).evq = s.evq := by
  and_intros <;> rfl

@[simp] theorem thermTrip_frame (a1 : Port) (s : State) : (thermTrip a1 s).cc = s.cc ∧ (thermTrip a1 s).dev = s.dev ∧
    (thermTrip a1 s).tim = s.tim ∧ (thermTrip a1 s).stone = s.stone ∧ (thermTrip a1 s).bt = s.bt ∧
    (thermTrip a1 s).host = s.host ∧ (thermTrip a1 s).freeCtr = s.freeCtr ∧ (thermTrip a1 s).pending = s.pending ∧
    (thermTrip a1 s).cores.map CoreSt.quiet = s.cores.map CoreSt.quiet := by
  unfold thermTrip; (try dsimp only); (repeat' split) <;> simp -implicitDefEqProofs

@[simp] theorem thermTrip_memGood (a1 : Port) (s : State) (h : memGood s.mem) : memGood (thermTrip a1 s).mem := by
  unfold thermTrip; (try dsimp only); (repeat' split) <;> simp (maxDischargeDepth := 9) -implicitDefEqProofs [h]

@[simp] theorem stepSensor_frame (a1 : Fin 24) (a2 : Option Int) (s : State) : (stepSensor a1 a2 s).cc = s.cc ∧
    (stepSensor a1 a2 s).host = s.host ∧ (stepSensor a1 a2 s).pending = s.pending := by
  unfold stepSensor
  split
  · simp
  · generalize roundSensor _ _ _ _ _ = o
    dsimp only
    and_intros <;> simp -implicitDefEqProofs [apply_dite State.cc, apply_dite State.host, apply_dite State.pending, apply_ite State.cc, apply_ite State.host, apply_ite State.pending]

@[simp] theorem stepSensor_memGood (a1 : Fin 24) (a2 : Option Int) (s : State) (h : memGood s.mem) : memGood (stepSensor a1
    a2 s).mem := by
  unfold stepSensor
  split
  · exact h
  · generalize roundSensor _ _ _ _ _ = o
    dsimp only
    have h1 : memGood (s.updSensor a1 fun _ => o.1).mem := by simpa using h
    generalize s.updSensor a1 (fun _ => o.1) = s1 at h1
    have h2 := ite_holds (fun t : State => memGood t.mem) (o.2.1 = true) (thermEvent 138 a1 s1) s1 (by simp -implicitDefEqProofs [h1]) h1
    change memGood (if o.2.1 = true then thermEvent 138 a1 s1 else s1).mem at h2
    generalize (if o.2.1 = true then thermEvent 138 a1 s1 else s1) = s2 at h2
    have h3 := ite_holds (fun t : State => memGood t.mem) (o.2.2.1 = true) (thermEvent 135 a1 { s2 with th := { s2.th with warncnt := satInc s2.th.warncnt } }) s2 (by simp -implicitDefEqProofs [h2]) h2
    change memGood (if o.2.2.1 = true then _ else s2).mem at h3
    generalize (if o.2.2.1 = true then _ else s2) = s3 at h3
    have h4 := ite_holds (fun t : State => memGood t.mem) (o.2.2.2.1 = true) (thermEvent 136 a1 { s3 with th := { s3.th with ratecnt := satInc s3.th.ratecnt } }) s3 (by simp -implicitDefEqProofs [h3]) h3
    change memGood (if o.2.2.2.1 = true then _ else s3).mem at h4
    generalize (if o.2.2.2.1 = true then _ else s3) = s4 at h4
    split
    · exact ite_holds (fun t : State => memGood t.mem) _ _ _ (by simp (maxDischargeDepth := 9) -implicitDefEqProofs [h4]) h4
    · exact h4

@[simp] theorem thermRecord_frame (s : State) : (thermRecord s).cc = s.cc ∧ (thermRecord s).dev = s.dev ∧
    (thermRecord s).cores = s.cores ∧ (thermRecord s).ports = s.ports ∧ (thermRecord s).led = s.led ∧
    (thermRecord s).tim = s.tim ∧ (thermRecord s).fd = s.fd ∧ (thermRecord s).stone = s.stone ∧ (thermRecord s).bt = s.bt ∧
    (thermRecord s).host = s.host ∧ (thermRecord s).freeCtr = s.freeCtr ∧ (thermRecord s).pending = s.pending := by
  unfold thermRecord; (try dsimp only); (repeat' split) <;> simp -implicitDefEqProofs

@[simp] theorem thermRecord_memGood (s : State) (h : memGood s.mem) : memGood (thermRecord s).mem := by
  unfold thermRecord; (try dsimp only); (repeat' split) <;> simp (maxDischargeDepth := 9) -implicitDefEqProofs [h]

@[simp] theorem releaseHold_frame (a1 : Port) (s : State) : (releaseHold a1 s).cc = s.cc ∧ (releaseHold a1 s).dev = s.dev ∧
    (releaseHold a1 s).tim = s.tim ∧ (releaseHold a1 s).fd = s.fd ∧ (releaseHold a1 s).th = s.th ∧
    (releaseHold a1 s).stone = s.stone ∧ (releaseHold a1 s).bt = s.bt ∧ (releaseHold a1 s).host = s.host ∧
    (releaseHold a1 s).freeCtr = s.freeCtr ∧ (releaseHold a1 s).pending = s.pending ∧
    (releaseHold a1 s).cores.map CoreSt.quiet = s.cores.map CoreSt.quiet := by
  unfold releaseHold; (try dsimp only); (repeat' split) <;> simp -implicitDefEqProofs

@[simp] theorem releaseHold_memGood (a1 : Port) (s : State) (h : memGood s.mem) : memGood (releaseHold a1 s).mem := by
  unfold releaseHold; (try dsimp only); (repeat' split) <;> simp (maxDischargeDepth := 9) -implicitDefEqProofs [h]

@[simp] theorem stoneEnd_frame (a1 : BitVec 4) (s : State) : (stoneEnd a1 s).cc = s.cc ∧ (stoneEnd a1 s).dev = s.dev ∧
    (stoneEnd a1 s).ports = s.ports ∧ (stoneEnd a1 s).led = s.led ∧ (stoneEnd a1 s).tim = s.tim ∧ (stoneEnd a1 s).fd = s.fd ∧
    (stoneEnd a1 s).th = s.th ∧ (stoneEnd a1 s).bt = s.bt ∧ (stoneEnd a1 s).host = s.host ∧ (stoneEnd a1 s).mem = s.mem ∧
    (stoneEnd a1 s).freeCtr = s.freeCtr ∧ (stoneEnd a1 s).pending = s.pending ∧
    (stoneEnd a1 s).cores.map CoreSt.quiet = s.cores.map CoreSt.quiet := by
  and_intros <;> simp -implicitDefEqProofs [stoneEnd]

@[simp] theorem stoneBusy_frame (a1 : BitVec 2) (s : State) : (stoneBusy a1 s).cc = s.cc ∧ (stoneBusy a1 s).dev = s.dev ∧
    (stoneBusy a1 s).ports = s.ports ∧ (stoneBusy a1 s).led = s.led ∧ (stoneBusy a1 s).tim = s.tim ∧
    (stoneBusy a1 s).fd = s.fd ∧ (stoneBusy a1 s).th = s.th ∧ (stoneBusy a1 s).bt = s.bt ∧ (stoneBusy a1 s).host = s.host ∧
    (stoneBusy a1 s).mem = s.mem ∧ (stoneBusy a1 s).freeCtr = s.freeCtr ∧ (stoneBusy a1 s).pending = s.pending ∧
    (stoneBusy a1 s).cores.map CoreSt.quiet = s.cores.map CoreSt.quiet := by
  and_intros <;> simp -implicitDefEqProofs [stoneBusy]

@[simp] theorem stoneRequest_frame (a1 : BitVec 2) (a2 : StoneOp) (s : State) : (stoneRequest a1 a2 s).cc = s.cc ∧
    (stoneRequest a1 a2 s).dev = s.dev ∧ (stoneRequest a1 a2 s).ports = s.ports ∧ (stoneRequest a1 a2 s).led = s.led ∧
    (stoneRequest a1 a2 s).tim = s.tim ∧ (stoneRequest a1 a2 s).fd = s.fd ∧ (stoneRequest a1 a2 s).th = s.th ∧
    (stoneRequest a1 a2 s).bt = s.bt ∧ (stoneRequest a1 a2 s).host = s.host ∧ (stoneRequest a1 a2 s).mem = s.mem ∧
    (stoneRequest a1 a2 s).freeCtr = s.freeCtr ∧ (stoneRequest a1 a2 s).pending = s.pending ∧
    (stoneRequest a1 a2 s).cores.map CoreSt.quiet = s.cores.map CoreSt.quiet := by
  unfold stoneRequest; (try dsimp only); (repeat' split) <;> simp -implicitDefEqProofs

@[simp] theorem failFuseBit_frame (a1 : Nat) (s : State) : (failFuseBit a1 s).cc = s.cc ∧ (failFuseBit a1 s).dev = s.dev ∧
    (failFuseBit a1 s).cores = s.cores ∧ (failFuseBit a1 s).ports = s.ports ∧ (failFuseBit a1 s).led = s.led ∧
    (failFuseBit a1 s).tim = s.tim ∧ (failFuseBit a1 s).fd = s.fd ∧ (failFuseBit a1 s).th = s.th ∧
    (failFuseBit a1 s).bt = s.bt ∧ (failFuseBit a1 s).host = s.host ∧ (failFuseBit a1 s).mem = s.mem ∧
    (failFuseBit a1 s).pending = s.pending := by
  and_intros <;> simp -implicitDefEqProofs [failFuseBit]

@[simp] theorem otpuPgm_frame (a1 : Word) (s : State) : (otpuPgm a1 s).cc = s.cc ∧ (otpuPgm a1 s).dev = s.dev ∧
    (otpuPgm a1 s).ports = s.ports ∧ (otpuPgm a1 s).led = s.led ∧ (otpuPgm a1 s).tim = s.tim ∧ (otpuPgm a1 s).fd = s.fd ∧
    (otpuPgm a1 s).th = s.th ∧ (otpuPgm a1 s).bt = s.bt ∧ (otpuPgm a1 s).host = s.host ∧ (otpuPgm a1 s).mem = s.mem ∧
    (otpuPgm a1 s).freeCtr = s.freeCtr ∧ (otpuPgm a1 s).pending = s.pending ∧
    (otpuPgm a1 s).cores.map CoreSt.quiet = s.cores.map CoreSt.quiet := by
  and_intros <;> simp -implicitDefEqProofs [otpuPgm]

@[simp] theorem otpuLock_frame (a1 : Word) (s : State) : (otpuLock a1 s).cc = s.cc ∧ (otpuLock a1 s).dev = s.dev ∧
    (otpuLock a1 s).ports = s.ports ∧ (otpuLock a1 s).led = s.led ∧ (otpuLock a1 s).tim = s.tim ∧ (otpuLock a1 s).fd = s.fd ∧
    (otpuLock a1 s).th = s.th ∧ (otpuLock a1 s).bt = s.bt ∧ (otpuLock a1 s).host = s.host ∧ (otpuLock a1 s).mem = s.mem ∧
    (otpuLock a1 s).freeCtr = s.freeCtr ∧ (otpuLock a1 s).pending = s.pending ∧
    (otpuLock a1 s).cores.map CoreSt.quiet = s.cores.map CoreSt.quiet := by
  and_intros <;> simp -implicitDefEqProofs [otpuLock]

@[simp] theorem gwWrite_frame (a1 : Port) (a2 : Nat) (a3 : Word) (s : State) : (gwWrite a1 a2 a3 s).cc = s.cc ∧
    (gwWrite a1 a2 a3 s).dev = s.dev ∧ (gwWrite a1 a2 a3 s).cores = s.cores ∧ (gwWrite a1 a2 a3 s).led = s.led ∧
    (gwWrite a1 a2 a3 s).tim = s.tim ∧ (gwWrite a1 a2 a3 s).fd = s.fd ∧ (gwWrite a1 a2 a3 s).th = s.th ∧
    (gwWrite a1 a2 a3 s).stone = s.stone ∧ (gwWrite a1 a2 a3 s).bt = s.bt ∧ (gwWrite a1 a2 a3 s).host = s.host ∧
    (gwWrite a1 a2 a3 s).mem = s.mem ∧ (gwWrite a1 a2 a3 s).freeCtr = s.freeCtr ∧
    (gwWrite a1 a2 a3 s).pending = s.pending := by
  and_intros <;> simp -implicitDefEqProofs [gwWrite]

@[simp] theorem writeY_frame (a1 : Nat) (a2 : List Byte) (s : State) : (writeY a1 a2 s).cc = s.cc ∧
    (writeY a1 a2 s).dev = s.dev ∧ (writeY a1 a2 s).cores = s.cores ∧ (writeY a1 a2 s).ports = s.ports ∧
    (writeY a1 a2 s).led = s.led ∧ (writeY a1 a2 s).tim = s.tim ∧ (writeY a1 a2 s).fd = s.fd ∧ (writeY a1 a2 s).th = s.th ∧
    (writeY a1 a2 s).stone = s.stone ∧ (writeY a1 a2 s).bt = s.bt ∧ (writeY a1 a2 s).host = s.host ∧
    (writeY a1 a2 s).freeCtr = s.freeCtr ∧ (writeY a1 a2 s).pending = s.pending := by
  induction a2 generalizing a1 s <;> (try unfold writeY) <;> (try dsimp only) <;> (repeat' split) <;> (first | (and_intros <;> rfl) | (and_intros <;> simp -implicitDefEqProofs [*, apply_ite State.cc, apply_ite State.dev, apply_ite State.cores, apply_ite State.ports, apply_ite State.led, apply_ite State.tim, apply_ite State.fd, apply_ite State.th, apply_ite State.stone, apply_ite State.bt, apply_ite State.host, apply_ite State.freeCtr, apply_ite State.pending]))

@[simp] theorem writeY_memGood (a1 : Nat) (a2 : List Byte) (s : State) (h : memGood s.mem) : memGood (writeY a1 a2 s).mem :=
    by
  revert h; induction a2 generalizing a1 s <;> intro h <;> (try unfold writeY) <;> (try dsimp only) <;> (repeat' split) <;> (first | exact h | (simp (maxDischargeDepth := 9) -implicitDefEqProofs [*]; done))

@[simp] theorem clearMem_frame (a1 : Nat) (a2 : Nat) (s : State) : (clearMem a1 a2 s).cc = s.cc ∧
    (clearMem a1 a2 s).dev = s.dev ∧ (clearMem a1 a2 s).cores = s.cores ∧ (clearMem a1 a2 s).ports = s.ports ∧
    (clearMem a1 a2 s).led = s.led ∧ (clearMem a1 a2 s).tim = s.tim ∧ (clearMem a1 a2 s).fd = s.fd ∧
    (clearMem a1 a2 s).th = s.th ∧ (clearMem a1 a2 s).stone = s.stone ∧ (clearMem a1 a2 s).bt = s.bt ∧
    (clearMem a1 a2 s).host = s.host ∧ (clearMem a1 a2 s).freeCtr = s.freeCtr ∧ (clearMem a1 a2 s).pending = s.pending := by
  and_intros <;> simp -implicitDefEqProofs [clearMem]

@[simp] theorem clearMem_memGood (a1 : Nat) (a2 : Nat) (s : State) (h : memGood s.mem) : memGood (clearMem a1 a2 s).mem := by
  simp (maxDischargeDepth := 9) -implicitDefEqProofs [clearMem, h]

@[simp] theorem loadGw_frame (a1 : Port) (a2 : Nat) (a3 : List Byte) (s : State) : (loadGw a1 a2 a3 s).cc = s.cc ∧
    (loadGw a1 a2 a3 s).dev = s.dev ∧ (loadGw a1 a2 a3 s).cores = s.cores ∧ (loadGw a1 a2 a3 s).led = s.led ∧
    (loadGw a1 a2 a3 s).tim = s.tim ∧ (loadGw a1 a2 a3 s).fd = s.fd ∧ (loadGw a1 a2 a3 s).th = s.th ∧
    (loadGw a1 a2 a3 s).stone = s.stone ∧ (loadGw a1 a2 a3 s).bt = s.bt ∧ (loadGw a1 a2 a3 s).host = s.host ∧
    (loadGw a1 a2 a3 s).mem = s.mem ∧ (loadGw a1 a2 a3 s).freeCtr = s.freeCtr ∧ (loadGw a1 a2 a3 s).pending = s.pending := by
  unfold loadGw; (try dsimp only); and_intros <;> (repeat' split) <;> simp -implicitDefEqProofs [foldl_cc, foldl_dev, foldl_cores, foldl_led, foldl_tim, foldl_fd, foldl_th, foldl_stone, foldl_bt, foldl_host, foldl_mem, foldl_freeCtr, foldl_pending]

@[simp] theorem loadSection_frame (a1 : Section_) (s : State) : (loadSection a1 s).cc = s.cc ∧
    (loadSection a1 s).dev = s.dev ∧ (loadSection a1 s).cores = s.cores ∧ (loadSection a1 s).led = s.led ∧
    (loadSection a1 s).tim = s.tim ∧ (loadSection a1 s).fd = s.fd ∧ (loadSection a1 s).th = s.th ∧
    (loadSection a1 s).stone = s.stone ∧ (loadSection a1 s).bt = s.bt ∧ (loadSection a1 s).host = s.host ∧
    (loadSection a1 s).freeCtr = s.freeCtr ∧ (loadSection a1 s).pending = s.pending := by
  unfold loadSection; (try dsimp only); (repeat' split) <;> simp -implicitDefEqProofs

@[simp] theorem loadSection_memGood (a1 : Section_) (s : State) (h : memGood s.mem) : memGood (loadSection a1 s).mem := by
  unfold loadSection; (try dsimp only); (repeat' split) <;> simp (maxDischargeDepth := 9) -implicitDefEqProofs [h]

@[simp] theorem loadSegs_frame (a1 : Core) (s : State) : (loadSegs a1 s).cc = s.cc ∧ (loadSegs a1 s).dev = s.dev ∧
    (loadSegs a1 s).ports = s.ports ∧ (loadSegs a1 s).led = s.led ∧ (loadSegs a1 s).tim = s.tim ∧ (loadSegs a1 s).fd = s.fd ∧
    (loadSegs a1 s).th = s.th ∧ (loadSegs a1 s).stone = s.stone ∧ (loadSegs a1 s).bt = s.bt ∧ (loadSegs a1 s).host = s.host ∧
    (loadSegs a1 s).mem = s.mem ∧ (loadSegs a1 s).freeCtr = s.freeCtr ∧ (loadSegs a1 s).pending = s.pending := by
  and_intros <;> simp -implicitDefEqProofs [loadSegs]

@[simp] theorem loadClaim_frame (a1 : Claim) (s : State) : (loadClaim a1 s).cc = s.cc ∧ (loadClaim a1 s).dev = s.dev ∧
    (loadClaim a1 s).cores = s.cores ∧ (loadClaim a1 s).led = s.led ∧ (loadClaim a1 s).fd = s.fd ∧
    (loadClaim a1 s).th = s.th ∧ (loadClaim a1 s).stone = s.stone ∧ (loadClaim a1 s).bt = s.bt ∧
    (loadClaim a1 s).host = s.host ∧ (loadClaim a1 s).mem = s.mem ∧ (loadClaim a1 s).freeCtr = s.freeCtr ∧
    (loadClaim a1 s).pending = s.pending := by
  unfold loadClaim; (try dsimp only); and_intros <;> (repeat' split) <;> simp -implicitDefEqProofs [apply_ite State.cc, apply_ite State.dev, apply_ite State.cores, apply_ite State.led, apply_ite State.fd, apply_ite State.th, apply_ite State.stone, apply_ite State.bt, apply_ite State.host, apply_ite State.mem, apply_ite State.freeCtr, apply_ite State.pending, foldl_cc, foldl_dev, foldl_cores, foldl_led, foldl_fd, foldl_th, foldl_stone, foldl_bt, foldl_host, foldl_mem, foldl_freeCtr, foldl_pending]

@[simp] theorem loadSet_frame (a1 : Nat) (a2 : List Img) (s : State) : (loadSet a1 a2 s).cc = s.cc ∧
    (loadSet a1 a2 s).dev = s.dev ∧ (loadSet a1 a2 s).led = s.led ∧ (loadSet a1 a2 s).fd = s.fd ∧
    (loadSet a1 a2 s).th = s.th ∧ (loadSet a1 a2 s).stone = s.stone ∧ (loadSet a1 a2 s).host = s.host ∧
    (loadSet a1 a2 s).freeCtr = s.freeCtr ∧ (loadSet a1 a2 s).pending = s.pending := by
  unfold loadSet; (try dsimp only); and_intros <;> (repeat' split) <;> simp -implicitDefEqProofs [foldl_cc, foldl_dev, foldl_led, foldl_fd, foldl_th, foldl_stone, foldl_host, foldl_freeCtr, foldl_pending]

@[simp] theorem loadSet_memGood (a1 : Nat) (a2 : List Img) (s : State) (h : memGood s.mem) : memGood (loadSet a1 a2 s).mem :=
    by
  unfold loadSet; (try dsimp only); (repeat' split) <;> simp (maxDischargeDepth := 9) -implicitDefEqProofs +contextual [h, foldl_memGood2]

@[simp] theorem greenCore_frame (a1 : Nat) (a2 : Img) (a3 : Core) (s : State) : (greenCore a1 a2 a3 s).cc = s.cc ∧
    (greenCore a1 a2 a3 s).dev = s.dev ∧ (greenCore a1 a2 a3 s).ports = s.ports ∧ (greenCore a1 a2 a3 s).led = s.led ∧
    (greenCore a1 a2 a3 s).tim = s.tim ∧ (greenCore a1 a2 a3 s).fd = s.fd ∧ (greenCore a1 a2 a3 s).th = s.th ∧
    (greenCore a1 a2 a3 s).stone = s.stone ∧ (greenCore a1 a2 a3 s).bt = s.bt ∧ (greenCore a1 a2 a3 s).host = s.host ∧
    (greenCore a1 a2 a3 s).freeCtr = s.freeCtr ∧ (greenCore a1 a2 a3 s).pending = s.pending := by
  and_intros <;> simp -implicitDefEqProofs [greenCore, apply_ite State.cc, apply_ite State.dev, apply_ite State.ports, apply_ite State.led, apply_ite State.tim, apply_ite State.fd, apply_ite State.th, apply_ite State.stone, apply_ite State.bt, apply_ite State.host, apply_ite State.freeCtr, apply_ite State.pending, foldl_cc, foldl_dev, foldl_ports, foldl_led, foldl_tim, foldl_fd, foldl_th, foldl_stone, foldl_bt, foldl_host, foldl_freeCtr, foldl_pending]

@[simp] theorem greenCore_memGood (a1 : Nat) (a2 : Img) (a3 : Core) (s : State) (h : memGood s.mem) : memGood (greenCore a1
    a2 a3 s).mem := by
  unfold greenCore; (try dsimp only); (repeat' split) <;> (first | (simp (maxDischargeDepth := 9) -implicitDefEqProofs [h]; done) | (apply foldl_memGood; (intro t x ht; (repeat' split) <;> (simp (maxDischargeDepth := 9) -implicitDefEqProofs [ht]; done)); simp (maxDischargeDepth := 9) -implicitDefEqProofs [h]))

@[simp] theorem greenPort_frame (a1 : Img) (a2 : Port) (s : State) : (greenPort a1 a2 s).cc = s.cc ∧
    (greenPort a1 a2 s).dev = s.dev ∧ (greenPort a1 a2 s).cores = s.cores ∧ (greenPort a1 a2 s).led = s.led ∧
    (greenPort a1 a2 s).tim = s.tim ∧ (greenPort a1 a2 s).fd = s.fd ∧ (greenPort a1 a2 s).th = s.th ∧
    (greenPort a1 a2 s).stone = s.stone ∧ (greenPort a1 a2 s).bt = s.bt ∧ (greenPort a1 a2 s).host = s.host ∧
    (greenPort a1 a2 s).freeCtr = s.freeCtr ∧ (greenPort a1 a2 s).pending = s.pending := by
  and_intros <;> simp -implicitDefEqProofs [greenPort, apply_ite State.cc, apply_ite State.dev, apply_ite State.cores, apply_ite State.led, apply_ite State.tim, apply_ite State.fd, apply_ite State.th, apply_ite State.stone, apply_ite State.bt, apply_ite State.host, apply_ite State.freeCtr, apply_ite State.pending, foldl_cc, foldl_dev, foldl_cores, foldl_led, foldl_tim, foldl_fd, foldl_th, foldl_stone, foldl_bt, foldl_host, foldl_freeCtr, foldl_pending]

@[simp] theorem greenPort_memGood (a1 : Img) (a2 : Port) (s : State) (h : memGood s.mem) : memGood (greenPort a1 a2 s).mem :=
    by
  unfold greenPort; (try dsimp only); (repeat' split) <;> (first | (simp (maxDischargeDepth := 9) -implicitDefEqProofs [h]; done) | (apply foldl_memGood; (intro t x ht; (repeat' split) <;> (simp (maxDischargeDepth := 9) -implicitDefEqProofs [ht]; done)); simp (maxDischargeDepth := 9) -implicitDefEqProofs [h]))

@[simp] theorem loadGreen_frame (a1 : Img) (a2 : Nat) (a3 : Byte) (s : State) : (loadGreen a1 a2 a3 s).cc = s.cc ∧
    (loadGreen a1 a2 a3 s).dev = s.dev ∧ (loadGreen a1 a2 a3 s).led = s.led ∧ (loadGreen a1 a2 a3 s).tim = s.tim ∧
    (loadGreen a1 a2 a3 s).fd = s.fd ∧ (loadGreen a1 a2 a3 s).th = s.th ∧ (loadGreen a1 a2 a3 s).stone = s.stone ∧
    (loadGreen a1 a2 a3 s).host = s.host ∧ (loadGreen a1 a2 a3 s).freeCtr = s.freeCtr ∧
    (loadGreen a1 a2 a3 s).pending = s.pending := by
  and_intros <;> simp -implicitDefEqProofs [loadGreen, apply_ite State.cc, apply_ite State.dev, apply_ite State.led, apply_ite State.tim, apply_ite State.fd, apply_ite State.th, apply_ite State.stone, apply_ite State.host, apply_ite State.freeCtr, apply_ite State.pending, foldl_cc, foldl_dev, foldl_led, foldl_tim, foldl_fd, foldl_th, foldl_stone, foldl_host, foldl_freeCtr, foldl_pending]

@[simp] theorem loadGreen_memGood (a1 : Img) (a2 : Nat) (a3 : Byte) (s : State) (h : memGood s.mem) : memGood (loadGreen a1
    a2 a3 s).mem := by
  unfold loadGreen; (try dsimp only); (repeat' split) <;> (first | (simp (maxDischargeDepth := 9) -implicitDefEqProofs [h]; done) | (apply foldl_memGood; (intro t x ht; (repeat' split) <;> (simp (maxDischargeDepth := 9) -implicitDefEqProofs [ht]; done)); simp (maxDischargeDepth := 9) -implicitDefEqProofs [h]))

@[simp] theorem imageEnd_frame (a1 : BitVec 4) (a2 : BitVec 4) (s : State) : (imageEnd a1 a2 s).cc = s.cc ∧
    (imageEnd a1 a2 s).dev = s.dev ∧ (imageEnd a1 a2 s).ports = s.ports ∧ (imageEnd a1 a2 s).led = s.led ∧
    (imageEnd a1 a2 s).tim = s.tim ∧ (imageEnd a1 a2 s).fd = s.fd ∧ (imageEnd a1 a2 s).th = s.th ∧
    (imageEnd a1 a2 s).stone = s.stone ∧ (imageEnd a1 a2 s).host = s.host ∧ (imageEnd a1 a2 s).mem = s.mem ∧
    (imageEnd a1 a2 s).freeCtr = s.freeCtr ∧ (imageEnd a1 a2 s).pending = s.pending ∧
    (imageEnd a1 a2 s).cores.map CoreSt.quiet = s.cores.map CoreSt.quiet := by
  and_intros <;> simp -implicitDefEqProofs [imageEnd]

@[simp] theorem imageRequest_frame (a1 : Bool) (a2 : ImageOp) (s : State) : (imageRequest a1 a2 s).cc = s.cc ∧
    (imageRequest a1 a2 s).dev = s.dev ∧ (imageRequest a1 a2 s).ports = s.ports ∧ (imageRequest a1 a2 s).led = s.led ∧
    (imageRequest a1 a2 s).tim = s.tim ∧ (imageRequest a1 a2 s).fd = s.fd ∧ (imageRequest a1 a2 s).th = s.th ∧
    (imageRequest a1 a2 s).stone = s.stone ∧ (imageRequest a1 a2 s).host = s.host ∧ (imageRequest a1 a2 s).mem = s.mem ∧
    (imageRequest a1 a2 s).freeCtr = s.freeCtr ∧ (imageRequest a1 a2 s).pending = s.pending ∧
    (imageRequest a1 a2 s).cores.map CoreSt.quiet = s.cores.map CoreSt.quiet := by
  unfold imageRequest; (try dsimp only); (repeat' split) <;> simp -implicitDefEqProofs

@[simp] theorem applyCust_frame (a1 : List FuseWord) (s : State) : (applyCust a1 s).cc = s.cc ∧
    (applyCust a1 s).dev = s.dev ∧ (applyCust a1 s).cores = s.cores ∧ (applyCust a1 s).ports = s.ports ∧
    (applyCust a1 s).led = s.led ∧ (applyCust a1 s).tim = s.tim ∧ (applyCust a1 s).th = s.th ∧
    (applyCust a1 s).stone = s.stone ∧ (applyCust a1 s).host = s.host ∧ (applyCust a1 s).mem = s.mem ∧
    (applyCust a1 s).freeCtr = s.freeCtr ∧ (applyCust a1 s).pending = s.pending := by
  unfold applyCust; (try dsimp only); (repeat' split) <;> simp -implicitDefEqProofs

@[simp] theorem stoneRead_frame (a1 : List StoneRead) (s : State) : (stoneRead a1 s).cc = s.cc ∧
    (stoneRead a1 s).dev = s.dev ∧ (stoneRead a1 s).cores = s.cores ∧ (stoneRead a1 s).ports = s.ports ∧
    (stoneRead a1 s).led = s.led ∧ (stoneRead a1 s).tim = s.tim ∧ (stoneRead a1 s).th = s.th ∧
    (stoneRead a1 s).host = s.host ∧ (stoneRead a1 s).mem = s.mem ∧ (stoneRead a1 s).freeCtr = s.freeCtr ∧
    (stoneRead a1 s).pending = s.pending := by
  and_intros <;> simp -implicitDefEqProofs [stoneRead]

@[simp] theorem coresAfterBoot_frame (a1 : CoreState) (a2 : Bool) (s : State) : (coresAfterBoot a1 a2 s).cc = s.cc ∧
    (coresAfterBoot a1 a2 s).dev = s.dev ∧ (coresAfterBoot a1 a2 s).ports = s.ports ∧ (coresAfterBoot a1 a2 s).led = s.led ∧
    (coresAfterBoot a1 a2 s).tim = s.tim ∧ (coresAfterBoot a1 a2 s).fd = s.fd ∧ (coresAfterBoot a1 a2 s).th = s.th ∧
    (coresAfterBoot a1 a2 s).stone = s.stone ∧ (coresAfterBoot a1 a2 s).bt = s.bt ∧ (coresAfterBoot a1 a2 s).host = s.host ∧
    (coresAfterBoot a1 a2 s).mem = s.mem ∧ (coresAfterBoot a1 a2 s).freeCtr = s.freeCtr ∧
    (coresAfterBoot a1 a2 s).pending = s.pending := by
  and_intros <;> simp -implicitDefEqProofs [coresAfterBoot, apply_ite State.cc, apply_ite State.dev, apply_ite State.ports, apply_ite State.led, apply_ite State.tim, apply_ite State.fd, apply_ite State.th, apply_ite State.stone, apply_ite State.bt, apply_ite State.host, apply_ite State.mem, apply_ite State.freeCtr, apply_ite State.pending, foldl_cc, foldl_dev, foldl_ports, foldl_led, foldl_tim, foldl_fd, foldl_th, foldl_stone, foldl_bt, foldl_host, foldl_mem, foldl_freeCtr, foldl_pending]

@[simp] theorem bootEvents_frame (s : State) : (bootEvents s).cc = s.cc ∧ (bootEvents s).dev = s.dev ∧
    (bootEvents s).ports = s.ports ∧ (bootEvents s).led = s.led ∧ (bootEvents s).tim = s.tim ∧ (bootEvents s).fd = s.fd ∧
    (bootEvents s).th = s.th ∧ (bootEvents s).stone = s.stone ∧ (bootEvents s).bt = s.bt ∧
    (bootEvents s).freeCtr = s.freeCtr ∧ (bootEvents s).pending = s.pending ∧
    (bootEvents s).cores.map CoreSt.quiet = s.cores.map CoreSt.quiet := by
  unfold bootEvents; (try dsimp only); (repeat' split) <;> simp -implicitDefEqProofs

@[simp] theorem bootEvents_memGood (s : State) (h : memGood s.mem) : memGood (bootEvents s).mem := by
  unfold bootEvents; (try dsimp only); (repeat' split) <;> simp (maxDischargeDepth := 9) -implicitDefEqProofs [h]

@[simp] theorem bootSlots_frame (s : State) : (bootSlots s).cc = s.cc ∧ (bootSlots s).led = s.led ∧ (bootSlots s).fd = s.fd ∧
    (bootSlots s).th = s.th ∧ (bootSlots s).stone = s.stone ∧ (bootSlots s).host = s.host ∧
    (bootSlots s).freeCtr = s.freeCtr ∧ (bootSlots s).pending = s.pending := by
  unfold bootSlots; (try dsimp only); (repeat' split) <;> simp -implicitDefEqProofs

@[simp] theorem bootSlots_memGood (s : State) (h : memGood s.mem) : memGood (bootSlots s).mem := by
  unfold bootSlots; (try dsimp only); (repeat' split) <;> simp (maxDischargeDepth := 9) -implicitDefEqProofs [h]

@[simp] theorem bootOutcome_frame (s : State) : (bootOutcome s).cc = s.cc ∧ (bootOutcome s).led = s.led ∧
    (bootOutcome s).fd = s.fd ∧ (bootOutcome s).th = s.th ∧ (bootOutcome s).host = s.host ∧
    (bootOutcome s).freeCtr = s.freeCtr ∧ (bootOutcome s).pending = s.pending := by
  unfold bootOutcome; (try dsimp only); (repeat' split) <;> simp -implicitDefEqProofs

@[simp] theorem bootOutcome_memGood (s : State) (h : memGood s.mem) : memGood (bootOutcome s).mem := by
  unfold bootOutcome; (try dsimp only); (repeat' split) <;> simp (maxDischargeDepth := 9) -implicitDefEqProofs [h]

@[simp] theorem ripenRefused_frame (a1 : Core) (a2 : BitVec 4) (s : State) : (ripenRefused a1 a2 s).cc = s.cc ∧
    (ripenRefused a1 a2 s).dev = s.dev ∧ (ripenRefused a1 a2 s).ports = s.ports ∧ (ripenRefused a1 a2 s).led = s.led ∧
    (ripenRefused a1 a2 s).tim = s.tim ∧ (ripenRefused a1 a2 s).fd = s.fd ∧ (ripenRefused a1 a2 s).th = s.th ∧
    (ripenRefused a1 a2 s).stone = s.stone ∧ (ripenRefused a1 a2 s).host = s.host ∧ (ripenRefused a1 a2 s).mem = s.mem ∧
    (ripenRefused a1 a2 s).freeCtr = s.freeCtr ∧ (ripenRefused a1 a2 s).pending = s.pending ∧
    (ripenRefused a1 a2 s).cores.map CoreSt.quiet = s.cores.map CoreSt.quiet := by
  and_intros <;> simp -implicitDefEqProofs [ripenRefused]

@[simp] theorem ripenCancel_frame (a1 : Core) (a2 : BitVec 4) (s : State) : (ripenCancel a1 a2 s).cc = s.cc ∧
    (ripenCancel a1 a2 s).dev = s.dev ∧ (ripenCancel a1 a2 s).ports = s.ports ∧ (ripenCancel a1 a2 s).led = s.led ∧
    (ripenCancel a1 a2 s).tim = s.tim ∧ (ripenCancel a1 a2 s).fd = s.fd ∧ (ripenCancel a1 a2 s).th = s.th ∧
    (ripenCancel a1 a2 s).stone = s.stone ∧ (ripenCancel a1 a2 s).host = s.host ∧ (ripenCancel a1 a2 s).mem = s.mem ∧
    (ripenCancel a1 a2 s).freeCtr = s.freeCtr ∧ (ripenCancel a1 a2 s).pending = s.pending := by
  and_intros <;> simp -implicitDefEqProofs [ripenCancel]

@[simp] theorem leTrapPort_frame (a1 : Port) (s : State) : (leTrapPort a1 s).cc = s.cc ∧ (leTrapPort a1 s).dev = s.dev ∧
    (leTrapPort a1 s).led = s.led ∧ (leTrapPort a1 s).tim = s.tim ∧ (leTrapPort a1 s).fd = s.fd ∧
    (leTrapPort a1 s).th = s.th ∧ (leTrapPort a1 s).stone = s.stone ∧ (leTrapPort a1 s).bt = s.bt ∧
    (leTrapPort a1 s).host = s.host ∧ (leTrapPort a1 s).mem = s.mem ∧ (leTrapPort a1 s).freeCtr = s.freeCtr ∧
    (leTrapPort a1 s).pending = s.pending ∧ (leTrapPort a1 s).cores.map CoreSt.quiet = s.cores.map CoreSt.quiet := by
  unfold leTrapPort; (try dsimp only); (repeat' split) <;> simp -implicitDefEqProofs

@[simp] theorem leTrapFeed_frame (s : State) : (leTrapFeed s).cc = s.cc ∧ (leTrapFeed s).dev = s.dev ∧
    (leTrapFeed s).tim = s.tim ∧ (leTrapFeed s).th = s.th ∧ (leTrapFeed s).stone = s.stone ∧ (leTrapFeed s).bt = s.bt ∧
    (leTrapFeed s).host = s.host ∧ (leTrapFeed s).pending = s.pending ∧
    (leTrapFeed s).cores.map CoreSt.quiet = s.cores.map CoreSt.quiet := by
  unfold leTrapFeed; (try dsimp only); (repeat' split) <;> simp -implicitDefEqProofs

@[simp] theorem leTrapFeed_memGood (s : State) (h : memGood s.mem) : memGood (leTrapFeed s).mem := by
  unfold leTrapFeed; (try dsimp only); (repeat' split) <;> simp (maxDischargeDepth := 9) -implicitDefEqProofs [h]

@[simp] theorem pcTrapPort_frame (a1 : Port) (s : State) : (pcTrapPort a1 s).cc = s.cc ∧ (pcTrapPort a1 s).dev = s.dev ∧
    (pcTrapPort a1 s).led = s.led ∧ (pcTrapPort a1 s).tim = s.tim ∧ (pcTrapPort a1 s).fd = s.fd ∧
    (pcTrapPort a1 s).th = s.th ∧ (pcTrapPort a1 s).stone = s.stone ∧ (pcTrapPort a1 s).bt = s.bt ∧
    (pcTrapPort a1 s).host = s.host ∧ (pcTrapPort a1 s).mem = s.mem ∧ (pcTrapPort a1 s).freeCtr = s.freeCtr ∧
    (pcTrapPort a1 s).pending = s.pending ∧ (pcTrapPort a1 s).cores.map CoreSt.quiet = s.cores.map CoreSt.quiet := by
  unfold pcTrapPort; (try dsimp only); (repeat' split) <;> simp -implicitDefEqProofs

@[simp] theorem trapEffect_frame (a1 : Core) (s : State) : (trapEffect a1 s).cc = s.cc ∧ (trapEffect a1 s).dev = s.dev ∧
    (trapEffect a1 s).tim = s.tim ∧ (trapEffect a1 s).th = s.th ∧ (trapEffect a1 s).stone = s.stone ∧
    (trapEffect a1 s).bt = s.bt ∧ (trapEffect a1 s).host = s.host ∧ (trapEffect a1 s).pending = s.pending ∧
    (trapEffect a1 s).cores.map CoreSt.quiet = s.cores.map CoreSt.quiet := by
  and_intros <;> simp -implicitDefEqProofs [trapEffect, apply_ite State.cc, apply_ite State.dev, apply_ite State.tim, apply_ite State.th, apply_ite State.stone, apply_ite State.bt, apply_ite State.host, apply_ite State.pending, apply_ite State.cores, apply_ite (Vector.map CoreSt.quiet), updCore_quiet, CoreSt.quiet, foldl_cc, foldl_dev, foldl_tim, foldl_th, foldl_stone, foldl_bt, foldl_host, foldl_pending, foldl_quiet]

@[simp] theorem trapEffect_memGood (a1 : Core) (s : State) (h : memGood s.mem) : memGood (trapEffect a1 s).mem := by
  unfold trapEffect; (try dsimp only); (repeat' split) <;> (first | (simp (maxDischargeDepth := 9) -implicitDefEqProofs [h]; done) | (apply foldl_memGood; (intro t x ht; (repeat' split) <;> (simp (maxDischargeDepth := 9) -implicitDefEqProofs [ht]; done)); simp (maxDischargeDepth := 9) -implicitDefEqProofs [h]))

@[simp] theorem trapCore_frame (a1 : Core) (a2 : TrapInfo) (s : State) : (trapCore a1 a2 s).pending = s.pending := by
  unfold trapCore; (try dsimp only); (repeat' split) <;> simp -implicitDefEqProofs

@[simp] theorem trapCore_memGood (a1 : Core) (a2 : TrapInfo) (s : State) (h : memGood s.mem) : memGood (trapCore a1 a2 s).mem
    := by
  unfold trapCore; (try dsimp only); (repeat' split) <;> simp (maxDischargeDepth := 9) -implicitDefEqProofs [h]

@[simp] theorem dropContract_frame (a1 : Port) (s : State) : (dropContract a1 s).cc = s.cc ∧
    (dropContract a1 s).dev = s.dev ∧ (dropContract a1 s).tim = s.tim ∧ (dropContract a1 s).fd = s.fd ∧
    (dropContract a1 s).th = s.th ∧ (dropContract a1 s).stone = s.stone ∧ (dropContract a1 s).bt = s.bt ∧
    (dropContract a1 s).host = s.host ∧ (dropContract a1 s).freeCtr = s.freeCtr ∧ (dropContract a1 s).pending = s.pending ∧
    (dropContract a1 s).cores.map CoreSt.quiet = s.cores.map CoreSt.quiet := by
  unfold dropContract; (try dsimp only); (repeat' split) <;> simp -implicitDefEqProofs

@[simp] theorem dropContract_memGood (a1 : Port) (s : State) (h : memGood s.mem) : memGood (dropContract a1 s).mem := by
  unfold dropContract; (try dsimp only); (repeat' split) <;> simp (maxDischargeDepth := 9) -implicitDefEqProofs [h]

@[simp] theorem restartCore_frame (a1 : Core) (s : State) : (restartCore a1 s).cc = s.cc ∧ (restartCore a1 s).dev = s.dev ∧
    (restartCore a1 s).tim = s.tim ∧ (restartCore a1 s).fd = s.fd ∧ (restartCore a1 s).th = s.th ∧
    (restartCore a1 s).stone = s.stone ∧ (restartCore a1 s).bt = s.bt ∧ (restartCore a1 s).host = s.host ∧
    (restartCore a1 s).freeCtr = s.freeCtr ∧ (restartCore a1 s).pending = s.pending := by
  and_intros <;> simp -implicitDefEqProofs [restartCore, apply_ite State.cc, apply_ite State.dev, apply_ite State.tim, apply_ite State.fd, apply_ite State.th, apply_ite State.stone, apply_ite State.bt, apply_ite State.host, apply_ite State.freeCtr, apply_ite State.pending, foldl_cc, foldl_dev, foldl_tim, foldl_fd, foldl_th, foldl_stone, foldl_bt, foldl_host, foldl_freeCtr, foldl_pending]

@[simp] theorem restartCore_memGood (a1 : Core) (s : State) (h : memGood s.mem) : memGood (restartCore a1 s).mem := by
  unfold restartCore; (try dsimp only); (repeat' split) <;> (first | (simp (maxDischargeDepth := 9) -implicitDefEqProofs [h]; done) | (apply foldl_memGood; (intro t x ht; (repeat' split) <;> (simp (maxDischargeDepth := 9) -implicitDefEqProofs [ht]; done)); simp (maxDischargeDepth := 9) -implicitDefEqProofs [h]))

@[simp] theorem restartBit_frame (a1 : Core) (s : State) : (restartBit a1 s).cc = s.cc ∧ (restartBit a1 s).dev = s.dev ∧
    (restartBit a1 s).tim = s.tim ∧ (restartBit a1 s).fd = s.fd ∧ (restartBit a1 s).th = s.th ∧
    (restartBit a1 s).stone = s.stone ∧ (restartBit a1 s).bt = s.bt ∧ (restartBit a1 s).host = s.host ∧
    (restartBit a1 s).freeCtr = s.freeCtr ∧ (restartBit a1 s).pending = s.pending := by
  unfold restartBit; (try dsimp only); (repeat' split) <;> simp -implicitDefEqProofs

@[simp] theorem restartBit_memGood (a1 : Core) (s : State) (h : memGood s.mem) : memGood (restartBit a1 s).mem := by
  unfold restartBit; (try dsimp only); (repeat' split) <;> simp (maxDischargeDepth := 9) -implicitDefEqProofs [h]

@[simp] theorem setripRequest_frame (a1 : Port) (s : State) : (setripRequest a1 s).cc = s.cc ∧
    (setripRequest a1 s).dev = s.dev ∧ (setripRequest a1 s).led = s.led ∧ (setripRequest a1 s).tim = s.tim ∧
    (setripRequest a1 s).fd = s.fd ∧ (setripRequest a1 s).th = s.th ∧ (setripRequest a1 s).stone = s.stone ∧
    (setripRequest a1 s).bt = s.bt ∧ (setripRequest a1 s).host = s.host ∧ (setripRequest a1 s).mem = s.mem ∧
    (setripRequest a1 s).freeCtr = s.freeCtr ∧ (setripRequest a1 s).pending = s.pending ∧
    (setripRequest a1 s).cores.map CoreSt.quiet = s.cores.map CoreSt.quiet := by
  unfold setripRequest; (try dsimp only); (repeat' split) <;> simp -implicitDefEqProofs

@[simp] theorem noteRipened_frame (a1 : ImageMeta) (s : State) : (noteRipened a1 s).cc = s.cc ∧
    (noteRipened a1 s).dev = s.dev ∧ (noteRipened a1 s).cores = s.cores ∧ (noteRipened a1 s).ports = s.ports ∧
    (noteRipened a1 s).led = s.led ∧ (noteRipened a1 s).tim = s.tim ∧ (noteRipened a1 s).fd = s.fd ∧
    (noteRipened a1 s).th = s.th ∧ (noteRipened a1 s).stone = s.stone ∧ (noteRipened a1 s).host = s.host ∧
    (noteRipened a1 s).mem = s.mem ∧ (noteRipened a1 s).freeCtr = s.freeCtr ∧ (noteRipened a1 s).pending = s.pending := by
  unfold noteRipened; (try dsimp only); (repeat' split) <;> simp -implicitDefEqProofs

@[simp] theorem portExchange_frame (a1 : Port) (s : State) : (portExchange a1 s).cc = s.cc ∧
    (portExchange a1 s).dev = s.dev ∧ (portExchange a1 s).tim = s.tim ∧ (portExchange a1 s).th = s.th ∧
    (portExchange a1 s).stone = s.stone ∧ (portExchange a1 s).host = s.host ∧ (portExchange a1 s).freeCtr = s.freeCtr ∧
    (portExchange a1 s).pending = s.pending ∧ (portExchange a1 s).cores.map CoreSt.quiet = s.cores.map CoreSt.quiet := by
  unfold portExchange; (try dsimp only); (repeat' split) <;> simp -implicitDefEqProofs

@[simp] theorem portExchange_memGood (a1 : Port) (s : State) (h : memGood s.mem) : memGood (portExchange a1 s).mem := by
  unfold portExchange; (try dsimp only); (repeat' split) <;> simp (maxDischargeDepth := 9) -implicitDefEqProofs [h]

@[simp] theorem dropClaim_frame (a1 : Claim) (s : State) : (dropClaim a1 s).cc = s.cc ∧ (dropClaim a1 s).dev = s.dev ∧
    (dropClaim a1 s).cores = s.cores ∧ (dropClaim a1 s).led = s.led ∧ (dropClaim a1 s).fd = s.fd ∧
    (dropClaim a1 s).th = s.th ∧ (dropClaim a1 s).stone = s.stone ∧ (dropClaim a1 s).bt = s.bt ∧
    (dropClaim a1 s).host = s.host ∧ (dropClaim a1 s).mem = s.mem ∧ (dropClaim a1 s).freeCtr = s.freeCtr ∧
    (dropClaim a1 s).pending = s.pending := by
  unfold dropClaim; (try dsimp only); (repeat' split) <;> simp -implicitDefEqProofs

@[simp] theorem bankExchange_frame (a1 : Core) (s : State) : (bankExchange a1 s).cc = s.cc ∧
    (bankExchange a1 s).dev = s.dev ∧ (bankExchange a1 s).led = s.led ∧ (bankExchange a1 s).fd = s.fd ∧
    (bankExchange a1 s).th = s.th ∧ (bankExchange a1 s).stone = s.stone ∧ (bankExchange a1 s).host = s.host ∧
    (bankExchange a1 s).mem = s.mem ∧ (bankExchange a1 s).freeCtr = s.freeCtr ∧ (bankExchange a1 s).pending = s.pending := by
  unfold bankExchange; (try dsimp only); and_intros <;> (repeat' split) <;> simp -implicitDefEqProofs [foldl_cc, foldl_dev, foldl_led, foldl_fd, foldl_th, foldl_stone, foldl_host, foldl_mem, foldl_freeCtr, foldl_pending]

@[simp] theorem ripreqRequest_frame (a1 : Core) (s : State) : (ripreqRequest a1 s).cc = s.cc ∧
    (ripreqRequest a1 s).dev = s.dev ∧ (ripreqRequest a1 s).led = s.led ∧ (ripreqRequest a1 s).fd = s.fd ∧
    (ripreqRequest a1 s).th = s.th ∧ (ripreqRequest a1 s).stone = s.stone ∧ (ripreqRequest a1 s).host = s.host ∧
    (ripreqRequest a1 s).mem = s.mem ∧ (ripreqRequest a1 s).freeCtr = s.freeCtr ∧
    (ripreqRequest a1 s).pending = s.pending := by
  unfold ripreqRequest; (try dsimp only); (repeat' split) <;> simp -implicitDefEqProofs

@[simp] theorem lineDisable_frame (a1 : Port) (s : State) : (lineDisable a1 s).cc = s.cc ∧ (lineDisable a1 s).dev = s.dev ∧
    (lineDisable a1 s).cores = s.cores ∧ (lineDisable a1 s).led = s.led ∧ (lineDisable a1 s).tim = s.tim ∧
    (lineDisable a1 s).fd = s.fd ∧ (lineDisable a1 s).th = s.th ∧ (lineDisable a1 s).stone = s.stone ∧
    (lineDisable a1 s).bt = s.bt ∧ (lineDisable a1 s).host = s.host ∧ (lineDisable a1 s).freeCtr = s.freeCtr ∧
    (lineDisable a1 s).pending = s.pending := by
  unfold lineDisable; (try dsimp only); (repeat' split) <;> simp -implicitDefEqProofs

@[simp] theorem lineDisable_memGood (a1 : Port) (s : State) (h : memGood s.mem) : memGood (lineDisable a1 s).mem := by
  unfold lineDisable; (try dsimp only); (repeat' split) <;> simp (maxDischargeDepth := 9) -implicitDefEqProofs [h]

@[simp] theorem linectlWrite_frame (a1 : Port) (a2 : Word) (s : State) : (linectlWrite a1 a2 s).cc = s.cc ∧
    (linectlWrite a1 a2 s).dev = s.dev ∧ (linectlWrite a1 a2 s).cores = s.cores ∧ (linectlWrite a1 a2 s).led = s.led ∧
    (linectlWrite a1 a2 s).tim = s.tim ∧ (linectlWrite a1 a2 s).fd = s.fd ∧ (linectlWrite a1 a2 s).th = s.th ∧
    (linectlWrite a1 a2 s).stone = s.stone ∧ (linectlWrite a1 a2 s).bt = s.bt ∧ (linectlWrite a1 a2 s).host = s.host ∧
    (linectlWrite a1 a2 s).freeCtr = s.freeCtr ∧ (linectlWrite a1 a2 s).pending = s.pending := by
  unfold linectlWrite; (try dsimp only); (repeat' split) <;> simp -implicitDefEqProofs

@[simp] theorem linectlWrite_memGood (a1 : Port) (a2 : Word) (s : State) (h : memGood s.mem) : memGood (linectlWrite a1 a2
    s).mem := by
  unfold linectlWrite; (try dsimp only); (repeat' split) <;> simp (maxDischargeDepth := 9) -implicitDefEqProofs [h]

@[simp] theorem swctlWrite_frame (a1 : Port) (a2 : Word) (s : State) : (swctlWrite a1 a2 s).cc = s.cc ∧
    (swctlWrite a1 a2 s).dev = s.dev ∧ (swctlWrite a1 a2 s).tim = s.tim ∧ (swctlWrite a1 a2 s).th = s.th ∧
    (swctlWrite a1 a2 s).stone = s.stone ∧ (swctlWrite a1 a2 s).bt = s.bt ∧ (swctlWrite a1 a2 s).host = s.host ∧
    (swctlWrite a1 a2 s).mem = s.mem ∧ (swctlWrite a1 a2 s).freeCtr = s.freeCtr ∧ (swctlWrite a1 a2 s).pending = s.pending ∧
    (swctlWrite a1 a2 s).cores.map CoreSt.quiet = s.cores.map CoreSt.quiet := by
  unfold swctlWrite; (try dsimp only); (repeat' split) <;> simp -implicitDefEqProofs

@[simp] theorem portWrite_frame (a1 : Port) (a2 : Nat) (a3 : Word) (s : State) : (portWrite a1 a2 a3 s).cc = s.cc ∧
    (portWrite a1 a2 a3 s).dev = s.dev ∧ (portWrite a1 a2 a3 s).th = s.th ∧ (portWrite a1 a2 a3 s).stone = s.stone ∧
    (portWrite a1 a2 a3 s).bt = s.bt ∧ (portWrite a1 a2 a3 s).host = s.host ∧ (portWrite a1 a2 a3 s).freeCtr = s.freeCtr ∧
    (portWrite a1 a2 a3 s).pending = s.pending ∧
    (portWrite a1 a2 a3 s).cores.map CoreSt.quiet = s.cores.map CoreSt.quiet := by
  unfold portWrite; (try dsimp only); (repeat' split) <;> simp -implicitDefEqProofs

@[simp] theorem portWrite_memGood (a1 : Port) (a2 : Nat) (a3 : Word) (s : State) (h : memGood s.mem) : memGood (portWrite a1
    a2 a3 s).mem := by
  unfold portWrite; (try dsimp only); (repeat' split) <;> simp (maxDischargeDepth := 9) -implicitDefEqProofs [h]

@[simp] theorem coresWrite_frame (a1 : Nat) (a2 : Word) (s : State) : (coresWrite a1 a2 s).cc = s.cc ∧
    (coresWrite a1 a2 s).dev = s.dev ∧ (coresWrite a1 a2 s).tim = s.tim ∧ (coresWrite a1 a2 s).fd = s.fd ∧
    (coresWrite a1 a2 s).th = s.th ∧ (coresWrite a1 a2 s).stone = s.stone ∧ (coresWrite a1 a2 s).bt = s.bt ∧
    (coresWrite a1 a2 s).host = s.host ∧ (coresWrite a1 a2 s).freeCtr = s.freeCtr ∧
    (coresWrite a1 a2 s).pending = s.pending := by
  unfold coresWrite; (try dsimp only); and_intros <;> (repeat' split) <;> simp -implicitDefEqProofs [foldl_cc, foldl_dev, foldl_tim, foldl_fd, foldl_th, foldl_stone, foldl_bt, foldl_host, foldl_freeCtr, foldl_pending]

@[simp] theorem coresWrite_memGood (a1 : Nat) (a2 : Word) (s : State) (h : memGood s.mem) : memGood (coresWrite a1 a2 s).mem
    := by
  unfold coresWrite; (try dsimp only); (repeat' split) <;> (first | (simp (maxDischargeDepth := 9) -implicitDefEqProofs [h]; done) | (apply foldl_memGood; (intro t x ht; (repeat' split) <;> (simp (maxDischargeDepth := 9) -implicitDefEqProofs [ht]; done)); simp (maxDischargeDepth := 9) -implicitDefEqProofs [h]))

@[simp] theorem timerPageWrite_frame (a1 : Nat) (a2 : Word) (s : State) : (timerPageWrite a1 a2 s).cc = s.cc ∧
    (timerPageWrite a1 a2 s).dev = s.dev ∧ (timerPageWrite a1 a2 s).cores = s.cores ∧
    (timerPageWrite a1 a2 s).ports = s.ports ∧ (timerPageWrite a1 a2 s).led = s.led ∧ (timerPageWrite a1 a2 s).fd = s.fd ∧
    (timerPageWrite a1 a2 s).th = s.th ∧ (timerPageWrite a1 a2 s).stone = s.stone ∧ (timerPageWrite a1 a2 s).bt = s.bt ∧
    (timerPageWrite a1 a2 s).host = s.host ∧ (timerPageWrite a1 a2 s).mem = s.mem ∧
    (timerPageWrite a1 a2 s).freeCtr = s.freeCtr ∧ (timerPageWrite a1 a2 s).pending = s.pending := by
  unfold timerPageWrite; (try dsimp only); (repeat' split) <;> simp -implicitDefEqProofs

@[simp] theorem feedWrite_frame (a1 : Nat) (a2 : Word) (s : State) : (feedWrite a1 a2 s).cc = s.cc ∧
    (feedWrite a1 a2 s).dev = s.dev ∧ (feedWrite a1 a2 s).tim = s.tim ∧ (feedWrite a1 a2 s).th = s.th ∧
    (feedWrite a1 a2 s).stone = s.stone ∧ (feedWrite a1 a2 s).bt = s.bt ∧ (feedWrite a1 a2 s).host = s.host ∧
    (feedWrite a1 a2 s).freeCtr = s.freeCtr ∧ (feedWrite a1 a2 s).pending = s.pending ∧
    (feedWrite a1 a2 s).cores.map CoreSt.quiet = s.cores.map CoreSt.quiet := by
  unfold feedWrite; (try dsimp only); (repeat' split) <;> simp -implicitDefEqProofs

@[simp] theorem feedWrite_memGood (a1 : Nat) (a2 : Word) (s : State) (h : memGood s.mem) : memGood (feedWrite a1 a2 s).mem :=
    by
  unfold feedWrite; (try dsimp only); (repeat' split) <;> simp (maxDischargeDepth := 9) -implicitDefEqProofs [h]

@[simp] theorem busWrite_frame (a1 : Nat) (a2 : Word) (s : State) : (busWrite a1 a2 s).cc = s.cc ∧
    (busWrite a1 a2 s).dev = s.dev ∧ (busWrite a1 a2 s).cores = s.cores ∧ (busWrite a1 a2 s).ports = s.ports ∧
    (busWrite a1 a2 s).led = s.led ∧ (busWrite a1 a2 s).tim = s.tim ∧ (busWrite a1 a2 s).fd = s.fd ∧
    (busWrite a1 a2 s).th = s.th ∧ (busWrite a1 a2 s).stone = s.stone ∧ (busWrite a1 a2 s).bt = s.bt ∧
    (busWrite a1 a2 s).mem = s.mem ∧ (busWrite a1 a2 s).freeCtr = s.freeCtr ∧ (busWrite a1 a2 s).pending = s.pending := by
  and_intros <;> simp -implicitDefEqProofs [busWrite]

@[simp] theorem globalWrite_frame (a1 : Nat) (a2 : Word) (s : State) : (globalWrite a1 a2 s).cc = s.cc ∧
    (globalWrite a1 a2 s).dev = s.dev ∧ (globalWrite a1 a2 s).freeCtr = s.freeCtr ∧
    (globalWrite a1 a2 s).pending = s.pending := by
  unfold globalWrite; (try dsimp only); and_intros <;> (repeat' split) <;> simp -implicitDefEqProofs [foldl_cc, foldl_dev, foldl_freeCtr, foldl_pending]

@[simp] theorem globalWrite_memGood (a1 : Nat) (a2 : Word) (s : State) (h : memGood s.mem) : memGood (globalWrite a1 a2
    s).mem := by
  unfold globalWrite; (try dsimp only); (repeat' split) <;> (first | (simp (maxDischargeDepth := 9) -implicitDefEqProofs [h]; done) | (apply foldl_memGood; (intro t x ht; (repeat' split) <;> (simp (maxDischargeDepth := 9) -implicitDefEqProofs [ht]; done)); simp (maxDischargeDepth := 9) -implicitDefEqProofs [h]))

@[simp] theorem placeWrite_frame (a1 : RegPlace) (a2 : Word) (s : State) : (placeWrite a1 a2 s).cc = s.cc ∧
    (placeWrite a1 a2 s).dev = s.dev ∧ (placeWrite a1 a2 s).freeCtr = s.freeCtr ∧
    (placeWrite a1 a2 s).pending = s.pending := by
  unfold placeWrite; (try dsimp only); (repeat' split) <;> simp -implicitDefEqProofs

@[simp] theorem placeWrite_memGood (a1 : RegPlace) (a2 : Word) (s : State) (h : memGood s.mem) : memGood (placeWrite a1 a2
    s).mem := by
  unfold placeWrite; (try dsimp only); (repeat' split) <;> simp (maxDischargeDepth := 9) -implicitDefEqProofs [h]

@[simp] theorem regStore_frame (a1 : Writer) (a2 : Nat) (a3 : Word) (s : State) : (regStore a1 a2 a3 s).cc = s.cc ∧
    (regStore a1 a2 a3 s).dev = s.dev ∧ (regStore a1 a2 a3 s).freeCtr = s.freeCtr ∧
    (regStore a1 a2 a3 s).pending = s.pending := by
  unfold regStore; (try dsimp only); (repeat' split) <;> simp -implicitDefEqProofs

@[simp] theorem regStore_memGood (a1 : Writer) (a2 : Nat) (a3 : Word) (s : State) (h : memGood s.mem) : memGood (regStore a1
    a2 a3 s).mem := by
  unfold regStore; (try dsimp only); (repeat' split) <;> simp (maxDischargeDepth := 9) -implicitDefEqProofs [h]

@[simp] theorem sramStore_frame (a1 : Nat) (a2 : List Byte) (s : State) : (sramStore a1 a2 s).cc = s.cc ∧
    (sramStore a1 a2 s).dev = s.dev ∧ (sramStore a1 a2 s).ports = s.ports ∧ (sramStore a1 a2 s).led = s.led ∧
    (sramStore a1 a2 s).tim = s.tim ∧ (sramStore a1 a2 s).fd = s.fd ∧ (sramStore a1 a2 s).th = s.th ∧
    (sramStore a1 a2 s).stone = s.stone ∧ (sramStore a1 a2 s).bt = s.bt ∧ (sramStore a1 a2 s).host = s.host ∧
    (sramStore a1 a2 s).freeCtr = s.freeCtr ∧ (sramStore a1 a2 s).pending = s.pending ∧
    (sramStore a1 a2 s).cores.map CoreSt.quiet = s.cores.map CoreSt.quiet := by
  unfold sramStore; (try dsimp only); (repeat' split) <;> simp -implicitDefEqProofs

@[simp] theorem sramStore_memGood (a1 : Nat) (a2 : List Byte) (s : State) (h : memGood s.mem) : memGood (sramStore a1 a2
    s).mem := by
  unfold sramStore; (try dsimp only); (repeat' split) <;> simp (maxDischargeDepth := 9) -implicitDefEqProofs [h]

@[simp] theorem imemStore_frame (a1 : Nat) (a2 : List Byte) (a3 : Core) (s : State) : (imemStore a1 a2 a3 s).cc = s.cc ∧
    (imemStore a1 a2 a3 s).dev = s.dev ∧ (imemStore a1 a2 a3 s).ports = s.ports ∧ (imemStore a1 a2 a3 s).led = s.led ∧
    (imemStore a1 a2 a3 s).tim = s.tim ∧ (imemStore a1 a2 a3 s).fd = s.fd ∧ (imemStore a1 a2 a3 s).th = s.th ∧
    (imemStore a1 a2 a3 s).stone = s.stone ∧ (imemStore a1 a2 a3 s).bt = s.bt ∧ (imemStore a1 a2 a3 s).host = s.host ∧
    (imemStore a1 a2 a3 s).freeCtr = s.freeCtr ∧ (imemStore a1 a2 a3 s).pending = s.pending := by
  and_intros <;> simp -implicitDefEqProofs [imemStore]

@[simp] theorem imemStore_memGood (a1 : Nat) (a2 : List Byte) (a3 : Core) (s : State) (h : memGood s.mem) : memGood
    (imemStore a1 a2 a3 s).mem := by
  simp (maxDischargeDepth := 9) -implicitDefEqProofs [imemStore, h]

@[simp] theorem storePerform_frame (a1 : Core) (a2 : AccessKind) (a3 : Nat) (a4 : Word) (a5 : Byte) (s : State) :
    (storePerform a1 a2 a3 a4 a5 s).cc = s.cc ∧ (storePerform a1 a2 a3 a4 a5 s).dev = s.dev ∧
    (storePerform a1 a2 a3 a4 a5 s).freeCtr = s.freeCtr ∧ (storePerform a1 a2 a3 a4 a5 s).pending = s.pending := by
  unfold storePerform; (try dsimp only); (repeat' split) <;> simp -implicitDefEqProofs

@[simp] theorem storePerform_memGood (a1 : Core) (a2 : AccessKind) (a3 : Nat) (a4 : Word) (a5 : Byte) (s : State) (h :
    memGood s.mem) : memGood (storePerform a1 a2 a3 a4 a5 s).mem := by
  unfold storePerform; (try dsimp only); (repeat' split) <;> simp (maxDischargeDepth := 9) -implicitDefEqProofs [h]

@[simp] theorem msgCopy_memGood' (a1 : Fin 32) (a2 : Word) (a3 : Bool) (s : State) (h : memGood s.mem) : memGood (msgCopy a1
    a2 a3 s).1.mem := by
  unfold msgCopy; dsimp only; (repeat' split) <;> simp -implicitDefEqProofs [h]

@[simp] theorem msgFinish_memGood (a1 : Core) (s : State) (h : memGood s.mem) : memGood (msgFinish a1 s).mem := by
  unfold msgFinish; split
  · exact h
  · dsimp only; split <;> simp -implicitDefEqProofs [h]

theorem msgCopy_get {β : Type} (g : State → β) (hw : ∀ s a b, g (State.writeMem s a b) = g s) (hp : ∀ n s, g (popRx n s) = g
    s) (r : Fin 32) (a : Word)
    (p : Bool) (s : State) : g (msgCopy r a p s).1 = g s := by
  unfold msgCopy; dsimp only; (repeat' split) <;> simp [hw, hp]

theorem msgFinish_get {β : Type} (g : State → β) (hw : ∀ s a b, g (State.writeMem s a b) = g s) (hp : ∀ n s, g (popRx n s) =
    g s)
    (hc : ∀ s c f, g (State.updCore s c f) = g s) (c : Core) (s : State) : g (msgFinish c s) = g s := by
  unfold msgFinish; split
  · rfl
  · dsimp only; rw [hc]; split
    · rfl
    · exact msgCopy_get g hw hp _ _ _ _

@[simp] theorem msgFinish_cc (a1 : Core) (s : State) : (msgFinish a1 s).cc = s.cc := msgFinish_get State.cc (by simp) (by
    simp) (by simp) _ _

@[simp] theorem msgFinish_dev (a1 : Core) (s : State) : (msgFinish a1 s).dev = s.dev := msgFinish_get State.dev (by simp) (by
    simp) (by simp) _ _

@[simp] theorem msgFinish_led (a1 : Core) (s : State) : (msgFinish a1 s).led = s.led := msgFinish_get State.led (by simp) (by
    simp) (by simp) _ _

@[simp] theorem msgFinish_tim (a1 : Core) (s : State) : (msgFinish a1 s).tim = s.tim := msgFinish_get State.tim (by simp) (by
    simp) (by simp) _ _

@[simp] theorem msgFinish_fd (a1 : Core) (s : State) : (msgFinish a1 s).fd = s.fd := msgFinish_get State.fd (by simp) (by
    simp) (by simp) _ _

@[simp] theorem msgFinish_th (a1 : Core) (s : State) : (msgFinish a1 s).th = s.th := msgFinish_get State.th (by simp) (by
    simp) (by simp) _ _

@[simp] theorem msgFinish_stone (a1 : Core) (s : State) : (msgFinish a1 s).stone = s.stone := msgFinish_get State.stone (by
    simp) (by simp) (by simp) _ _

@[simp] theorem msgFinish_bt (a1 : Core) (s : State) : (msgFinish a1 s).bt = s.bt := msgFinish_get State.bt (by simp) (by
    simp) (by simp) _ _

@[simp] theorem msgFinish_host (a1 : Core) (s : State) : (msgFinish a1 s).host = s.host := msgFinish_get State.host (by simp)
    (by simp) (by simp) _ _

@[simp] theorem msgFinish_freeCtr (a1 : Core) (s : State) : (msgFinish a1 s).freeCtr = s.freeCtr := msgFinish_get
    State.freeCtr (by simp) (by simp) (by simp) _ _

@[simp] theorem msgFinish_pending (a1 : Core) (s : State) : (msgFinish a1 s).pending = s.pending := msgFinish_get
    State.pending (by simp) (by simp) (by simp) _ _

@[simp] theorem msgFinish_frame (a1 : Core) (s : State) : (msgFinish a1 s).cc = s.cc ∧ (msgFinish a1 s).dev = s.dev ∧
    (msgFinish a1 s).led = s.led ∧ (msgFinish a1 s).tim = s.tim ∧ (msgFinish a1 s).fd = s.fd ∧ (msgFinish a1 s).th = s.th ∧
    (msgFinish a1 s).stone = s.stone ∧ (msgFinish a1 s).bt = s.bt ∧ (msgFinish a1 s).host = s.host ∧
    (msgFinish a1 s).freeCtr = s.freeCtr ∧ (msgFinish a1 s).pending = s.pending := by
  and_intros <;> exact msgFinish_get _ (by simp) (by simp) (by simp) _ _

@[simp] theorem commitServe_frame (a1 : Port) (r : Nat × State) : (commitServe a1 r).cc = r.2.cc ∧
    (commitServe a1 r).dev = r.2.dev ∧ (commitServe a1 r).ports = r.2.ports ∧ (commitServe a1 r).led = r.2.led ∧
    (commitServe a1 r).tim = r.2.tim ∧ (commitServe a1 r).fd = r.2.fd ∧ (commitServe a1 r).th = r.2.th ∧
    (commitServe a1 r).stone = r.2.stone ∧ (commitServe a1 r).bt = r.2.bt ∧ (commitServe a1 r).host = r.2.host ∧
    (commitServe a1 r).mem = r.2.mem ∧ (commitServe a1 r).freeCtr = r.2.freeCtr ∧ (commitServe a1 r).pending = r.2.pending ∧
    (commitServe a1 r).evq = r.2.evq := by
  unfold commitServe; split <;> simp

@[simp] theorem serveDue_frame (a1 : Nat × Port) (s : State) : (serveDue a1 s).cc = s.cc ∧ (serveDue a1 s).dev = s.dev ∧
    (serveDue a1 s).tim = s.tim ∧ (serveDue a1 s).fd = s.fd ∧ (serveDue a1 s).th = s.th ∧ (serveDue a1 s).stone = s.stone ∧
    (serveDue a1 s).bt = s.bt ∧ (serveDue a1 s).host = s.host ∧ (serveDue a1 s).freeCtr = s.freeCtr ∧
    (serveDue a1 s).pending = s.pending := by
  unfold serveDue; (try dsimp only); (repeat' split) <;> simp -implicitDefEqProofs

@[simp] theorem serveDue_memGood (a1 : Nat × Port) (s : State) (h : memGood s.mem) : memGood (serveDue a1 s).mem := by
  unfold serveDue; (try dsimp only); (repeat' split) <;> simp (maxDischargeDepth := 9) -implicitDefEqProofs [h]

@[simp] theorem ledDue_frame (s : State) : (ledDue s).cc = s.cc ∧ (ledDue s).dev = s.dev ∧ (ledDue s).tim = s.tim ∧
    (ledDue s).fd = s.fd ∧ (ledDue s).th = s.th ∧ (ledDue s).stone = s.stone ∧ (ledDue s).bt = s.bt ∧
    (ledDue s).host = s.host ∧ (ledDue s).freeCtr = s.freeCtr ∧ (ledDue s).pending = s.pending := by
  unfold ledDue; (try dsimp only); and_intros <;> (repeat' split) <;> simp -implicitDefEqProofs [foldl_cc, foldl_dev, foldl_tim, foldl_fd, foldl_th, foldl_stone, foldl_bt, foldl_host, foldl_freeCtr, foldl_pending]

@[simp] theorem ledDue_memGood (s : State) (h : memGood s.mem) : memGood (ledDue s).mem := by
  unfold ledDue; (try dsimp only); (repeat' split) <;> simp (maxDischargeDepth := 9) -implicitDefEqProofs +contextual [h, foldl_memGood2]

@[simp] theorem commitCore_frame (a1 : Core) (s : State) : (commitCore a1 s).cc = s.cc ∧ (commitCore a1 s).dev = s.dev ∧
    (commitCore a1 s).tim = s.tim ∧ (commitCore a1 s).fd = s.fd ∧ (commitCore a1 s).th = s.th ∧
    (commitCore a1 s).stone = s.stone ∧ (commitCore a1 s).bt = s.bt ∧ (commitCore a1 s).host = s.host ∧
    (commitCore a1 s).freeCtr = s.freeCtr ∧ (commitCore a1 s).pending = s.pending := by
  unfold commitCore; (try dsimp only); (repeat' split) <;> simp -implicitDefEqProofs

@[simp] theorem commitCore_memGood (a1 : Core) (s : State) (h : memGood s.mem) : memGood (commitCore a1 s).mem := by
  unfold commitCore; (try dsimp only); (repeat' split) <;> simp (maxDischargeDepth := 9) -implicitDefEqProofs [h]

@[simp] theorem farPerform_frame (a1 : Core) (a2 : FarAccess) (s : State) : (farPerform a1 a2 s).cc = s.cc ∧
    (farPerform a1 a2 s).dev = s.dev ∧ (farPerform a1 a2 s).freeCtr = s.freeCtr ∧
    (farPerform a1 a2 s).pending = s.pending := by
  unfold farPerform; (try dsimp only); (repeat' split) <;> simp -implicitDefEqProofs

@[simp] theorem farPerform_memGood (a1 : Core) (a2 : FarAccess) (s : State) (h : memGood s.mem) : memGood (farPerform a1 a2
    s).mem := by
  unfold farPerform; (try dsimp only); (repeat' split) <;> simp (maxDischargeDepth := 9) -implicitDefEqProofs [h]

@[simp] theorem farHead_frame (a1 : Core) (s : State) : (farHead a1 s).dev = s.dev ∧ (farHead a1 s).freeCtr = s.freeCtr ∧
    (farHead a1 s).pending = s.pending := by
  unfold farHead; (try dsimp only); (repeat' split) <;> simp -implicitDefEqProofs

@[simp] theorem farHead_memGood (a1 : Core) (s : State) (h : memGood s.mem) : memGood (farHead a1 s).mem := by
  unfold farHead; (try dsimp only); (repeat' split) <;> simp (maxDischargeDepth := 9) -implicitDefEqProofs [h]

@[simp] theorem farRun_frame (a1 : Option Core) (a2 : Nat) (s : State) : (farRun a1 a2 s).dev = s.dev ∧
    (farRun a1 a2 s).freeCtr = s.freeCtr ∧ (farRun a1 a2 s).pending = s.pending := by
  induction a2 generalizing a1 s <;> (try unfold farRun) <;> (try dsimp only) <;> (repeat' split) <;> (first | (and_intros <;> rfl) | (and_intros <;> simp -implicitDefEqProofs [*, apply_ite State.dev, apply_ite State.freeCtr, apply_ite State.pending]))

@[simp] theorem farRun_memGood (a1 : Option Core) (a2 : Nat) (s : State) (h : memGood s.mem) : memGood (farRun a1 a2 s).mem
    := by
  revert h; induction a2 generalizing a1 s <;> intro h <;> (try unfold farRun) <;> (try dsimp only) <;> (repeat' split) <;> (first | exact h | (simp (maxDischargeDepth := 9) -implicitDefEqProofs [*]; done))

@[simp] theorem macxyTrigger_frame (a1 : Core) (a2 : Word) (s : State) : (macxyTrigger a1 a2 s).cc = s.cc ∧
    (macxyTrigger a1 a2 s).dev = s.dev ∧ (macxyTrigger a1 a2 s).ports = s.ports ∧ (macxyTrigger a1 a2 s).led = s.led ∧
    (macxyTrigger a1 a2 s).tim = s.tim ∧ (macxyTrigger a1 a2 s).fd = s.fd ∧ (macxyTrigger a1 a2 s).th = s.th ∧
    (macxyTrigger a1 a2 s).stone = s.stone ∧ (macxyTrigger a1 a2 s).bt = s.bt ∧ (macxyTrigger a1 a2 s).host = s.host ∧
    (macxyTrigger a1 a2 s).mem = s.mem ∧ (macxyTrigger a1 a2 s).freeCtr = s.freeCtr ∧
    (macxyTrigger a1 a2 s).pending = s.pending := by
  and_intros <;> simp -implicitDefEqProofs [macxyTrigger]

@[simp] theorem loadTrigger_frame (a1 : Core) (a2 : Nat) (a3 : Word) (s : State) : (loadTrigger a1 a2 a3 s).cc = s.cc ∧
    (loadTrigger a1 a2 a3 s).dev = s.dev ∧ (loadTrigger a1 a2 a3 s).ports = s.ports ∧ (loadTrigger a1 a2 a3 s).led = s.led ∧
    (loadTrigger a1 a2 a3 s).tim = s.tim ∧ (loadTrigger a1 a2 a3 s).fd = s.fd ∧ (loadTrigger a1 a2 a3 s).th = s.th ∧
    (loadTrigger a1 a2 a3 s).stone = s.stone ∧ (loadTrigger a1 a2 a3 s).bt = s.bt ∧ (loadTrigger a1 a2 a3 s).host = s.host ∧
    (loadTrigger a1 a2 a3 s).mem = s.mem ∧ (loadTrigger a1 a2 a3 s).freeCtr = s.freeCtr ∧
    (loadTrigger a1 a2 a3 s).pending = s.pending := by
  unfold loadTrigger; (try dsimp only); (repeat' split) <;> simp -implicitDefEqProofs

@[simp] theorem storeOutput_frame (a1 : Core) (a2 : Nat) (a3 : Word) (s : State) : (storeOutput a1 a2 a3 s).cc = s.cc ∧
    (storeOutput a1 a2 a3 s).dev = s.dev ∧ (storeOutput a1 a2 a3 s).freeCtr = s.freeCtr ∧
    (storeOutput a1 a2 a3 s).pending = s.pending := by
  unfold storeOutput; (try dsimp only); (repeat' split) <;> simp -implicitDefEqProofs

@[simp] theorem storeOutput_memGood (a1 : Core) (a2 : Nat) (a3 : Word) (s : State) (h : memGood s.mem) : memGood (storeOutput
    a1 a2 a3 s).mem := by
  unfold storeOutput; (try dsimp only); (repeat' split) <;> simp (maxDischargeDepth := 9) -implicitDefEqProofs [h]

@[simp] theorem evtPoke_frame (a1 : Word) (s : State) : (evtPoke a1 s).cc = s.cc ∧ (evtPoke a1 s).dev = s.dev ∧
    (evtPoke a1 s).ports = s.ports ∧ (evtPoke a1 s).led = s.led ∧ (evtPoke a1 s).tim = s.tim ∧ (evtPoke a1 s).fd = s.fd ∧
    (evtPoke a1 s).th = s.th ∧ (evtPoke a1 s).stone = s.stone ∧ (evtPoke a1 s).bt = s.bt ∧ (evtPoke a1 s).host = s.host ∧
    (evtPoke a1 s).mem = s.mem ∧ (evtPoke a1 s).freeCtr = s.freeCtr ∧ (evtPoke a1 s).pending = s.pending ∧
    (evtPoke a1 s).cores.map CoreSt.quiet = s.cores.map CoreSt.quiet := by
  unfold evtPoke; (try dsimp only); and_intros <;> (repeat' split) <;> simp -implicitDefEqProofs [foldl_cc, foldl_dev, foldl_ports, foldl_led, foldl_tim, foldl_fd, foldl_th, foldl_stone, foldl_bt, foldl_host, foldl_mem, foldl_freeCtr, foldl_pending, foldl_quiet]

@[simp] theorem evtHost_frame (a1 : Core) (a2 : Word) (s : State) : (evtHost a1 a2 s).cc = s.cc ∧
    (evtHost a1 a2 s).dev = s.dev ∧ (evtHost a1 a2 s).ports = s.ports ∧ (evtHost a1 a2 s).led = s.led ∧
    (evtHost a1 a2 s).tim = s.tim ∧ (evtHost a1 a2 s).fd = s.fd ∧ (evtHost a1 a2 s).th = s.th ∧
    (evtHost a1 a2 s).stone = s.stone ∧ (evtHost a1 a2 s).bt = s.bt ∧ (evtHost a1 a2 s).host = s.host ∧
    (evtHost a1 a2 s).mem = s.mem ∧ (evtHost a1 a2 s).freeCtr = s.freeCtr ∧ (evtHost a1 a2 s).pending = s.pending := by
  unfold evtHost; (try dsimp only); (repeat' split) <;> simp -implicitDefEqProofs

@[simp] theorem dacwOutput_frame (a1 : Core) (a2 : Nat) (a3 : Word) (s : State) : (dacwOutput a1 a2 a3 s).cc = s.cc ∧
    (dacwOutput a1 a2 a3 s).dev = s.dev ∧ (dacwOutput a1 a2 a3 s).led = s.led ∧ (dacwOutput a1 a2 a3 s).tim = s.tim ∧
    (dacwOutput a1 a2 a3 s).fd = s.fd ∧ (dacwOutput a1 a2 a3 s).th = s.th ∧ (dacwOutput a1 a2 a3 s).stone = s.stone ∧
    (dacwOutput a1 a2 a3 s).bt = s.bt ∧ (dacwOutput a1 a2 a3 s).host = s.host ∧ (dacwOutput a1 a2 a3 s).mem = s.mem ∧
    (dacwOutput a1 a2 a3 s).freeCtr = s.freeCtr ∧ (dacwOutput a1 a2 a3 s).pending = s.pending := by
  unfold dacwOutput; (try dsimp only); (repeat' split) <;> simp -implicitDefEqProofs

@[simp] theorem timRefuse_frame (a1 : Core) (s : State) : (timRefuse a1 s).cc = s.cc ∧ (timRefuse a1 s).dev = s.dev ∧
    (timRefuse a1 s).ports = s.ports ∧ (timRefuse a1 s).led = s.led ∧ (timRefuse a1 s).tim = s.tim ∧
    (timRefuse a1 s).fd = s.fd ∧ (timRefuse a1 s).th = s.th ∧ (timRefuse a1 s).stone = s.stone ∧ (timRefuse a1 s).bt = s.bt ∧
    (timRefuse a1 s).host = s.host ∧ (timRefuse a1 s).mem = s.mem ∧ (timRefuse a1 s).freeCtr = s.freeCtr ∧
    (timRefuse a1 s).pending = s.pending := by
  and_intros <;> simp -implicitDefEqProofs [timRefuse]

@[simp] theorem timWr_frame (a1 : Core) (a2 : Word) (s : State) : (timWr a1 a2 s).cc = s.cc ∧ (timWr a1 a2 s).dev = s.dev ∧
    (timWr a1 a2 s).ports = s.ports ∧ (timWr a1 a2 s).led = s.led ∧ (timWr a1 a2 s).fd = s.fd ∧ (timWr a1 a2 s).th = s.th ∧
    (timWr a1 a2 s).stone = s.stone ∧ (timWr a1 a2 s).bt = s.bt ∧ (timWr a1 a2 s).host = s.host ∧
    (timWr a1 a2 s).mem = s.mem ∧ (timWr a1 a2 s).freeCtr = s.freeCtr ∧ (timWr a1 a2 s).pending = s.pending := by
  unfold timWr; (try dsimp only); (repeat' split) <;> simp -implicitDefEqProofs

@[simp] theorem timCommand_frame (a1 : Core) (a2 : Word) (s : State) : (timCommand a1 a2 s).cc = s.cc ∧
    (timCommand a1 a2 s).dev = s.dev ∧ (timCommand a1 a2 s).ports = s.ports ∧ (timCommand a1 a2 s).led = s.led ∧
    (timCommand a1 a2 s).fd = s.fd ∧ (timCommand a1 a2 s).th = s.th ∧ (timCommand a1 a2 s).stone = s.stone ∧
    (timCommand a1 a2 s).bt = s.bt ∧ (timCommand a1 a2 s).host = s.host ∧ (timCommand a1 a2 s).mem = s.mem ∧
    (timCommand a1 a2 s).freeCtr = s.freeCtr ∧ (timCommand a1 a2 s).pending = s.pending := by
  unfold timCommand; (try dsimp only); (repeat' split) <;> simp -implicitDefEqProofs

@[simp] theorem timRd_frame (a1 : Core) (s : State) : (timRd a1 s).cc = s.cc ∧ (timRd a1 s).dev = s.dev ∧
    (timRd a1 s).ports = s.ports ∧ (timRd a1 s).led = s.led ∧ (timRd a1 s).tim = s.tim ∧ (timRd a1 s).fd = s.fd ∧
    (timRd a1 s).th = s.th ∧ (timRd a1 s).stone = s.stone ∧ (timRd a1 s).bt = s.bt ∧ (timRd a1 s).host = s.host ∧
    (timRd a1 s).mem = s.mem ∧ (timRd a1 s).freeCtr = s.freeCtr ∧ (timRd a1 s).pending = s.pending := by
  and_intros <;> simp -implicitDefEqProofs [timRd]

@[simp] theorem timSnap_frame (a1 : Core) (a2 : Word) (s : State) : (timSnap a1 a2 s).cc = s.cc ∧
    (timSnap a1 a2 s).dev = s.dev ∧ (timSnap a1 a2 s).ports = s.ports ∧ (timSnap a1 a2 s).led = s.led ∧
    (timSnap a1 a2 s).tim = s.tim ∧ (timSnap a1 a2 s).fd = s.fd ∧ (timSnap a1 a2 s).th = s.th ∧
    (timSnap a1 a2 s).stone = s.stone ∧ (timSnap a1 a2 s).bt = s.bt ∧ (timSnap a1 a2 s).host = s.host ∧
    (timSnap a1 a2 s).mem = s.mem ∧ (timSnap a1 a2 s).freeCtr = s.freeCtr ∧ (timSnap a1 a2 s).pending = s.pending := by
  unfold timSnap; (try dsimp only); (repeat' split) <;> simp -implicitDefEqProofs

@[simp] theorem pipRefuse_frame (a1 : Core) (s : State) : (pipRefuse a1 s).cc = s.cc ∧ (pipRefuse a1 s).dev = s.dev ∧
    (pipRefuse a1 s).ports = s.ports ∧ (pipRefuse a1 s).led = s.led ∧ (pipRefuse a1 s).tim = s.tim ∧
    (pipRefuse a1 s).fd = s.fd ∧ (pipRefuse a1 s).th = s.th ∧ (pipRefuse a1 s).stone = s.stone ∧ (pipRefuse a1 s).bt = s.bt ∧
    (pipRefuse a1 s).host = s.host ∧ (pipRefuse a1 s).mem = s.mem ∧ (pipRefuse a1 s).freeCtr = s.freeCtr ∧
    (pipRefuse a1 s).pending = s.pending := by
  and_intros <;> simp -implicitDefEqProofs [pipRefuse]

@[simp] theorem pipArmOutput_frame (a1 : Core) (a2 : Word) (s : State) : (pipArmOutput a1 a2 s).cc = s.cc ∧
    (pipArmOutput a1 a2 s).dev = s.dev ∧ (pipArmOutput a1 a2 s).led = s.led ∧ (pipArmOutput a1 a2 s).fd = s.fd ∧
    (pipArmOutput a1 a2 s).th = s.th ∧ (pipArmOutput a1 a2 s).stone = s.stone ∧ (pipArmOutput a1 a2 s).bt = s.bt ∧
    (pipArmOutput a1 a2 s).host = s.host ∧ (pipArmOutput a1 a2 s).freeCtr = s.freeCtr ∧
    (pipArmOutput a1 a2 s).pending = s.pending := by
  unfold pipArmOutput; (try dsimp only); (repeat' split) <;> simp -implicitDefEqProofs

@[simp] theorem pipArmOutput_memGood (a1 : Core) (a2 : Word) (s : State) (h : memGood s.mem) : memGood (pipArmOutput a1 a2
    s).mem := by
  unfold pipArmOutput; (try dsimp only); (repeat' split) <;> simp (maxDischargeDepth := 9) -implicitDefEqProofs [h]

@[simp] theorem pipDisOutput_frame (a1 : Core) (a2 : Word) (s : State) : (pipDisOutput a1 a2 s).cc = s.cc ∧
    (pipDisOutput a1 a2 s).dev = s.dev ∧ (pipDisOutput a1 a2 s).led = s.led ∧ (pipDisOutput a1 a2 s).fd = s.fd ∧
    (pipDisOutput a1 a2 s).th = s.th ∧ (pipDisOutput a1 a2 s).stone = s.stone ∧ (pipDisOutput a1 a2 s).bt = s.bt ∧
    (pipDisOutput a1 a2 s).host = s.host ∧ (pipDisOutput a1 a2 s).freeCtr = s.freeCtr ∧
    (pipDisOutput a1 a2 s).pending = s.pending := by
  unfold pipDisOutput; (try dsimp only); (repeat' split) <;> simp -implicitDefEqProofs

@[simp] theorem pipDisOutput_memGood (a1 : Core) (a2 : Word) (s : State) (h : memGood s.mem) : memGood (pipDisOutput a1 a2
    s).mem := by
  unfold pipDisOutput; (try dsimp only); (repeat' split) <;> simp (maxDischargeDepth := 9) -implicitDefEqProofs [h]

@[simp] theorem pipAng_frame (a1 : Core) (a2 : Word) (s : State) : (pipAng a1 a2 s).cc = s.cc ∧
    (pipAng a1 a2 s).dev = s.dev ∧ (pipAng a1 a2 s).ports = s.ports ∧ (pipAng a1 a2 s).led = s.led ∧
    (pipAng a1 a2 s).tim = s.tim ∧ (pipAng a1 a2 s).fd = s.fd ∧ (pipAng a1 a2 s).th = s.th ∧
    (pipAng a1 a2 s).stone = s.stone ∧ (pipAng a1 a2 s).bt = s.bt ∧ (pipAng a1 a2 s).host = s.host ∧
    (pipAng a1 a2 s).mem = s.mem ∧ (pipAng a1 a2 s).freeCtr = s.freeCtr ∧ (pipAng a1 a2 s).pending = s.pending := by
  and_intros <;> simp -implicitDefEqProofs [pipAng]

@[simp] theorem msgTrigger_frame (a1 : Core) (a2 : Nat) (a3 : Word) (s : State) : (msgTrigger a1 a2 a3 s).cc = s.cc ∧
    (msgTrigger a1 a2 a3 s).dev = s.dev ∧ (msgTrigger a1 a2 a3 s).led = s.led ∧ (msgTrigger a1 a2 a3 s).tim = s.tim ∧
    (msgTrigger a1 a2 a3 s).fd = s.fd ∧ (msgTrigger a1 a2 a3 s).th = s.th ∧ (msgTrigger a1 a2 a3 s).stone = s.stone ∧
    (msgTrigger a1 a2 a3 s).bt = s.bt ∧ (msgTrigger a1 a2 a3 s).host = s.host ∧ (msgTrigger a1 a2 a3 s).freeCtr = s.freeCtr ∧
    (msgTrigger a1 a2 a3 s).pending = s.pending := by
  unfold msgTrigger; (try dsimp only); (repeat' split) <;> simp -implicitDefEqProofs

@[simp] theorem msgTrigger_memGood (a1 : Core) (a2 : Nat) (a3 : Word) (s : State) (h : memGood s.mem) : memGood (msgTrigger
    a1 a2 a3 s).mem := by
  unfold msgTrigger; (try dsimp only); (repeat' split) <;> simp (maxDischargeDepth := 9) -implicitDefEqProofs [h]

@[simp] theorem ledTrigger_frame (a1 : Core) (a2 : Nat) (a3 : Word) (s : State) : (ledTrigger a1 a2 a3 s).cc = s.cc ∧
    (ledTrigger a1 a2 a3 s).dev = s.dev ∧ (ledTrigger a1 a2 a3 s).ports = s.ports ∧ (ledTrigger a1 a2 a3 s).led = s.led ∧
    (ledTrigger a1 a2 a3 s).tim = s.tim ∧ (ledTrigger a1 a2 a3 s).fd = s.fd ∧ (ledTrigger a1 a2 a3 s).th = s.th ∧
    (ledTrigger a1 a2 a3 s).stone = s.stone ∧ (ledTrigger a1 a2 a3 s).bt = s.bt ∧ (ledTrigger a1 a2 a3 s).host = s.host ∧
    (ledTrigger a1 a2 a3 s).mem = s.mem ∧ (ledTrigger a1 a2 a3 s).freeCtr = s.freeCtr ∧
    (ledTrigger a1 a2 a3 s).pending = s.pending := by
  and_intros <;> simp -implicitDefEqProofs [ledTrigger]

@[simp] theorem otpuTrigger_frame (a1 : Core) (a2 : Nat) (a3 : Word) (s : State) : (otpuTrigger a1 a2 a3 s).cc = s.cc ∧
    (otpuTrigger a1 a2 a3 s).dev = s.dev ∧ (otpuTrigger a1 a2 a3 s).ports = s.ports ∧ (otpuTrigger a1 a2 a3 s).led = s.led ∧
    (otpuTrigger a1 a2 a3 s).tim = s.tim ∧ (otpuTrigger a1 a2 a3 s).fd = s.fd ∧ (otpuTrigger a1 a2 a3 s).th = s.th ∧
    (otpuTrigger a1 a2 a3 s).bt = s.bt ∧ (otpuTrigger a1 a2 a3 s).host = s.host ∧ (otpuTrigger a1 a2 a3 s).mem = s.mem ∧
    (otpuTrigger a1 a2 a3 s).freeCtr = s.freeCtr ∧ (otpuTrigger a1 a2 a3 s).pending = s.pending := by
  unfold otpuTrigger; (try dsimp only); (repeat' split) <;> simp -implicitDefEqProofs

@[simp] theorem unitTrigger_memGood (a1 : Core) (a2 : Nat) (a3 : Word) (s : State) (h : memGood s.mem) : memGood (unitTrigger
    a1 a2 a3 s).mem := by
  unfold unitTrigger
  iterate 14 apply ite_holds (fun t : State => memGood t.mem) _ _ _ (by simp (maxDischargeDepth := 9) -implicitDefEqProofs [h])
  simp (maxDischargeDepth := 9) -implicitDefEqProofs [h]

@[simp] theorem unitTrigger_frame (a1 : Core) (a2 : Nat) (a3 : Word) (s : State) : (unitTrigger a1 a2 a3 s).cc = s.cc ∧
    (unitTrigger a1 a2 a3 s).dev = s.dev ∧ (unitTrigger a1 a2 a3 s).led = s.led ∧ (unitTrigger a1 a2 a3 s).tim = s.tim ∧
    (unitTrigger a1 a2 a3 s).fd = s.fd ∧ (unitTrigger a1 a2 a3 s).th = s.th ∧ (unitTrigger a1 a2 a3 s).bt = s.bt ∧
    (unitTrigger a1 a2 a3 s).host = s.host ∧ (unitTrigger a1 a2 a3 s).freeCtr = s.freeCtr ∧
    (unitTrigger a1 a2 a3 s).pending = s.pending := by
  and_intros <;> simp -implicitDefEqProofs [unitTrigger, apply_ite State.cc, apply_ite State.dev, apply_ite State.led, apply_ite State.tim, apply_ite State.fd, apply_ite State.th, apply_ite State.bt, apply_ite State.host, apply_ite State.freeCtr, apply_ite State.pending, foldl_cc, foldl_dev, foldl_led, foldl_tim, foldl_fd, foldl_th, foldl_bt, foldl_host, foldl_freeCtr, foldl_pending]

@[simp] theorem kick_frame (a1 : Core) (s : State) : (kick a1 s).cc = s.cc ∧ (kick a1 s).dev = s.dev ∧
    (kick a1 s).ports = s.ports ∧ (kick a1 s).led = s.led ∧ (kick a1 s).tim = s.tim ∧ (kick a1 s).fd = s.fd ∧
    (kick a1 s).th = s.th ∧ (kick a1 s).stone = s.stone ∧ (kick a1 s).bt = s.bt ∧ (kick a1 s).host = s.host ∧
    (kick a1 s).mem = s.mem ∧ (kick a1 s).freeCtr = s.freeCtr ∧ (kick a1 s).pending = s.pending := by
  and_intros <;> simp -implicitDefEqProofs [kick]

@[simp] theorem unitOutput_frame (a1 : Core) (a2 : Nat) (a3 : Word) (s : State) : (unitOutput a1 a2 a3 s).cc = s.cc ∧
    (unitOutput a1 a2 a3 s).dev = s.dev ∧ (unitOutput a1 a2 a3 s).freeCtr = s.freeCtr ∧
    (unitOutput a1 a2 a3 s).pending = s.pending := by
  unfold unitOutput; (try dsimp only); (repeat' split) <;> simp -implicitDefEqProofs

@[simp] theorem unitOutput_memGood (a1 : Core) (a2 : Nat) (a3 : Word) (s : State) (h : memGood s.mem) : memGood (unitOutput
    a1 a2 a3 s).mem := by
  unfold unitOutput; (try dsimp only); (repeat' split) <;> simp (maxDischargeDepth := 9) -implicitDefEqProofs [h]

@[simp] theorem withOperands_frame (a1 : Core) (a2 : List Move) (s : State) : (withOperands a1 a2 s).cc = s.cc ∧
    (withOperands a1 a2 s).dev = s.dev ∧ (withOperands a1 a2 s).ports = s.ports ∧ (withOperands a1 a2 s).led = s.led ∧
    (withOperands a1 a2 s).tim = s.tim ∧ (withOperands a1 a2 s).fd = s.fd ∧ (withOperands a1 a2 s).th = s.th ∧
    (withOperands a1 a2 s).stone = s.stone ∧ (withOperands a1 a2 s).bt = s.bt ∧ (withOperands a1 a2 s).host = s.host ∧
    (withOperands a1 a2 s).mem = s.mem ∧ (withOperands a1 a2 s).freeCtr = s.freeCtr ∧
    (withOperands a1 a2 s).pending = s.pending := by
  and_intros <;> simp -implicitDefEqProofs [withOperands]

@[simp] theorem storeOrder_frame (a1 : List Move) (s : State) : (storeOrder a1 s).2.cc = s.cc ∧
    (storeOrder a1 s).2.dev = s.dev ∧ (storeOrder a1 s).2.cores = s.cores ∧ (storeOrder a1 s).2.ports = s.ports ∧
    (storeOrder a1 s).2.led = s.led ∧ (storeOrder a1 s).2.tim = s.tim ∧ (storeOrder a1 s).2.fd = s.fd ∧
    (storeOrder a1 s).2.th = s.th ∧ (storeOrder a1 s).2.stone = s.stone ∧ (storeOrder a1 s).2.bt = s.bt ∧
    (storeOrder a1 s).2.host = s.host ∧ (storeOrder a1 s).2.mem = s.mem ∧ (storeOrder a1 s).2.pending = s.pending := by
  unfold storeOrder; (try dsimp only); (repeat' split) <;> simp -implicitDefEqProofs

@[simp] theorem runMoves_frame (a1 : Core) (a2 : BitVec 128) (s : State) : (runMoves a1 a2 s).cc = s.cc ∧
    (runMoves a1 a2 s).dev = s.dev ∧ (runMoves a1 a2 s).pending = s.pending := by
  unfold runMoves; (try dsimp only); and_intros <;> (repeat' split) <;> simp -implicitDefEqProofs [foldl_cc, foldl_dev, foldl_pending]

@[simp] theorem runMoves_memGood (a1 : Core) (a2 : BitVec 128) (s : State) (h : memGood s.mem) : memGood (runMoves a1 a2
    s).mem := by
  unfold runMoves; (try dsimp only); (repeat' split) <;> simp (maxDischargeDepth := 9) -implicitDefEqProofs +contextual [h, foldl_memGood2]

@[simp] theorem issue_frame (a1 : Core) (a2 : Ecc) (s : State) : (issue a1 a2 s).pending = s.pending := by
  unfold issue; (try dsimp only); (repeat' split) <;> simp -implicitDefEqProofs

@[simp] theorem issue_memGood (a1 : Core) (a2 : Ecc) (s : State) (h : memGood s.mem) : memGood (issue a1 a2 s).mem := by
  unfold issue; (try dsimp only); (repeat' split) <;> simp (maxDischargeDepth := 9) -implicitDefEqProofs [h]

@[simp] theorem hostStart_frame (s : State) : (hostStart s).cc = s.cc ∧ (hostStart s).dev = s.dev ∧
    (hostStart s).cores = s.cores ∧ (hostStart s).ports = s.ports ∧ (hostStart s).led = s.led ∧ (hostStart s).tim = s.tim ∧
    (hostStart s).fd = s.fd ∧ (hostStart s).th = s.th ∧ (hostStart s).stone = s.stone ∧ (hostStart s).bt = s.bt ∧
    (hostStart s).mem = s.mem ∧ (hostStart s).freeCtr = s.freeCtr ∧ (hostStart s).pending = s.pending := by
  and_intros <;> simp -implicitDefEqProofs [hostStart]

@[simp] theorem hostNack_frame (a1 : Nat) (s : State) : (hostNack a1 s).cc = s.cc ∧ (hostNack a1 s).dev = s.dev ∧
    (hostNack a1 s).cores = s.cores ∧ (hostNack a1 s).ports = s.ports ∧ (hostNack a1 s).led = s.led ∧
    (hostNack a1 s).tim = s.tim ∧ (hostNack a1 s).fd = s.fd ∧ (hostNack a1 s).th = s.th ∧ (hostNack a1 s).stone = s.stone ∧
    (hostNack a1 s).bt = s.bt ∧ (hostNack a1 s).mem = s.mem ∧ (hostNack a1 s).freeCtr = s.freeCtr ∧
    (hostNack a1 s).pending = s.pending := by
  and_intros <;> simp -implicitDefEqProofs [hostNack]

@[simp] theorem hostSend_frame (a1 : List Byte) (a2 : List Byte) (s : State) : (hostSend a1 a2 s).cc = s.cc ∧
    (hostSend a1 a2 s).dev = s.dev ∧ (hostSend a1 a2 s).cores = s.cores ∧ (hostSend a1 a2 s).ports = s.ports ∧
    (hostSend a1 a2 s).led = s.led ∧ (hostSend a1 a2 s).tim = s.tim ∧ (hostSend a1 a2 s).fd = s.fd ∧
    (hostSend a1 a2 s).th = s.th ∧ (hostSend a1 a2 s).stone = s.stone ∧ (hostSend a1 a2 s).bt = s.bt ∧
    (hostSend a1 a2 s).mem = s.mem ∧ (hostSend a1 a2 s).freeCtr = s.freeCtr ∧ (hostSend a1 a2 s).pending = s.pending := by
  and_intros <;> simp -implicitDefEqProofs [hostSend]

@[simp] theorem readWhole_frame (a1 : Byte) (s : State) : (readWhole a1 s).cc = s.cc ∧ (readWhole a1 s).dev = s.dev ∧
    (readWhole a1 s).cores = s.cores ∧ (readWhole a1 s).ports = s.ports ∧ (readWhole a1 s).led = s.led ∧
    (readWhole a1 s).tim = s.tim ∧ (readWhole a1 s).fd = s.fd ∧ (readWhole a1 s).th = s.th ∧
    (readWhole a1 s).stone = s.stone ∧ (readWhole a1 s).bt = s.bt ∧ (readWhole a1 s).mem = s.mem ∧
    (readWhole a1 s).freeCtr = s.freeCtr ∧ (readWhole a1 s).pending = s.pending := by
  unfold readWhole; (try dsimp only); (repeat' split) <;> simp -implicitDefEqProofs

@[simp] theorem ringPush_frame (a1 : List Byte) (s : State) : (ringPush a1 s).cc = s.cc ∧ (ringPush a1 s).dev = s.dev ∧
    (ringPush a1 s).led = s.led ∧ (ringPush a1 s).tim = s.tim ∧ (ringPush a1 s).fd = s.fd ∧ (ringPush a1 s).th = s.th ∧
    (ringPush a1 s).stone = s.stone ∧ (ringPush a1 s).bt = s.bt ∧ (ringPush a1 s).freeCtr = s.freeCtr ∧
    (ringPush a1 s).pending = s.pending ∧ (ringPush a1 s).cores.map CoreSt.quiet = s.cores.map CoreSt.quiet := by
  unfold ringPush; (try dsimp only); (repeat' split) <;> simp -implicitDefEqProofs

@[simp] theorem ringPush_memGood (a1 : List Byte) (s : State) (h : memGood s.mem) : memGood (ringPush a1 s).mem := by
  unfold ringPush; (try dsimp only); (repeat' split) <;> simp (maxDischargeDepth := 9) -implicitDefEqProofs [h]

@[simp] theorem hostRegs_frame (a1 : Byte) (a2 : List (RegPlace × Word)) (s : State) : (hostRegs a1 a2 s).cc = s.cc ∧
    (hostRegs a1 a2 s).dev = s.dev ∧ (hostRegs a1 a2 s).freeCtr = s.freeCtr ∧ (hostRegs a1 a2 s).pending = s.pending := by
  unfold hostRegs; (try dsimp only); and_intros <;> (repeat' split) <;> simp -implicitDefEqProofs [foldl_cc, foldl_dev, foldl_freeCtr, foldl_pending]

@[simp] theorem hostRegs_memGood (a1 : Byte) (a2 : List (RegPlace × Word)) (s : State) (h : memGood s.mem) : memGood
    (hostRegs a1 a2 s).mem := by
  unfold hostRegs; (try dsimp only); (repeat' split) <;> (first | (simp (maxDischargeDepth := 9) -implicitDefEqProofs [h]; done) | (apply foldl_memGood; (intro t x ht; (repeat' split) <;> (simp (maxDischargeDepth := 9) -implicitDefEqProofs [ht]; done)); simp (maxDischargeDepth := 9) -implicitDefEqProofs [h]))

@[simp] theorem blockWrite_frame (a1 : Byte) (a2 : List Byte) (s : State) : (blockWrite a1 a2 s).cc = s.cc ∧
    (blockWrite a1 a2 s).dev = s.dev ∧ (blockWrite a1 a2 s).freeCtr = s.freeCtr ∧
    (blockWrite a1 a2 s).pending = s.pending := by
  and_intros <;> simp -implicitDefEqProofs [blockWrite]

@[simp] theorem blockWrite_memGood (a1 : Byte) (a2 : List Byte) (s : State) (h : memGood s.mem) : memGood (blockWrite a1 a2
    s).mem := by
  simp (maxDischargeDepth := 9) -implicitDefEqProofs [blockWrite, h]

@[simp] theorem memwrByte_frame (a1 : Nat × Byte) (s : State) : (memwrByte a1 s).cc = s.cc ∧ (memwrByte a1 s).dev = s.dev ∧
    (memwrByte a1 s).ports = s.ports ∧ (memwrByte a1 s).led = s.led ∧ (memwrByte a1 s).tim = s.tim ∧
    (memwrByte a1 s).fd = s.fd ∧ (memwrByte a1 s).th = s.th ∧ (memwrByte a1 s).stone = s.stone ∧ (memwrByte a1 s).bt = s.bt ∧
    (memwrByte a1 s).host = s.host ∧ (memwrByte a1 s).freeCtr = s.freeCtr ∧ (memwrByte a1 s).pending = s.pending := by
  unfold memwrByte; (try dsimp only); (repeat' split) <;> simp -implicitDefEqProofs

@[simp] theorem memwrByte_memGood (a1 : Nat × Byte) (s : State) (h : memGood s.mem) : memGood (memwrByte a1 s).mem := by
  unfold memwrByte; (try dsimp only); (repeat' split) <;> simp (maxDischargeDepth := 9) -implicitDefEqProofs [h]

@[simp] theorem memWr_frame (a1 : List Byte) (s : State) : (memWr a1 s).cc = s.cc ∧ (memWr a1 s).dev = s.dev ∧
    (memWr a1 s).freeCtr = s.freeCtr ∧ (memWr a1 s).pending = s.pending := by
  unfold memWr; (try dsimp only); and_intros <;> (repeat' split) <;> simp -implicitDefEqProofs [foldl_cc, foldl_dev, foldl_freeCtr, foldl_pending]

@[simp] theorem memWr_memGood (a1 : List Byte) (s : State) (h : memGood s.mem) : memGood (memWr a1 s).mem := by
  unfold memWr; (try dsimp only); (repeat' split) <;> (first | (simp (maxDischargeDepth := 9) -implicitDefEqProofs [h]; done) | (apply foldl_memGood; (intro t x ht; (repeat' split) <;> (simp (maxDischargeDepth := 9) -implicitDefEqProofs [ht]; done)); simp (maxDischargeDepth := 9) -implicitDefEqProofs [h]))

@[simp] theorem ripenCmd_frame (a1 : Byte) (s : State) : (ripenCmd a1 s).cc = s.cc ∧ (ripenCmd a1 s).dev = s.dev ∧
    (ripenCmd a1 s).led = s.led ∧ (ripenCmd a1 s).fd = s.fd ∧ (ripenCmd a1 s).th = s.th ∧ (ripenCmd a1 s).stone = s.stone ∧
    (ripenCmd a1 s).mem = s.mem ∧ (ripenCmd a1 s).freeCtr = s.freeCtr ∧ (ripenCmd a1 s).pending = s.pending := by
  unfold ripenCmd; (try dsimp only); (repeat' split) <;> simp -implicitDefEqProofs

@[simp] theorem otpCmd_frame (a1 : List Byte) (s : State) : (otpCmd a1 s).cc = s.cc ∧ (otpCmd a1 s).dev = s.dev ∧
    (otpCmd a1 s).ports = s.ports ∧ (otpCmd a1 s).led = s.led ∧ (otpCmd a1 s).tim = s.tim ∧ (otpCmd a1 s).fd = s.fd ∧
    (otpCmd a1 s).th = s.th ∧ (otpCmd a1 s).bt = s.bt ∧ (otpCmd a1 s).mem = s.mem ∧ (otpCmd a1 s).freeCtr = s.freeCtr ∧
    (otpCmd a1 s).pending = s.pending ∧ (otpCmd a1 s).cores.map CoreSt.quiet = s.cores.map CoreSt.quiet := by
  unfold otpCmd; (try dsimp only); (repeat' split) <;> simp -implicitDefEqProofs

@[simp] theorem imgCmd_frame (a1 : List Byte) (s : State) : (imgCmd a1 s).cc = s.cc ∧ (imgCmd a1 s).dev = s.dev ∧
    (imgCmd a1 s).ports = s.ports ∧ (imgCmd a1 s).led = s.led ∧ (imgCmd a1 s).tim = s.tim ∧ (imgCmd a1 s).fd = s.fd ∧
    (imgCmd a1 s).th = s.th ∧ (imgCmd a1 s).stone = s.stone ∧ (imgCmd a1 s).mem = s.mem ∧ (imgCmd a1 s).freeCtr = s.freeCtr ∧
    (imgCmd a1 s).pending = s.pending ∧ (imgCmd a1 s).cores.map CoreSt.quiet = s.cores.map CoreSt.quiet := by
  unfold imgCmd; (try dsimp only); (repeat' split) <;> simp -implicitDefEqProofs

@[simp] theorem hostEffect_frame (a1 : Byte) (a2 : List Byte) (a3 : Option WakeSource) (s : State) : (hostEffect a1 a2 a3
    s).pending = s.pending := by
  unfold hostEffect; (try dsimp only); (repeat' split) <;> simp -implicitDefEqProofs

@[simp] theorem hostEffect_memGood (a1 : Byte) (a2 : List Byte) (a3 : Option WakeSource) (s : State) (h : memGood s.mem) :
    memGood (hostEffect a1 a2 a3 s).mem := by
  unfold hostEffect; (try dsimp only); (repeat' split) <;> simp (maxDischargeDepth := 9) -implicitDefEqProofs [h]

@[simp] theorem hostPerform_frame (a1 : Byte) (a2 : List Byte) (a3 : Option WakeSource) (s : State) : (hostPerform a1 a2 a3
    s).pending = s.pending := by
  unfold hostPerform; (try dsimp only); (repeat' split) <;> simp -implicitDefEqProofs

@[simp] theorem hostPerform_memGood (a1 : Byte) (a2 : List Byte) (a3 : Option WakeSource) (s : State) (h : memGood s.mem) :
    memGood (hostPerform a1 a2 a3 s).mem := by
  unfold hostPerform; (try dsimp only); (repeat' split) <;> simp (maxDischargeDepth := 9) -implicitDefEqProofs [h]

@[simp] theorem writeFinish_frame (a1 : Byte) (a2 : List Byte) (a3 : Option WakeSource) (s : State) : (writeFinish a1 a2 a3
    s).pending = s.pending := by
  unfold writeFinish; (try dsimp only); (repeat' split) <;> simp -implicitDefEqProofs

@[simp] theorem writeFinish_memGood (a1 : Byte) (a2 : List Byte) (a3 : Option WakeSource) (s : State) (h : memGood s.mem) :
    memGood (writeFinish a1 a2 a3 s).mem := by
  unfold writeFinish; (try dsimp only); (repeat' split) <;> simp (maxDischargeDepth := 9) -implicitDefEqProofs [h]

@[simp] theorem procRead_frame (a1 : Byte) (a2 : List Byte) (a3 : Bool) (s : State) : (procRead a1 a2 a3 s).cc = s.cc ∧
    (procRead a1 a2 a3 s).dev = s.dev ∧ (procRead a1 a2 a3 s).led = s.led ∧ (procRead a1 a2 a3 s).tim = s.tim ∧
    (procRead a1 a2 a3 s).fd = s.fd ∧ (procRead a1 a2 a3 s).th = s.th ∧ (procRead a1 a2 a3 s).stone = s.stone ∧
    (procRead a1 a2 a3 s).bt = s.bt ∧ (procRead a1 a2 a3 s).mem = s.mem ∧ (procRead a1 a2 a3 s).freeCtr = s.freeCtr ∧
    (procRead a1 a2 a3 s).pending = s.pending ∧ (procRead a1 a2 a3 s).cores.map CoreSt.quiet = s.cores.map CoreSt.quiet := by
  unfold procRead; (try dsimp only); (repeat' split) <;> simp -implicitDefEqProofs

@[simp] theorem readRefused_frame (a1 : Byte) (s : State) : (readRefused a1 s).cc = s.cc ∧ (readRefused a1 s).dev = s.dev ∧
    (readRefused a1 s).ports = s.ports ∧ (readRefused a1 s).led = s.led ∧ (readRefused a1 s).tim = s.tim ∧
    (readRefused a1 s).fd = s.fd ∧ (readRefused a1 s).th = s.th ∧ (readRefused a1 s).stone = s.stone ∧
    (readRefused a1 s).bt = s.bt ∧ (readRefused a1 s).mem = s.mem ∧ (readRefused a1 s).freeCtr = s.freeCtr ∧
    (readRefused a1 s).pending = s.pending ∧ (readRefused a1 s).cores.map CoreSt.quiet = s.cores.map CoreSt.quiet := by
  and_intros <;> simp -implicitDefEqProofs [readRefused]

@[simp] theorem writeRun_frame (a1 : Byte) (a2 : Xact) (a3 : Option WakeSource) (s : State) : (writeRun a1 a2 a3 s).pending =
    s.pending := by
  unfold writeRun; (try dsimp only); (repeat' split) <;> simp -implicitDefEqProofs

@[simp] theorem writeRun_memGood (a1 : Byte) (a2 : Xact) (a3 : Option WakeSource) (s : State) (h : memGood s.mem) : memGood
    (writeRun a1 a2 a3 s).mem := by
  unfold writeRun; (try dsimp only); (repeat' split) <;> simp (maxDischargeDepth := 9) -implicitDefEqProofs [h]

@[simp] theorem hostSetup_frame (a1 : Byte) (a2 : Xact) (s : State) : (hostSetup a1 a2 s).cc = s.cc ∧
    (hostSetup a1 a2 s).dev = s.dev ∧ (hostSetup a1 a2 s).ports = s.ports ∧ (hostSetup a1 a2 s).led = s.led ∧
    (hostSetup a1 a2 s).tim = s.tim ∧ (hostSetup a1 a2 s).fd = s.fd ∧ (hostSetup a1 a2 s).th = s.th ∧
    (hostSetup a1 a2 s).stone = s.stone ∧ (hostSetup a1 a2 s).bt = s.bt ∧ (hostSetup a1 a2 s).mem = s.mem ∧
    (hostSetup a1 a2 s).freeCtr = s.freeCtr ∧ (hostSetup a1 a2 s).pending = s.pending ∧
    (hostSetup a1 a2 s).cores.map CoreSt.quiet = s.cores.map CoreSt.quiet := by
  unfold hostSetup; (try dsimp only); (repeat' split) <;> simp -implicitDefEqProofs

@[simp] theorem hostRun_frame (a1 : Byte) (a2 : Xact) (a3 : Option WakeSource) (s : State) : (hostRun a1 a2 a3 s).pending =
    s.pending := by
  unfold hostRun; (try dsimp only); (repeat' split) <;> simp -implicitDefEqProofs

@[simp] theorem hostRun_memGood (a1 : Byte) (a2 : Xact) (a3 : Option WakeSource) (s : State) (h : memGood s.mem) : memGood
    (hostRun a1 a2 a3 s).mem := by
  unfold hostRun; (try dsimp only); (repeat' split) <;> simp (maxDischargeDepth := 9) -implicitDefEqProofs [h]

@[simp] theorem blockRun_frame (a1 : Nat) (a2 : Nat) (a3 : Byte) (a4 : Xact) (s : State) : (blockRun a1 a2 a3 a4 s).pending =
    s.pending := by
  unfold blockRun; (try dsimp only); (repeat' split) <;> simp -implicitDefEqProofs

@[simp] theorem blockRun_memGood (a1 : Nat) (a2 : Nat) (a3 : Byte) (a4 : Xact) (s : State) (h : memGood s.mem) : memGood
    (blockRun a1 a2 a3 a4 s).mem := by
  unfold blockRun; (try dsimp only); (repeat' split) <;> simp (maxDischargeDepth := 9) -implicitDefEqProofs [h]

@[simp] theorem imageRun_frame (a1 : BitVec 4) (a2 : ImageReq) (s : State) : (imageRun a1 a2 s).pending = s.pending := by
  unfold imageRun; (try dsimp only); (repeat' split) <;> simp -implicitDefEqProofs

@[simp] theorem imageRun_memGood (a1 : BitVec 4) (a2 : ImageReq) (s : State) (h : memGood s.mem) : memGood (imageRun a1 a2
    s).mem := by
  unfold imageRun; (try dsimp only); (repeat' split) <;> simp (maxDischargeDepth := 9) -implicitDefEqProofs [h]

@[simp] theorem drainCore_frame (a1 : Core) (s : State) : (drainCore a1 s).dev = s.dev ∧
    (drainCore a1 s).freeCtr = s.freeCtr ∧ (drainCore a1 s).pending = s.pending := by
  unfold drainCore; (try dsimp only); and_intros <;> (repeat' split) <;> simp -implicitDefEqProofs [foldl_dev, foldl_freeCtr, foldl_pending]

@[simp] theorem drainCore_memGood (a1 : Core) (s : State) (h : memGood s.mem) : memGood (drainCore a1 s).mem := by
  unfold drainCore; (try dsimp only); (repeat' split) <;> simp (maxDischargeDepth := 9) -implicitDefEqProofs +contextual [h, foldl_memGood2]

@[simp] theorem lowPower_frame (s : State) : (lowPower s).cc = s.cc ∧ (lowPower s).dev = s.dev ∧
    (lowPower s).cores = s.cores ∧ (lowPower s).led = s.led ∧ (lowPower s).tim = s.tim ∧ (lowPower s).fd = s.fd ∧
    (lowPower s).th = s.th ∧ (lowPower s).stone = s.stone ∧ (lowPower s).bt = s.bt ∧ (lowPower s).host = s.host ∧
    (lowPower s).mem = s.mem ∧ (lowPower s).freeCtr = s.freeCtr ∧ (lowPower s).pending = s.pending := by
  and_intros <;> simp -implicitDefEqProofs [lowPower]

@[simp] theorem tick_frame (s : State) : (tick s).dev = s.dev ∧ (tick s).cores = s.cores ∧ (tick s).ports = s.ports ∧
    (tick s).led = s.led ∧ (tick s).tim = s.tim ∧ (tick s).fd = s.fd ∧ (tick s).th = s.th ∧ (tick s).stone = s.stone ∧
    (tick s).bt = s.bt ∧ (tick s).host = s.host ∧ (tick s).mem = s.mem ∧ (tick s).freeCtr = s.freeCtr ∧
    (tick s).pending = s.pending := by
  unfold tick; (try dsimp only); (repeat' split) <;> simp -implicitDefEqProofs

@[simp] theorem State.withFetchWord_frame (s : State) (a2 : Nat) (a3 : Nat) : (State.withFetchWord s a2 a3).cc = s.cc ∧
    (State.withFetchWord s a2 a3).dev = s.dev ∧ (State.withFetchWord s a2 a3).cores = s.cores ∧
    (State.withFetchWord s a2 a3).ports = s.ports ∧ (State.withFetchWord s a2 a3).led = s.led ∧
    (State.withFetchWord s a2 a3).tim = s.tim ∧ (State.withFetchWord s a2 a3).fd = s.fd ∧
    (State.withFetchWord s a2 a3).th = s.th ∧ (State.withFetchWord s a2 a3).stone = s.stone ∧
    (State.withFetchWord s a2 a3).bt = s.bt ∧ (State.withFetchWord s a2 a3).host = s.host ∧
    (State.withFetchWord s a2 a3).mem = s.mem ∧ (State.withFetchWord s a2 a3).freeCtr = s.freeCtr := by
  unfold State.withFetchWord; (try dsimp only); (repeat' split) <;> simp -implicitDefEqProofs

end Sys2Proof.Machine
end

