-- ==== Sys2Proof/Laws/Changes.lean ====
section
/-! SUPPORT. How a statement's words of Safety.lean follow from what a meaning computes: nothing fired, one port updated, one
event reported, and the events of a command written last. -/

namespace Sys2Proof.Machine

/-! ## Nothing but the areas -/

@[simp] theorem changesOnly_refl (l : List Area) (s : State) : changesOnly l s s := by simp [changesOnly]

theorem quiet_core (s t : State) (h : t.cores.map CoreSt.quiet = s.cores.map CoreSt.quiet) (c : Core) :
    (t.core c).quiet = (s.core c).quiet := by
  have h2 := congrArg (fun v => v[c]) h
  simpa [State.core] using h2

theorem same_cores (s t : State) (h : t.cores = s.cores) (c : Core) : t.core c = s.core c := by simp [State.core, h]

theorem same_ports (s t : State) (h : t.ports = s.ports) (n : Port) : t.port n = s.port n := by simp [State.port, h]

theorem host_writeEvent (s : State) (e arg : Nat) : (s.writeEvent e arg).host.quiet = s.host.quiet := by
  unfold State.writeEvent; simp only []; split <;> (try split) <;> rfl

@[simp] theorem host_flush_quiet (s : State) : s.flush.host.quiet = s.host.quiet :=
  foldl_writeEvent (fun s => s.host.quiet) host_writeEvent _ _

/-- What is fired is written last: it touches the event rings and their counts. -/
theorem changesOnly_flush {l : List Area} {s u : State} (he : Area.events ∈ l) (hs : s.evq = [])
    (h : changesOnly l s { u with evq := [] }) (hm : memGood u.mem) : changesOnly l s u.flush := by
  obtain ⟨h1, h2, h3, h4, h5, h6, h7, h8, h9, h10, h11, h12, h13, h14, h15⟩ := h
  refine ⟨by simpa using h1, by simp [hs], by simpa using h3, by simpa using h4, ?_, ?_, by simpa using h7, by simpa using h8,
    by simpa using h9, by simpa using h10, by simpa using h11, by simpa using h12, ?_, by simpa using h14, ?_⟩
  · intro c; rw [State.core_flush]; exact h5 c
  · intro n; rw [State.port_flush]; exact h6 n
  · rcases h13 with h | h | h
    · exact .inl h
    · refine .inr (.inr ⟨he, ?_⟩)
      rw [host_flush_quiet]; exact congrArg HostSt.quiet h
    · refine .inr (.inr ⟨he, ?_⟩)
      rw [host_flush_quiet]; exact h.2
  · intro a ha hr
    rw [u.flush_read a (of_decide_eq_true hm) (hr he)]
    exact h15 a ha hr

/-- With nothing fired a command ends in the state it computed. -/
theorem done_quiet (u : State) (h : u.evq = []) : done u = .next u := by unfold done; rw [u.flush_nil h]

/-- The parts one by one: cores, ports and memory are the ones that need an argument. -/
theorem changesOnly_of {l : List Area} {s u : State} (h0 : u.pending = s.pending ∧ u.evq = s.evq)
    (hcc : Area.clock ∈ l ∨ u.cc = s.cc) (hdev : Area.dev ∈ l ∨ u.dev = s.dev)
    (hc : ∀ c, Area.core c ∈ l ∨ Area.anyCore ∈ l ∨ u.core c = s.core c
      ∨ ((Area.events ∈ l ∨ Area.sources ∈ l) ∧ (u.core c).quiet = (s.core c).quiet))
    (hp : ∀ n, Area.port n ∈ l ∨ Area.anyPort ∈ l ∨ u.port n = s.port n)
    (h1 : (Area.led ∈ l ∨ u.led = s.led) ∧ (Area.tim ∈ l ∨ u.tim = s.tim) ∧ (Area.fd ∈ l ∨ u.fd = s.fd)
      ∧ (Area.th ∈ l ∨ u.th = s.th) ∧ (Area.stone ∈ l ∨ u.stone = s.stone) ∧ (Area.bt ∈ l ∨ u.bt = s.bt)
      ∧ (Area.bus ∈ l ∨ u.host = s.host) ∧ (Area.open_ ∈ l ∨ u.freeCtr = s.freeCtr))
    (hm : ∀ a, (∀ lo hi, Area.mem lo hi ∈ l → a < lo ∨ hi ≤ a) → (Area.events ∈ l → offRings a) →
      memRead u.mem a = memRead s.mem a) : changesOnly l s u :=
  ⟨h0.1, h0.2, hcc, hdev, hc, hp, h1.1, h1.2.1, h1.2.2.1, h1.2.2.2.1, h1.2.2.2.2.1, h1.2.2.2.2.2.1,
    h1.2.2.2.2.2.2.1.imp id .inl, h1.2.2.2.2.2.2.2, hm⟩

theorem changesOnly_updPort (s : State) (n : Port) (f : PortSt → PortSt) (l : List Area) (h : Area.port n ∈ l) :
    changesOnly l s (s.updPort n f) := by
  refine ⟨rfl, rfl, .inr rfl, .inr rfl, fun c => .inr (.inr (.inl rfl)), fun m => ?_, .inr rfl, .inr rfl, .inr rfl, .inr rfl,
    .inr rfl, .inr rfl, .inr (.inl rfl), .inr rfl, fun _ _ _ => rfl⟩
  by_cases hm : m = n
  · subst hm; exact .inl h
  · exact .inr (.inr (State.port_updPort_ne _ _ _ _ hm))

theorem changesOnly_updCore (s : State) (c : Core) (f : CoreSt → CoreSt) (l : List Area) (h : Area.core c ∈ l) :
    changesOnly l s (s.updCore c f) := by
  refine ⟨rfl, rfl, .inr rfl, .inr rfl, fun d => ?_, fun m => .inr (.inr rfl), .inr rfl, .inr rfl, .inr rfl, .inr rfl,
    .inr rfl, .inr rfl, .inr (.inl rfl), .inr rfl, fun _ _ _ => rfl⟩
  by_cases hd : d = c
  · subst hd; exact .inl h
  · exact .inr (.inr (.inl (State.core_updCore_ne _ _ _ _ hd)))

/-- A wait source that fires touches the wait sources of its core alone. -/
theorem changesOnly_fireSrc (s : State) (c : Core) (b : Nat) (l : List Area) (h : Area.events ∈ l ∨ Area.sources ∈ l) :
    changesOnly l s (s.fireSrc c b) :=
  ⟨rfl, rfl, .inr rfl, .inr rfl, fun d => .inr (.inr (.inr ⟨h, quiet_core _ _ (fireSrc_quiet s c b) d⟩)), fun _ => .inr (.inr rfl),
    .inr rfl, .inr rfl, .inr rfl, .inr rfl, .inr rfl, .inr rfl, .inr (.inl rfl), .inr rfl, fun _ _ _ => rfl⟩

/-- Two changes one after the other, none of them of the events' areas. -/
theorem changesOnly_trans {l : List Area} {s t u : State} (h : changesOnly l s t) (k : changesOnly l t u) : changesOnly l s u := by
  obtain ⟨h1, h2, h3, h4, h5, h6, h7, h8, h9, h10, h11, h12, h13, h14, h15⟩ := h
  obtain ⟨k1, k2, k3, k4, k5, k6, k7, k8, k9, k10, k11, k12, k13, k14, k15⟩ := k
  refine ⟨k1.trans h1, k2.trans h2, ?_, ?_, fun c => ?_, fun n => ?_, ?_, ?_, ?_, ?_, ?_, ?_, ?_, ?_, fun a ha hr =>
    (k15 a ha hr).trans (h15 a ha hr)⟩
  · rcases h3 with h | h
    · exact .inl h
    · exact k3.imp id (·.trans h)
  · rcases h4 with h | h
    · exact .inl h
    · exact k4.imp id (·.trans h)
  · rcases k5 c with k | k | k | k
    · exact .inl k
    · exact .inr (.inl k)
    · rw [k]; exact h5 c
    · rcases h5 c with h | h | h | h
      · exact .inl h
      · exact .inr (.inl h)
      · rw [h] at k; exact .inr (.inr (.inr k))
      · exact .inr (.inr (.inr ⟨k.1, k.2.trans h.2⟩))
  · rcases k6 n with k | k | k
    · exact .inl k
    · exact .inr (.inl k)
    · rw [k]; exact h6 n
  · rcases h7 with h | h
    · exact .inl h
    · exact k7.imp id (·.trans h)
  · rcases h8 with h | h
    · exact .inl h
    · exact k8.imp id (·.trans h)
  · rcases h9 with h | h
    · exact .inl h
    · exact k9.imp id (·.trans h)
  · rcases h10 with h | h
    · exact .inl h
    · exact k10.imp id (·.trans h)
  · rcases h11 with h | h
    · exact .inl h
    · exact k11.imp id (·.trans h)
  · rcases h12 with h | h
    · exact .inl h
    · exact k12.imp id (·.trans h)
  · rcases k13 with k | k | k
    · exact .inl k
    · rw [k]; exact h13
    · rcases h13 with h | h | h
      · exact .inl h
      · rw [h] at k; exact .inr (.inr k)
      · exact .inr (.inr ⟨k.1, k.2.trans h.2⟩)
  · rcases h14 with h | h
    · exact .inl h
    · exact k14.imp id (·.trans h)

/-! ## One port -/

theorem updPort_const (s : State) (n : Port) (f : PortSt → PortSt) : s.updPort n f = s.updPort n fun _ => f (s.port n) := rfl

/-- A command whose meaning is one update of a port sets that port. -/
theorem setsPort_of {c : Instr} {s : State} {n : Port} {p : PortSt} (f : PortSt → PortSt) (hs : s.settled)
    (h : exec c s = done (s.updPort n f)) (hp : f (s.port n) = p) : setsPort c s n p := by
  refine ⟨s.updPort n f, ?_, ?_, changesOnly_updPort _ _ _ _ (by simp)⟩
  · rw [h, done_quiet _ (by simpa using hs.2)]
  · simp [hp]

theorem idles_of {c : Instr} {s : State} (hs : s.settled) (h : exec c s = done s) : idles c s := by
  unfold idles; rw [h, done_quiet _ hs.2]

/-! ## Events -/

theorem State.flush_loghead_one (u : State) (e arg : Nat) (h : u.evq = [(e, arg)]) :
    u.flush.host.loghead = u.host.loghead + 1 := by rw [u.flush_one e arg h]; simp

/-- One event fired is reported. -/
theorem logs_flush {s u : State} {e arg : Nat} (h : u.evq = [(e, arg)]) (hm : memGood u.mem)
    (hh : u.host.loghead = s.host.loghead) : logs s u.flush e arg := by
  refine ⟨by rw [u.flush_loghead_one e arg h, hh], ?_⟩
  rw [← hh, u.flush_one e arg h]
  have := ({ u with evq := [] } : State).writeEvent_log e arg (of_decide_eq_true hm)
  simpa [State.timeUs] using this

end Sys2Proof.Machine
end

