-- ==== Sys2Proof/WellFormed.lean ====
section
/-! DEFINITION. Which commands are well-formed: operands that the row of the table can have. Every command has an effect
whether or not it is well-formed; the checks say what a sender is expected to send. -/

namespace Sys2Proof

/-- At most 15 objects (R112, R113). -/
def objsOk (l : List Word) : Bool := decide (l.length ≤ 15)

/-- A wheel port. -/
def wheelPort (n : Port) : Bool := decide (n.val < 12)

/-- A coupling port that can signal: every port but B (R87). -/
def linePort (n : Port) : Bool := decide (n ≠ portB)

/-- No port is sampled twice (R416). -/
def samplesOk (l : List PortSample) : Bool := decide ((l.map fun x => x.port).Nodup)

/-- Stone words lie in 0-2047, none read twice (R453, R457). -/
def readsOk (l : List StoneRead) : Bool := (l.all fun x => decide (x.word < 2048)) && decide ((l.map fun x => x.word).Nodup)

/-- A policy core. -/
def policyCore (c : Core) : Bool := decide (c.val = 4) || decide (c.val = 5)

/-- Well-formed commands. -/
def Instr.wf : Instr → Bool
  | .msgComplete c => policyCore c
  | .pcAutoRestart c => policyCore c
  | .ripreqReq c _ => decide (c ≠ coreSV)
  | .imemRipenSafePoint c => decide (c ≠ coreSV)
  | .ripenTimeout c => decide (c ≠ coreSV)
  | .restart c _ => decide (c ≠ coreSV)
  | .watchdogExpiry c => decide (c ≠ coreSV)
  | .toneLeadingEdge n _ => wheelPort n
  | .toneTrailingEdge n _ => wheelPort n
  | .angctlWrite n _ _ => wheelPort n
  | .angleModeTimeout n => wheelPort n
  | .suspTimeout n => wheelPort n
  | .tokenReturn n => wheelPort n
  | .burstTolExpiry n => wheelPort n
  | .burstTmaxExpiry n => wheelPort n
  | .markStart n => wheelPort n
  | .markEnd n => wheelPort n
  | .angleUpdate n _ => wheelPort n
  | .cfReadingChange n _ _ => linePort n
  | .frameReceived n f _ => linePort n && objsOk f.objs
  | .nod n f => linePort n && objsOk f.objs
  | .caps n m _ => linePort n && objsOk m.objs
  | .getcaps n m a => linePort n && objsOk m.objs && objsOk a
  | .info n m => linePort n && objsOk m.objs
  | .relay n m _ => linePort n && objsOk m.objs
  | .telemetryTick l _ => samplesOk l
  | .thermalRound l => decide (l.length = 24)
  | .boot _ l _ => readsOk l
  | .portBlockRead c _ => decide (0x10 ≤ c.toNat ∧ c.toNat ≤ 0x3F)
  | .portBlockWrite c _ => decide (0x10 ≤ c.toNat ∧ c.toNat ≤ 0x3F)
  | .globalBlockRead c _ => decide (0x40 ≤ c.toNat ∧ c.toNat ≤ 0x6F)
  | .globalBlockWrite c _ => decide (0x40 ≤ c.toNat ∧ c.toNat ≤ 0x6F)
  | _ => true

end Sys2Proof
end

