-- ==== Sys2Proof/Tests/Slice0.lean ====
section
/-! SUPPORT. Tests: the well-formedness checks, single steps against the manual's worked examples and rules, and for every
statement states that meet the premises of its clauses. -/

namespace Sys2Proof.Tests
open Sys2Proof Sys2Proof.Machine

set_option maxRecDepth 20000
set_option Elab.async false

/-! ## States -/

/-- A hub that runs, fed by KU. -/
def hub : State := { State.reset with
  cc := 900000, dev := { State.reset.dev with mode := .running }
  fd := { State.reset.fd with feed := .ku, uv := ⟨true, false⟩, ov := ⟨true, false⟩, vhost := true, hbusMv := 48000 } }

/-- The hub with port 5 changed. -/
def p5 (f : PortSt → PortSt) : State := hub.updPort 5 f

/-- The hub with a power of a and some of it to give. -/
def avail (a : Nat) (s : State) : State := { s with led := { s.led with avail := a, hard := a + 50 } }

/-- The hub with the stage of port 5 changed. -/
def st5 (f : StageSt → StageSt) : State := hub.updSt 5 f

/-- The hub with the wheel of port 3 changed from a running one. -/
def wh3 (f : WheelSt → WheelSt) : State := hub.updWh 3 fun w =>
  f { w with angctl := 0x805000D0, mode := .time, tpos := 3, tone := ⟨true, false⟩, synthCc := 899000 }

/-- A wheel whose tooth began d cycles ago. -/
def tooth (d : Nat) : State := wh3 fun w => { w with fallSeen := true, fall := BitVec.ofNat 32 (900000 - d) }

/-- The hub with counter 3 changed. -/
def ctr (f : Counter → Counter) : State := hub.updCounter 3 f

/-! ## Well-formedness: each check refuses an ill-formed command and passes a well-formed one -/

/-- A message with k objects. -/
def msgOf (k : Nat) : Msg := { id := 0, role := false, objs := List.replicate k 0 }

/-- A frame with k objects. -/
def frmOf (k : Nat) : FrameRx :=
  { sync := true, framing := true, addr := 0x10, hdr := 0, objs := List.replicate k 0, crc := 0 }

/-- Conversions of port n. -/
def smpOf (n : Port) : PortSample := { port := n, vPort := 0, vStage := 0, iPort := 0 }

/-- A read of Stone word k. -/
def srOf (k : Nat) : StoneRead := { word := k, normal := 0, low := 0, high := 0 }

/-- An empty transaction. -/
def xNone : Xact := { shape := .commandOnly, count := 0, bytes := [], ending := .stop, whole := true, rise := none }

/-- Only the policy cores complete ring operations and restart themselves (R269). -/
theorem test_wf_policy_core :
    (Instr.msgComplete 3).wf = false ∧ (Instr.pcAutoRestart 6).wf = false ∧ (Instr.msgComplete 4).wf = true := by decide

/-- SV has no RIPREQ, no restart bit and no watchdog of R263. -/
theorem test_wf_not_sv :
    (Instr.ripreqReq 6 .host).wf = false ∧ (Instr.imemRipenSafePoint 6).wf = false ∧ (Instr.ripenTimeout 6).wf = false
    ∧ (Instr.restart 6 .host).wf = false ∧ (Instr.watchdogExpiry 6).wf = false ∧ (Instr.restart 5 .host).wf = true := by
  decide

/-- Only W ports have a wheel (R376). -/
theorem test_wf_wheel_port :
    (Instr.toneLeadingEdge 12 0).wf = false ∧ (Instr.toneTrailingEdge 12 0).wf = false
    ∧ (Instr.angctlWrite 13 .host 0).wf = false ∧ (Instr.angleModeTimeout 14).wf = false ∧ (Instr.suspTimeout 15).wf = false
    ∧ (Instr.tokenReturn 12).wf = false ∧ (Instr.burstTolExpiry 12).wf = false ∧ (Instr.burstTmaxExpiry 12).wf = false
    ∧ (Instr.markStart 12).wf = false ∧ (Instr.markEnd 12).wf = false ∧ (Instr.angleUpdate 12 0).wf = false
    ∧ (Instr.markStart 11).wf = true := by decide

/-- B has no configuration wires and no line (R87). -/
theorem test_wf_line_port :
    (Instr.cfReadingChange 14 .hold .hold).wf = false ∧ (Instr.frameReceived 14 (frmOf 0) 0).wf = false
    ∧ (Instr.nod 14 (frmOf 0)).wf = false ∧ (Instr.caps 14 (msgOf 1) .nothing).wf = false
    ∧ (Instr.caps 15 (msgOf 1) .nothing).wf = true := by decide

/-- A message holds at most 15 objects (R113). -/
theorem test_wf_objects :
    (Instr.frameReceived 3 (frmOf 16) 0).wf = false ∧ (Instr.nod 3 (frmOf 16)).wf = false
    ∧ (Instr.caps 3 (msgOf 16) .nothing).wf = false ∧ (Instr.getcaps 3 (msgOf 0) (List.replicate 16 0)).wf = false
    ∧ (Instr.info 3 (msgOf 16)).wf = false ∧ (Instr.relay 12 (msgOf 16) 0).wf = false
    ∧ (Instr.frameReceived 3 (frmOf 15) 0).wf = true := by decide

/-- One sample a port, one read a Stone word, 24 thermal readings. -/
theorem test_wf_lists :
    (Instr.telemetryTick [smpOf 3, smpOf 3] 0).wf = false ∧ (Instr.telemetryTick [smpOf 3, smpOf 4] 0).wf = true
    ∧ (Instr.boot 0 [srOf 2048] 25).wf = false ∧ (Instr.boot 0 [srOf 5, srOf 5] 25).wf = false
    ∧ (Instr.boot 0 [srOf 5] 25).wf = true ∧ (Instr.thermalRound [none]).wf = false
    ∧ (Instr.thermalRound (List.replicate 24 none)).wf = true := by decide

/-- The block codes of R505. -/
theorem test_wf_block_codes :
    (Instr.portBlockRead 0x40 xNone).wf = false ∧ (Instr.portBlockWrite 0x0F xNone).wf = false
    ∧ (Instr.globalBlockRead 0x3F xNone).wf = false ∧ (Instr.globalBlockWrite 0x70 xNone).wf = false
    ∧ (Instr.portBlockRead 0x3F xNone).wf = true ∧ (Instr.globalBlockWrite 0x6F xNone).wf = true := by decide

/-! ## The manual's worked figures -/

/-- The ASCII bytes "123456789". -/
def digits : List Byte := [0x31, 0x32, 0x33, 0x34, 0x35, 0x36, 0x37, 0x38, 0x39]

/-- R114: the frame CRC of "123456789". -/
theorem test_crc32 : crc32 digits = 0xFC891918 := by decide +kernel

/-- R502: the PEC of "123456789". -/
theorem test_pec : pecOf digits = 0xF4 := by decide +kernel

/-- FIPS 180-4, the hash the images name: SHA-256 of "abc". -/
theorem test_sha256_abc :
    sha256Nat [0x61, 0x62, 0x63] = 0xba7816bf8f01cfea414140de5dae2223b00361a396177a9cb410ff61f20015ad := by decide +kernel

/-- The word of "Encoding a MOVE3L instruction" (R233 to R236). -/
def move3l : BitVec 128 := 0x10018000850640052000000000123456

/-- The example after R236: its format, its slots and its long immediate. -/
theorem test_move3l :
    formatOf move3l = 1 ∧ limmOf move3l = 0x00123456 ∧ slotOf move3l 0 = ⟨false, 0, false, 0x030, 0x001, 0⟩
    ∧ slotOf move3l 1 = ⟨false, 2, true, 100, 0x005, 0⟩ ∧ (slotOf move3l 2).nop = true ∧ fmtCauses move3l = [] := by
  decide +kernel

/-- The hub with LE0 running at index 0 of its green bank A, the word `w` there, and guard 2 as given. -/
def le0At (w : BitVec 128) (g2 : Bool) : State :=
  ({ hub with mem := memWriteN hub.mem 0x10000000 (toBytesLE 16 w.toNat) }).updCore 0 fun k =>
    { k with run := .run, inRom := false, bank := false, pc := 0, guards := if g2 then 5 else 1 }

/-- R235, R239: the example's moves run, the guarded one only under its guard. -/
theorem test_move3l_runs :
    let on := issue 0 .none (le0At move3l true)
    let off := issue 0 .none (le0At move3l false)
    (on.core 0).locals[1] = 0x00123456 ∧ (on.core 0).locals[5] = 100 ∧ (off.core 0).locals[1] = 0x00123456
    ∧ (off.core 0).locals[5] = 0 := by decide +kernel

/-- "Two terms with opposite shifts": 0.25 × 0.75 / 2, then + 0.5 × 0.5 × 2. -/
theorem test_macxy_opposite_shifts :
    let a := (macxy 0 0x20000000 0x60000000 1 true false).1
    (accRead a).1 = 0x0C000000 ∧ (accRead (macxy a 0x40000000 0x40000000 0x3F false false).1).1 = 0x4C000000 := by
  decide +kernel

/-- "Turning a PI compensator into Y words": the kp and ki terms of an error of 32 mV. -/
theorem test_macxy_pi_terms :
    (accRead (macxy 0 0x00200000 0x51EB851F 0x3E true false).1).1 = 0x0051EB85
    ∧ (accRead (macxy 0 0x00200000 0x4EA4A8C1 0x06 true false).1).1 = 0x00004EA5 := by decide +kernel

/-- A ledger with the given AVAIL and grants. -/
def ledgerAt (avail : Nat) (held : Vector Nat 16) : State :=
  { hub with led := { hub.led with avail := avail, hard := avail, held := held } }

/-- The books of "the ledger at the reference full load": twelve W ports at 600, KD 10000, B 2800. -/
def fullLoad : Vector Nat 16 := ((Vector.replicate 16 600).set 12 0).set 13 10000 |>.set 14 2800 |>.set 15 0

/-- Steps 3 to 7 of that example: KD's rise to 10500 is granted, W3's to 1000 then refused. -/
theorem test_ledger_full_load :
    let a := opRaise 13 10500 0 (ledgerAt 20800 fullLoad)
    let b := opRaise 3 1000 0 a.2
    a.1 = 1 ∧ a.2.led.grantSum = 20500 ∧ b.1 = 2 ∧ b.2.led.held[3] = 600 := by decide +kernel

/-- The books of "how many tokens a feed can carry". -/
def tokenLoad : State :=
  let s := ledgerAt 8800 (((Vector.replicate 16 480).set 12 0).set 13 0 |>.set 14 1000 |>.set 15 0)
  { s with led := { s.led with tokpwr := (Vector.replicate 16 0).set 3 720, tokens := 0, cut := false } }

/-- That example's table: four and three tokens refused, two accepted. -/
theorem test_tokens_refused_and_accepted :
    (opTokens 4 tokenLoad).1 = false ∧ (opTokens 3 tokenLoad).1 = false ∧ (opTokens 2 tokenLoad).1 = true
    ∧ tokenLoad.led.grantSum = 6760 := by decide +kernel

/-- "KU moves from its default contract to 48 V bypass" (R140): 24.0 V at 10.0 A and 48.0 V at 45.0 A. -/
theorem test_contract_power : powerDown 480 100 = 2400 ∧ powerDown 960 450 = 21600 := by decide

/-- "A wheel-end module that fails to a 3.0 Ω short" (R410): 10 ms gives 990 ms, 20 ms gives 1980 ms at a duty of 1 %. -/
theorem test_off_times : offTimeUs 10000 2 = 990000 ∧ offTimeUs 20000 2 = 1980000 := by decide

/-- "A burst window on W4 at 90 km/h" (R376, R378): the tooth angles of 80 teeth, and 0x4800 reached half a tooth on. -/
theorem test_tooth_angles :
    let w := { (hub.port 4).wh with angctl := 0x80500000, tpos := 22, angper := 480000 }
    toothBase 80 20 = 0x4000 ∧ toothBase 80 22 = 18022 ∧ toothBase 80 23 = 18842 ∧ w.toothTu 240000 = 0x4800 := by
  decide +kernel

/-- The same example's mark codes at turn 0x0123 (R122). -/
theorem test_mark_codes : markCode ⟨true, 0x23⟩ = 0xA3 ∧ markCode ⟨false, 0x23⟩ = 0x63 := by decide

/-- "Reading and writing KU through blocks" (R505). -/
theorem test_block_rows :
    let s := { hub with host := { hub.host with portsel := 12 } }
    rowAddr s 0x10 = 0x4001C000 ∧ rowAddr s 0x20 = 0x4001C200 ∧ rowAddr s 0x48 = 0x40000200 := by decide +kernel

/-- "An event read broken off and read again": a hub strapped to the lowest address answers at 0x58 (R495). -/
theorem test_hub_address : hub.addrByte = 0xB0 := by decide +kernel

/-- The table gives no row bits. -/
theorem test_no_words : decodeTableWord 8 0x5A = none ∧ (State.reset.withFetchWord 8 0x5A) = State.reset := by
  decide +kernel

/-! ## Single commands -/

/-- R209: a trip after blanking sets the latch. -/
theorem test_peak_trip :
    let s := st5 fun t => { t with mode := .buckOut }
    (match exec (.peakTrip 5 false) s with | .next t => (t.port 5).st.pkLat | _ => false) = true := by decide +kernel

/-- R199: a hard short forces the stage off. -/
theorem test_hard_short :
    (match exec (.hardShortTrip 5) (st5 fun t => { t with mode := .buckOut }) with
     | .next t => decide ((t.port 5).st.mode = .off)
     | _ => false) = true := by decide +kernel

/-- R519: an EVCOUNT on an empty ring answers N = 2 and 0. -/
theorem test_evcount_empty :
    let x : Xact := { shape := .readWord, count := 0, bytes := [], ending := .repStart, whole := true, rise := none }
    (match exec (.evcount x) hub with | .next t => t.host.sent | _ => [1]) = [0, 0] := by decide +kernel

/-! ## States that meet the premises of the statements -/

/-- Each clause of StepRunsTheFrontCommand has a state that meets its premises. -/
theorem wit_StepRunsTheFrontCommand :
    (
      let s := { hub with pending := [.quick, .brownOut] }; s.pending = .quick :: [.brownOut]) := by
  decide +kernel

/-- Each clause of EmptyQueueTicks has a state that meets its premises. -/
theorem wit_EmptyQueueTicks :
    (
      hub.pending = [] ∧ hub.dev.asleep = false ∧ hub.dev.hold = .none)
    ∧ (
      let s := { hub with dev := { hub.dev with asleep := true } }; s.pending = [] ∧ s.dev.asleep = true)
    ∧ (
      let s := { hub with dev := { hub.dev with hold := .brownOut } }; s.pending = [] ∧ s.dev.hold ≠ .none) := by
  refine ⟨?_, ?_, ?_⟩ <;> decide +kernel

/-- Each clause of EveryStepKeepsSettled has a state that meets its premises. -/
theorem wit_EveryStepKeepsSettled :
    (
      hub.settled ∧ (match step hub with | .next t => decide t.settled | _ => false) = true) := by
  decide +kernel

/-- Each clause of MemoryReadsBack has a state that meets its premises. -/
theorem wit_MemoryReadsBack :
    (
      Memory.wf [(0x20000000, (5 : Byte)), (0x3FFFFFFF, 1)]) := by
  decide +kernel

/-- Each clause of OnTimesEndAndLatchesClear has a state that meets its premises. -/
theorem wit_OnTimesEndAndLatchesClear :
    (
      let s := st5 fun t => { t with mode := .buckOut, startCc := 899988 }; let p := s.port 5
      s.settled ∧ p.st.mode.converting = true ∧ p.ripe.blank ≤ s.cc - p.st.startCc ∧ p.ripe.blank = s.cc - p.st.startCc)
    ∧ (
      let s := st5 fun t => { t with mode := .bypass, startCc := 899988 }; let p := s.port 5
      s.settled ∧ p.st.mode = .bypass ∧ p.ripe.blank ≤ s.cc - p.st.startCc)
    ∧ (
      let s := st5 fun t => { t with mode := .buckOut, startCc := 899989 }; let p := s.port 5
      s.settled ∧ p.st.mode.converting = true ∧ s.cc - p.st.startCc < p.ripe.blank)
    ∧ (
      hub.settled ∧ (hub.port 5).st.mode = .off)
    ∧ (
      let s := st5 fun t => { t with active := true, startCc := 900000 - (hub.port 5).dmaxNow 5 }; let p := s.port 5
      s.settled ∧ p.st.active = true ∧ p.st.ended = false ∧ p.dmaxNow 5 ≤ s.cc - p.st.startCc)
    ∧ (
      let s := st5 fun t => { t with ended := true }; s.settled ∧ (s.port 5).st.ended = true)
    ∧ (
      hub.settled ∧ hub.has 5 = true ∧ (Writer.core 1 = .core (leOf 5)) ∧ (hub.port 5).st.pkTripCc ≠ some hub.cc ∧ (4 : Core) ≠ leOf 5)
    ∧ (
      let s := st5 fun t => { t with pkTripCc := some 900000 }; s.settled ∧ s.has 5 = true ∧ (s.port 5).st.pkTripCc = some s.cc) := by
  refine ⟨?_, ?_, ?_, ?_, ?_, ?_, ?_, ?_⟩ <;> decide +kernel

/-- Each clause of PeriodStartsApplyWhatWaits has a state that meets its premises. -/
theorem wit_PeriodStartsApplyWhatWaits :
    (
      let s := st5 fun t => { t with mode := .buckOut }; let p := s.port 5
      s.settled ∧ s.has 5 = true ∧ s.dev.hold = .none ∧ s.dev.asleep = false ∧ s.cc ≤ 900000 ∧ p.st.force = [] ∧ p.st.pendMode = none ∧ p.st.bypExit = none
      ∧ p.st.mode.converting = true)
    ∧ (
      let s := hub.updSt 0 fun t => { t with mode := .boostOut }; let p := s.port 0
      s.settled ∧ p.st.mode.converting = true ∧ s.tim.lock = false)
    ∧ (
      let s := st5 fun t => { t with pendMode := some .buckIn }; let p := s.port 5
      s.settled ∧ s.has 5 = true ∧ s.dev.hold = .none ∧ s.dev.asleep = false ∧ s.cc ≤ 900000 ∧ p.st.force = [] ∧ p.st.pendMode = some .buckIn ∧ p.st.pendCc ≠ 900000 ∧ p.st.bypExit = none)
    ∧ (
      let s := st5 fun t => { t with pendMode := some .bypass }; let p := s.port 5
      s.settled ∧ s.has 5 = true ∧ s.dev.hold = .none ∧ s.dev.asleep = false ∧ s.cc ≤ 900000 ∧ p.st.force = [] ∧ p.st.pendMode = some .bypass ∧ p.st.pendCc ≠ 900000 ∧ p.st.bypExit = none ∧ 999 < 1000 ∧ s.mayBypass 5 = true)
    ∧ (
      let s := st5 fun t => { t with pendMode := some .buckIn, pendCc := 900000, prevMode := some .boostOut }; let p := s.port 5
      s.settled ∧ s.has 5 = true ∧ s.dev.hold = .none ∧ s.dev.asleep = false ∧ s.cc ≤ 900000 ∧ p.st.force = [] ∧ p.st.pendMode = some .buckIn ∧ p.st.bypExit = none ∧ p.st.pendCc = 900000 ∧ p.st.prevMode = some .boostOut)
    ∧ (
      let s := st5 fun t => { t with pendMode := some .buckIn, pendCc := 900000 }; let p := s.port 5
      s.settled ∧ s.has 5 = true ∧ s.dev.hold = .none ∧ s.dev.asleep = false ∧ s.cc ≤ 900000 ∧ p.st.force = [] ∧ p.st.pendMode = some .buckIn ∧ p.st.bypExit = none ∧ p.st.pendCc = 900000 ∧ p.st.prevMode = none) := by
  refine ⟨?_, ?_, ?_, ?_, ?_, ?_⟩ <;> decide +kernel

/-- Each clause of SamplesReachTheirSlots has a state that meets its premises. -/
theorem wit_SamplesReachTheirSlots :
    (
      hub.settled ∧ hub.has 5 = true ∧ hub.cc ≤ 900000)
    ∧ (
      let s := st5 fun t => { t with setDue := [0x0E, 2] }; s.settled ∧ s.has 5 = true ∧ (s.port 5).st.setDue = 0x0E :: [2]
      ∧ bitOf (0x0E : BitVec 8) 1 = true ∧ bitOf (0x0E : BitVec 8) 2 = true ∧ bitOf (0x0E : BitVec 8) 3 = true) := by
  refine ⟨?_, ?_⟩ <;> decide +kernel

/-- Each clause of ComparatorsFollowTheirInputs has a state that meets its premises. -/
theorem wit_ComparatorsFollowTheirInputs :
    (
      let p := hub.port 5
      hub.settled ∧ hub.has 5 = true ∧ p.st.ov.out = false ∧ p.st.uv.out = false ∧ p.pw.sw = .off ∧ p.pw.pg = false ∧ hub.fedElsewhere 5)
    ∧ (
      let s := st5 fun t => { t with ov := ⟨true, true⟩, uv := ⟨true, true⟩ }; let p := s.port 5
      s.settled ∧ p.st.ov = ⟨true, true⟩ ∧ p.st.uv = ⟨true, true⟩)
    ∧ (
      hub.settled ∧ ForceSource.seatBreak ∉ (hub.port 5).st.force ∧ hub.signals 5 = true ∧ hub.signals portB = false ∧ hub.has 5 = true
      ∧ hub.fd.ov.out = false ∧ hub.dev.hold ≠ .brownOut)
    ∧ (
      let s := st5 fun t => { t with mode := .buckOut }; s.settled ∧ s.has 5 = true ∧ s.hsArmed 5 = true) := by
  refine ⟨?_, ?_, ?_, ?_⟩ <;> decide +kernel

/-- Each clause of HardShortTurnsTheStageOff has a state that meets its premises. -/
theorem wit_HardShortTurnsTheStageOff :
    (
      let s := st5 fun t => { t with mode := .buckOut }; let p := s.port 5
      s.settled ∧ s.has 5 = true ∧ s.eventsOn = true ∧ (5 : Port) ≠ portB ∧ p.st.mode ≠ .off ∧ p.st.force = [] ∧ p.pw.sw = .off
      ∧ p.pw.pg = false ∧ p.ct.state = .none ∧ p.wh.burstOpen = false ∧ s.isFeed 5 = false ∧ s.fd.pre = false) := by
  decide +kernel

/-- Each clause of SelfTestsRunAndEnd has a state that meets its premises. -/
theorem wit_SelfTestsRunAndEnd :
    (
      let v : Word := 0x00010200
      hub.settled ∧ hub.has 5 = true ∧ (hub.port 5).st.testBusy = false ∧ fld v 18 16 ≠ 0 ∧ fld v 11 8 < 4
      ∧ testRefused hub 5 (fld v 11 8) (fld v 18 16) = false ∧ hub.fd.testBusy = false ∧ fld v 18 16 ≤ 3)
    ∧ (
      let s := st5 fun t => { t with testBusy := true, testSel := 2 }; let p := s.port 5
      s.settled ∧ p.st.testBusy = true ∧ p.st.testSel = 2 ∧ fld (0x00030000 : Word) 18 16 = 3)
    ∧ (
      let s := { hub with fd := { hub.fd with testBusy := true, testSel := true } }
      s.settled ∧ s.fd.testBusy = true ∧ s.fd.testSel = true) := by
  refine ⟨?_, ?_, ?_⟩ <;> decide +kernel

/-- Each clause of CountersTickAndLink has a state that meets its premises. -/
theorem wit_CountersTickAndLink :
    (
      let s := ctr fun c => { c with run := true, count := 5 }; let c := (s.tim.counters[3]).atTick s.cc
      s.settled ∧ c.run = true ∧ tickLive s 3 = true ∧ gatedOff s 3 = false ∧ c.count ≠ 0 ∧ c.count - 1 ≠ c.cmp ∧ c.preEmpted s.cc = false)
    ∧ (
      let s := ctr fun c => { c with run := true }; let c := (s.tim.counters[3]).atTick s.cc
      s.settled ∧ c.run = true ∧ tickLive s 3 = true ∧ gatedOff s 3 = false ∧ c.count = 0 ∧ c.reload ≠ c.cmp ∧ c.levt ≠ 1)
    ∧ (
      let s := ctr fun c => { c with run := true, count := 1 }; let c := (s.tim.counters[3]).atTick s.cc
      s.settled ∧ c.run = true ∧ tickLive s 3 = true ∧ gatedOff s 3 = false ∧ c.count ≠ 0 ∧ c.count - 1 = c.cmp ∧ c.preEmpted s.cc = false
      ∧ c.mself = 0 ∧ c.levt ≠ 2)
    ∧ (
      hub.settled ∧ ((hub.tim.counters[3]).atTick hub.cc).run = false ∧ (let t := { hub.tim with tbind := hub.tim.tbind.set 9 0x1301 }
      fld t.tbind[9] 2 0 = 1 ∧ fld t.tbind[9] 15 8 = 3 + 16))
    ∧ (
      let s := ctr fun c => { c with run := true, count := 5, due := [(900000, .stop)] }; let c := (s.tim.counters[3]).atTick s.cc
      s.settled ∧ c.count ≠ 0 ∧ c.preEmpted s.cc = true)
    ∧ (
      let s := ctr fun c => { c with run := true, link := place 1 12 ||| place 1 10 ||| place 20 0 }; let c := (s.tim.counters[3]).atTick s.cc
      s.settled ∧ (4 : Fin 24) ≠ 3 ∧ c.run = true ∧ tickLive s 3 = true ∧ gatedOff s 3 = false ∧ c.count = 0 ∧ c.reload ≠ c.cmp ∧ c.levt = 1
      ∧ c.target = 4 + 16 ∧ c.lact = 1 ∧ (s.tim.counters[4]).due = [])
    ∧ (
      let s := ctr fun c => { c with run := true, link := place 2 12 ||| place 1 10 ||| place 20 0 }; let c := (s.tim.counters[3]).atTick s.cc
      s.settled ∧ (4 : Fin 24) ≠ 3 ∧ c.run = true ∧ tickLive s 3 = true ∧ gatedOff s 3 = false ∧ c.count = 0 ∧ c.reload ≠ c.cmp ∧ c.levt = 1
      ∧ c.target = 4 + 16 ∧ c.lact = 2 ∧ (s.tim.counters[4]).due = [])
    ∧ (
      let s := ctr fun c => { c with run := true, link := place 3 12 ||| place 1 10 ||| place 20 0 }; let c := (s.tim.counters[3]).atTick s.cc
      s.settled ∧ (4 : Fin 24) ≠ 3 ∧ c.run = true ∧ tickLive s 3 = true ∧ gatedOff s 3 = false ∧ c.count = 0 ∧ c.reload ≠ c.cmp ∧ c.levt = 1
      ∧ c.target = 4 + 16 ∧ c.lact = 3 ∧ (s.tim.counters[4]).due = []) := by
  refine ⟨?_, ?_, ?_, ?_, ?_, ?_, ?_, ?_⟩ <;> decide +kernel

/-- Each clause of CapturesAndSync has a state that meets its premises. -/
theorem wit_CapturesAndSync :
    (
      let s := { hub with tim := { hub.tim with gisel := 0x11111111, cherries := hub.tim.cherries.set 2 { Cherry.reset with ctl := 1, other := true } } }
      s.settled ∧ s.cc ≤ 900000 ∧ bitOf ((s.tim.cherries[2]).now 900000).ctl 0 = true ∧ giLive s 2 = true
      ∧ bitOf ((s.tim.cherries[1]).now 900000).ctl 0 = false)
    ∧ (
      hub.tim.syncEn = true ∧ hub.tim.lock = false)
    ∧ (
      let s := { hub with tim := { hub.tim with acq := true } }; s.settled ∧ s.tim.syncEn = true ∧ s.tim.acq = true)
    ∧ (
      let s := { hub with tim := { hub.tim with lock := true } }; s.settled ∧ s.tim.lock = true)
    ∧ (
      let s := { hub with tim := { hub.tim with syncEn := false } }; s.settled ∧ s.tim.syncEn = false) := by
  refine ⟨?_, ?_, ?_, ?_, ?_⟩ <;> decide +kernel

/-- Each clause of ToneEdgesMoveTheTracker has a state that meets its premises. -/
theorem wit_ToneEdgesMoveTheTracker :
    (
      let s := wh3 fun w => { w with tpos := 78 }; let w := (s.port 3).wh
      s.settled ∧ isW 3 = true ∧ s.has 3 = true ∧ s.cc ≤ 900000 ∧ w.en = true ∧ w.tone.valid = true ∧ w.dir = false ∧ w.mode = .time
      ∧ w.tpos + 1 < w.teeth)
    ∧ (
      let s := tooth 12000; let w := (s.port 3).wh; let width := ((BitVec.ofNat 32 900000 : Word) - w.fall).toNat
      s.settled ∧ w.en = true ∧ w.mode = .time ∧ w.fallSeen = true ∧ 12000 = width ∧ w.lastLead = none ∧ w.sync = false)
    ∧ (
      let s := tooth 18000; let w := (s.port 3).wh; ((BitVec.ofNat 32 900000 : Word) - w.fall).toNat = 18000 ∧ w.lastLead = none)
    ∧ (
      let s := tooth 54000; let w := (s.port 3).wh
      s.settled ∧ ((BitVec.ofNat 32 900000 : Word) - w.fall).toNat = 54000 ∧ w.lastLead = none ∧ w.sync = false ∧ w.runs = [])
    ∧ (
      let s := tooth 33000; let w := (s.port 3).wh
      s.settled ∧ ((BitVec.ofNat 32 900000 : Word) - w.fall).toNat = 33000 ∧ w.burstOpen = false ∧ 2 ≤ w.tpos)
    ∧ (
      let s := tooth 66001; let w := (s.port 3).wh
      s.settled ∧ 66000 < ((BitVec.ofNat 32 900000 : Word) - w.fall).toNat ∧ w.sync = false ∧ 1 ≤ w.tpos)
    ∧ (
      hub.settled ∧ (hub.port 3).wh.en = false ∧ (hub.port 3).wh.tone.valid = false) := by
  refine ⟨?_, ?_, ?_, ?_, ?_, ?_, ?_⟩ <;> decide +kernel

/-- Each clause of WheelModesAndAngle has a state that meets its premises. -/
theorem wit_WheelModesAndAngle :
    (
      let w := (hub.port 3).wh; let v : Word := 0x80080001
      hub.settled ∧ isW 3 = true ∧ hub.has 3 = true ∧ w.en = false ∧ w.mode = .off ∧ bitOf v 31 = true ∧ 8 ≤ fld v 23 16 ∧ fld v 15 0 ≠ 0)
    ∧ (
      let s := wh3 id; let w := (s.port 3).wh; let v : Word := 0x00500001
      s.settled ∧ w.en = true ∧ w.burstOpen = false ∧ w.mode ≠ .off ∧ bitOf v 31 = false ∧ 8 ≤ fld v 23 16 ∧ fld v 15 0 ≠ 0
      ∧ fld v 23 16 = w.teeth)
    ∧ (
      fld (0x80070001 : Word) 23 16 < 8 ∧ (wh3 id).settled ∧ (let w := ((wh3 id).port 3).wh; w.en = true ∧ fld (0x80510001 : Word) 23 16 ≠ w.teeth))
    ∧ (
      let s := wh3 fun w => { w with mode := .angle }; s.settled ∧ (s.port 3).wh.mode = .angle ∧ (s.port 3).wh.mode ≠ .susp)
    ∧ (
      let s := wh3 fun w => { w with mode := .susp }; s.settled ∧ (s.port 3).wh.mode = .susp ∧ (s.port 3).wh.mode ≠ .angle)
    ∧ (
      let s := wh3 id; let w := (s.port 3).wh
      s.settled ∧ s.cc ≤ 900000 ∧ w.mode = .time ∧ w.tu.toNat + ((900000 - w.synthCc) * 65536 + w.synthRem) / w.tintCc < 65536) := by
  refine ⟨?_, ?_, ?_, ?_, ?_, ?_⟩ <;> decide +kernel

/-- The hub with pip 0 armed on wheel 3 at the present angle, with an action and its argument, and port 3 as f makes it. -/
def pip0 (act arg : Nat) (f : PortSt → PortSt) : State :=
  let s := (wh3 fun w => { w with tu := 5000, turn := 77 }).updPort 3 f
  let w0 : Word := place 300 16 ||| place 3 12 ||| place act 8 ||| place arg 0
  { s with mem := memWriteWord (memWriteWord s.mem (pipAddr 0) w0) (pipAddr 0 + 4) 0x80000007 }

/-- A port that may burst. -/
def bursts (p : PortSt) : PortSt := { p with
  ripe := { p.ripe with burstctl := 0x80000000 }, cf := { p.cf with attach := .attachedSrc }
  ln := { p.ln with linectl := 1 }, st := { p.st with mode := .buckOut } }

/-- The hub with the configuration wires of a port changed; G feeds it. -/
def cf (n : Port) (f : CfSt → CfSt) : State := ({ hub with fd := { hub.fd with feed := .g } } : State).updCf n f

/-- Port 5 attached as a source whose partner's wire reads f. -/
def attSrc (f : Reading) (g : PortSt → PortSt) : State :=
  (cf 5 fun c => { c with effMode := 2, attach := .attachedSrc, cfctl := 0x40002, asSource := true, cf1 := f }).updPort 5 g

/-- Port 5 in state a of the attach machine, presenting source or not, its wires reading r and Float. -/
def att (a : AttachState) (src : Bool) (r : Reading) (m : BitVec 3) (g : PortSt → PortSt) : State :=
  (cf 5 fun c => { c with
    effMode := m, attach := a, attachRun := true, cfctl := 0x40000 ||| m.setWidth 32, asSource := src, cf1 := r
    cf2 := .floatBand }).updPort 5 g

/-- A port whose CTRDEF permits the default contract. -/
def defOn (p : PortSt) : PortSt := { p with ripe := { p.ripe with ctrpol := p.ripe.ctrpol ||| 1 } }

/-- A port whose CTRDEF holds it back. -/
def defOff (p : PortSt) : PortSt := { p with ripe := { p.ripe with ctrpol := p.ripe.ctrpol &&& 0xFFFFFFFE } }

/-- Each clause of PipsActAndOpenWindows has a state that meets its premises. -/
theorem wit_PipsActAndOpenWindows :
    (
      let s := pip0 3 2 id; let w0 := (pipSeen s 0).1; s.settled ∧ pipDue s 0 = true ∧ pipAction w0 = 3 ∧ pipArg w0 % 4 < 3)
    ∧ (
      let s := pip0 4 19 id; let w0 := (pipSeen s 0).1; s.settled ∧ pipDue s 0 = true ∧ pipAction w0 = 4 ∧ pipArg w0 = 3 + 16)
    ∧ (
      hub.settled ∧ pipDue hub 255 = false ∧ hub.tim.queue = [])
    ∧ (
      let s0 := pip0 6 39 id; let s := { s0 with tim := { s0.tim with queue := [⟨0, false, false⟩, ⟨255, false, false⟩] } }
      let w0 := (pipSeen s 0).1
      s.settled ∧ s.tim.queue = ⟨0, false, false⟩ :: [⟨255, false, false⟩] ∧ bitOf (pipSeen s 0).2 31 = true ∧ pipAction w0 = 6
      ∧ pipArg w0 = 23 + 16)
    ∧ (
      let s := { hub with tim := { hub.tim with queue := [⟨255, true, false⟩] } }
      s.settled ∧ s.tim.queue = ⟨255, true, false⟩ :: [] ∧ bitOf (pipSeen s 255).2 31 = false)
    ∧ (
      let s := pip0 1 0 bursts; let w0 := (pipSeen s 0).1; let n : Port := ⟨pipWheel w0 % 16, by omega⟩; let p := s.port n
      s.settled ∧ s.eventsOn = true ∧ pipDue s 0 = true ∧ pipAction w0 = 1 ∧ bitOf p.ripe.burstctl 31 = true
      ∧ p.wh.burstOpen = false ∧ p.cf.attach = .attachedSrc ∧ bitOf p.ln.linectl 0 = true ∧ p.st.mode ≠ .off ∧ p.st.force = []
      ∧ s.led.tokout < s.led.tokens ∧ s.led.cut = false)
    ∧ (
      let s0 := pip0 1 0 bursts; let s := { s0 with led := { s0.led with tokout := 4 } }
      s.settled ∧ pipDue s 0 = true ∧ s.led.tokens ≤ s.led.tokout) := by
  refine ⟨?_, ?_, ?_, ?_, ?_, ?_, ?_⟩ <;> decide +kernel

/-- Each clause of WindowsEndAndTokensReturn has a state that meets its premises. -/
theorem wit_WindowsEndAndTokensReturn :
    (
      let s := wh3 fun w => { w with burstOpen := true, markPend := true, token := true, tmaxRun := true }; let p := s.port 3
      s.settled ∧ s.eventsOn = true ∧ p.wh.burstOpen = true ∧ p.wh.markPend = true ∧ p.wh.tmaxRun = true)
    ∧ (
      (hub.port 3).wh.burstOpen = false ∧ hub.settled)
    ∧ (
      let s := wh3 fun w => { w with returning := true }; s.settled ∧ (s.port 3).wh.returning = true ∧ (s.port 3).ct.tokAfter = none) := by
  refine ⟨?_, ?_, ?_⟩ <;> decide +kernel

/-- Each clause of ReadingsBeginTheAttach has a state that meets its premises. -/
theorem wit_ReadingsBeginTheAttach :
    (
      let s := cf 5 id; s.settled ∧ s.signals 5 = true ∧ (s.port 5).mo.measuring = false)
    ∧ (
      let s := (cf 5 id).updMo 5 fun m => { m with measuring := true }; s.settled ∧ s.signals 5 = true ∧ (s.port 5).mo.measuring = true)
    ∧ (
      let s := cf 5 fun c => { c with effMode := 2, asSource := true }; let c := { (s.port 5).cf with cf1 := .hold, cf2 := .floatBand }
      s.settled ∧ s.signals 5 = true ∧ (s.port 5).mo.measuring = false ∧ c.attach = .unattached ∧ c.presents 5 = true ∧ s.muted 5 = false
      ∧ c.asSource = true ∧ c.sinkSeen s.cc = true)
    ∧ (
      let s := cf 5 fun c => { c with effMode := 1 }; let c := { (s.port 5).cf with cf1 := .openBand, cf2 := .floatBand }
      s.settled ∧ (s.port 5).mo.measuring = false ∧ c.attach = .unattached ∧ c.presents 5 = true ∧ s.muted 5 = false ∧ c.asSource = false
      ∧ c.sourceSeen = true)
    ∧ (
      let s := cf 5 id; s.settled ∧ (s.port 5).cf.attach = .unattached ∧ (s.port 5).cf.presents 5 = false)
    ∧ (
      let s := attSrc .hold id; s.settled ∧ (s.port 5).cf.attach = .attachedSrc)
    ∧ (
      let s := cf 5 fun c => { c with effMode := 1, attach := .attachedSnk }
      s.settled ∧ (s.port 5).cf.attach = .attachedSnk ∧ (s.port 5).cf.csupOn = false) := by
  refine ⟨?_, ?_, ?_, ?_, ?_, ?_, ?_⟩ <;> decide +kernel

/-- Each clause of AttachAndDetach has a state that meets its premises. -/
theorem wit_AttachAndDetach :
    (
      let s := avail 10000 (att .attachWait true .hold 2 defOn); let p := s.port 5; let c := p.cf; let d := p.ripe.defaultContract
      s.settled ∧ s.signals 5 = true ∧ s.eventsOn = true ∧ s.fedElsewhere 5 ∧ p.ct.state = .none ∧ c.attach = .attachWait
      ∧ c.attachRun = true ∧ c.asSource = true ∧ c.sourceRow s.cc = some false ∧ c.effMode ≠ 5 ∧ p.ripe.defen = true
      ∧ s.raiseServed 5 (powerUp d.1 d.2))
    ∧ (
      let s := att .attachWait false .openBand 1 id; let c := (s.port 5).cf
      s.settled ∧ s.fedElsewhere 5 ∧ (s.port 5).ct.state = .none ∧ c.attach = .attachWait ∧ c.attachRun = true ∧ c.asSource = false
      ∧ c.sinkRow = some false ∧ c.effMode ≠ 4)
    ∧ (
      let s := avail 10000 (att .trySrc true .hold 4 defOn); let p := s.port 5; let d := p.ripe.defaultContract
      s.settled ∧ s.fedElsewhere 5 ∧ p.ct.state = .none ∧ p.cf.attach = .trySrc ∧ p.cf.sinkSeen s.cc = true ∧ p.ripe.defen = true
      ∧ s.raiseServed 5 (powerUp d.1 d.2))
    ∧ (
      let s := avail 10000 (att .tryWaitSrc true .hold 5 fun p => defOn { p with cf := { p.cf with cf2 := .openBand } }); let p := s.port 5
      s.settled ∧ p.ct.state = .none ∧ p.cf.attach = .tryWaitSrc ∧ p.cf.sinkSeen s.cc = true ∧ p.cf.sourceRow s.cc = none)
    ∧ (
      let s := att .trySnk false .hold 5 id; let c := (s.port 5).cf; s.settled ∧ c.attach = .trySnk ∧ c.sourceSeen = true)
    ∧ (
      let s := att .tryWaitSnk false .hold 4 fun p => { p with cf := { p.cf with cf2 := .hold } }; let c := (s.port 5).cf
      s.settled ∧ c.attach = .tryWaitSnk ∧ c.sourceSeen = true ∧ c.sinkRow = none)
    ∧ (
      let s := att .attachWait true .hold 2 defOff; let p := s.port 5; let c := p.cf
      s.settled ∧ s.fedElsewhere 5 ∧ p.ct.state = .none ∧ c.attach = .attachWait ∧ c.attachRun = true ∧ c.asSource = true
      ∧ c.sourceRow s.cc = some false ∧ c.effMode ≠ 5 ∧ p.ripe.defen = false ∧ p.ct.volt = 0 ∧ p.ct.icont = 0)
    ∧ (
      let s := att .attachWait false .openBand 4 id; let c := (s.port 5).cf
      s.settled ∧ c.attach = .attachWait ∧ c.attachRun = true ∧ c.asSource = false ∧ c.sinkRow = some false ∧ c.effMode = 4)
    ∧ (
      let s := attSrc .floatBand id; let p := s.port 5; let c := p.cf
      s.settled ∧ s.signals 5 = true ∧ s.eventsOn = true ∧ s.isFeed 5 = false ∧ s.noneWaits ∧ c.detachRun = true
      ∧ readsSource c.cf1 = false ∧ readsSource c.cf2 = false ∧ p.wh.burstOpen = false ∧ p.ln.txCount = 0 ∧ s.led.held[5] = 0
      ∧ p.pw.pg = false ∧ p.ct.state = .none ∧ p.ct.volt = 0 ∧ p.ct.icont = 0 ∧ p.pw.sw = .off)
    ∧ (
      let s := attSrc .undecided fun p => { p with ct := { p.ct with state := .default, volt := 100, icont := 20 }, pw := { p.pw with sw := .on } }
      let p := s.port 5; let c := p.cf
      s.settled ∧ s.signals 5 = true ∧ s.eventsOn = true ∧ s.isFeed 5 = false ∧ s.noneWaits ∧ c.undecRun s.cc = true
      ∧ readsSource c.cf1 = false ∧ readsSource c.cf2 = false ∧ p.wh.burstOpen = false ∧ p.ln.txCount = 0 ∧ s.led.held[5] = 0
      ∧ p.pw.pg = false ∧ p.ct.state ≠ .none ∧ p.pw.sw = .on)
    ∧ (
      let s := attSrc .floatBand fun p => { p with cf := { p.cf with suspended := true } }; let p := s.port 5; let c := p.cf
      s.settled ∧ s.signals 5 = true ∧ s.isFeed 5 = false ∧ s.noneWaits ∧ c.suspended = true ∧ readsSource c.cf1 = false
      ∧ readsSource c.cf2 = false ∧ p.ln.txCount = 0 ∧ p.ct.state = .none ∧ p.pw.sw = .off) := by
  refine ⟨?_, ?_, ?_, ?_, ?_, ?_, ?_, ?_, ?_, ?_, ?_⟩ <;> decide +kernel

/-- Each clause of AttachTimersMoveTheMachine has a state that meets its premises. -/
theorem wit_AttachTimersMoveTheMachine :
    (
      let s := cf 5 fun c => { c with effMode := 3 }
      s.settled ∧ s.signals 5 = true ∧ (s.port 5).cf.attach = .unattached ∧ 3 ≤ (s.port 5).cf.effMode.toNat ∧ (5 : Port) ≠ portKU)
    ∧ (
      (attSrc .hold id).settled ∧ ((attSrc .hold id).port 5).cf.attach ≠ .unattached)
    ∧ (
      ((att .trySrc true .hold 4 id).port 5).cf.attach = .trySrc ∧ ((att .trySnk false .hold 5 id).port 5).cf.attach = .trySnk)
    ∧ (
      let s := att .tryWaitSnk false .mark 4 id; let c := (s.port 5).cf
      s.settled ∧ s.signals 5 = true ∧ c.attach = .tryWaitSnk ∧ c.sourceSeen = false)
    ∧ (
      let s := att .tryWaitSrc true .hold 4 id; let c := (s.port 5).cf
      s.settled ∧ s.signals 5 = true ∧ c.attach = .tryWaitSrc ∧ s.muted 5 = false ∧ s.portsInert = false
      ∧ 2 ≤ (effectiveRole s c).toNat ∧ c.isSink s.cc c.cf1 = true)
    ∧ (
      let s := att .attachWait true .floatBand 2 id; let c := (s.port 5).cf
      s.settled ∧ c.attach = .attachWait ∧ c.fromLegacy = false ∧ (if c.asSource then c.sinkSeen s.cc else c.sourceSeen) = false
      ∧ c.sourceSeen = false)
    ∧ (
      let s := attSrc .hold fun p => { p with cf := { p.cf with suspended := true } }; let p := s.port 5
      s.settled ∧ p.cf.suspended = true ∧ p.ct.beforeExchange = false ∧ p.cf.readsPartner s.cc = true)
    ∧ (
      let s := attSrc .floatBand fun p => { p with cf := { p.cf with suspended := true } }; let p := s.port 5
      s.settled ∧ p.cf.readsPartner s.cc = false)
    ∧ (
      let s0 := cf portKU fun c => { c with asSource := true }; let s := { s0 with fd := { s0.fd with kuMv := 24000 } }
      s.settled ∧ s.signals portKU = true ∧ (s.port portKU).cf.attach = .unattached ∧ s.legacyCond = true ∧ (s.port portKU).cf.asSource = true)
    ∧ (
      let s0 := cf portKU id; let s := { s0 with fd := { s0.fd with kuMv := 24000 } }
      s.settled ∧ (s.port portKU).cf.attach = .unattached ∧ s.legacyCond = true ∧ (s.port portKU).cf.asSource = false ∧ s.eventsOn = true
      ∧ s.fedElsewhere portKU ∧ (s.port portKU).ct.state = .none)
    ∧ (
      (cf 5 id).settled ∧ (cf 5 id).legacyCond = false) := by
  refine ⟨?_, ?_, ?_, ?_, ?_, ?_, ?_, ?_, ?_, ?_, ?_⟩ <;> decide +kernel

/-- Each clause of CfctlWritesAct has a state that meets its premises. -/
theorem wit_CfctlWritesAct :
    (
      hub.settled ∧ cfctlReserved hub 5 0x00090000 = true)
    ∧ (
      let s := cf portKD fun c => { c with effMode := 2, attach := .attachedSrc, cfctl := 0x40002, asSource := true }; let v : Word := 0x40003
      let c := (s.port portKD).cf
      s.settled ∧ cfctlReserved s portKD v = false ∧ c.rolemode ≠ v.extractLsb' 0 3 ∧ v.extractLsb' 0 3 ≠ (0 : BitVec 3) ∧ fld v 11 10 = c.level
      ∧ fld v 9 8 = c.csup ∧ c.attached = true)
    ∧ (
      let v : Word := 0x40001; let c := (hub.port portKD).cf
      cfctlReserved hub portKD v = false ∧ c.rolemode ≠ v.extractLsb' 0 3 ∧ v.extractLsb' 0 3 ≠ (0 : BitVec 3) ∧ fld v 11 10 = c.level
      ∧ fld v 9 8 = c.csup ∧ c.attach = .unattached ∧ readsSource c.cf1 = false ∧ readsSource c.cf2 = false)
    ∧ (
      let s := attSrc .hold id; let v : Word := 0x40402; let c := (s.port 5).cf
      s.settled ∧ cfctlReserved s 5 v = false ∧ c.rolemode = v.extractLsb' 0 3 ∧ fld v 11 10 ≠ c.level ∧ fld v 9 8 = c.csup) := by
  refine ⟨?_, ?_, ?_, ?_⟩ <;> decide +kernel

/-- Each clause of SeatAndCsupFollow has a state that meets its premises. -/
theorem wit_SeatAndCsupFollow :
    (
      let s := cf 5 id; s.settled ∧ s.has 5 = true ∧ s.eventsOn = true ∧ s.fedElsewhere 5 ∧ (5 : Port) ≠ portB)
    ∧ (
      let s := (cf 5 id).updPw 5 fun q => { q with seat := ⟨true, true⟩ }; s.settled ∧ s.fedElsewhere 5 ∧ (s.port 5).pw.seat = ⟨true, true⟩ ∧ s.noneWaits)
    ∧ (
      let s := (cf 5 id).updPw 5 fun q => { q with seat := ⟨true, true⟩, sw := .wait }
      s.settled ∧ s.fedElsewhere 5 ∧ (s.port 5).pw.seat = ⟨true, true⟩ ∧ (s.port 5).pw.sw = .wait
      ∧ (∀ m : Port, m ≠ 5 → (s.port m).pw.sw ≠ .wait ∧ (s.port m).pw.starting = false))
    ∧ (
      let s := (cf 5 id).updCt 5 fun c => { c with state := .legacy }
      s.settled ∧ s.has 5 = true ∧ s.eventsOn = true ∧ s.fedElsewhere 5 ∧ (5 : Port) ≠ portB ∧ (s.port 5).ct.state = .legacy
      ∧ (s.port 5).ln.tx = [])
    ∧ (
      let s := cf 5 id; let p := s.port 5
      s.settled ∧ s.fedElsewhere 5 ∧ p.cf.attached = false ∧ p.ct.state ≠ .legacy ∧ p.pw.sw = .off ∧ p.pw.pg = false ∧ p.wh.burstOpen = false
      ∧ p.st.force = [] ∧ p.ln.tx = [])
    ∧ (
      let s := (cf 5 id).updPw portB fun q => { q with sw := .on }; let p := s.port portB
      s.settled ∧ s.has portB = true ∧ s.fedElsewhere portB ∧ p.pw.sw = .on ∧ s.noneWaits ∧ p.pw.pg = false ∧ p.wh.burstOpen = false ∧ p.st.force = [])
    ∧ (
      let s := cf 5 fun c => { c with csupOn := true }; s.settled ∧ s.fedElsewhere 5 ∧ (s.port 5).cf.csupOn = true)
    ∧ (
      let s := cf 5 fun c => { c with csupTrips := 1, attach := .attachedSrc, marker := true }; let c := (s.port 5).cf
      s.settled ∧ c.csupOn = false ∧ c.csupTrips = 1 ∧ c.wantsCsup = true)
    ∧ (
      let s := cf 5 fun c => { c with csupTrips := 2 }; s.settled ∧ (s.port 5).cf.csupOn = false ∧ 2 ≤ (s.port 5).cf.csupTrips) := by
  refine ⟨?_, ?_, ?_, ?_, ?_, ?_, ?_, ?_, ?_⟩ <;> decide +kernel

/-- Port 5 attached and signalling, as source or sink, with the default contract in force, and then as f makes it. -/
def line5 (src : Bool) (f : PortSt → PortSt) : State := hub.updPort 5 fun p => f { p with
  cf := { p.cf with
    attach := if src = true then .attachedSrc else .attachedSnk, asSource := src, cf1 := if src = true then .hold else .openBand
    cf2 := .mark, marker := src, csupOn := src }
  ln := { p.ln with linectl := 3, ctxen := 0xFF8 }
  ct := { p.ct with state := .default, volt := 100, icont := 20, asSource := src } }

/-- A frame of the PHY's own. -/
def own3 : PhyFrame := { ctx := 3, type := 0x11, objs := [1, 2] }

/-- Port 3 with HOLDOFF on, an opening pip of its wheel near, and a frame of the PHY's own. -/
def holdoff3 (f : PortSt → PortSt) : State :=
  let s := (wh3 fun w => { w with tu := 200, turn := 3, angctl := 0x80500001 }).updPort 3 fun p =>
    let q := bursts p
    f { q with
      cf := { q.cf with asSource := true, cf1 := .hold, cf2 := .mark }, ln := { q.ln with linectl := 5, own := [own3] } }
  let w0 : Word := place 300 16 ||| place 3 12 ||| place 1 8
  { s with mem := memWriteWord (memWriteWord s.mem (pipAddr 0) w0) (pipAddr 0 + 4) 0x80000007 }

/-- The line of a port busy with x in phase ph after k tries. -/
def busy (x : TxItem) (ph : LinePhase) (k : Nat) (p : PortSt) : PortSt :=
  { p with ln := { p.ln with cur := some x, phase := ph, tries := k, curId := 5 } }

/-- The hub s with one entry in port 5's TX ring, of context c with the control word ctl. -/
def ring5 (ctl : BitVec 16) (c : Nat) (s : State) : State :=
  (s.writeMem (ringAddr 10 2) (entryImage ctl c (addrOf c) 0x8812 0 [0xAA, 0xBB] 0)).updLn 5 fun l => { l with tx := [2], txNext := 3 }

/-- A frame as read, with its CRC right or wrong. -/
def frame (addr : Byte) (h : BitVec 16) (objs : List Word) (good : Bool) : FrameRx :=
  { sync := true, framing := true, addr := addr, hdr := h, objs := objs, crc := frameCrc addr h objs + (if good = true then 0 else 1) }

/-- Port 5's line with its receiver idle. -/
def quiet5 (s : State) : PortSt := { s.port 5 with ln := { (s.port 5).ln with receiving := false } }

/-- Each clause of FramesGoOutAndEnd has a state that meets its premises. -/
theorem wit_FramesGoOutAndEnd :
    (
      let s := line5 true fun p => { p with ln := { p.ln with own := [own3] } }; let p := s.port 5
      s.settled ∧ p.lineIdle = true ∧ p.ln.own = own3 :: [] ∧ own3.ctx < 12 ∧ own3.id = none ∧ heldOff 5 own3.objs.length s = false)
    ∧ (
      let f : PhyFrame := { own3 with id := some 4 }; let s := line5 true fun p => { p with ln := { p.ln with own := [f] } }; let p := s.port 5
      s.settled ∧ p.lineIdle = true ∧ p.ln.own = f :: [] ∧ f.id = some 4 ∧ heldOff 5 f.objs.length s = false)
    ∧ (
      let s := holdoff3 id; let p := s.port 3
      s.settled ∧ p.lineIdle = true ∧ p.ln.own = own3 :: [] ∧ heldOff 3 own3.objs.length s = true)
    ∧ (
      let s := (ring5 0x8010 3 (line5 true id)).updLn 5 fun l => { l with begun := [2] }; let p := s.port 5
      s.settled ∧ p.lineIdle = true ∧ p.ln.own = [] ∧ p.ct.getcapsDue = false ∧ pendingTx 5 s = 2 :: [] ∧ txVerdict 5 2 s = .go
      ∧ p.ln.begun.contains 2 = true)
    ∧ (
      let s := ring5 0x8000 3 (line5 true id); let p := s.port 5; let a := ringAddr 10 2
      s.settled ∧ p.lineIdle = true ∧ p.ln.own = [] ∧ p.ct.getcapsDue = false ∧ pendingTx 5 s = 2 :: [] ∧ txVerdict 5 2 s = .go
      ∧ p.ln.begun.contains 2 = false ∧ (memRead s.mem (a + 2)).toNat ≠ 0 ∧ (memRead s.mem (a + 2)).toNat < 12)
    ∧ (
      let s0 := line5 false fun p => { p with cf := { p.cf with csupOn := true } }
      let s := (s0.writeMem (ringAddr 10 2) (entryImage 0xC000 0 (addrOf 0) 0x1801 0 [0x20025800] 0)).updLn 5 fun l => { l with tx := [2], txNext := 3 }
      let p := s.port 5; let a := ringAddr 10 2
      s.settled ∧ p.lineIdle = true ∧ pendingTx 5 s = 2 :: [] ∧ txVerdict 5 2 s = .go ∧ (memRead s.mem (a + 2)).toNat = 0
      ∧ hdrType (entryHdr s a) = tAsk ∧ p.ct.seq = none ∧ s.isFeed 5 = false)
    ∧ (
      let s := line5 false fun p => { p with ct := { p.ct with getcapsDue := true }, cf := { p.cf with cf1 := .hold } }; let p := s.port 5
      s.settled ∧ p.lineIdle = true ∧ p.ln.own = [] ∧ p.ct.getcapsDue = true ∧ p.ln.tx = [] ∧ p.isSource = false ∧ p.mayStart = false)
    ∧ (
      hub.settled ∧ (hub.port 5).lineIdle = false)
    ∧ (
      let s := ring5 0x8010 3 (line5 true (busy (.ring 2) .awaitNod 3)); let l := (s.port 5).ln
      s.settled ∧ s.signals 5 = true ∧ s.eventsOn = true ∧ l.phase = .awaitNod ∧ l.tries = 3 ∧ l.cur = some (.ring (2 : Fin 16))
      ∧ memRead s.mem (ringAddr 10 2 + 2) ≠ 0) := by
  refine ⟨?_, ?_, ?_, ?_, ?_, ?_, ?_, ?_, ?_⟩ <;> decide +kernel

/-- Each clause of TriesNodsAndMarks has a state that meets its premises. -/
theorem wit_TriesNodsAndMarks :
    (
      let s := line5 true (busy (.own own3) .sending 1); let l := (s.port 5).ln; s.settled ∧ l.phase = .sending ∧ l.cur = some (.own own3))
    ∧ (
      let s := ring5 0x8000 3 (line5 true (busy (.ring 2) .sending 0)); let l := (s.port 5).ln
      s.settled ∧ l.phase = .sending ∧ l.cur = some (.ring (2 : Fin 16)) ∧ l.phase ≠ .awaitNod)
    ∧ (
      let s := line5 true (busy (.own own3) .sendingNod 0); s.settled ∧ (s.port 5).ln.phase = .sendingNod)
    ∧ (
      let s := line5 true (busy (.own own3) .awaitNod 2); let l := (s.port 5).ln; s.settled ∧ l.phase = .awaitNod ∧ l.tries < 3)
    ∧ (
      let s := line5 true (busy (.own own3) .awaitNod 3); let l := (s.port 5).ln
      s.settled ∧ l.phase = .awaitNod ∧ 3 ≤ l.tries ∧ l.cur = some (.own own3) ∧ l.phase ≠ .sending ∧ l.phase ≠ .sendingNod)
    ∧ (
      let s := line5 true (busy (.own own3) .awaitNod 1); let l := (s.port 5).ln; let f := frame 0x40 0x0D10 [] true
      s.settled ∧ rxVerdict (quiet5 s) s.cc f = .pass own3.ctx ∧ hdrType f.hdr = 1 ∧ f.objs = [] ∧ hdrRev f.hdr = 1 ∧ hdrId f.hdr = l.curId)
    ∧ (
      let s := line5 true (busy (.own own3) .retryWait 1); let l := (s.port 5).ln
      s.settled ∧ (s.port 5).phyOn = true ∧ l.phase = .retryWait ∧ l.receiving = false ∧ l.nodOwed = none ∧ l.mark = none
      ∧ l.cur = some (.own own3) ∧ heldOff 5 own3.objs.length s = false)
    ∧ (
      let s := holdoff3 (busy (.own own3) .retryWait 1); let l := (s.port 3).ln
      s.settled ∧ (s.port 3).phyOn = true ∧ l.phase = .retryWait ∧ l.receiving = false ∧ l.nodOwed = none ∧ l.mark = none
      ∧ l.cur = some (.own own3) ∧ heldOff 3 own3.objs.length s = true)
    ∧ (
      let s := line5 true id; s.settled ∧ (s.port 5).isSource = true ∧ (s.port 5).cf.level = 0 ∧ (s.port 5).ln.nodOwed = none
      ∧ (s.port 5).ln.mark = none)
    ∧ (
      let s := line5 true fun p => { p with ln := { p.ln with nodOwed := some (3, 2), notsupDue := some own3 } }
      s.settled ∧ (s.port 5).ln.nodOwed ≠ none ∧ (s.port 5).ln.mark = none)
    ∧ (
      let s := line5 true fun p => { p with ln := { p.ln with mark := some ⟨true, 5⟩, nodOwed := some (3, 2) } }; let p := s.port 5
      s.settled ∧ p.ln.mark = some ⟨true, 5⟩ ∧ p.phyOn = true ∧ p.ln.freeForMark = true ∧ p.ln.nodOwed ≠ none)
    ∧ (
      let s := line5 true (busy (.own own3) .sendingMark 1); s.settled ∧ (s.port 5).ln.phase = .sendingMark)
    ∧ (
      let s := line5 true id; (s.port 5).ln.phase ≠ .sendingMark ∧ (s.port 5).phyOn = true
      ∧ (s.port 5).ln.phase ∉ [.sending, .sendingMark, .sendingNod] ∧ (hub.port 5).phyOn = false) := by
  refine ⟨?_, ?_, ?_, ?_, ?_, ?_, ?_, ?_, ?_, ?_, ?_, ?_, ?_⟩ <;> decide +kernel

/-- Each clause of ReceivedFramesAreChecked has a state that meets its premises. -/
theorem wit_ReceivedFramesAreChecked :
    (
      let f := frame 0x10 0x1511 [7] true
      hub.settled ∧ hub.signals 5 = true ∧ hub.eventsOn = true ∧ hub.cc ≤ 900000 ∧ hdrType f.hdr ≠ 1 ∧ (hub.port 5).phyOn = false)
    ∧ (
      let f := frame 0x10 0x1512 [7] true; let s := line5 true id
      s.settled ∧ s.signals 5 = true ∧ s.eventsOn = true ∧ s.cc ≤ 900000
      ∧ (s.port 5).phyOn = true ∧ f.sync = true ∧ hdrType f.hdr ≠ 1 ∧ ¬(f.framing = true ∧ f.objs.length = hdrCount f.hdr))
    ∧ (
      let f := frame 0x10 0x1511 [7] false; let s := line5 true id
      (s.port 5).phyOn = true ∧ hdrType f.hdr ≠ 1 ∧ f.sync = true ∧ f.framing = true ∧ f.objs.length = hdrCount f.hdr
      ∧ f.crc ≠ frameCrc f.addr f.hdr f.objs)
    ∧ (
      let f := frame 0x70 0x1511 [7] true; let s := line5 true id
      (s.port 5).phyOn = true ∧ hdrType f.hdr ≠ 1 ∧ f.sync = true ∧ f.framing = true ∧ f.objs.length = hdrCount f.hdr
      ∧ f.crc = frameCrc f.addr f.hdr f.objs ∧ contextOf f.addr = none)
    ∧ (
      let f := frame 0x40 0x1511 [7] true; let s := line5 true fun p => { p with ln := { p.ln with rxCount := 16 } }
      s.settled ∧ hdrType f.hdr ≠ 1 ∧ rxVerdict (quiet5 s) 900000 f = .pass (3 : Fin 12) ∧ (quiet5 s).ln.rxCount = 16)
    ∧ (
      let f := frame 0x40 0x1511 [7] true
      let s := line5 true fun p => { p with ln := { p.ln with ctxs := p.ln.ctxs.set 3 { p.ln.ctxs[3] with lastRx := some (5, 899000) } } }
      s.settled ∧ s.signals 5 = true ∧ s.eventsOn = true ∧ hdrType f.hdr ≠ 1 ∧ rxVerdict (quiet5 s) 900000 f = .pass (3 : Fin 12)
      ∧ (quiet5 s).ln.rxCount < 16 ∧ hdrRev f.hdr = 1 ∧ (quiet5 s).ctxOpen 3 = true ∧ typeDefined (hdrType f.hdr) = true
      ∧ hdrType f.hdr ≠ 0x0F ∧ isDuplicate (quiet5 s).ln 3 (hdrId f.hdr) 900000 = true)
    ∧ (
      let f := frame 0x40 0x1511 [7] true; let s := line5 true fun p => { p with ln := { p.ln with rxCount := 15 } }
      s.settled ∧ s.signals 5 = true ∧ s.eventsOn = true ∧ hdrType f.hdr ≠ 1 ∧ rxVerdict (quiet5 s) 900000 f = .pass (3 : Fin 12)
      ∧ (quiet5 s).ln.rxCount < 16 ∧ hdrRev f.hdr = 1 ∧ (quiet5 s).ctxOpen 3 = true ∧ typeDefined (hdrType f.hdr) = true
      ∧ hdrType f.hdr ≠ 0x0F ∧ isSwap (hdrType f.hdr) = false ∧ isDuplicate (quiet5 s).ln 3 (hdrId f.hdr) 900000 = false) := by
  refine ⟨?_, ?_, ?_, ?_, ?_, ?_, ?_⟩ <;> decide +kernel

/-- Each clause of NotsupAndRelay has a state that meets its premises. -/
theorem wit_NotsupAndRelay :
    (
      let f := frame 0x40 0x1521 [7] true; let s := line5 true id
      s.settled ∧ s.cc ≤ 900000 ∧ hdrType f.hdr ≠ 1 ∧ rxVerdict (quiet5 s) 900000 f = .pass (3 : Fin 12) ∧ (quiet5 s).ln.rxCount < 16
      ∧ hdrRev f.hdr ≠ 1)
    ∧ (
      let f := frame 0x40 0x1511 [7] true; let s := line5 true fun p => { p with ln := { p.ln with ctxen := 0 } }
      s.settled ∧ rxVerdict (quiet5 s) 900000 f = .pass (3 : Fin 12) ∧ (quiet5 s).ln.rxCount < 16 ∧ hdrRev f.hdr = 1
      ∧ (quiet5 s).ctxOpen 3 = false ∧ hdrType f.hdr ≠ 1)
    ∧ (
      let f := frame 0x40 0xF511 [7] true; let s := line5 true id
      s.settled ∧ rxVerdict (quiet5 s) 900000 f = .pass (3 : Fin 12) ∧ (quiet5 s).ln.rxCount < 16 ∧ hdrRev f.hdr = 1
      ∧ (quiet5 s).ctxOpen 3 = true ∧ typeDefined (hdrType f.hdr) = false ∧ hdrType f.hdr ≠ 1)
    ∧ (
      let f := frame 0x40 0x7D11 [7] true; let s := line5 true id
      s.settled ∧ rxVerdict (quiet5 s) 900000 f = .pass (3 : Fin 12) ∧ (quiet5 s).ln.rxCount < 16 ∧ hdrRev f.hdr = 1
      ∧ (quiet5 s).ctxOpen 3 = true ∧ hdrType f.hdr = 0x0F ∧ isW 5 = true)
    ∧ (
      let up (s : State) (n : Port) : State := s.updPort n fun p => { p with
      cf := { p.cf with attach := .attachedSrc, asSource := true, marker := true }, ln := { p.ln with linectl := 3, ctxen := 0xFF8 } }
      let s := up (up hub portKU) portKD
      s.settled ∧ (s.port portKU).phyOn = true ∧ relayForwards s portKU 1 = true ∧ (s.port (relayOther portKU)).ln.txCount < 16
      ∧ ([0x12345678] : List Word) ≠ [])
    ∧ (
      let s := hub.updPort portKU fun p => { p with
      cf := { p.cf with attach := .attachedSrc, asSource := true, marker := true }, ln := { p.ln with linectl := 3, ctxen := 0xFF8 } }
      s.settled ∧ (s.port portKU).phyOn = true ∧ relayForwards s portKU 7 = false) := by
  refine ⟨?_, ?_, ?_, ?_, ?_, ?_⟩ <;> decide +kernel

/-- A request for supply object pos at v and i. -/
def askW (pos v i : Nat) : Word := place pos 28 ||| place v 17 ||| place i 8

/-- A FIXED supply object. -/
def fixed (v i : Nat) : Word := place v 19 ||| place i 10

/-- Port 5 under its default contract, with supply objects known, an open sequence of kind k, and then as f makes it. -/
def seq5 (src : Bool) (k : SeqKind) (t : BitVec 5) (ph : SeqPhase) (f : PortSt → PortSt) : State := line5 src fun p => f { p with
  ct := { p.ct with
    capsOut := [fixed 100 30, fixed 200 20, fixed 300 10], seq := some ⟨k, t, 3, ph, true⟩, lastReq := [askW 2 200 15], lastType := t
    newVolt := 200, newIcont := 15 } }

/-- A port with its contract changed. -/
def ctOf (f : ContractSt → ContractSt) (p : PortSt) : PortSt := { p with ct := f p.ct }

/-- A port with its switch in state x. -/
def swIn (x : SwState) (p : PortSt) : PortSt := { p with pw := { p.pw with sw := x } }

/-- A port whose policy permits both swaps, and three WAITs. -/
def swaps (p : PortSt) : PortSt := { p with ripe := { p.ripe with ctrpol := p.ripe.ctrpol ||| 0x03000006 } }

/-- A message of the far end. -/
def msg (role : Bool) (objs : List Word) : Msg := ⟨3, role, objs⟩

/-- An answer to a request of type t with ID id. -/
def answer3 (t : BitVec 5) (id arg : Nat) (objs : List Word) : Msg := msg true (refObj t (BitVec.ofNat 3 id) 0 arg :: objs)

/-- Each clause of RequestsAreDeniedByRule has a state that meets its premises. -/
theorem wit_RequestsAreDeniedByRule :
    (
      let s := line5 true id; let p := s.port 5; s.settled ∧ s.policyOpen 5 = true ∧ p.isSource = true ∧ (msg false []).role = false)
    ∧ (
      let s := seq5 false .askOut tAsk .requested id; let p := s.port 5
      s.settled ∧ s.policyOpen 5 = true ∧ p.isSource = false ∧ (msg true []).role = true ∧ p.ct.seq ≠ none
      ∧ (p.ct.isSeq .getcapsOut && decide (p.ct.lastReq.headD 0 >>> 28 = 1)) = false)
    ∧ (
      let s := line5 false id; let p := s.port 5
      s.settled ∧ s.policyOpen 5 = true ∧ p.isSource = false ∧ p.ct.seq = none ∧ fld ((msg true [0x10000000]).objs.headD 0) 31 28 = 1)
    ∧ (
      let s := seq5 true .askIn tAsk .requested id; let p := s.port 5
      s.settled ∧ s.policyOpen 5 = true ∧ ¬(fld ((msg false [0x10000000]).objs.headD 0) 31 28 = 1 ∧ p.isSource = false) ∧ p.ct.seq ≠ none)
    ∧ (
      let s := line5 true id; let p := s.port 5
      s.settled ∧ s.policyOpen 5 = true ∧ p.isSource = true ∧ p.ct.seq = none ∧ fld ((msg false []).objs.headD 0) 31 28 = 0
      ∧ 3 < fld ((msg false [0x40000000]).objs.headD 0) 31 28 ∧ (msg false [0x20000000, 0]).objs.length ≠ 1)
    ∧ (
      let s := line5 true id; s.settled ∧ s.policyOpen 5 = true ∧ (msg true []).role = true)
    ∧ (
      let s := line5 true (ctOf fun c => { c with trans := true }); let p := s.port 5
      s.settled ∧ s.policyOpen 5 = true ∧ p.isSource = true ∧ (msg false []).role = false ∧ p.ct.trans = true)
    ∧ (
      let s := line5 true (ctOf fun c => { c with capsOut := [fixed 100 30] }); let p := s.port 5; let m := msg false [askW 2 200 15]
      s.settled ∧ s.policyOpen 5 = true ∧ p.isSource = true ∧ m.role = false ∧ p.ct.trans = false ∧ p.ct.seq = none
      ∧ posKnown p.ct.capsOut (askPos (m.objs.headD 0)) = false)
    ∧ (
      let s := line5 true (ctOf fun c => { c with capsOut := [fixed 100 30, fixed 200 20] }); let p := s.port 5
      let m := msg false [askW 2 200 21]
      s.settled ∧ p.ct.seq = none ∧ posKnown p.ct.capsOut (askPos (m.objs.headD 0)) = true ∧ askValid 5 p.ct.capsOut m.objs = false)
    ∧ (
      let s := line5 true fun p => { ctOf (fun c => { c with capsOut := [fixed 100 30, fixed 300 20] }) p with mo := { p.mo with wet := true } }
      let p := s.port 5; let m := msg false [askW 2 300 15]
      s.settled ∧ s.policyOpen 5 = true ∧ p.ct.seq = none ∧ posKnown p.ct.capsOut (askPos (m.objs.headD 0)) = true
      ∧ askValid 5 p.ct.capsOut m.objs = true ∧ p.mo.wet = true ∧ aboveMvlim p.ripe (askVolt (m.objs.headD 0)) = true)
    ∧ (
      let s := line5 true (ctOf fun c => { c with state := .none }); let p := s.port 5
      s.settled ∧ s.policyOpen 5 = true ∧ p.isSource = true ∧ (msg false []).role = false ∧ p.ct.trans = false ∧ p.ct.seq = none
      ∧ p.ct.state = .none ∧ s.isDmh16 = true ∧ isW portKU = false)
    ∧ (
      let s0 := line5 true id; let s := { s0 with stone := { s0.stone with variant := 2 } }
      s.settled ∧ s.policyOpen 5 = true ∧ s.isDmh16 = false)
    ∧ (
      let s := line5 true id; let p := s.port 5
      s.settled ∧ s.policyOpen 5 = true ∧ s.isDmh16 = true ∧ p.ct.state ≠ .none ∧ p.ct.state ≠ .swap ∧ p.ripe.pswapen = false
      ∧ p.ripe.sswapen = false)
    ∧ (
      let s := seq5 true .askIn tAsk .requested swaps; let p := s.port 5
      s.settled ∧ s.policyOpen 5 = true ∧ s.isDmh16 = true ∧ p.ct.state ≠ .none ∧ p.ct.state ≠ .swap ∧ p.ripe.pswapen = true
      ∧ p.ripe.sswapen = true ∧ p.cf.csup = 0 ∧ swapBusy 5 s = true)
    ∧ (
      let s := hub.updPort portKU fun p => swaps { p with
      cf := { p.cf with attach := .attachedSnk }, ln := { p.ln with linectl := 3 }, ct := { p.ct with state := .default } }
      let p := s.port portKU
      s.settled ∧ s.policyOpen portKU = true ∧ s.isDmh16 = true ∧ p.ct.state ≠ .none ∧ p.ct.state ≠ .swap ∧ p.ripe.pswapen = true
      ∧ swapBusy portKU s = false ∧ s.isFeed portKU = true ∧ s.fd.gap = false ∧ otherFeedCarries s = false) := by
  refine ⟨?_, ?_, ?_, ?_, ?_, ?_, ?_, ?_, ?_, ?_, ?_, ?_, ?_, ?_, ?_⟩ <;> decide +kernel

/-- Each clause of CapsAndAsksAreSent has a state that meets its premises. -/
theorem wit_CapsAndAsksAreSent :
    (
      let s := line5 false id; let p := s.port 5; let m := msg true [5]
      s.settled ∧ s.policyOpen 5 = true ∧ p.isSource = false ∧ m.role = true ∧ p.ct.seq = none ∧ m.objs ≠ [] ∧ p.ln.txCount < 16)
    ∧ (
      let s := line5 true id; let p := s.port 5
      s.settled ∧ s.policyOpen 5 = true ∧ p.isSource = true ∧ p.ct.seq = none ∧ (msg true [0x10000000]).objs.length = 1
      ∧ fld (0x10000000 : Word) 31 28 = 1 ∧ fld (0x20000000 : Word) 31 28 = 2 ∧ fld (0x30000000 : Word) 31 28 = 3
      ∧ ([5, 6] : List Word).length ≤ 15)
    ∧ (
      let s := line5 true (ctOf fun c => { c with capsSent := 9 }); let p := s.port 5
      s.settled ∧ s.policyOpen 5 = true ∧ p.isSource = true ∧ p.ct.capsNodded = false ∧ p.ct.capsSent < 10)
    ∧ (
      let s := line5 true (ctOf fun c => { c with capsSent := 10 }); s.settled ∧ 10 ≤ (s.port 5).ct.capsSent)
    ∧ (
      let s := line5 true (ctOf fun c => { c with waiting := [⟨tAsk, [4], 1, false⟩, ⟨tAsk, [5], 2, true⟩] }); let p := s.port 5
      s.settled ∧ s.policyOpen 5 = true ∧ p.ct.seq = none ∧ (p.ct.waiting.find? fun w => w.due) = some ⟨tAsk, [5], 2, true⟩)
    ∧ (
      hub.settled ∧ hub.policyOpen 5 = false ∧ (hub.port 5).partOpen = false ∧ ((hub.port 5).ct.waiting.find? fun w => w.due) = none) := by
  refine ⟨?_, ?_, ?_, ?_, ?_, ?_⟩ <;> decide +kernel

/-- Each clause of AsksAndProfilesAreAnswered has a state that meets its premises. -/
theorem wit_AsksAndProfilesAreAnswered :
    (
      let s := avail 5000 (line5 true (ctOf fun c => { c with capsOut := [fixed 100 30, fixed 200 20] })); let m := msg false [askW 2 200 15]
      let p := s.port 5; let r := m.objs.headD 0
      s.settled ∧ s.eventsOn = true ∧ s.policyOpen 5 = true ∧ p.isSource = true ∧ m.role = false ∧ p.ct.seq = none ∧ p.ct.trans = false
      ∧ posKnown p.ct.capsOut (askPos r) = true ∧ askValid 5 p.ct.capsOut m.objs = true ∧ p.mo.wet = false ∧ p.ln.txCount < 16
      ∧ m.objs.length ≤ 14 ∧ s.postServed 5 ∧ raiseRefused s.led 5 (powerUp (askVolt r) (askCur r)) (askTok m.objs) = false
      ∧ p.wh.token = false)
    ∧ (
      let s := avail 149 (line5 true (ctOf fun c => { c with capsOut := [fixed 100 30, fixed 200 20] })); let m := msg false [askW 2 200 15]
      let p := s.port 5; let r := m.objs.headD 0
      s.settled ∧ s.eventsOn = true ∧ s.policyOpen 5 = true ∧ askValid 5 p.ct.capsOut m.objs = true ∧ s.postServed 5
      ∧ raiseRefused s.led 5 (powerUp (askVolt r) (askCur r)) (askTok m.objs) = true ∧ powerMayFree 5 s = false
      ∧ powerMayFree 5 (s.updCt 6 fun c => { c with trans := true }) = true)
    ∧ (
      let s := line5 true id; let p := s.port 5; let m := msg false []
      s.settled ∧ s.policyOpen 5 = true ∧ p.isSource = true ∧ m.role = false ∧ m.objs = [] ∧ p.ct.seq = none ∧ p.ct.trans = false
      ∧ isW 5 = true ∧ p.ct.state ≠ .none) := by
  refine ⟨?_, ?_, ?_⟩ <;> decide +kernel

/-- Each clause of GrantBeginsTheTransition has a state that meets its premises. -/
theorem wit_GrantBeginsTheTransition :
    (
      let s := seq5 false .askOut tAsk .requested id; let c := (s.port 5).ct; let m := answer3 tAsk 3 0 [askW 2 200 15]
      s.settled ∧ s.fedElsewhere 5 ∧ (s.port 5).partOpen = true ∧ c.seq = some ⟨.askOut, tAsk, 3, .requested, true⟩
      ∧ refType m.objs = tAsk ∧ refId m.objs = 3 ∧ m.objs.tail = c.lastReq ∧ c.state ≠ .none)
    ∧ (
      let s := seq5 false .profileOut tProfile .requested id; let c := (s.port 5).ct; let m := answer3 tProfile 3 0 [askW 2 200 15]
      s.settled ∧ s.fedElsewhere 5 ∧ (s.port 5).partOpen = true ∧ c.seq = some ⟨.profileOut, tProfile, 3, .requested, true⟩
      ∧ refType m.objs = tProfile ∧ refId m.objs = 3 ∧ m.objs.tail = c.lastReq)
    ∧ (
      let s := seq5 false .pswapOut tPswap .requested id; let c := (s.port 5).ct; let m := answer3 tPswap 3 0 [askW 2 200 15]
      s.settled ∧ s.fedElsewhere 5 ∧ (s.port 5).partOpen = true ∧ c.seq = some ⟨.pswapOut, tPswap, 3, .requested, true⟩
      ∧ refType m.objs = tPswap ∧ refId m.objs = 3 ∧ m.objs.tail = c.lastReq)
    ∧ (
      let s := seq5 false .sswapOut tSswap .requested id; let c := (s.port 5).ct; let m := answer3 tSswap 3 0 [askW 2 200 15]
      s.settled ∧ s.fedElsewhere 5 ∧ (s.port 5).partOpen = true ∧ c.seq = some ⟨.sswapOut, tSswap, 3, .requested, true⟩
      ∧ refType m.objs = tSswap ∧ refId m.objs = 3 ∧ m.objs.tail = c.lastReq)
    ∧ (
      let s := seq5 false .askOut tAsk .requested id; let c := (s.port 5).ct; let m := answer3 tAsk 2 0 []; let m2 := answer3 tPswap 2 0 []
      c.awaits (refType m.objs) (refId m.objs) = false ∧ refType m.objs = tAsk
      ∧ c.awaits (refType m2.objs) (refId m2.objs) = false ∧ refType m2.objs = tPswap)
    ∧ (
      let s := seq5 false .askOut tAsk .requested id; let c := (s.port 5).ct; let m := answer3 tAsk 3 0 []
      s.settled ∧ c.awaits (refType m.objs) (refId m.objs) = true ∧ m.objs.tail ≠ c.lastReq) := by
  refine ⟨?_, ?_, ?_, ?_, ?_, ?_⟩ <;> decide +kernel

/-- Each clause of AnswersCloseTheRequest has a state that meets its premises. -/
theorem wit_AnswersCloseTheRequest :
    (
      let s := seq5 false .askOut tAsk .requested fun p => swaps (ctOf (fun c => { c with waiting := [⟨tAsk, c.lastReq, 2, false⟩] }) p); let p := s.port 5
      let m := answer3 tAsk 3 0 []
      s.settled ∧ s.isFeed 5 = false ∧ p.partOpen = true ∧ p.ct.awaits (refType m.objs) (refId m.objs) = true ∧ m.objs.length = 1
      ∧ p.ripe.nwait = 11 ∧ p.ct.waits + 1 < p.ripe.nwait)
    ∧ (
      let s := seq5 false .askOut tAsk .requested (ctOf fun c => { c with waiting := [⟨tAsk, c.lastReq, 7, false⟩] }); let p := s.port 5
      p.ct.awaits tAsk 3 = true ∧ p.ripe.nwait = p.ct.waits + 1)
    ∧ (
      let s := seq5 false .pswapIn tPswap .requested (ctOf fun c => { c with ownSwap := some ⟨.sswapOut, tSswap, 4, .requested, true⟩ }); let p := s.port 5
      let m := answer3 tSswap 4 0 []
      s.settled ∧ p.partOpen = true ∧ p.ct.awaits (refType m.objs) (refId m.objs) = false
      ∧ p.ct.overtook (refType m.objs) (refId m.objs) = true ∧ m.objs.length = 1)
    ∧ (
      let s := seq5 false .askOut tAsk .requested id; let p := s.port 5
      p.partOpen = true ∧ p.ct.awaits tAsk 2 = false ∧ p.ct.overtook tAsk 2 = false ∧ (answer3 tAsk 3 0 [0]).objs.length ≠ 1)
    ∧ (
      let s := seq5 false .askOut tAsk .granted id; let p := s.port 5
      s.settled ∧ s.isFeed 5 = false ∧ p.ct.seq = some ⟨.askOut, tAsk, 3, .granted, true⟩)
    ∧ (
      let s := seq5 false .capsOut tCaps .requested id; let p := s.port 5
      s.settled ∧ p.ct.seq = some ⟨.capsOut, tCaps, 3, .requested, true⟩)
    ∧ (
      let s := seq5 false .capsIn tCaps .requested id; let p := s.port 5
      s.settled ∧ p.ct.seq = some ⟨.capsIn, tCaps, 3, .requested, true⟩)
    ∧ (
      let s := seq5 true .sswapOut tSswap .requested id; let p := s.port 5
      s.settled ∧ p.ct.seq = some ⟨.sswapOut, tSswap, 3, .requested, true⟩)
    ∧ (
      let s := seq5 true .askIn tAsk .requested id; let p := s.port 5
      s.settled ∧ p.ct.seq = some ⟨.askIn, tAsk, 3, .requested, true⟩)
    ∧ (
      (line5 true id).settled ∧ ((line5 true id).port 5).ct.seq = none)
    ∧ (
      let s := seq5 false .getcapsOut tGetcaps .requested (ctOf fun c => { c with lastReq := [0x30000000] }); let p := s.port 5
      s.settled ∧ s.isFeed 5 = false ∧ p.partOpen = true ∧ p.ct.isSeq .getcapsOut = true ∧ fld (p.ct.lastReq.headD 0) 31 28 = 3
      ∧ (msg true [1]).objs ≠ [] ∧ (msg true []).objs = [])
    ∧ (
      let s := seq5 false .getcapsOut tGetcaps .requested (ctOf fun c => { c with lastReq := [0x20000000] }); let p := s.port 5
      s.settled ∧ p.partOpen = true ∧ p.ct.isSeq .getcapsOut = true ∧ fld (p.ct.lastReq.headD 0) 31 28 = 2) := by
  refine ⟨?_, ?_, ?_, ?_, ?_, ?_, ?_, ?_, ?_, ?_, ?_, ?_⟩ <;> decide +kernel

/-- Each clause of ReadyPutsTheContractInForce has a state that meets its premises. -/
theorem wit_ReadyPutsTheContractInForce :
    (
      let s := seq5 false .askOut tAsk .granted (ctOf fun c => { c with trans := true }); let p := s.port 5
      let m := answer3 tAsk 3 0 []
      s.settled ∧ s.signals 5 = true ∧ s.eventsOn = true ∧ s.fedElsewhere 5 ∧ p.partOpen = true ∧ p.ct.trans = true
      ∧ p.ct.volt ≠ p.ct.newVolt ∧ p.ct.seq = some ⟨.askOut, tAsk, 3, .granted, true⟩ ∧ refType m.objs = tAsk ∧ refId m.objs = 3
      ∧ m.objs.length = 1 ∧ p.isSource = false)
    ∧ (
      let s := avail 5000 (seq5 true .askIn tAsk .acting (ctOf fun c => { c with trans := true })); let p := s.port 5
      let m := answer3 tAsk 3 0 []; let led := s.led.holding 5 (powerUp p.ct.newVolt p.ct.newIcont) (p.ct.newTok % 65536)
      s.settled ∧ s.signals 5 = true ∧ s.eventsOn = true ∧ s.fedElsewhere 5 ∧ p.partOpen = true ∧ p.ct.trans = true
      ∧ p.ct.volt ≠ p.ct.newVolt ∧ p.ct.seq = some ⟨.askIn, tAsk, 3, .acting, true⟩ ∧ refType m.objs = tAsk ∧ refId m.objs = 3
      ∧ m.objs.length = 1 ∧ p.isSource = true ∧ p.wh.token = false ∧ s.postServed 5 ∧ led.grantSum + led.tokRes ≤ led.avail) := by
  refine ⟨?_, ?_⟩ <;> decide +kernel

/-- Each clause of TransitionsRunAndFail has a state that meets its premises. -/
theorem wit_TransitionsRunAndFail :
    (
      let s := seq5 true .askIn tAsk .granted id; let p := s.port 5
      s.settled ∧ s.fedElsewhere 5 ∧ p.ct.seq = some ⟨.askIn, tAsk, 3, .granted, true⟩)
    ∧ (
      let s := seq5 true .sswapIn tSswap .granted id; let p := s.port 5
      s.settled ∧ s.fedElsewhere 5 ∧ p.ct.seq = some ⟨.sswapIn, tSswap, 3, .granted, true⟩ ∧ p.cf.csupOn = true)
    ∧ (
      let s := seq5 true .pswapIn tPswap .granted id; let p := s.port 5
      s.settled ∧ s.fedElsewhere 5 ∧ p.ct.seq = some ⟨.pswapIn, tPswap, 3, .granted, true⟩ ∧ p.isSource = true ∧ p.pw.sw = .off ∧ s.led.held[5] = 0)
    ∧ (
      let s := seq5 true .pswapOut tPswap .granted (swIn .on); let p := s.port 5
      s.settled ∧ s.fedElsewhere 5 ∧ p.ct.seq = some ⟨.pswapOut, tPswap, 3, .granted, true⟩
      ∧ p.isSource = true ∧ p.pw.sw = .on ∧ p.pw.pg = false ∧ s.noneWaits ∧ (5 : Port) ≠ portB)
    ∧ (
      let s := seq5 true .askIn tAsk .acting id; let p := s.port 5
      s.settled ∧ s.fedElsewhere 5 ∧ p.ct.seq = some ⟨.askIn, tAsk, 3, .acting, true⟩
      ∧ within3 9700 p.ct.newVolt = true ∧ within3 10300 p.ct.newVolt = true)
    ∧ (
      let s := seq5 true .pswapIn tPswap .ready1 id; let p := s.port 5
      s.settled ∧ s.fedElsewhere 5 ∧ p.ct.seq = some ⟨.pswapIn, tPswap, 3, .ready1, true⟩ ∧ p.isSource = true
      ∧ within3 12000 p.ripe.defaultContract.1 = true)
    ∧ (
      let s := seq5 false .askOut tAsk .granted (ctOf fun c => { c with trans := true }); let p := s.port 5
      s.settled ∧ s.fedElsewhere 5 ∧ p.ct.trans = true ∧ p.ct.seq = some ⟨.askOut, tAsk, 3, .granted, true⟩
      ∧ p.ct.firstContract = false)
    ∧ (
      let s := seq5 true .askIn tAsk .acting fun p => swIn .on (ctOf (fun c => { c with trans := true }) p); let p := s.port 5
      s.settled ∧ s.fedElsewhere 5 ∧ p.ct.trans = true ∧ p.ct.seq = some ⟨.askIn, tAsk, 3, .acting, true⟩
      ∧ p.pw.sw = .on ∧ p.pw.pg = false ∧ s.noneWaits ∧ p.ln.txCount < 16 ∧ (5 : Port) ≠ portB)
    ∧ (
      let s := line5 true (ctOf fun c => { c with narrowing := true, askNewRun := true }); let p := s.port 5
      s.settled ∧ s.fedElsewhere 5 ∧ p.ct.narrowing = true ∧ p.ct.askNewRun = true ∧ p.isSource = true ∧ p.partOpen = true)
    ∧ (
      let s := line5 true id; let c := (s.port 5).ct
      s.settled ∧ s.fedElsewhere 5 ∧ c.seq = none ∧ c.trans = false ∧ c.narrowing = false ∧ c.askNewRun = false) := by
  refine ⟨?_, ?_, ?_, ?_, ?_, ?_, ?_, ?_, ?_, ?_⟩ <;> decide +kernel

/-- Each clause of ByeAndAbortUndo has a state that meets its premises. -/
theorem wit_ByeAndAbortUndo :
    (
      let s := line5 true fun p => swIn .on (ctOf (fun c => { c with state := .negotiated }) p); let p := s.port 5; let m := answer3 0 0 0 []
      s.settled ∧ s.signals 5 = true ∧ s.eventsOn = true ∧ s.fedElsewhere 5 ∧ p.partOpen = true ∧ p.wh.burstOpen = false
      ∧ p.ct.state = .negotiated ∧ refArg m.objs % 2 = 0 ∧ p.pw.sw = .on ∧ p.pw.pg = false ∧ s.noneWaits)
    ∧ (
      let s := line5 false (ctOf fun c => { c with state := .negotiated }); let p := s.port 5; let m := answer3 0 0 1 []
      s.settled ∧ s.signals 5 = true ∧ s.eventsOn = true ∧ s.fedElsewhere 5 ∧ p.partOpen = true ∧ p.wh.burstOpen = false ∧ p.ct.state = .negotiated ∧ refArg m.objs % 2 = 1 ∧ p.isSource = false)
    ∧ (
      let s := avail 5000 (line5 true (ctOf fun c => { c with state := .negotiated })); let p := s.port 5; let m := answer3 0 0 1 []
      let led := s.led.holding 5 (powerUp p.ripe.defaultContract.1 p.ripe.defaultContract.2) 0
      s.settled ∧ s.signals 5 = true ∧ s.eventsOn = true ∧ s.fedElsewhere 5 ∧ p.partOpen = true ∧ p.wh.burstOpen = false ∧ p.ct.state = .negotiated ∧ refArg m.objs % 2 = 1 ∧ p.isSource = true
      ∧ p.wh.token = false ∧ s.postServed 5 ∧ led.grantSum + led.tokRes ≤ led.avail)
    ∧ (
      let s := line5 false (ctOf fun c => { c with state := .none }); let p := s.port 5; s.settled ∧ s.signals 5 = true ∧ s.eventsOn = true ∧ s.fedElsewhere 5 ∧ p.partOpen = true ∧ p.ct.state = .none)
    ∧ (
      let s := seq5 false .askOut tAsk .granted (ctOf fun c => { c with trans := true }); let p := s.port 5; let m := answer3 tAsk 3 0 []
      s.settled ∧ s.signals 5 = true ∧ s.eventsOn = true ∧ s.fedElsewhere 5 ∧ p.partOpen = true
      ∧ p.ct.seq = some ⟨.askOut, tAsk, 3, .granted, true⟩ ∧ refType m.objs = tAsk ∧ refId m.objs = 3
      ∧ m.objs.length = 1 ∧ p.ct.trans = true ∧ p.ct.firstContract = false)
    ∧ (
      let s := seq5 false .pswapOut tPswap .requested id; let p := s.port 5; let m := answer3 tPswap 3 0 []
      s.settled ∧ s.signals 5 = true ∧ s.eventsOn = true ∧ s.fedElsewhere 5 ∧ p.partOpen = true
      ∧ p.ct.seq = some ⟨.pswapOut, tPswap, 3, .requested, true⟩ ∧ refType m.objs = tPswap
      ∧ refId m.objs = 3 ∧ m.objs.length = 1 ∧ p.ct.trans = false)
    ∧ (
      let s := seq5 false .pswapIn tPswap .granted id; let p := s.port 5; let m := answer3 tPswap 3 0 []
      s.settled ∧ s.signals 5 = true ∧ s.eventsOn = true ∧ s.fedElsewhere 5 ∧ p.partOpen = true
      ∧ p.ct.seq = some ⟨.pswapIn, tPswap, 3, .granted, true⟩ ∧ refType m.objs = tPswap
      ∧ refId m.objs = 3 ∧ m.objs.length = 1)
    ∧ (
      let s := line5 false id; let p := s.port 5; let m := answer3 tAsk 3 0 []
      s.settled ∧ s.signals 5 = true ∧ s.eventsOn = true ∧ s.fedElsewhere 5 ∧ p.partOpen = true ∧ p.ct.answers (refType m.objs) (refId m.objs) = false) := by
  refine ⟨?_, ?_, ?_, ?_, ?_, ?_, ?_, ?_⟩ <;> decide +kernel

/-- Each clause of SwapsExchangeRoles has a state that meets its premises. -/
theorem wit_SwapsExchangeRoles :
    (
      let s := line5 true swaps; let p := s.port 5
      s.settled ∧ s.signals 5 = true ∧ s.eventsOn = true ∧ s.fedElsewhere 5 ∧ p.partOpen = true ∧ s.policyOpen 5 = true ∧ s.isDmh16 = true ∧ p.ct.state ≠ .none
      ∧ p.ct.state ≠ .swap ∧ p.ripe.pswapen = true ∧ p.ripe.sswapen = true ∧ p.cf.csup = 0 ∧ swapBusy 5 s = false ∧ s.fd.planned = false
      ∧ p.ln.txCount < 16)
    ∧ (
      let s := avail 5000 (seq5 false .pswapIn tPswap .granted fun p => swaps (ctOf (fun c => { c with state := .negotiated }) p)); let p := s.port 5
      let d := p.ripe.defaultContract; let m := answer3 tPswap 3 0 []
      s.settled ∧ s.signals 5 = true ∧ s.eventsOn = true ∧ s.fedElsewhere 5 ∧ p.partOpen = true
      ∧ p.ct.seq = some ⟨.pswapIn, tPswap, 3, .granted, true⟩ ∧ p.ct.answers (refType m.objs) (refId m.objs) = true ∧ m.objs.length = 1
      ∧ p.isSource = false ∧ p.ct.state = .negotiated ∧ p.wh.burstOpen = false ∧ p.wh.token = false ∧ p.pw.sw = .off ∧ s.led.held[5] = 0
      ∧ s.raiseServed 5 (powerUp d.1 d.2))
    ∧ (
      let s := seq5 false .pswapIn tPswap .ready1 (ctOf fun c => { c with state := .swap }); let p := s.port 5
      s.settled ∧ s.signals 5 = true ∧ s.eventsOn = true ∧ s.fedElsewhere 5 ∧ p.partOpen = true
      ∧ p.ct.seq = some ⟨.pswapIn, tPswap, 3, .ready1, true⟩ ∧ p.ct.answers tPswap 3 = true
      ∧ p.isSource = false ∧ p.ct.state = .swap ∧ p.ln.txCount < 16)
    ∧ (
      let s := seq5 true .sswapIn tSswap .ready1 id; let p := s.port 5
      s.settled ∧ s.signals 5 = true ∧ s.eventsOn = true ∧ s.fedElsewhere 5 ∧ p.partOpen = true ∧ p.ct.seq = some ⟨.sswapIn, tSswap, 3, .ready1, true⟩ ∧ p.ct.answers tSswap 3 = true)
    ∧ (
      let s := seq5 true .sswapOut tSswap .gaveReady id; let p := s.port 5
      s.settled ∧ s.signals 5 = true ∧ s.eventsOn = true ∧ s.fedElsewhere 5 ∧ p.partOpen = true ∧ p.ct.seq = some ⟨.sswapOut, tSswap, 3, .gaveReady, true⟩ ∧ p.ct.answers tSswap 3 = true)
    ∧ (
      let s := seq5 true .sswapIn tSswap .acting id; let p := s.port 5
      s.settled ∧ s.signals 5 = true ∧ s.eventsOn = true ∧ s.fedElsewhere 5 ∧ p.partOpen = true ∧ p.ct.seq = some ⟨.sswapIn, tSswap, 3, .acting, true⟩ ∧ p.ct.answers tSswap 3 = true)
    ∧ (
      let s := seq5 false .sswapOut tSswap .granted id; let p := s.port 5
      s.settled ∧ s.signals 5 = true ∧ s.eventsOn = true ∧ s.fedElsewhere 5 ∧ p.partOpen = true ∧ p.ct.seq = some ⟨.sswapOut, tSswap, 3, .granted, true⟩ ∧ p.ct.answers tSswap 3 = true
      ∧ p.cf.csupOn = false)
    ∧ (
      let s := seq5 true .pswapIn tPswap .acting (swIn .disch); let p := s.port 5
      s.settled ∧ s.signals 5 = true ∧ s.eventsOn = true ∧ s.fedElsewhere 5 ∧ p.partOpen = true ∧ p.ct.seq = some ⟨.pswapIn, tPswap, 3, .acting, true⟩
      ∧ p.isSource = true ∧ p.pw.sw = .disch)
    ∧ (
      let s := line5 true id; let p := s.port 5; s.settled ∧ s.signals 5 = true ∧ s.eventsOn = true ∧ s.fedElsewhere 5 ∧ p.partOpen = true ∧ p.ct.seq = none) := by
  refine ⟨?_, ?_, ?_, ?_, ?_, ?_, ?_, ?_, ?_⟩ <;> decide +kernel

/-- The hub s with an operation pending in port 5's request slot. -/
def slot5 (op new tok : Nat) (s : State) : State :=
  s.writeMem (slotAddr 5) (toBytesLE 2 (0x8000 + op * 4096) ++ toBytesLE 2 new ++ toBytesLE 2 tok)

/-- The hub s with a grant of h held by port 5. -/
def holds (h : Nat) (s : State) : State := { s with led := { s.led with held := s.led.held.set 5 h } }

/-- A port that retries. -/
def retries (p : PortSt) : PortSt := { defOn p with pw := { p.pw with retryLeft := 3 } }

/-- Each clause of LedgerOperationsKeepTheBooks has a state that meets its premises. -/
theorem wit_LedgerOperationsKeepTheBooks :
    (
      let s := avail 500 (slot5 0 500 0 hub); s.settled ∧ s.pc1Serves = true ∧ (s.port 5).wh.token = false ∧ bitOf (slotCtl 5 s) 15 = true
      ∧ fld (slotCtl 5 s) 13 12 = 0 ∧ memNat s.mem (slotAddr 5 + 2) 2 = 500 ∧ raiseRefused s.led 5 500 0 = false)
    ∧ (
      let s := avail 499 (slot5 0 500 0 hub); s.settled ∧ s.eventsOn = true ∧ bitOf (slotCtl 5 s) 15 = true ∧ fld (slotCtl 5 s) 13 12 = 0
      ∧ raiseRefused s.led 5 500 0 = true)
    ∧ (
      let s := avail 300 (slot5 1 300 0 (holds 100 hub)); let l := { s.led with held := s.led.held.set 5 300 }
      s.settled ∧ bitOf (slotCtl 5 s) 15 = true ∧ fld (slotCtl 5 s) 13 12 = 1 ∧ l.grantSum + l.tokRes ≤ s.led.avail)
    ∧ (
      let s := slot5 2 0 0 (holds 100 hub); let l := { s.led with held := s.led.held.set 5 0 }
      s.settled ∧ bitOf (slotCtl 5 s) 15 = true ∧ fld (slotCtl 5 s) 13 12 = 2 ∧ l.grantSum + l.tokRes ≤ s.led.avail)
    ∧ (
      let s := (slot5 0 50 0 (avail 5000 hub)).updCore corePC1 fun k => { k with ledServe := [(5, 5)] }
      s.settled ∧ (s.core corePC1).ledServe.find? (fun x => decide (x.2 = 5)) ≠ none)
    ∧ (
      let s := (slot5 0 50 0 (avail 5000 hub)).updCore corePC1 fun k => { k with run := .halted }
      s.settled ∧ s.pc1Serves = false ∧ bitOf (slotCtl 5 s) 15 = true
      ∧ (s.core corePC1).ledServe.find? (fun x => decide (x.2 = 5)) = none ∧ bitOf (slotCtl 5 hub) 15 = false) := by
  refine ⟨?_, ?_, ?_, ?_, ?_, ?_⟩ <;> decide +kernel

/-- Each clause of TokensReserveAndShedding has a state that meets its premises. -/
theorem wit_TokensReserveAndShedding :
    (
      hub.settled ∧ (12 : BitVec 4).toNat ≤ 12 ∧ hub.led.grantSum + (12 : BitVec 4).toNat * hub.led.tokPwrMax ≤ hub.led.avail)
    ∧ (
      let s := { avail 300 hub with led := { (avail 300 hub).led with tokpwr := hub.led.tokpwr.set 5 100 } }
      s.settled ∧ s.eventsOn = true ∧ s.led.tokens.toNat < (5 : BitVec 4).toNat ∧ s.led.avail < s.led.grantSum + 5 * s.led.tokPwrMax)
    ∧ (
      12 < (13 : BitVec 4).toNat ∧ Writer.core 0 ≠ .core corePC1)
    ∧ (
      fld (0x00100110 : Word) 31 16 < fld (0x00100110 : Word) 15 4)
    ∧ (
      let v : Word := 0x03203200; fld v 15 4 = fld v 31 16 ∧ hub.led.grantSum + hub.led.tokRes ≤
      (if hub.fd.feed = .none then 0 else hub.powerOf hub.fd.feed) - fld v 31 16)
    ∧ (
      let s := { hub with led := { hub.led with shedRun := true } }; s.settled ∧ s.led.shedRun = true ∧ s.led.grantSum + s.led.tokRes ≤ s.led.avail)
    ∧ (
      let s0 := holds 50 (avail 49 hub); let s := { s0 with led := { s0.led with shedRun := true } }
      s.settled ∧ s.led.shedRun = true ∧ s.led.avail < s.led.grantSum + s.led.tokRes)
    ∧ (
      hub.led.shedRun = false)
    ∧ (
      let s := { avail 300 hub with led := { (avail 300 hub).led with tokpwr := hub.led.tokpwr.set 5 100 } }
      s.settled ∧ (4 : BitVec 4).toNat ≤ s.led.tokens.toNat ∧ s.led.avail < s.led.grantSum + 4 * s.led.tokPwrMax) := by
  refine ⟨?_, ?_, ?_, ?_, ?_, ?_, ?_, ?_, ?_⟩ <;> decide +kernel

/-- Each clause of ContractPowerIsRounded has a state that meets its premises. -/
theorem wit_ContractPowerIsRounded :
    (
      let s := hub.updPort portKU fun p => { p with ct := { p.ct with state := .negotiated, volt := 960, icont := 33 } }; let p := s.port portKU
      p.cf.attach ≠ .legacy ∧ p.ct.state = .negotiated ∧ p.ct.trans = false ∧ p.ct.volt = 960 ∧ p.ct.icont = 33)
    ∧ (
      let s := avail 5000 (line5 true (ctOf fun c => { c with capsOut := [fixed 100 30, fixed 200 20] })); let m := msg false [askW 2 200 15]
      let p := s.port 5
      s.settled ∧ s.policyOpen 5 = true ∧ s.postServed 5 ∧ p.isSource = true ∧ m.role = false ∧ p.ct.seq = none ∧ p.ct.trans = false ∧ p.mo.wet = false
      ∧ p.wh.token = false ∧ posKnown p.ct.capsOut (askPos (m.objs.headD 0)) = true ∧ askValid 5 p.ct.capsOut m.objs = true
      ∧ askVolt (m.objs.headD 0) = 200 ∧ askCur (m.objs.headD 0) = 15 ∧ raiseRefused s.led 5 (powerUp 200 15) (askTok m.objs) = false) := by
  refine ⟨?_, ?_⟩ <;> decide +kernel

/-- Each clause of StartStopAndReadmit has a state that meets its premises. -/
theorem wit_StartStopAndReadmit :
    (
      let s := line5 true (swIn .on); let p := s.port 5
      s.settled ∧ s.has 5 = true ∧ writerPolicy .host 5 = true ∧ writerPolicy (.core (pcOf 5)) 5 = true
      ∧ p.pw.sw = .on ∧ s.noneWaits ∧ p.pw.pg = false)
    ∧ (
      let s := line5 true (swIn .disch); s.settled ∧ s.has 5 = true ∧ (s.port 5).pw.sw = .disch ∧ (s.port 5).pw.stuck = false)
    ∧ (
      let s := line5 true fun p => { p with pw := { p.pw with sw := .disch, stuck := true } }
      s.settled ∧ s.has 5 = true ∧ (s.port 5).pw.sw = .disch ∧ (s.port 5).pw.stuck = true)
    ∧ (
      hub.settled ∧ hub.has 5 = true ∧ (hub.port 5).pw.sw = .off ∧ startReason hub 5 = some 1)
    ∧ (
      let s := line5 true id; s.settled ∧ s.has 5 = true ∧ (s.port 5).pw.sw = .off ∧ startReason s 5 = none ∧ s.noneWaits
      ∧ (∀ m, sameGroup m 5 = true → (s.port m).pw.starting = false))
    ∧ (
      let s := line5 true (swIn .wait); s.settled ∧ s.has 5 = true ∧ (s.port 5).pw.sw = .wait ∧ (s.port 5).pw.pg = false
      ∧ (∀ m : Port, m ≠ 5 → (s.port m).pw.sw ≠ .wait))
    ∧ (
      let s := line5 true (swIn .prechg); s.settled ∧ s.has 5 = true ∧ (s.port 5).pw.starting = true ∧ (s.port 5).pw.pg = false
      ∧ (∀ m : Port, m ≠ 5 → (s.port m).pw.sw ≠ .wait))
    ∧ (
      let s := line5 true (swIn .offtime); s.settled ∧ s.has 5 = true ∧ (s.port 5).pw.sw = .offtime)
    ∧ (
      let s := line5 true fun p => { swIn .giveup p with pw := { p.pw with failed := true } }
      s.settled ∧ s.has 5 = true ∧ (s.port 5).pw.failed = true ∧ s.fd.feed ≠ .none ∧ (hub.port 5).pw.failed = false)
    ∧ (
      writerPolicy (.core 0) 5 = false ∧ writerPolicy (.core corePC1) 5 = false) := by
  refine ⟨?_, ?_, ?_, ?_, ?_, ?_, ?_, ?_, ?_, ?_⟩ <;> decide +kernel

/-- Each clause of StartsEndOnOrTrip has a state that meets its premises. -/
theorem wit_StartsEndOnOrTrip :
    (
      let s := line5 true (swIn .prechg); let p := s.port 5
      s.settled ∧ s.has 5 = true ∧ s.eventsOn = true ∧ p.pw.sw = .prechg ∧ p.pw.onReached = false ∧ p.firstStart = false
      ∧ s.isFeed 5 = false ∧ p.st.force.contains .seatBreak = false ∧ p.wh.burstOpen = false ∧ p.phyOn = true ∧ s.noneWaits)
    ∧ (
      let s := line5 true fun p => swIn .prechg (ctOf (fun c => { c with state := .none, trans := true, first := true }) p); let p := s.port 5
      s.settled ∧ s.has 5 = true ∧ s.eventsOn = true ∧ p.pw.sw = .prechg ∧ p.pw.onReached = false ∧ p.firstStart = true
      ∧ s.isFeed 5 = false ∧ p.st.force.contains .seatBreak = false ∧ p.wh.burstOpen = false ∧ p.phyOn = true ∧ s.noneWaits)
    ∧ (
      let s := line5 true fun p => { p with
      st := { p.st with mode := .buckOut }, pw := { p.pw with sw := .on, onReached := true, pg := true, ftCount := 80000, ftStart := 800000 } }
      let p := s.port 5
      s.settled ∧ s.has 5 = true ∧ s.eventsOn = true ∧ p.pw.sw = .on ∧ p.st.mode ≠ .off ∧ 8000 * p.ripe.ftime = p.pw.ftCount
      ∧ 0 < p.pw.ftCount ∧ p.pw.onReached = true
      ∧ s.isFeed 5 = false ∧ p.st.force.contains .seatBreak = false ∧ p.wh.burstOpen = false ∧ p.phyOn = true ∧ s.noneWaits)
    ∧ (
      (hub.port 5).pw.sw ≠ .prechg ∧ (hub.port 5).pw.ftCount < 8000 * (hub.port 5).ripe.ftime ∧ (hub.port 5).pw.sw ≠ .ramp)
    ∧ (
      let s := line5 true (swIn .ramp); s.settled ∧ s.has 5 = true ∧ (s.port 5).pw.sw = .ramp ∧ s.noneWaits ∧ (s.port 5).pw.retrying = false)
    ∧ (
      let s := line5 true fun p => ctOf (fun c => { c with state := .none }) { p with pw := { p.pw with sw := .ramp, retrying := true } }
      let p := s.port 5
      s.settled ∧ s.has 5 = true ∧ s.eventsOn = true ∧ p.pw.sw = .ramp ∧ s.noneWaits ∧ p.pw.retrying = true ∧ s.fedElsewhere 5
      ∧ (5 : Port) ≠ portB ∧ p.ct.state = .none) := by
  refine ⟨?_, ?_, ?_, ?_, ?_, ?_⟩ <;> decide +kernel

/-- Each clause of DischargesAndRetries has a state that meets its premises. -/
theorem wit_DischargesAndRetries :
    (
      let s := line5 true (swIn .disch); let p := s.port 5
      s.settled ∧ s.has 5 = true ∧ s.eventsOn = true ∧ p.pw.sw = .disch ∧ (5 : Port) ≠ portB ∧ p.pw.startHeld = false ∧ p.ct.seq = none
      ∧ s.led.held[5] = 0 ∧ p.pw.after ≠ .giveup ∧ p.pw.discharging = false ∧ p.pw.stuck = false ∧ p.pw.after = .off
      ∧ backfedLevel 5 ≤ (-50 : Int).natAbs ∧ (49 : Int).natAbs < backfedLevel 5 ∧ p.wh.burstOpen = false)
    ∧ (
      let s := line5 true fun p => { p with pw := { p.pw with sw := .disch, after := .giveup } }; let p := s.port 5
      s.settled ∧ p.pw.sw = .disch ∧ s.led.held[5] = 0 ∧ p.pw.after = .giveup)
    ∧ (
      let s := holds 1 (line5 true (swIn .disch)); let p := s.port 5; let led : LedgerSt := s.led.holding 5 0 0
      s.settled ∧ s.has 5 = true ∧ s.eventsOn = true ∧ p.pw.sw = .disch ∧ (5 : Port) ≠ portB ∧ p.pw.startHeld = false ∧ p.ct.seq = none
      ∧ 0 < s.led.held[5] ∧ p.pw.after = .off ∧ p.wh.token = false ∧ led.grantSum + led.tokRes ≤ led.avail)
    ∧ (
      (hub.port 5).pw.sw ≠ .disch ∧ (hub.port 5).pw.sw ≠ .offtime ∧ pgHolds hub 5 = false)
    ∧ (
      let s := hub.updPort 5 (swIn .offtime); s.settled ∧ (s.port 5).pw.sw = .offtime ∧ (s.port 5).cf.attach ≠ .attachedSrc)
    ∧ (
      let s := line5 true (swIn .offtime); s.settled ∧ (s.port 5).cf.attach = .attachedSrc ∧ (s.port 5).pw.ripenedSinceTrip = false)
    ∧ (
      let s := line5 true fun p => { p with pw := { p.pw with sw := .offtime, ripenedSinceTrip := true } }; let p := s.port 5
      s.settled ∧ p.pw.sw = .offtime ∧ p.cf.attach = .attachedSrc ∧ p.pw.ripenedSinceTrip = true ∧ p.pw.thermHold = false
      ∧ p.st.force.contains .leTrap = false ∧ p.pw.startHeld = false ∧ s.retries 5 = false)
    ∧ (
      let s := avail 9000 (line5 true fun p => retries { p with pw := { p.pw with sw := .offtime, ripenedSinceTrip := true } })
      let s := s.updPw 5 fun q => { q with sw := .offtime, ripenedSinceTrip := true }; let p := s.port 5
      s.settled ∧ p.pw.sw = .offtime ∧ p.cf.attach = .attachedSrc ∧ p.pw.ripenedSinceTrip = true ∧ s.retries 5 = true
      ∧ raiseRefused s.led 5 (powerUp p.ripe.defaultContract.1 p.ripe.defaultContract.2) 0 = false ∧ p.wh.token = false
      ∧ s.noneWaits ∧ p.pw.settled = false)
    ∧ (
      let s := line5 true fun p => swIn .on { p with st := { p.st with ov := ⟨true, false⟩, uv := ⟨true, false⟩ } }
      s.settled ∧ pgHolds s 5 = true ∧ (s.port 5).pw.pg = false) := by
  refine ⟨?_, ?_, ?_, ?_, ?_, ?_, ?_, ?_, ?_⟩ <;> decide +kernel

/-- An open quotient is at most one above the exact one (log entry 24). -/
theorem openQuot_toNat_le (a : Nat) (d : Nat) (_h : 0 < d) : (openQuot a d).toNat ≤ a / d + 1 := by
  unfold openQuot
  have h : ((a : Int) / (d : Int)) = ((a / d : Nat) : Int) := (Int.natCast_ediv a d).symm
  rw [h]
  generalize a / d = q
  split <;> omega

/-- Each clause of TelemetryReadsAndMeters has a state that meets its premises. -/
theorem wit_TelemetryReadsAndMeters :
    (
      let s := line5 true fun p => { p with pw := { p.pw with sw := .ramp, rampPj := 5 } }; let p := s.port 5
      s.settled ∧ s.has 5 = true ∧ (∀ k : Port, k ≠ 5 → (s.port k).pw.sw ≠ .ramp)
      ∧ p.pw.rampPj + ((48000 : Int) - 47000).natAbs * (100 : Int).natAbs < 1000000000 * p.ripe.rampe ∧ s.fd.pre = false)
    ∧ (
      let s := line5 true fun p => { p with me := { p.me with eexp := 0xFFFFFFFFFFFE, remExp := 1000 } }; let m := (s.port 5).me
      0 ≤ (47000 : Int) * 1 ∧ m.eexp.toNat * 1024 + m.remExp + (openQuot (((47000 : Int) * 1).natAbs * 1024) 1000000).toNat < 2 ^ 58)
    ∧ (
      let s := hub; let m := (s.port portKD).me
      (47000 : Int) * (-5) < 0 ∧ isW portKD = false ∧ m.eimp.toNat * 1024 + m.remImp + (openQuot (((47000 : Int) * (-5)).natAbs * 1024) 1000000).toNat < 2 ^ 58)
    ∧ (
      let s := line5 true fun p => { p with me := { p.me with count := 1 } }; s.settled ∧ 0 < (s.port 5).me.count) := by
  refine ⟨by decide +kernel, ⟨by decide +kernel, ?_⟩, ⟨by decide +kernel, by decide +kernel, ?_⟩, by decide +kernel⟩
  · have h := openQuot_toNat_le (((47000 : Int) * 1).natAbs * 1024) 1000000 (by decide)
    refine Nat.lt_of_le_of_lt (Nat.add_le_add_left h _) ?_
    decide +kernel
  · have h := openQuot_toNat_le (((47000 : Int) * (-5)).natAbs * 1024) 1000000 (by decide)
    refine Nat.lt_of_le_of_lt (Nat.add_le_add_left h _) ?_
    decide +kernel

/-- A hub with all three supplies inside their ranges and HBUS carried, and its feeds as f makes them. -/
def sup (f : FeedSt → FeedSt) : State := { hub with fd := f { hub.fd with
  kuMv := 24000, gMv := 48000, bMv := 24000, kuUp := true, gUp := true, bUp := true, hbusLow := false } }

/-- A port seated and under a contract as a sink: a candidate. -/
def cand (p : PortSt) : PortSt := { p with
  pw := { p.pw with seat := ⟨true, true⟩, settled := true }, cf := { p.cf with attach := .attachedSnk }
  ct := { p.ct with state := .negotiated, volt := 960, icont := 100, window := ⟨0, 60000⟩ } }

/-- Feed f selected. -/
def fedBy (f : Feed) (x : FeedSt) : FeedSt := { x with feed := f, target := f }

/-- Every port of s a candidate. -/
def allCand (s : State) : State := { s with ports := s.ports.map cand }

/-- Port 5 with its moisture part changed. -/
def mo5 (f : MoistSt → MoistSt) : State := hub.updMo 5 f

/-- The hub with sensor i changed. -/
def sens (i : Fin 24) (f : Sensor → Sensor) : State := hub.updSensor i f

/-- A round that samples 40.0 degrees everywhere but at i. -/
def roundOf (i : Nat) (r : Option Int) : List (Option Int) := (List.replicate 24 (some 640)).set i r

/-- Each clause of SuppliesMoveTheFeed has a state that meets its premises. -/
theorem wit_SuppliesMoveTheFeed :
    (
      let s := sup (fedBy .ku); s.settled ∧ s.fd.feed ≠ .none ∧ supplyLoss (setUp .ku true (noteSupply .ku 24000 s)) = none
      ∧ supplyLoss (noteSupply .g 48000 s) = none ∧ (s.port portKU).cf.attach ≠ .legacy ∧ (s.port portKU).cf.fromLegacy = false ∧ (s.port portKU).cf.legacyDue = false
      ∧ s.dev.hold = .none ∧ s.fd.feed ≠ feedOfSupply .g ∧ s.fd.pre = false)
    ∧ (
      let s := sup (fedBy .ku)
      s.settled ∧ ¬(Supply.b ≠ .b ∨ (18000 ≤ 32001 ∧ 32001 ≤ 32000)) ∧ s.isFeed portB = false ∧ (s.port portB).pw.sw = .off)
    ∧ (
      let s := allCand (sup fun x => { x with feed := .none, hbusLow := true }); let r := setUp .ku true (noteSupply .ku 24000 s)
      s.settled ∧ s.fd.feed = .none ∧ s.fd.pre = false ∧ (s.fd.ov.valid && s.fd.ov.out) = false ∧ r.firstFeed = .ku ∧ r.fd.hbusLow = true)
    ∧ (
      let s := allCand (sup fun x => { x with feed := .none }); let r := setUp .ku true (noteSupply .ku 24000 s)
      s.settled ∧ s.fd.feed = .none ∧ s.fd.pre = false ∧ (s.fd.ov.valid && s.fd.ov.out) = false ∧ r.firstFeed = .ku ∧ r.fd.hbusLow = false
      ∧ s.eventsOn = true ∧ r.led.grantSum + r.led.tokRes ≤ r.availOf .ku)
    ∧ (
      let s := allCand (sup (fedBy .g)); let r := noteSupply .g 3000 s
      s.settled ∧ supplyLoss r = some 5 ∧ s.kuFree ∧ (s.port portKU).cf.attach ≠ .legacy ∧ (s.port portKU).cf.fromLegacy = false ∧ (s.port portKU).cf.legacyDue = false
      ∧ s.eventsOn = true ∧ r.fd.feed ≠ .none ∧ r.kdSinks = false ∧ (r.fd.ov.valid && r.fd.ov.out) = false ∧ r.fd.hbusLow = false
      ∧ (∀ n, r.isFeed n = true → (r.port n).pw.pg = false) ∧ r.noSwap ∧ r.firstFeed = .ku ∧ r.led.grantSum + r.led.tokRes ≤ r.availOf .ku)
    ∧ (
      let s := allCand (sup (fedBy .g)); let r := setUp .g false (noteSupply .g 0 s)
      s.settled ∧ s.fd.feed = feedOfSupply .g ∧ s.dev.hold = .none ∧ s.fd.pre = false ∧ (s.port portKU).cf.attach ≠ .legacy ∧ (s.port portKU).cf.fromLegacy = false ∧ (s.port portKU).cf.legacyDue = false
      ∧ s.eventsOn = true ∧ r.fd.feed ≠ .none ∧ r.kdSinks = false ∧ (r.fd.ov.valid && r.fd.ov.out) = false ∧ r.fd.hbusLow = false
      ∧ (∀ n, r.isFeed n = true → (r.port n).pw.pg = false) ∧ r.noSwap ∧ r.firstFeed ≠ .none ∧ r.led.grantSum + r.led.tokRes ≤ r.availOf r.firstFeed)
    ∧ (
      let s := sup fun x => { fedBy .g x with kuUp := false, bUp := false, kuMv := 0, bMv := 0 }; let r := setUp .g false (noteSupply .g 0 s)
      s.settled ∧ s.fd.feed = feedOfSupply .g ∧ s.dev.hold = .none ∧ s.fd.pre = false ∧ (s.port portKU).cf.attach ≠ .legacy ∧ (s.port portKU).cf.fromLegacy = false ∧ (s.port portKU).cf.legacyDue = false
      ∧ s.eventsOn = true ∧ r.fd.feed ≠ .none ∧ r.kdSinks = false ∧ (r.fd.ov.valid && r.fd.ov.out) = false ∧ r.fd.hbusLow = false
      ∧ (∀ n, r.isFeed n = true → (r.port n).pw.pg = false) ∧ r.noSwap ∧ r.firstFeed = .none)
    ∧ (
      let s := allCand (sup (fedBy .ku)); let r := noteSupply .ku 40000 s
      s.settled ∧ (s.port portKU).cf.attach ≠ .legacy ∧ (s.port portKU).cf.fromLegacy = false ∧ (s.port portKU).cf.legacyDue = false ∧ s.fd.feed = .ku ∧ (s.port portKU).ct.state = .negotiated
      ∧ supplyLoss r = some 5 ∧ s.fd.pre = false ∧ s.dev.hold = .none)
    ∧ (
      let s := sup fun x => { fedBy .ku x with gap := true }
      s.settled ∧ s.fd.gap = true ∧ s.isFeed portKU = true ∧ (∀ m, (s.port m).st.force = []) ∧ s.fd.feed ≠ .none ∧ hub.fd.gap = false)
    ∧ (
      let s := sup fun x => { x with feed := .none, pre := true, target := .ku, hbusLow := true, gUp := false, bUp := false, gMv := 0, bMv := 0 }
      let k := { s.updPw portKU fun w => { w with failed := true } with fd := { s.fd with pre := false, target := .none } }
      s.settled ∧ s.fd.pre = true ∧ s.fd.target.port = some portKU ∧ s.fd.feed = .none ∧ s.fd.hbusLow = true
      ∧ (s.fd.ov.valid && s.fd.ov.out) = false ∧ k.firstFeed = .none)
    ∧ (
      let s := allCand (sup fun x => { x with feed := .none, pre := true, target := .ku, hbusLow := true })
      let k := { s.updPw portKU fun w => { w with failed := true } with fd := { s.fd with pre := false, target := .none } }
      s.settled ∧ s.fd.pre = true ∧ s.fd.target.port = some portKU ∧ s.fd.feed = .none ∧ s.fd.hbusLow = true
      ∧ (s.fd.ov.valid && s.fd.ov.out) = false ∧ k.firstFeed ≠ .none)
    ∧ (
      hub.fd.pre = false) := by
  refine ⟨?_, ?_, ?_, ?_, ?_, ?_, ?_, ?_, ?_, ?_, ?_, ?_⟩ <;> decide +kernel

/-- Each clause of FeedCommandsAreChecked has a state that meets its premises. -/
theorem wit_FeedCommandsAreChecked :
    (
      writerFeed (.core 0) = false ∧ writerFeed .host = true ∧ feedOfCode (0 : BitVec 2).toNat = .none ∧ feedOfCode (1 : BitVec 2).toNat = hub.fd.feed)
    ∧ (
      feedOfCode (2 : BitVec 2).toNat ≠ .none ∧ feedOfCode (2 : BitVec 2).toNat ≠ hub.fd.feed ∧ (planRefused hub (feedOfCode 2)).isSome = true)
    ∧ (
      let s := allCand (sup fun x => { fedBy .ku x with prog := true }); let f := feedOfCode (2 : BitVec 2).toNat
      s.settled ∧ f ≠ .none ∧ f ≠ s.fd.feed ∧ planRefused s f = none ∧ s.eventsOn = true ∧ s.fd.hbusLow = false ∧ s.kdSinks = false
      ∧ (∀ m, s.isFeed m = true → (s.port m).pw.pg = false))
    ∧ (
      hub.settled ∧ hub.fd.prog = false ∧ hub.fd.feed ≠ .none ∧ hub.fd.feed ≠ .b)
    ∧ (
      let s := allCand (sup fun x => { fedBy .ku x with prog := true }); let k := { s with fd := { s.fd with prog := false } }
      s.settled ∧ s.fd.prog = true ∧ s.isFeed portKU = true ∧ s.fd.gap = false ∧ supplyLoss k = none)
    ∧ (
      let s := allCand (sup fun x => { fedBy .b x with prog := true, ben := true }); let r := { s with fd := { s.fd with ben := false } }
      s.settled ∧ s.fd.feed = .b ∧ s.fd.prog = true ∧ s.fd.ben = true
      ∧ s.eventsOn = true ∧ r.fd.feed ≠ .none ∧ r.kdSinks = false ∧ (r.fd.ov.valid && r.fd.ov.out) = false ∧ r.fd.hbusLow = false
      ∧ (∀ n, r.isFeed n = true → (r.port n).pw.pg = false) ∧ r.noSwap ∧ r.firstFeed ≠ .none ∧ r.led.grantSum + r.led.tokRes ≤ r.availOf r.firstFeed)
    ∧ (
      let s := sup fun x => { x with ov := ⟨true, true⟩ }; s.settled ∧ s.fd.ov = ⟨true, true⟩)
    ∧ (
      hub.settled ∧ hub.fd.ov.out = false ∧ hub.isFeed portKU = true ∧ hub.noSwap ∧ hub.fd.feed ≠ .none)
    ∧ (
      let s := allCand (sup fun x => { x with feed := .none, ov := ⟨true, true⟩ }); let r := { s with fd := { s.fd with ov := ⟨true, false⟩ } }
      s.settled ∧ s.fd.feed = .none ∧ s.fd.pre = false ∧ s.fd.ov = ⟨true, true⟩ ∧ (∀ m, (s.port m).st.force = []) ∧ s.firstFeed ≠ .none
      ∧ r.led.grantSum + r.led.tokRes ≤ r.availOf s.firstFeed) := by
  refine ⟨?_, ?_, ?_, ?_, ?_, ?_, ?_, ?_, ?_⟩ <;> decide +kernel

/-- Each clause of MoistureIsFlaggedAndCleared has a state that meets its premises. -/
theorem wit_MoistureIsFlaggedAndCleared :
    (
      hub.settled ∧ hub.signals 5 = true ∧ hub.eventsOn = true ∧ hub.fd.feed ≠ .none ∧ hub.fd.pre = false ∧ (hub.port 5).ripe.moistEn = true
      ∧ hub.unpowered 5 = true ∧ hub.lineQuiet 5 = true ∧ (hub.port 5).mo.measuring = false)
    ∧ (
      let s := mo5 fun m => { m with measuring := true }; let p := s.port 5
      s.settled ∧ s.signals 5 = true ∧ s.eventsOn = true ∧ s.fd.feed ≠ .none ∧ s.fd.pre = false ∧ p.mo.measuring = true ∧ p.mo.wet = false ∧ (0 ≤ 5 ∧ p.ripe.mdg ≤ 5 - 0) ∧ p.mo.dryRuns + 1 < 3 ∧ ¬(p.ripe.mdg ≤ 4 - 0))
    ∧ (
      let s := mo5 fun m => { m with measuring := true, wet := true, pins := 1, dryRuns := 2 }; let m := (s.port 5).mo
      s.settled ∧ m.measuring = true ∧ m.wet = true ∧ 3 = m.dryRuns + 1)
    ∧ (
      let s := line5 false (swIn .on); s.settled ∧ s.tracks 5 = true ∧ (s.port 5).mo.wet = false)
    ∧ (
      let s := line5 false fun p => swIn .on { p with mo := { p.mo with wet := true } }; s.settled ∧ s.tracks 5 = true ∧ (s.port 5).mo.wet = true
      ∧ hub.tracks 5 = false)
    ∧ (
      let s := line5 true fun p => swIn .on (ctOf (fun c => { c with volt := 960 }) { p with mo := { p.mo with wet := true } }); let p := s.port 5
      s.settled ∧ s.signals 5 = true ∧ s.eventsOn = true ∧ s.fd.feed ≠ .none ∧ s.fd.pre = false ∧ p.mo.wet = true ∧ aboveMvlim p.ripe p.ct.volt = true ∧ p.pw.sw = .on ∧ p.pw.pg = false ∧ s.isFeed 5 = false ∧ s.noneWaits) := by
  refine ⟨?_, ?_, ?_, ?_, ?_, ?_⟩ <;> decide +kernel

/-- Each clause of ThermalRoundsGuard has a state that meets its premises. -/
theorem wit_ThermalRoundsGuard :
    (
      let s := sens 5 id; let x := s.th.sensors[5]; s.settled ∧ s.dev.hold = .none ∧ s.sensorPresent 5 = true ∧ x.broken = false
      ∧ (roundOf 5 (some (-880)))[5]? = some (some (-880)) ∧ (roundOf 5 (some 3200))[5]? = some (some 3200))
    ∧ (
      let s := sens 5 fun x => { x with bad := 1 }; s.settled ∧ 0 < s.th.sensors[5].bad ∧ (roundOf 5 (some (-881)))[5]? = some (some (-881))
      ∧ (roundOf 5 none)[5]? = some none ∧ hub.th.sensors[5].bad = 0)
    ∧ (
      let s := (sens 5 fun x => { x with overLim := 1 }).updPort 5 (swIn .on); let l := roundOf 5 (some 2400)
      let now := s.th.now + (if s.th.fast = true then 1 else 40)
      s.settled ∧ s.sensorPresent 5 = true ∧ s.dev.hold = .none ∧ s.th.sensors[5].broken = false ∧ 16 * (fld s.th.thermctl 31 24 : Int) ≤ 2400 ∧ s.th.sensors[5].overLim = 1 ∧ l[5]? = some (some 2400)
      ∧ s.dev.mode ≠ .shutdown ∧ s.hsArmed 5 = true ∧ s.isFeed 5 = false ∧ (s.port 5).st.force.contains .seatBreak = false ∧ (s.port 5).st.force.contains .hardShort = false
      ∧ ((List.finRange 24).all fun j => decide (j = 5) || (match l[j.val]? with
      | some r => let o := (roundSensor s.th.thermctl j.val now s.th.sensors[j] r).2; !o.2.2.1 && !o.2.2.2.1
      | none => true)) = true)
    ∧ (
      let s := sens 16 fun x => { x with overLim := 1 }; s.settled ∧ s.dev.hold = .none ∧ s.sensorPresent 16 = true ∧ s.th.sensors[16].broken = false
      ∧ s.th.sensors[16].overLim = 1 ∧ (roundOf 16 (some 2400))[16]? = some (some 2400) ∧ s.dev.mode ≠ .shutdown) := by
  refine ⟨?_, ?_, ?_, ?_⟩ <;> decide +kernel

/-- Each clause of ResetsLeaveABootingHub has a state that meets its premises. -/
theorem wit_ResetsLeaveABootingHub :
    (
      let s := { hub with dev := { hub.dev with mode := .shutdown }, th := { hub.th with maxTemp := 1999 } }
      s.settled ∧ s.dev.mode = .shutdown ∧ s.th.maxTemp.toInt < 2000)
    ∧ (
      hub.settled ∧ hub.dev.mode ≠ .shutdown ∧ hub.dev.hold = .none ∧ (2000 : BitVec 16).toInt = 2000)
    ∧ (
      let s := { hub with dev := { hub.dev with hold := .brownOut } }; s.settled ∧ s.dev.hold = .brownOut)
    ∧ (
      hub.bt.img = none ∧ hub.stone.busy = none) := by
  refine ⟨?_, ?_, ?_, ?_⟩ <;> decide +kernel

/-- The hub as a boot finds it. -/
def cold : State := { hub with dev := { hub.dev with mode := .booting } }

/-- A Stone word that reads the same at every reference. -/
def fuse3 (w : Nat) (v : Word) : FuseWord := ⟨w, v, v, v⟩

/-- The hub before its boot, its Stone with life word v, PROVISION locked over nothing but the vendor's variant word. -/
def stoneOf (v var integ : Word) : State := { cold with stone := { cold.stone with
  fuses := [fuse3 0 v, fuse3 1 0x0F00, fuse3 64 (0xD6000000 ||| var), fuse3 511 integ] } }

/-- The hub with a host that uses PEC. -/
def pec : State := { hub with host := { hub.host with busctl := 0x00010005 } }

/-- The hub whose port 5 rings the host owns, with entries waiting. -/
def owned : State := hub.updLn 5 fun l => { l with
  owner := true, rxCount := 3, rxHead := 15, tx := [14, 15, 0, 1, 2, 3, 4, 5, 6, 7, 8, 9, 10, 11, 12], txNext := 13 }

/-- A read as a host drives it. -/
def readX : Xact := ⟨.readWord, 0, [], .repStart, true, none⟩

/-- Each clause of BootDecidesByTheStone has a state that meets its premises. -/
theorem wit_BootDecidesByTheStone :
    (
      hub.settled ∧ hub.dev.mode ≠ .booting ∧ cold.settled ∧ cold.dev.mode = .booting ∧ cold.dev.hold = .none ∧ cold.fd.vhost = true)
    ∧ (
      (stoneRead [] cold).stone.life.toNat ≤ 1 ∧ (stoneRead [] (stoneOf 1 3 0)).stone.life.toNat = 1)
    ∧ (
      (stoneOf 0x01000000 3 0).settled ∧ (stoneRead [] (stoneOf 0x01000000 3 0)).stone.life = 4)
    ∧ (
      let k := stoneRead [] (stoneOf 0x100 3 0); k.stone.life = 2 ∧ k.stone.integrityFails = true ∧ k.stone.variant = 3)
    ∧ (
      let s := { stoneOf 0x10000 1 0 with dev := { cold.dev with strap := 1 } }; let k := stoneRead [] s
      s.settled ∧ k.stone.life = 3 ∧ k.stone.integrityFails = true ∧ k.stone.variant ≠ 3) := by
  refine ⟨?_, ?_, ?_, ?_, ?_⟩ <;> decide +kernel

/-- Each clause of EvcountReturnsTheRing has a state that meets its premises. -/
theorem wit_EvcountReturnsTheRing :
    (
      hub.host.evcount ≤ 512 ∧ hub.settled ∧ isRead readX ∧ codeAccepted hub.hostState 0x02 = true ∧ hub.early readX = false
      ∧ pec.settled ∧ pec.pecOn = true ∧ codeAccepted pec.hostState 0x02 = true)
    ∧ (
      let s := { hub with host := { hub.host with bussetup := 5 } }; let x : Xact := { readX with rise := some 4 }
      s.host.evcount ≤ 512 ∧ s.settled ∧ isRead x ∧ codeAccepted s.hostState 0x02 = true ∧ s.early x = true) := by
  refine ⟨?_, ?_⟩ <;> decide +kernel

/-- Each clause of WinselSetsTheWindow has a state that meets its premises. -/
theorem wit_WinselSetsTheWindow :
    (
      hub.settled ∧ codeAccepted hub.hostState 0xD0 = true ∧ (0 : BitVec 16) = 0 ∧ (1 : BitVec 16) ≠ 0 ∧ hub.takes readX)
    ∧ (
      codeAccepted hub.hostState 0xD1 = true ∧ (0xFF : Byte) ≠ 0)
    ∧ (
      let s := { hub with host := { hub.host with winbase := 0x3001 } }
      s.settled ∧ codeAccepted s.hostState 0xD2 = true ∧ 0x30015400 = s.host.winbase.toNat * 65536 + ((0x5400 : BitVec 16).toNat + 0) % 65536) := by
  refine ⟨?_, ?_, ?_⟩ <;> decide +kernel

/-- Each clause of HostReadsAnswer has a state that meets its premises. -/
theorem wit_HostReadsAnswer :
    (
      hub.settled ∧ hub.takes readX ∧ codeAccepted hub.hostState 0x00 = true ∧ hub.hostState ≠ .deaf ∧ codeAccepted hub.hostState 0x01 = true
      ∧ codeAccepted hub.hostState 0x08 = true)
    ∧ (
      codeAccepted hub.hostState 0x10 = true ∧ codeAccepted hub.hostState 0x3F = true ∧ codeAccepted hub.hostState 0x40 = true
      ∧ codeAccepted hub.hostState 0x6F = true ∧ 0x10 ≤ (0x10 : Byte).toNat ∧ (0x3F : Byte).toNat < 0x40 ∧ (0x6F : Byte).toNat < 0x70)
    ∧ (
      let l := (owned.port 5).ln; owned.settled ∧ codeAccepted owned.hostState 0xE1 = true ∧ (11 : Byte).toNat = 2 * (5 : Port).val + 1
      ∧ l.owner = true ∧ 0 < l.rxCount)
    ∧ (
      let s := hub.updLn 5 fun l => { l with owner := true }; s.settled ∧ (s.port 5).ln.owner = true ∧ (s.port 5).ln.rxCount = 0)
    ∧ (
      (hub.port 5).ln.owner = false ∧ hub.eventsOn = true)
    ∧ (
      let s := { hub with fd := { hub.fd with vhost := false } }; s.settled ∧ s.hostState = .deaf) := by
  refine ⟨?_, ?_, ?_, ?_, ?_, ?_⟩ <;> decide +kernel

/-- Each clause of HostWritesAct has a state that meets its premises. -/
theorem wit_HostWritesAct :
    (
      hub.settled ∧ codeAccepted hub.hostState 0x08 = true ∧ (15 : Byte).toNat < 16 ∧ 16 ≤ (16 : Byte).toNat)
    ∧ (
      let s := { hub with host := { hub.host with portsel := 5 } }; let row := rowAddr s 0x12
      codeAccepted s.hostState 0x12 = true ∧ s.hostState ≠ .boot ∧ (regPlace row).isSome = true
      ∧ ((regPlace row).bind fun p => placeRefused s .host p 0) = none)
    ∧ (
      ((regPlace (rowAddr hub 0x50)).bind fun p => placeRefused hub .host p 0xFFFFFFFF) = some 2)
    ∧ (
      regPlace 0x40000FFC = none ∧ (regPlace 0x40000B0C).isSome = true ∧ ((regPlace 0x40000B0C).bind fun p => placeRefused hub .host p 0x00010000) = none)
    ∧ (
      (0x40000B0C : Word) = 0x40000B0C ∧ fld (0x00010000 : Word) 23 16 ≠ 0)
    ∧ (
      (0x40015110 : Word).toNat = 0x40010110 + 0x1000 * (5 : Port).val ∧ hub.signals 5 = true)
    ∧ (
      owned.settled ∧ codeAccepted owned.hostState 0xE0 = true ∧ (List.replicate 80 (0 : Byte)).length = 80 ∧ (owned.port 5).ln.owner = true
      ∧ (owned.port 5).ln.txCount < 16)
    ∧ (
      let s := owned.updLn 5 fun l => { l with tx := List.range 16 }
      s.settled ∧ codeAccepted s.hostState 0xE0 = true ∧ (s.port 5).ln.owner = true ∧ 16 ≤ (s.port 5).ln.txCount ∧ (hub.port 5).ln.owner = false)
    ∧ (
      codeAccepted hub.hostState 0xF2 = true ∧ (0xA4 : Byte) ≠ 0xA5 ∧ codeAccepted hub.hostState 0xF1 = true ∧ hub.sleepOk = false ∧ (0x5B : Byte) ≠ 0x5A)
    ∧ (
      let s := { hub with fd := { hub.fd with feed := .b, kuMv := 5, gMv := 5 } }
      s.settled ∧ s.sleepOk = true ∧ codeAccepted s.hostState 0xF1 = true ∧ (some WakeSource.pin).any (wakeEnabled s) = true
      ∧ (some (WakeSource.comparator 5 false)).any (wakeEnabled s) = false) := by
  refine ⟨?_, ?_, ?_, ?_, ?_, ?_, ?_, ?_, ?_, ?_⟩ <;> decide +kernel

/-- Each clause of BusFailuresAndSleep has a state that meets its premises. -/
theorem wit_BusFailuresAndSleep :
    (
      hub.settled ∧ hub.eventsOn = true ∧ codeAccepted hub.hostState 0x08 = true ∧ bitOf hub.host.busctl 2 = true ∧ codeAccepted hub.hostState 0x03 = false)
    ∧ (
      pec.pecOn = true ∧ codeAccepted pec.hostState 0x08 = true ∧ (0 : Byte) ≠ pecOf [pec.addrByte, 0x08, 4] ∧ bitOf pec.host.busctl 1 = false)
    ∧ (
      hub.hostState ≠ .deaf ∧ ({ hub with fd := { hub.fd with vhost := false } } : State).hostState = .deaf)
    ∧ (
      let s := { hub with dev := { hub.dev with sleepDue := true } }; s.settled ∧ s.dev.sleepDue = true ∧ s.sleepOk = false)
    ∧ (
      let s := { hub with dev := { hub.dev with sleepDue := true }, fd := { hub.fd with feed := .b, kuMv := 5, gMv := 5 } }
      s.settled ∧ s.eventsOn = true ∧ s.dev.sleepDue = true ∧ s.sleepOk = true ∧ (∀ c, (s.core c).still)
      ∧ wakeEnabled s (.comparator 5 false) = false ∧ wakeEnabled s .supply = true)
    ∧ (
      hub.dev.sleepDue = false ∧ hub.dev.asleep = false)
    ∧ (
      let s := ({ hub with dev := { hub.dev with asleep := true } } : State).updPort 5 fun p => { p with
      st := { p.st with cmproute := 0x30, uv := ⟨true, false⟩ }, cf := { p.cf with cf1 := .hold } }
      s.settled ∧ s.eventsOn = true ∧ s.dev.asleep = true ∧ wakeEnabled s (.comparator 5 false) = true
      ∧ wakeEnabled s (.comparator 5 true) = true ∧ wakeEnabled hub (.comparator 5 true) = false) := by
  refine ⟨?_, ?_, ?_, ?_, ?_, ?_, ?_⟩ <;> decide +kernel

/-- The hub with the Stone's life cycle at v and its part as f makes it, at room temperature. -/
def stn (v : BitVec 3) (f : StoneSt → StoneSt) : State := { hub with
  stone := f { hub.stone with life := v, fuses := [fuse3 1 0, fuse3 70 5] }
  th := { hub.th with sensors := hub.th.sensors.map fun x => { x with temp := 400 } } }

/-- The hub with an image-store operation under way. -/
def img (o : ImageOp) : State := { hub with bt := { hub.bt with img := some o } }

/-- The hub with core c changed. -/
def cor (c : Core) (f : CoreSt → CoreSt) : State := hub.updCore c f

/-- A slot of MOVE3L: INV, guard, IMM, source or immediate, destination (R234). -/
def slt (inv g imm src dst : Nat) : Nat := inv * 2 ^ 30 + g * 2 ^ 27 + imm * 2 ^ 26 + src * 2 ^ 14 + dst * 4

/-- An instruction: its format and four slots, of which the last three are empty or as given. -/
def ins (fmt a b : Nat) : BitVec 128 :=
  let no := slt 1 0 0 0 0
  BitVec.ofNat 128 (fmt * 2 ^ 124 + a * 2 ^ 93 + b * 2 ^ 62 + no * 2 ^ 31 + no)

/-- The hub with no feed, core PC0 running with w at instruction 0. -/
def code (w : BitVec 128) : State :=
  (({ hub with fd := { hub.fd with feed := .none } } : State).writeMem (imemBase 4 false) (toBytesLE 16 w.toNat)).updCore 4
    fun k => { k with run := .run, lastIssue := some 3 }

/-- Each clause of StoneOperationsRun has a state that meets its premises. -/
theorem wit_StoneOperationsRun :
    (
      let s := stn 1 id; let o : StoneOp := ⟨1, (0x8C3 : Word).extractLsb' 0 16⟩
      s.settled ∧ s.eventsOn = true ∧ s.stone.busy = none ∧ stoneRefusal s o = none ∧ codeAccepted s.hostState 0xF3 = true)
    ∧ (
      let s := stn 3 id; let o : StoneOp := ⟨1, (0x8C3 : Word).extractLsb' 0 16⟩; s.settled ∧ s.stone.busy = none ∧ (stoneRefusal s o).isSome = true)
    ∧ (
      let s := stn 1 fun t => { t with busy := some ⟨1, 0x8C3⟩ }; s.settled ∧ s.stone.busy = some ⟨1, 0x8C3⟩)
    ∧ (
      (stn 1 fun t => { t with busy := some ⟨2, 3⟩ }).stone.busy = some ⟨2, 3⟩)
    ∧ (
      let s := stn 3 fun t => { t with busy := some ⟨3, 0⟩ }; s.settled ∧ s.stone.busy = some ⟨3, 0⟩ ∧ s.stone.life.toNat < 4)
    ∧ (
      (stn 1 fun t => { t with busy := some ⟨4, 0⟩ }).stone.busy = some ⟨4, 0⟩ ∧ hub.stone.busy = none) := by
  refine ⟨?_, ?_, ?_, ?_, ?_, ?_⟩ <;> decide +kernel

/-- Each clause of ImageOperationsRun has a state that meets its premises. -/
theorem wit_ImageOperationsRun :
    (
      let s := hub; s.settled ∧ s.bt.img = none ∧ s.stone.busy = none ∧ (s.dev.mode ≠ .restrictive ∧ s.dev.mode ≠ .scrapped)
      ∧ (1 : Byte).toNat ≤ 1 ∧ s.slotRuns 1 = false ∧ s.storeHot = false ∧ codeAccepted s.hostState 0xF4 = true
      ∧ imageRange ⟨2, 1, 0x1FFFF0, 16, 0x30015400, 0, 0⟩ = false)
    ∧ (
      let s := { hub with cores := hub.cores.map fun k => { k with run := .run } }
      s.settled ∧ greenHeld s (1 : Byte).toNat = false ∧ greenHeld s (4 : Byte).toNat = false ∧ (15 : Byte).toNat ≤ 15)
    ∧ (
      let s := { hub with bt := { hub.bt with imgRun := 1 } }; s.settled ∧ s.bt.img = none ∧ s.slotRuns 0 = true ∧ 1 < (2 : Byte).toNat)
    ∧ (
      let s := hub.updSensor 22 fun x => { x with temp := 2400 }; s.settled ∧ s.slotRuns 0 = false ∧ s.storeHot = true)
    ∧ (
      let s := img ⟨1, 0, 0, 0, 0, 0, 0⟩; s.settled ∧ s.bt.img = some ⟨1, (0 : Byte).toNat, 0, 0, 0, 0, 0⟩)
    ∧ (
      let o : ImageOp := ⟨2, 1, 0x40, 16, 0x30015400, 0, 0⟩; (img o).settled ∧ (img o).bt.img = some o ∧ imageRange o = false)
    ∧ (
      let s := img ⟨3, 0, 0, 0, 0, 0, 0⟩; s.settled ∧ s.bt.img = some ⟨3, (0 : Byte).toNat, 0, 0, 0, 0, 0⟩)
    ∧ (
      let s := img ⟨4, 1, 0, 0, 0, 2, 0⟩; s.settled ∧ s.bt.img = some ⟨4, (1 : Byte).toNat, 0, 0, 0, 2, 0⟩ ∧ (checkGreen s 1 2).2.isNone = true) := by
  refine ⟨?_, ?_, ?_, ?_, ?_, ?_, ?_, ?_⟩ <;> decide +kernel

/-- Each clause of RipensWaitAndExchange has a state that meets its premises. -/
theorem wit_RipensWaitAndExchange :
    (
      hub.settled ∧ hub.has 5 = true ∧ hub.eventsOn = true ∧ setClaimClash hub 5 = false ∧ writerPolicy .host 5 = true
      ∧ codeAccepted hub.hostState 0xF0 = true ∧ (5 : Byte).toNat = (5 : Port).val ∧ fld (0x90 : Byte) 6 4 ≠ 0
      ∧ (bitOf (0x86 : Byte) 7 = true ∧ 5 < fld (0x86 : Byte) 3 0) ∧ writerPolicy (.core 0) 5 = false)
    ∧ (
      let s0 := cor 0 fun k => { k with ripeMeta := { k.ripeMeta with claims := [⟨2, 1, 0, 0, 5, 5⟩] } }
      let s := { s0 with bt := { s0.bt with paramLoaded := 0x20, paramGreen := { s0.bt.paramGreen with claims := [⟨2, 9, 0, 0, 5, 5⟩] } } }
      s.settled ∧ s.has 5 = true ∧ setClaimClash s 5 = true)
    ∧ (
      let s := p5 fun p => { p with st := { p.st with ripPend := true } }
      s.settled ∧ (s.port 5).st.ripPend = true ∧ bitOf s.bt.paramLoaded 5 = false ∧ s.fedElsewhere 5 ∧ (s.port 5).pw.offElapsed = false ∧ (5 : Port) ≠ portKU ∧ (s.port 5).ct.narrowing = false)
    ∧ (
      writerCore (.core 0) = false ∧ writerCore .host = true ∧ (hub.core 4).run = .reset ∧ (4 : Core) ≠ coreSV)
    ∧ (
      let s := cor 4 fun k => { k with run := .run, ripenPend := true, waitCc := some 900000 }; let k := s.core 4
      s.settled ∧ k.run ≠ .reset ∧ k.ripenPend = true ∧ s.stone.life ≠ 3 ∧ k.verified = false ∧ k.safePoint s.cc = true ∧ k.wdOut s.cc = false)
    ∧ (
      let s0 := cor 4 fun k => { k with run := .run, ripenPend := true, waitCc := some 900000 }; let s := { s0 with stone := { s0.stone with life := 3 } }
      let k := s.core 4; s.settled ∧ k.ripenPend = true ∧ k.safePoint s.cc = true ∧ k.wdOut s.cc = false ∧ s.stone.life = 3 ∧ k.verified = false)
    ∧ (
      let s := cor 4 fun k => { k with run := .halted }; let k := s.core 4
      s.settled ∧ s.stone.life ≠ 3 ∧ k.verified = false ∧ k.ripenPend = false ∧ k.run = .halted)
    ∧ (
      let s0 := cor 4 fun k => { k with run := .run }; let s := { s0 with stone := { s0.stone with life := 3 } }
      let k := s.core 4; s.settled ∧ k.run ≠ .reset ∧ k.ripenPend = false ∧ s.stone.life = 3 ∧ k.verified = false)
    ∧ (
      let s := p5 fun p => ctOf (fun c => { c with state := .default }) { p with st := { p.st with ripPend := true } }; let c := (s.port 5).ct
      s.settled ∧ (s.port 5).st.ripPend = true ∧ c.narrowing = false ∧ c.trans = false ∧ c.state = .default)
    ∧ (
      let s := cor 4 fun k => { k with run := .run, ripenPend := true, wdStart := 0, wdLim := 300 }; let k := s.core 4
      s.settled ∧ k.ripenPend = true ∧ k.wdOut s.cc = true) := by
  refine ⟨?_, ?_, ?_, ?_, ?_, ?_, ?_, ?_, ?_, ?_⟩ <;> decide +kernel

/-- Each clause of RestartsAndWatchdogs has a state that meets its premises. -/
theorem wit_RestartsAndWatchdogs :
    (
      let s := cor 4 fun k => { k with run := .halted, trapCc := some 5 }; let k := s.core 4
      s.settled ∧ (4 : Core) ≠ coreSV ∧ k.run = .halted ∧ writerCore .host = true ∧ (∀ n, (s.port n).pw.offElapsed = false)
      ∧ isPc 4 = true ∧ k.trapCc ≠ none ∧ writerCore (.core 4) = false)
    ∧ (
      let s := cor 0 fun k => { k with run := .wait }; s.settled ∧ (s.core 0).run = .wait ∧ isPc 0 = false ∧ (hub.core 0).run = .reset)
    ∧ (
      let s := (code (ins 0 0 0)); s.settled ∧ s.eventsOn = true ∧ (s.core 4).run = .run ∧ (s.core 4).ripenPend = false ∧ s.fd.feed = .none
      ∧ (∀ n, (s.port n).ct.state = .none ∧ (s.port n).pw.pg = false))
    ∧ (
      let s := cor coreSV fun k => { k with run := .run }; s.settled ∧ (s.core coreSV).run = .run ∧ (hub.core coreSV).run = .reset)
    ∧ (
      let s := cor 0 fun k => { k with run := .run, startCc := 5 }; s.settled ∧ (s.core 0).run = .run ∧ (s.core 0).startCc ≠ s.cc)
    ∧ (
      let s := cor 0 fun k => { k with run := .halted, trapCc := some 900000 }
      s.settled ∧ (s.core 0).run = .halted ∧ (s.core 0).trapCc = some s.cc)
    ∧ (
      let s := { cor coreSV fun k => { k with trapRec := 0x53000000 } with
      cc := 0, dev := { hub.dev with mode := .booting }, bt := { hub.bt with rcause := 3 } }
      s.settled ∧ (s.core coreSV).run = .reset ∧ s.svTrapped = true ∧ hub.svTrapped = false) := by
  refine ⟨?_, ?_, ?_, ?_, ?_, ?_, ?_⟩ <;> decide +kernel

/-- Each clause of CoresCompleteTheirWork has a state that meets its premises. -/
theorem wit_CoresCompleteTheirWork :
    (
      let x : InFlight := ⟨899999, 900000, .alu 5 true false⟩; let s := cor 4 fun k => { k with inflight := [x] }; let k := s.core 4
      s.settled ∧ k.inflight = [x] ∧ s.cc ≤ x.due ∧ k.segNext = [] ∧ k.msgOp = none ∧ k.ledServe = [] ∧ k.ledTokw = [])
    ∧ (
      (hub.core 4).still ∧ (hub.core 4).far = [] ∧ (hub.core 4).msgOp = none)
    ∧ (
      let f : FarAccess := ⟨900000, 900003, .st32, 0x3001FFFC, 7, 0⟩; let s := cor 4 fun k => { k with far := [f] }
      s.settled ∧ (s.core 4).far = f :: [] ∧ nextFar s = some 4 ∧ f.kind = .st32 ∧ s.cc ≤ f.due ∧ 0x30015400 ≤ f.addr.toNat ∧ f.addr.toNat + 4 = 0x30020000)
    ∧ (
      let f : FarAccess := ⟨900000, 900003, .ld32, 0x30015400, 0, 0⟩; let s := cor 4 fun k => { k with far := [f] }
      s.settled ∧ (s.core 4).far = f :: [] ∧ nextFar s = some 4 ∧ f.kind = .ld32 ∧ s.cc ≤ f.due ∧ (s.core 4).inflight = [] ∧ regionOf f.addr.toNat = some .sram)
    ∧ (
      let m : MsgOp := ⟨900003, 5, none⟩; let s := cor 4 fun k => { k with msgOp := some m }; s.settled ∧ (s.core 4).msgOp = some m ∧ s.cc ≤ m.due)
    ∧ (
      let m : MsgOp := ⟨900003, 5, some (⟨2 * (5 : Port).val + 1, by decide⟩, 0x2FFFFF00, true)⟩
      let s := (cor 4 fun k => { k with msgOp := some m }).updLn 5 fun l => { l with rxCount := 1, rxHead := 15 }
      s.settled ∧ (s.core 4).msgOp = some m ∧ s.cc ≤ m.due ∧ 0 < (s.port 5).ln.rxCount ∧ 0x20000000 ≤ (0x2FFFFF00 : Word).toNat
      ∧ (0x2FFFFF00 : Word).toNat < 0x30000000)
    ∧ (
      let s := cor 4 fun k => { k with run := .wait, waitT := 0x20, waitCc := some 5, evtMask := 0x18000, evtPend := 0x18000 }; let k := s.core 4
      s.settled ∧ k.run = .wait ∧ bitOf (k.ready 4) 15 = true ∧ (∀ j : Fin 32, j < 15 → bitOf (k.ready 4) j.val = false))
    ∧ (
      let s := cor 4 fun k => { k with run := .wait, waitT := 0x10002, waitCc := some 899500 }; let k := s.core 4
      s.settled ∧ k.run = .wait ∧ k.ready 4 = 0 ∧ k.waitCc = some 899500 ∧ fld k.waitT 15 0 ≠ 0
      ∧ 899500 + fld k.waitT 15 0 * (if bitOf k.waitT 16 = true then 300 else 1) ≤ 900100
      ∧ 900099 < 899500 + fld k.waitT 15 0 * (if bitOf k.waitT 16 = true then 300 else 1))
    ∧ (
      let f : FarAccess := ⟨900000, 900003, .st32, 0x30015400, 7, 0⟩; let g : FarAccess := ⟨900001, 900003, .st32, 0x30015400, 8, 0⟩
      let s := (cor 4 fun k => { k with far := [f] }).updCore 5 fun k => { k with far := [g] }
      s.settled ∧ (4 : Core) < 5 ∧ (s.core 4).far = [f] ∧ (s.core 5).far = [g] ∧ (∀ e : Core, e ≠ 4 → e ≠ 5 → (s.core e).far = [])
      ∧ f.kind = .st32 ∧ g.kind = .st32 ∧ 0x30015400 ≤ f.addr.toNat ∧ f.addr.toNat + 4 ≤ 0x30020000 ∧ f.addr = g.addr ∧ f.due = g.due
      ∧ s.cc ≤ f.due) := by
  refine ⟨?_, ?_, ?_, ?_, ?_, ?_, ?_, ?_, ?_⟩ <;> decide +kernel

/-- Each clause of InstructionsIssue has a state that meets its premises. -/
theorem wit_InstructionsIssue :
    (
      let s := code (ins 0 (slt 0 0 1 0x123 5) (slt 0 0 0 5 0x22)); let k := s.core 4; let w := fetchWord s 4
      s.settled ∧ k.run = .run ∧ s.dev.asleep = false ∧ k.lastIssue ≠ some s.cc ∧ k.still ∧ k.jump = none ∧ k.loops = []
      ∧ k.pc < k.bankLen 4 ∧ causesOf s 4 w .none = [] ∧ (∀ x ∈ readsOf s 4 w, x < 0x120 ∨ 0x124 ≤ x)
      ∧ (∀ m ∈ movesOf s 4 w, m.dst < 0x028))
    ∧ (
      let s := code (ins 0 (slt 0 0 1 0x123 0x081) (slt 1 0 0 0 0)); let w := fetchWord s 4
      s.settled ∧ causesOf s 4 w .none = [] ∧ (movesOf s 4 w).map Move.dst = [0x081])
    ∧ (
      let s := code (ins 0 (slt 0 0 1 0x12 0x094) (slt 1 0 0 0 0)); causesOf s 4 (fetchWord s 4) .none = [] ∧ (movesOf s 4 (fetchWord s 4)).map Move.dst = [0x094])
    ∧ (
      let s := code (ins 0 (slt 0 0 1 0x12 0x040) (slt 1 0 0 0 0)); causesOf s 4 (fetchWord s 4) .none = [] ∧ (movesOf s 4 (fetchWord s 4)).map Move.dst = [0x040])
    ∧ (
      let s := code (ins 0 (slt 0 0 1 0x12 0x042) (slt 1 0 0 0 0)); causesOf s 4 (fetchWord s 4) .none = [] ∧ (movesOf s 4 (fetchWord s 4)).map Move.dst = [0x042])
    ∧ (
      let s := code (ins 0 (slt 0 0 1 0x12 0x045) (slt 1 0 0 0 0)); causesOf s 4 (fetchWord s 4) .none = [] ∧ (movesOf s 4 (fetchWord s 4)).map Move.dst = [0x045]
      ∧ (s.core 4).ready 4 = 0)
    ∧ (
      let s := code (ins 2 0 0); let k := s.core 4; s.settled ∧ k.run = .run ∧ k.still ∧ k.pc < k.bankLen 4 ∧ formatOf (fetchWord s 4) = 2
      ∧ s.eventsOn = true ∧ k.ripenPend = false ∧ s.fd.feed = .none ∧ (∀ n, (s.port n).ct.state = .none ∧ (s.port n).pw.pg = false))
    ∧ (
      let s := (code (ins 0 0 0)).updCore 4 fun k => { k with pc := k.bankLen 4 }; let k := s.core 4
      s.settled ∧ k.run = .run ∧ k.bankLen 4 = k.pc ∧ k.still ∧ k.jump = none ∧ k.loops = [])
    ∧ (
      let s := (code (ins 0 (slt 0 0 1 0x12 0x045) (slt 1 0 0 0 0))).updCore 4 fun k => { k with evtMask := 0x8000, evtPend := 0x8000 }
      s.settled ∧ causesOf s 4 (fetchWord s 4) .none = [] ∧ (movesOf s 4 (fetchWord s 4)).map Move.dst = [0x045] ∧ (s.core 4).ready 4 ≠ 0)
    ∧ (
      let s := code (ins 0 0 0); let k := s.core 4; s.settled ∧ k.run = .run ∧ k.still ∧ k.pc < k.bankLen 4 ∧ (4 : Core) ≠ coreSV) := by
  refine ⟨?_, ?_, ?_, ?_, ?_, ?_, ?_, ?_, ?_, ?_⟩ <;> decide +kernel

/-! ## A slot with a good set -/

/-- A number in k bytes, the highest first. -/
def be (k n : Nat) : List Byte := (List.range k).map fun i => BitVec.ofNat 8 (n / 256 ^ (k - 1 - i))

/-- A record of the image store with its CRC (R473), padded to 16 bytes. -/
def record (kind : Nat) (p : List Byte) (crc pad : Nat) : List Byte :=
  be 1 kind ++ be 3 p.length ++ p ++ be 4 crc ++ List.replicate pad 0xFF

/-- The manifest of an image without sections: every stepping, no interface, the hash of nothing (R476). -/
def manifest (kind : Nat) : List Byte :=
  be 1 kind ++ List.replicate 27 0 ++ be 4 0xFFFFFFFF ++ be 4 0
    ++ be 32 0xe3b0c44298fc1c149afbf4c8996fb92427ae41e4649b934ca495991b7852b855 ++ List.replicate 108 0

/-- The header of a slot (R475). -/
def slotHeader : List Byte := be 4 0xD3160001 ++ be 4 1 ++ List.replicate 64 0xFF ++ be 4 0

/-- A slot with the four images of a set (R474). -/
def slotImage : List Byte :=
  record 1 slotHeader 0x2974962a 12
    ++ record 2 (manifest 1) 0xe7d524b3 8 ++ record 3 [] 0x588c90ea 8 ++ record 2 (manifest 2) 0xe05a0c14 8 ++ record 3 [] 0x588c90ea 8
    ++ record 2 (manifest 3) 0x1e9fe0e4 8 ++ record 3 [] 0x588c90ea 8 ++ record 2 (manifest 4) 0xef445d5a 8 ++ record 3 [] 0x588c90ea 8 ++ record 0x7F [] 0x117dbfe2 8

/-- The memory with that set in slot A and nothing else. -/
def setMem : Memory := memWriteN [] (slotBase 0) slotImage

/-- A state with that set in slot A. -/
def withSet (s : State) : State := { s with mem := setMem }

/-- A record read from bytes. -/
def recIn (bs : List Byte) (off : Nat) : Option Rec :=
  let tag := (bs.drop off).take 4
  let len := natBE (tag.drop 1)
  let pay := (bs.drop (off + 4)).take len
  if (crc32 (tag ++ pay)).toNat = natBE ((bs.drop (off + 4 + len)).take 4) then
    some { kind := natBE (tag.take 1), payload := pay, next := (off + 8 + len + 15) / 16 * 16 }
  else none

/-- The four images. -/
def setImages : List Img := [1, 2, 3, 4].map fun k => { man := manifest k, body := [] }

theorem setMem_wf : Memory.wf setMem := memWriteN_wf _ _ _ (by decide)

theorem withSet_settled (s : State) (h : s.evq = []) : (withSet s).settled := ⟨decide_eq_true setMem_wf, h⟩

theorem memReadN_add (m : Memory) (p q : Nat) : ∀ a, memReadN m a (p + q) = memReadN m a p ++ memReadN m (a + p) q := by
  induction p with
  | zero => intro a; simp [memReadN]
  | succ p ih => intro a; rw [Nat.succ_add, memReadN, memReadN, ih, List.cons_append, show a + 1 + p = a + (p + 1) by omega]

theorem memReadN_length (m : Memory) (k : Nat) : ∀ a, (memReadN m a k).length = k := by
  induction k with
  | zero => intro a; rfl
  | succ k ih => intro a; rw [memReadN, List.length_cons, ih]

theorem slotImage_length : slotImage.length = 944 := by decide +kernel

theorem read_setMem (off k : Nat) (h : off + k ≤ 944) : memReadN setMem (slotBase 0 + off) k = (slotImage.drop off).take k := by
  have e := memReadN_memWriteN slotImage [] (slotBase 0) (by decide)
  rw [slotImage_length, show 944 = off + (k + (944 - off - k)) by omega, memReadN_add, memReadN_add] at e
  have l := memReadN_length (memWriteN [] (slotBase 0) slotImage)
  rw [← e, List.drop_left' (l _ _), List.take_left' (l _ _)]; rfl

theorem recAt_set (s : State) (hm : s.mem = setMem) (off : Nat) (h4 : off + 4 ≤ 944)
    (h : off + 8 + natBE (((slotImage.drop off).take 4).drop 1) ≤ 944) : recAt s (slotBase 0) off = recIn slotImage off := by
  unfold recAt recIn State.readMem
  dsimp only
  rw [hm, read_setMem off 4 h4, if_neg (by omega), Nat.add_assoc (slotBase 0) off 4, Nat.add_assoc (slotBase 0) (off + 4),
    read_setMem _ _ (by omega), read_setMem _ _ (by omega)]

theorem rec_of (o : Option Rec) (k n : Nat) (p : List Byte) (h : o.map (fun r => (r.kind, r.payload, r.next)) = some (k, p, n)) :
    o = some ⟨k, p, n⟩ := by
  cases o with
  | none => simp at h
  | some r => cases r; simp at h; simp [h]

theorem images_step (s : State) (base fuel off n1 n2 : Nat) (p b : List Byte) (l : List Img) (h1 : recAt s base off = some ⟨2, p, n1⟩)
    (h2 : recAt s base n1 = some ⟨3, b, n2⟩) (h : imagesAt s base fuel n2 = some l) :
    imagesAt s base (fuel + 1) off = some ({ man := p, body := b } :: l) := by
  simp [imagesAt, h1, h2, h]

theorem images_end (s : State) (base fuel off n : Nat) (p : List Byte) (h : recAt s base off = some ⟨0x7F, p, n⟩) :
    imagesAt s base (fuel + 1) off = some [] := by
  simp [imagesAt, h]

theorem images_set (s : State) (hm : s.mem = setMem) : imagesAt s (slotBase 0) 0x10000 96 = some setImages := by
  have r (off k n : Nat) (p : List Byte) (h4 : off + 4 ≤ 944) (h : off + 8 + natBE (((slotImage.drop off).take 4).drop 1) ≤ 944)
      (e : (recIn slotImage off).map (fun r => (r.kind, r.payload, r.next)) = some (k, p, n)) :
      recAt s (slotBase 0) off = some ⟨k, p, n⟩ := (recAt_set s hm off h4 h).trans (rec_of _ _ _ _ e)
  have r1 := r 96 2 288 (manifest 1) (by decide) (by decide +kernel) (by decide +kernel)
  have r2 := r 288 3 304 [] (by decide) (by decide +kernel) (by decide +kernel)
  have r3 := r 304 2 496 (manifest 2) (by decide) (by decide +kernel) (by decide +kernel)
  have r4 := r 496 3 512 [] (by decide) (by decide +kernel) (by decide +kernel)
  have r5 := r 512 2 704 (manifest 3) (by decide) (by decide +kernel) (by decide +kernel)
  have r6 := r 704 3 720 [] (by decide) (by decide +kernel) (by decide +kernel)
  have r7 := r 720 2 912 (manifest 4) (by decide) (by decide +kernel) (by decide +kernel)
  have r8 := r 912 3 928 [] (by decide) (by decide +kernel) (by decide +kernel)
  have r9 := r 928 0x7F 944 [] (by decide) (by decide +kernel) (by decide +kernel)
  exact images_step s _ 65535 _ _ _ _ _ _ r1 r2 (images_step s _ 65534 _ _ _ _ _ _ r3 r4 (images_step s _ 65533 _ _ _ _ _ _ r5 r6
    (images_step s _ 65532 _ _ _ _ _ _ r7 r8 (images_end s _ 65531 _ _ _ r9))))

theorem slotSet_set (s : State) (hm : s.mem = setMem) (hw : (setImages.all fun i => imageWf s i) = true) :
    slotSet s 0 = some { key := List.replicate 64 0xFF, imgs := setImages } := by
  have h0 := (recAt_set s hm 0 (by decide) (by decide +kernel)).trans
    (rec_of _ 1 96 slotHeader (by decide +kernel))
  have hh : headerAt s (slotBase 0) = some ⟨1, slotHeader, 96⟩ := by
    unfold headerAt; rw [h0]; exact if_pos (by decide +kernel)
  have key : sub slotHeader 8 64 = List.replicate 64 0xFF := by decide +kernel
  unfold slotSet
  rw [hh]; dsimp only; rw [images_set s hm]; dsimp only; rw [if_pos hw, key]

theorem slotEmpty_set (s : State) (hm : s.mem = setMem) : slotEmpty s 0 = false := by
  have e := read_setMem 0 16 (by decide)
  unfold slotEmpty State.readMem
  rw [hm, show slotBase 0 = slotBase 0 + 0 from rfl, e]
  decide +kernel

theorem read_B : memReadN setMem (slotBase 1) 4 = [0xFF, 0xFF, 0xFF, 0xFF] := by
  rw [setMem, memReadN_memWriteN_out 4 [] (slotBase 0) (slotBase 1) slotImage (by decide) (Or.inr (by rw [slotImage_length]; decide))]
  decide

theorem headerB_set (s : State) (hm : s.mem = setMem) : headerAt s (slotBase 1) = none := by
  have e : s.readMem (slotBase 1 + 0) 4 = [0xFF, 0xFF, 0xFF, 0xFF] := by rw [State.readMem, hm, Nat.add_zero, read_B]
  have r : recAt s (slotBase 1) 0 = none := by
    unfold recAt; rw [e]; exact if_pos (by decide)
  unfold headerAt; rw [r]

/-- A Stone in PROVISION whose vendor area holds. -/
def sound : State := stoneOf 0x100 3 0x482d530a

theorem stoneRead_mem (r : List StoneRead) (s : State) : (stoneRead r s).mem = s.mem := by
  unfold stoneRead applyCust; dsimp only; split <;> rfl

theorem stoneRead_stone (r : List StoneRead) (s : State) (m : Memory) : (stoneRead r { s with mem := m }).stone = (stoneRead r s).stone := by
  unfold stoneRead applyCust; dsimp only; split <;> rfl

theorem sound_read : (stoneRead [] sound).stone.life = 2 ∧ (stoneRead [] sound).stone.integrityFails = false := by decide +kernel

/-- The clause of BootDecidesByTheStone for a hub with no good set. -/
theorem wit_BootDecidesByTheStone_noset : sound.settled ∧
    let k := stoneRead [] sound
    k.stone.life = 2 ∧ k.stone.integrityFails = false ∧ headerAt k (slotBase 1) = none ∧ (checkSlot k 0).1 ≠ 1 ∧ (checkSlot k 1).1 ≠ 1 :=
  ⟨by decide, sound_read.1, sound_read.2, by decide +kernel, by decide +kernel, by decide +kernel⟩

/-- The clause of BootDecidesByTheStone for a good set in slot A. -/
theorem wit_BootDecidesByTheStone_running : (withSet sound).settled ∧
    let k := stoneRead [] (withSet sound)
    k.stone.life = 2 ∧ k.stone.integrityFails = false ∧ headerAt k (slotBase 1) = none ∧ (checkSlot k 0).1 = 1 := by
  have hs : (stoneRead [] (withSet sound)).stone = (stoneRead [] sound).stone := stoneRead_stone [] sound setMem
  have hm : (stoneRead [] (withSet sound)).mem = setMem := stoneRead_mem [] _
  refine ⟨withSet_settled _ rfl, ?_⟩
  dsimp only
  rw [hs]
  refine ⟨sound_read.1, sound_read.2, ?_, ?_⟩
  · exact headerB_set _ hm
  · unfold checkSlot
    rw [slotEmpty_set _ hm, slotSet_set _ hm (by decide +kernel)]
    decide +kernel

/-- The clause of ImageOperationsRun for a LOADGREEN that loads. -/
theorem wit_ImageOperationsRun_loadgreen :
    let s := withSet (img ⟨4, 0, 0, 0, 0, 2, 0⟩)
    s.settled ∧ s.bt.img = some ⟨4, (0 : Byte).toNat, 0, 0, 0, 2, 0⟩ ∧ (checkGreen s 0 2).2.isSome = true := by
  have hm : (withSet (img ⟨4, 0, 0, 0, 0, 2, 0⟩)).mem = setMem := rfl
  have hw : (setImages.all fun i => imageWf (withSet (img ⟨4, 0, 0, 0, 0, 2, 0⟩)) i) = true := by decide +kernel
  refine ⟨withSet_settled _ rfl, rfl, ?_⟩
  unfold checkGreen
  rw [slotEmpty_set _ hm, slotSet_set _ hm hw]
  decide +kernel

end Sys2Proof.Tests
end

section
/-! The ledger's books under a grant, and O39: how contract power is rounded (R140), what a posted request slot holds (R167),
what RAISE leaves as the held grant (R166), and that an ASK which passes its checks raises the grant by its rounded power. -/

namespace Sys2Proof.Machine

/-! ## Contract power (R140) -/

/-- A grant's power is the quotient by 20 rounded up. -/
theorem powerUp_ceil (v : BitVec 11) (i : BitVec 9) :
    20 * powerUp v i < v.toNat * i.toNat + 20 ∧ v.toNat * i.toNat ≤ 20 * powerUp v i := by
  unfold powerUp
  omega

/-- A feed's contract power is the quotient by 20 rounded down. -/
theorem powerDown_floor (v : BitVec 11) (i : BitVec 9) :
    20 * powerDown v i ≤ v.toNat * i.toNat ∧ v.toNat * i.toNat < 20 * powerDown v i + 20 := by
  unfold powerDown
  omega

/-- A product of an 11-bit and a 9-bit number, divided by 20 and rounded up, fits the 16 bits of a slot's field (R167). -/
theorem ceilDiv20_lt {x y : Nat} (hx : x < 2 ^ 11) (hy : y < 2 ^ 9) : (x * y + 19) / 20 < 256 ^ 2 := by
  have hxy : x * y ≤ 2047 * 511 := Nat.mul_le_mul (by omega) (by omega)
  omega

theorem powerUp_lt (v : BitVec 11) (i : BitVec 9) : powerUp v i < 256 ^ 2 := ceilDiv20_lt v.isLt i.isLt

theorem tokOf_lt (v : BitVec 11) (i : BitVec 9) (b : Word) : tokOf v i b < 256 ^ 2 :=
  lt_of_le_of_lt (Nat.sub_le _ _) (ceilDiv20_lt v.isLt (Nat.mod_lt _ (by decide)))

theorem askTok_lt (objs : List Word) : askTok objs < 256 ^ 2 := by
  unfold askTok
  dsimp only
  split
  · exact tokOf_lt _ _ _
  · decide

/-- For AVAIL, KU under a steady negotiated contract counts its contract power rounded down (R165). -/
theorem powerOf_ku_negotiated (s : State) (hl : (s.port portKU).cf.attach ≠ .legacy)
    (hn : (s.port portKU).ct.state = .negotiated) (ht : (s.port portKU).ct.trans = false) :
    s.powerOf .ku = powerDown (s.port portKU).ct.volt (s.port portKU).ct.icont := by
  simp [State.powerOf, hl, hn, ht]

/-! ## Numbers in memory -/

@[simp] theorem length_toBytesLE (k v : Nat) : (toBytesLE k v).length = k := by
  induction k generalizing v with
  | zero => rfl
  | succ k ih => simp [toBytesLE, ih]

theorem natLE_toBytesLE (k v : Nat) : natLE (toBytesLE k v) = v % 256 ^ k := by
  induction k generalizing v with
  | zero => simp [toBytesLE, natLE, Nat.mod_one]
  | succ k ih => rw [toBytesLE, natLE, ih, pow_succ', Nat.mod_mul, BitVec.toNat_ofNat]

theorem memWriteN_append (xs ys : List Byte) (m : Memory) (a : Nat) :
    memWriteN m a (xs ++ ys) = memWriteN (memWriteN m a xs) (a + xs.length) ys := by
  induction xs generalizing m a with
  | nil => rfl
  | cons x xs ih => simp [memWriteN, ih, Nat.add_assoc, Nat.add_comm 1]

/-- A part of a block that is written reads back. -/
theorem memReadN_memWriteN_part (xs ys zs : List Byte) (m : Memory) (a : Nat) (h : Memory.wf m) :
    memReadN (memWriteN m a (xs ++ ys ++ zs)) (a + xs.length) ys.length = ys := by
  have hx := memWriteN_wf xs m a h
  rw [memWriteN_append, memWriteN_append,
    memReadN_memWriteN_out _ _ _ _ _ (memWriteN_wf ys _ _ hx) (by simp [Nat.add_assoc])]
  exact memReadN_memWriteN ys _ _ hx

/-- A number that is written as part of a block reads back. -/
theorem memNat_memWriteN_part (xs zs : List Byte) (k v : Nat) (m : Memory) (a : Nat) (h : Memory.wf m) (hv : v < 256 ^ k) :
    memNat (memWriteN m a (xs ++ toBytesLE k v ++ zs)) (a + xs.length) k = v := by
  have hr := memReadN_memWriteN_part xs (toBytesLE k v) zs m a h
  rw [length_toBytesLE] at hr
  rw [memNat, hr, natLE_toBytesLE, Nat.mod_eq_of_lt hv]

/-! ## A posted request slot (R167) -/

/-- The state in which a policy program has posted operation op in the slot of port n, and LEDREQ is fired on PC1. -/
def posted (n : Port) (op new tok : Nat) (s : State) : State :=
  (s.writeMem (slotAddr n) (toBytesLE 2 (0x8000 + op % 4 * 0x1000) ++ toBytesLE 2 new ++ toBytesLE 2 tok)).fireSrc corePC1 12

@[simp] theorem posted_led (n : Port) (op new tok : Nat) (s : State) : (posted n op new tok s).led = s.led := rfl

/-- A fired wait source leaves a core running or halted as it was. -/
@[simp] theorem run_core_fireSrc (s : State) (c d : Core) (b : Nat) : ((s.fireSrc c b).core d).run = (s.core d).run := by
  by_cases h : d = c
  · subst h; simp [State.fireSrc, CoreSt.noteFired]
  · simp [State.fireSrc, h]

@[simp] theorem pc1Serves_posted (n : Port) (op new tok : Nat) (s : State) :
    (posted n op new tok s).pc1Serves = s.pc1Serves := by
  simp [posted, State.pc1Serves]

/-- A post that PC1 serves at once is the service of the slot as posted. -/
theorem ledgerPost_of_postServed {s : State} {n : Port} (h : s.postServed n) (op new tok : Nat) :
    ledgerPost n op new tok s = serveSlot n (posted n op new tok s) := by
  obtain ⟨hserves, hfree⟩ := h
  have hp : (posted n op new tok s).pc1Serves = true := by simp [hserves]
  simp only [ledgerPost, hfree, Bool.false_and, Bool.false_eq_true, if_false]
  exact if_pos hp

section
variable {s : State} (hm : Memory.wf s.mem) (n : Port)
include hm

theorem slotOp_posted {op : Nat} (new tok : Nat) (ho : op < 4) :
    fld (slotCtl n (posted n op new tok s)) 13 12 = op := by
  have hc : memNat (posted n op new tok s).mem (slotAddr n) 2 = 0x8000 + op % 4 * 0x1000 := by
    have := memNat_memWriteN_part [] (toBytesLE 2 new ++ toBytesLE 2 tok) 2 (0x8000 + op % 4 * 0x1000) s.mem (slotAddr n) hm
      (by omega)
    simpa [posted, State.writeMem] using this
  simp only [slotCtl, hc, fld, BitVec.toNat_ofNat, Nat.shiftRight_eq_div_pow]
  omega

theorem slotNew_posted (op tok : Nat) {new : Nat} (hn : new < 256 ^ 2) :
    memNat (posted n op new tok s).mem (slotAddr n + 2) 2 = new := by
  have := memNat_memWriteN_part (toBytesLE 2 (0x8000 + op % 4 * 0x1000)) (toBytesLE 2 tok) 2 new s.mem (slotAddr n) hm hn
  simpa [posted, State.writeMem] using this

theorem slotTok_posted (op new : Nat) {tok : Nat} (ht : tok < 256 ^ 2) :
    memNat (posted n op new tok s).mem (slotAddr n + 4) 2 = tok := by
  have := memNat_memWriteN_part (toBytesLE 2 (0x8000 + op % 4 * 0x1000) ++ toBytesLE 2 new) [] 2 tok s.mem (slotAddr n) hm ht
  simpa [posted, State.writeMem] using this

end

/-! ## The held grants under the ledger's operations (R166, R171) -/

@[simp] theorem shedPort_held (n : Port) (s : State) : (shedPort n s).led.held = s.led.held := by
  simp [shedPort]

/-- Shedding takes no grant: the ledger releases it once the port has discharged (R39). -/
@[simp] theorem shedLoop_held (limit k : Nat) (s : State) : (shedLoop limit k s).led.held = s.led.held := by
  induction k generalizing s with
  | zero => rfl
  | succ k ih =>
    unfold shedLoop
    split
    · rfl
    · split
      · rfl
      · rw [ih, shedPort_held]

@[simp] theorem ledgerAct_held (s : State) : (ledgerAct s).led.held = s.led.held := by
  unfold ledgerAct
  dsimp only
  split
  · rfl
  · (repeat' split) <;> simp

@[simp] theorem journal_held (n : Port) (op result : Nat) (s : State) : (journal n op result s).led.held = s.led.held := rfl

@[simp] theorem setHeld_held (n : Port) (h tok : Nat) (s : State) : (setHeld n h tok s).led.held = s.led.held.set n h := by
  unfold setHeld
  split <;> rfl

/-- A RAISE that the books cover answers 1 and holds the greater of the held grant and the new one (R166). -/
theorem opRaise_covered {s : State} {n : Port} {new tok : Nat} (h : raiseRefused s.led n new tok = false) :
    (opRaise n new tok s).1 = 1 ∧ (opRaise n new tok s).2.led.held = s.led.held.set n (max s.led.held[n] new) := by
  simp [opRaise, h]

/-- The service of a slot that asks for RAISE answers and holds what RAISE does. -/
theorem serveSlot_raise {s : State} {n : Port} (h : fld (slotCtl n s) 13 12 = 0) :
    let r := opRaise n (memNat s.mem (slotAddr n + 2) 2) (memNat s.mem (slotAddr n + 4) 2) s
    (serveSlot n s).1 = r.1 ∧ (serveSlot n s).2.led.held = r.2.led.held := by
  simp only [serveSlot, h, if_true, true_and]
  rfl

/-- A RAISE that a policy program posts, that PC1 serves at once and that the books cover. -/
theorem ledgerPost_raise_covered {s : State} {n : Port} {new tok : Nat} (hm : Memory.wf s.mem) (hp : s.postServed n)
    (hn : new < 256 ^ 2) (ht : tok < 256 ^ 2) (hr : raiseRefused s.led n new tok = false) :
    (ledgerPost n 0 new tok s).1 = 1
      ∧ (ledgerPost n 0 new tok s).2.led.held = s.led.held.set n (max s.led.held[n] new) := by
  obtain ⟨hres, hheld⟩ := serveSlot_raise (slotOp_posted hm n new tok (op := 0) (by decide))
  rw [slotNew_posted hm n 0 tok hn, slotTok_posted hm n 0 new ht] at hres hheld
  obtain ⟨hone, hset⟩ := opRaise_covered (s := posted n 0 new tok s) hr
  rw [ledgerPost_of_postServed hp]
  exact ⟨hres.trans hone, hheld.trans hset⟩

/-! ## An ASK that passes its checks (R142, R150, R152) -/

/-- The power that an ASK wants granted, rounded up (R140). -/
abbrev askPower (objs : List Word) : Nat := powerUp (askVolt (objs.headD 0)) (askCur (objs.headD 0))

/-- The checks of an ASK before its RAISE, on a port with no sequence open. -/
structure AskPasses (s : State) (n : Port) (m : Msg) : Prop where
  source : (s.port n).isSource = true
  fromSink : m.role = false
  noSeq : (s.port n).ct.seq = none
  steady : (s.port n).ct.trans = false
  dry : ((s.port n).mo.wet && aboveMvlim (s.port n).ripe (askVolt (m.objs.headD 0))) = false
  known : posKnown (s.port n).ct.capsOut (askPos (m.objs.headD 0)) = true
  valid : askValid n (s.port n).ct.capsOut m.objs = true

theorem askPasses_noteAsk {s : State} {n : Port} {m : Msg} (h : AskPasses s n m) : AskPasses (noteAsk n s) n m := by
  obtain ⟨source, fromSink, noSeq, steady, dry, known, valid⟩ := h
  exact {
    source := by simpa [noteAsk, PortSt.isSource] using source
    fromSink := fromSink
    noSeq := by simpa [noteAsk] using noSeq
    steady := by simpa [noteAsk] using steady
    dry := by simpa [noteAsk] using dry
    known := by simpa [noteAsk] using known
    valid := by simpa [noteAsk] using valid }

/-- An ASK that passes its checks and whose RAISE is answered 1 leaves the books that the RAISE leaves. -/
theorem onAsk_led_of_raised {s : State} {n : Port} {m : Msg} (h : AskPasses s n m)
    (hr : (ledgerPost n 0 (askPower m.objs) (askTok m.objs) (noteAsk n s)).1 = 1) :
    (onAsk n m s).led = (ledgerPost n 0 (askPower m.objs) (askTok m.objs) (noteAsk n s)).2.led := by
  obtain ⟨source, fromSink, noSeq, steady, dry, known, valid⟩ := askPasses_noteAsk h
  unfold askPower at hr ⊢
  unfold onAsk
  dsimp only
  rw [if_neg (by simp [source, fromSink]), if_neg (by simp [noSeq, steady]), if_neg (by rw [known]; decide),
    if_neg (by rw [valid]; decide), if_neg (by simpa using dry), if_neg (by rw [hr]; decide), if_neg (by rw [hr]; decide)]
  simp

theorem postServed_noteAsk {s : State} {n : Port} (h : s.postServed n) : (noteAsk n s).postServed n := h

/-- An ASK that passes its checks and that the books cover holds its power, rounded up, or what was held if that is more. -/
theorem onAsk_held {s : State} {n : Port} {m : Msg} (hm : Memory.wf s.mem) (hp : s.postServed n) (h : AskPasses s n m)
    (hr : raiseRefused s.led n (askPower m.objs) (askTok m.objs) = false) :
    (onAsk n m s).led.held = s.led.held.set n (max s.led.held[n] (askPower m.objs)) := by
  obtain ⟨hone, hheld⟩ := ledgerPost_raise_covered (s := noteAsk n s) hm (postServed_noteAsk hp) (powerUp_lt _ _)
    (askTok_lt _) hr
  rw [onAsk_led_of_raised h hone, hheld]
  rfl

theorem exec_ask_of_policyOpen {s : State} {n : Port} (m : Msg) (h : s.policyOpen n = true) :
    exec (.ask n m) s = .next (onAsk n m s).flush := by
  show execAsk n m s = _
  simp [execAsk, h, done]

/-- Settles O39: the quotients are the ceiling and the floor by 20, KU's AVAIL takes the floor, and a covered ASK holds the
ceiling. -/
theorem contractPowerIsRounded : Obligations.ContractPowerIsRounded := by
  unfold Obligations.ContractPowerIsRounded
  intro v i s
  refine ⟨powerUp_ceil v i, powerDown_floor v i, ?feed, ?grant⟩
  case feed =>
    rintro hl hn ht rfl rfl
    exact powerOf_ku_negotiated s hl hn ht
  case grant =>
    rintro n m ⟨hmem, -⟩ hopen hp source fromSink noSeq steady dry - known valid rfl rfl hr
    refine ⟨_, exec_ask_of_policyOpen m hopen, ?_⟩
    show (onAsk n m s).flush.led.held = _
    rw [State.flush_led]
    exact onAsk_held (of_decide_eq_true hmem) hp ⟨source, fromSink, noSeq, steady, dry, known, valid⟩ hr

end Sys2Proof.Machine
end

section
/-! Host-bus transactions, for whichever command carries them: a read that is answered, a whole block write that is performed,
a process call that is answered, and a write that ends in a bus error. -/

namespace Sys2Proof.Machine

/-! ## What the host bus alone shows -/

theorem changesOnly_host (s : State) (h : HostSt) {l : List Area} (hb : Area.bus ∈ l) : changesOnly l s { s with host := h } :=
  ⟨rfl, rfl, .inr rfl, .inr rfl, fun _ => .inr (.inr (.inl rfl)), fun _ => .inr (.inr rfl), .inr rfl, .inr rfl, .inr rfl,
    .inr rfl, .inr rfl, .inr rfl, .inl hb, .inr rfl, fun _ _ _ => rfl⟩

theorem changesOnly_hostStart (s : State) {l : List Area} (hb : Area.bus ∈ l) : changesOnly l s (hostStart s) :=
  changesOnly_host s _ hb

@[simp] theorem hostStart_evq (s : State) : (hostStart s).evq = s.evq := rfl

@[simp] theorem hostStart_host (s : State) : (hostStart s).host = { s.host with sent := [], nack := none } := rfl

@[simp] theorem hostStart_hostState (s : State) : (hostStart s).hostState = s.hostState := rfl

@[simp] theorem hostStart_pecOn (s : State) : (hostStart s).pecOn = s.pecOn := rfl

@[simp] theorem hostStart_addrByte (s : State) : (hostStart s).addrByte = s.addrByte := rfl

/-- What the window reads does not depend on what the bus shows of the transaction. -/
@[simp] theorem memrdBytes_hostStart (s : State) (ptr len : Nat) : memrdBytes (hostStart s) ptr len = memrdBytes s ptr len := rfl

theorem hostState_ne_deaf_of_accepted {h : HostState} {c : Byte} (ha : codeAccepted h c = true) : h ≠ .deaf := by
  rintro rfl
  simp [codeAccepted] at ha

/-! ## The setup time (R527, R533) -/

/-- The host bus with an error in BUSERR and one more counted (R533). -/
abbrev HostSt.erred (h : HostSt) (cmd : Byte) (code : BitVec 4) : HostSt :=
  { h with errcode := code, errcmd := cmd, errcnt := satInc h.errcnt }

/-- The host bus once the setup time has been checked: SETUP stands in BUSERR where SCL rose too early. -/
def State.setupNoted (s : State) (c : Byte) (x : Xact) : HostSt :=
  if s.early x = true then s.host.erred c 9 else s.host

theorem setupNoted_of_kept {s : State} {x : Xact} (h : s.early x = false) (c : Byte) : s.setupNoted c x = s.host := by
  simp [State.setupNoted, h]

theorem hostSetup_hostStart (s : State) (c : Byte) (x : Xact) :
    hostSetup c x (hostStart s) = { s with host := { s.setupNoted c x with sent := [], nack := none } } := by
  have hx : (x.rise.any fun k => decide (k < fld (hostStart s).host.bussetup 4 0)) = s.early x := rfl
  unfold hostSetup State.setupNoted
  rw [hx]
  split <;> rfl

@[simp] theorem pecOn_setupNoted (s : State) (c : Byte) (x : Xact) (sent : List Byte) (nack : Option Nat) :
    ({ s with host := { s.setupNoted c x with sent := sent, nack := nack } } : State).pecOn = s.pecOn := by
  unfold State.setupNoted
  split <;> rfl

/-! ## Reads (R498, R501 to R503) -/

/-- Of the reads EVPOP alone takes something. -/
theorem readWhole_of_ne {c : Byte} (hc : c ≠ 0x01) (s : State) : readWhole c s = s := if_neg hc

/-- An accepted read puts the command's data on SDA and, for any command but EVPOP, changes nothing else. -/
theorem hostRun_read {s : State} {c : Byte} {x : Xact} (active : Option WakeSource) (hx : isRead x)
    (ha : codeAccepted s.hostState c = true) (hr : hasRead c = true) (hc : c ≠ 0x01) :
    hostRun c x active s = { s with host := { s.setupNoted c x with
      sent := readData s c ++ (if s.pecOn = true then [pecOf (s.asked c ++ readData s c)] else []), nack := none } } := by
  obtain ⟨hshape, hend⟩ := hx
  have hdeaf := hostState_ne_deaf_of_accepted ha
  unfold hostRun
  rw [if_neg hdeaf, hostSetup_hostStart]
  rcases hshape with h | h | h <;> simp [ha, hend, hr, h, readWhole_of_ne hc, hostSend, State.asked]

/-- A command that runs an accepted read answers its data. -/
theorem hostSays_read {i : Instr} {s : State} {c : Byte} {x : Xact} (hs : s.settled)
    (hi : exec i s = done (hostRun c x none s)) (hx : isRead x) (ha : codeAccepted s.hostState c = true)
    (hr : hasRead c = true) (hc : c ≠ 0x01) : hostSays i s (s.asked c) (readData s c) (s.setupNoted c x) := by
  rw [hostRun_read none hx ha hr hc] at hi
  exact ⟨_, hi.trans (done_quiet _ hs.2), rfl, changesOnly_host s _ (by simp)⟩

/-! ## Transactions with bytes after the command byte (R501, R510) -/

/-- An accepted block write or process call that keeps the times runs on the bus cleared for the transaction. -/
theorem hostRun_written {s : State} {c : Byte} {x : Xact} (active : Option WakeSource) (ha : codeAccepted s.hostState c = true)
    (hx : x.shape = .blockWrite ∨ x.shape = .processCall) (hend : x.ending ≠ .timeout) (hrise : x.rise = none) :
    hostRun c x active s = writeRun c x active (hostStart s) := by
  have hsetup : hostSetup c x (hostStart s) = hostStart s := by simp [hostSetup, hrise]
  unfold hostRun
  rw [hsetup, ite_self]
  rcases hx with h | h <;> simp [ha, hend, h, Xact.wire]

/-- What follows a count that the command has is acknowledged to its end, a PEC after a block with it. -/
theorem writeNack_of_count {h : HostState} {c n : Byte} {wb : List Byte} {k : WriteShape} (hshape : writeShape c = some k)
    (hk : k ≠ .byte) (hboot : isBlockCode c = false) (hn : countOk c n.toNat = true)
    (hzero : ¬ (c = 0xD1 ∧ n.toNat = 3 ∧ (n :: wb).getD 3 1 = 0))
    (hl : wb.length ≤ n.toNat + (if k = .block then 1 else 0)) : writeNack h c (n :: wb) = none := by
  unfold writeNack
  rw [hshape]
  cases k with
  | byte => exact absurd rfl hk
  | block | proc =>
    dsimp only [List.headD_cons]
    rw [if_neg (by simp [hboot]), if_neg (by simp [hn]), if_neg hzero, if_neg]
    simp only [reduceCtorEq, if_true, if_false, List.length_cons] at hl ⊢
    omega

theorem wire_writes (s : State) (c : Byte) (d : List Byte) :
    Xact.wire (s.writes c true d) = BitVec.ofNat 8 d.length :: (d ++ if s.pecOn = true then
      [pecOf (s.addrByte :: c :: BitVec.ofNat 8 d.length :: d)] else []) := rfl

section
variable {s : State} {c : Byte} {d : List Byte} (active : Option WakeSource) (hshape : writeShape c = some .block)
  (hl : d.length < 256)
include hshape hl

/-- A block write with its PEC right where one is in force is performed. -/
theorem writeFinish_writes :
    writeFinish c (Xact.wire (s.writes c true d)) active (hostStart s) = hostPerform c d active (hostStart s) := by
  have hn : (BitVec.ofNat 8 d.length).toNat = d.length := by simpa using hl
  cases hp : s.pecOn <;> simp [writeFinish, wire_writes, hshape, hn, hp, pecRight]

/-- An accepted whole block write is performed on the bus cleared for the transaction. -/
theorem hostRun_writes (ha : codeAccepted s.hostState c = true) (hboot : isBlockCode c = false) (hn : countOk c d.length = true) :
    hostRun c (s.writes c true d) active s = hostPerform c d active (hostStart s) := by
  have hcount : (BitVec.ofNat 8 d.length).toNat = d.length := by simpa using hl
  have hnack : writeNack s.hostState c (Xact.wire (s.writes c true d)) = none := by
    have hzero : c ≠ 0xD1 := by rintro rfl; cases hshape
    rw [wire_writes]
    refine writeNack_of_count hshape (by decide) hboot (by rwa [hcount]) (fun h => hzero h.1) ?_
    rw [hcount]
    cases s.pecOn <;> simp
  rw [hostRun_written active ha (.inl rfl) (by simp [State.writes]) rfl, ← writeFinish_writes active hshape hl]
  simp only [writeRun, hostStart_hostState, hnack, hshape]
  rfl

end

/-- An accepted process call that keeps to its count is answered. -/
theorem hostRun_processCall {s : State} {c n : Byte} {d : List Byte} (whole : Bool) (active : Option WakeSource)
    (ha : codeAccepted s.hostState c = true) (hshape : writeShape c = some .proc)
    (hnack : writeNack s.hostState c (n :: d) = none) (hl : d.length = n.toNat) :
    hostRun c ⟨.processCall, n, d, .repStart, whole, none⟩ active s = procRead c (n :: d) whole (hostStart s) := by
  rw [hostRun_written active ha (.inr rfl) (by simp) rfl]
  simp [writeRun, Xact.wire, hnack, hshape, hl]

/-- A command that ends with bytes sent on the cleared bus says them. -/
theorem hostSays_hostSend {i : Instr} {s : State} {before bytes : List Byte} (hs : s.settled)
    (hi : exec i s = done (hostSend before bytes (hostStart s))) : hostSays i s before bytes s.host :=
  ⟨_, hi.trans (done_quiet _ hs.2), rfl, changesOnly_host s _ (by simp)⟩

/-! ## Bus errors (R533) -/

/-- A bus error other than SETUP touches the host bus, fires SV's wait source and queues event 148. -/
theorem busError_of_eventsOn {u : State} (cmd : Byte) {code : BitVec 4} (hc : code ≠ 9) (he : u.eventsOn = true) :
    u.busError cmd code = { ({ u with host := u.host.erred cmd code } : State).fireSrc coreSV 5 with
      evq := u.evq ++ [(148, code.toNat)] } := by
  unfold State.busError
  rw [if_neg hc]
  exact if_pos he

/-- A command that ends in a bus error, after changes of the bus and the wait sources alone. -/
theorem hostError_of_busError {i : Instr} {s u : State} {cmd : Byte} {code : BitVec 4} {sent : List Byte} {nack : Option Nat}
    (hs : s.settled) (hi : exec i s = done (u.busError cmd code)) (hc : code ≠ 9) (hm : u.mem = s.mem) (hd : u.dev = s.dev)
    (hh : u.host = { s.host with sent := sent, nack := nack }) (hu : changesOnly [.bus, .events] s u) :
    hostError i s cmd code sent nack := by
  intro hon
  obtain ⟨hgood, hempty⟩ := hs
  have hevq : u.evq = [] := hu.2.1.trans hempty
  have hon' : u.eventsOn = true := by rw [← hon]; unfold State.eventsOn; rw [hd]
  have herr := busError_of_eventsOn (u := u) cmd hc hon'
  have hmem : memGood (u.busError cmd code).mem = true := by simpa [hm] using hgood
  have hqueue : (u.busError cmd code).evq = [(148, code.toNat)] := by rw [herr, hevq]; rfl
  refine ⟨_, hi, ?host, logs_flush hqueue hmem ?head, changesOnly_flush (by simp) hempty ?rest hmem⟩
  case host => rw [host_flush_quiet, herr]; exact congrArg (fun h => (h.erred cmd code).quiet) hh
  case head => rw [herr]; simp [hh]
  case rest =>
    have hsame : { u.busError cmd code with evq := [] } = ({ u with host := u.host.erred cmd code } : State).fireSrc coreSV 5 := by
      rw [herr, ← hevq]
      rfl
    rw [hsame]
    exact changesOnly_trans (changesOnly_trans hu (changesOnly_host u _ (by simp))) (changesOnly_fireSrc _ _ _ _ (.inl (by simp)))

end Sys2Proof.Machine
end

section
/-! O50 and O51: the count of the host event ring (R519), and the window's base, its reads and its writes (R507 to R509). -/

namespace Sys2Proof.Machine

/-! ## The commands -/

theorem exec_evcount (x : Xact) (s : State) : exec (.evcount x) s = done (hostRun 0x02 x none s) := by rfl

theorem exec_winsel (x : Xact) (s : State) : exec (.winsel x) s = done (hostRun 0xD0 x none s) := by rfl

theorem exec_memrd (x : Xact) (s : State) : exec (.memrd x) s = done (hostRun 0xD1 x none s) := by rfl

theorem exec_memwr (x : Xact) (s : State) : exec (.memwr x) s = done (hostRun 0xD2 x none s) := by rfl

/-! ## The host event ring (R515, R519) -/

/-- An event is written to the host ring only where it has room. -/
theorem evcount_writeEvent_le {s : State} (e arg : Nat) (h : s.host.evcount ≤ 512) : (s.writeEvent e arg).host.evcount ≤ 512 := by
  unfold State.writeEvent
  dsimp only
  split
  · split
    · exact h
    · show s.host.evcount + 1 ≤ 512
      omega
  · exact h

/-- EVCOUNT's data are the count itself while the ring is within its 512 entries. -/
theorem readData_evcount {s : State} (h : s.host.evcount ≤ 512) : readData s 0x02 = toBytesLE 2 s.host.evcount := by
  show toBytesLE 2 (s.host.evcount % 1024) = _
  rw [Nat.mod_eq_of_lt (by omega)]

/-- Settles O50: the ring's bound is kept by the event write, and EVCOUNT is a read whose data are the count. -/
theorem evcountReturnsTheRing : Obligations.EvcountReturnsTheRing := by
  unfold Obligations.EvcountReturnsTheRing
  refine ⟨rfl, fun s x hring => ⟨fun e arg => evcount_writeEvent_le e arg hring, fun hs hx ha => ?_⟩⟩
  have hsays := hostSays_read hs (exec_evcount x s) hx ha rfl (by decide)
  rwa [readData_evcount hring] at hsays

/-! ## The window's base (R507) -/

theorem natLE_word16 (w : BitVec 16) : natLE (toBytesLE 2 w.toNat) = w.toNat := by
  rw [natLE_toBytesLE]
  exact Nat.mod_eq_of_lt w.isLt

section
variable (low base : BitVec 16) (active : Option WakeSource) (s : State)

theorem hostEffect_winsel_of_low_zero :
    hostEffect 0xD0 (toBytesLE 2 (0 : BitVec 16).toNat ++ toBytesLE 2 base.toNat) active s
      = { s with host := { s.host with winbase := base } } := by
  have hbase : BitVec.ofNat 16 (natLE (toBytesLE 2 base.toNat)) = base := by rw [natLE_word16, BitVec.ofNat_toNat, BitVec.setWidth_eq]
  show { s with host := { s.host with winbase := BitVec.ofNat 16 (natLE (toBytesLE 2 base.toNat)) } } = _
  rw [hbase]

theorem hostEffect_winsel_of_low_ne (h : low ≠ 0) :
    hostEffect 0xD0 (toBytesLE 2 low.toNat ++ toBytesLE 2 base.toNat) active s = s.busError 0xD0 2 := by
  have hlow : natLE (toBytesLE 2 low.toNat) ≠ 0 := by
    rw [natLE_word16]
    exact fun h0 => h (BitVec.eq_of_toNat_eq h0)
  exact if_pos hlow

end

/-- WINSEL's data are the count and the base, whose low half is 0. -/
theorem readData_winsel (s : State) : readData s 0xD0 = 4 :: (0 :: 0 :: toBytesLE 2 s.host.winbase.toNat) := by
  show (4 : Byte) :: toBytesLE 4 (s.host.winbase.toNat * 65536) = _
  have h0 : BitVec.ofNat 8 (s.host.winbase.toNat * 65536) = 0 := BitVec.eq_of_toNat_eq (by simp; omega)
  have h1 : BitVec.ofNat 8 (s.host.winbase.toNat * 65536 / 256) = 0 := BitVec.eq_of_toNat_eq (by simp; omega)
  have h2 : s.host.winbase.toNat * 65536 / 256 / 256 = s.host.winbase.toNat := by omega
  rw [toBytesLE, toBytesLE, h0, h1, h2]

/-! ## Reads through the window (R508) -/

section
variable (s : State) (ptr : BitVec 16) (whole : Bool)

theorem procRead_memrd_len (len : Byte) :
    procRead 0xD1 (3 :: (toBytesLE 2 ptr.toNat ++ [len])) whole s
      = hostSend ((s.addrByte :: 0xD1 :: 3 :: (toBytesLE 2 ptr.toNat ++ [len])) ++ [s.addrByte + 1])
          (len :: memrdBytes s ptr.toNat len.toNat) s := by
  have hlen : BitVec.ofNat 8 len.toNat = len := by rw [BitVec.ofNat_toNat, BitVec.setWidth_eq]
  show hostSend _ (BitVec.ofNat 8 len.toNat :: memrdBytes s (natLE (toBytesLE 2 ptr.toNat)) len.toNat) s = _
  rw [natLE_word16, hlen]

/-- A MEMRD of two bytes asks for 32. -/
theorem procRead_memrd_default :
    procRead 0xD1 (2 :: toBytesLE 2 ptr.toNat) whole s
      = hostSend ((s.addrByte :: 0xD1 :: 2 :: toBytesLE 2 ptr.toNat) ++ [s.addrByte + 1])
          (32 :: memrdBytes s ptr.toNat 32) s := by
  show hostSend _ (32 :: memrdBytes s (natLE (toBytesLE 2 ptr.toNat)) 32) s = _
  rw [natLE_word16]

end

/-! ## Writes through the window (R509) -/

theorem memwrAddr_zero (s : State) (ptr : Nat) : memwrAddr s ptr 0 = s.winBase + ptr := by
  unfold memwrAddr
  dsimp only
  omega

/-- The free part of shared SRAM: above the record of the thermal rounds and what is reserved after it (R451). -/
abbrev freeSram (a : Nat) : Prop := 0x30015400 ≤ a ∧ a < 0x30020000

section
variable {a : Nat} (ha : freeSram a)
include ha

theorem regionOf_freeSram : regionOf a = some .sram := by
  obtain ⟨hlo, hhi⟩ := ha
  unfold regionOf
  rw [if_neg (by omega), dif_neg (by omega), dif_neg (by omega), if_pos (by omega)]

theorem inRegSpace_freeSram : inRegSpace a = false := by
  obtain ⟨hlo, hhi⟩ := ha
  simp [inRegSpace]
  omega

theorem memwrRefused_freeSram (s : State) : memwrRefused s a = none := by
  obtain ⟨hlo, hhi⟩ := ha
  simp only [memwrRefused, regionOf_freeSram ⟨hlo, hhi⟩]
  exact if_neg (by omega)

theorem memwrByte_freeSram (d : Byte) (s : State) : memwrByte (a, d) s = sramStore a [d] s := by
  simp only [memwrByte, regionOf_freeSram ha]

theorem sramPut_freeSram (d : Byte) (m : Memory) : sramPut a [d] m = memWrite m a d := by
  obtain ⟨hlo, hhi⟩ := ha
  have hres : sramReserved a = false := by simp [sramReserved]; omega
  have hled : ledgerOnly a = false := by simp [ledgerOnly]; omega
  simp [sramPut, hres, hled]

end

theorem changesOnly_memWrite {s : State} {l : List Area} (a : Nat) (d : Byte) (hm : Memory.wf s.mem) (hl : Area.mem a (a + 1) ∈ l) :
    changesOnly l s { s with mem := memWrite s.mem a d } := by
  refine changesOnly_of ⟨rfl, rfl⟩ (.inr rfl) (.inr rfl) (fun _ => .inr (.inr (.inl rfl))) (fun _ => .inr (.inr rfl))
    ⟨.inr rfl, .inr rfl, .inr rfl, .inr rfl, .inr rfl, .inr rfl, .inr rfl, .inr rfl⟩ fun x hx _ => ?_
  have hne : x ≠ a := by have := hx a (a + 1) hl; omega
  exact (memRead_memWrite _ _ _ _ hm.1).trans (if_neg hne)

/-- A store to shared SRAM puts its bytes down; it may fire LEDREQ besides (R167). -/
theorem sramStore_mem (a : Nat) (bs : List Byte) (s : State) : (sramStore a bs s).mem = sramPut a bs s.mem := by
  unfold sramStore
  dsimp only
  split <;> rfl

@[simp] theorem sramStore_evq (a : Nat) (bs : List Byte) (s : State) : (sramStore a bs s).evq = s.evq := by
  unfold sramStore
  dsimp only
  split <;> rfl

theorem changesOnly_sramStore_freeSram {s : State} {a : Nat} {l : List Area} (ha : freeSram a) (d : Byte) (hm : Memory.wf s.mem)
    (hl : Area.mem a (a + 1) ∈ l) (hsrc : Area.sources ∈ l) : changesOnly l s (sramStore a [d] s) := by
  have hput := changesOnly_memWrite (s := s) a d hm hl
  unfold sramStore
  rw [sramPut_freeSram ha]
  dsimp only
  split
  · exact changesOnly_trans hput (changesOnly_fireSrc _ _ _ _ (.inr hsrc))
  · exact hput

/-- A MEMWR of places that take their bytes and hold no register writes them one by one. -/
theorem memWr_of_places {d : List Byte} {s : State} {l : List (Nat × Byte)}
    (hl : (d.drop 2).zipIdx.map (fun x => (memwrAddr s (natLE (d.take 2)) x.2, x.1)) = l)
    (hrefused : ∀ x ∈ l, memwrRefused s x.1 = none) (hregs : ∀ x ∈ l, inRegSpace x.1 = false) :
    memWr d s = l.foldl (fun t x => memwrByte x t) s := by
  have hnone : l.findSome? (fun x => memwrRefused s x.1) = none := List.findSome?_eq_none_iff.mpr hrefused
  have hwhole : l.filter (fun x => inRegSpace x.1) = [] := List.filter_eq_nil_iff.mpr (by simpa using hregs)
  have hother : l.filter (fun x => !inRegSpace x.1) = l := List.filter_eq_self.mpr (by simpa using hregs)
  have hnoregs : memwrRegs l = [] := by
    have : l.filter (fun x => inRegSpace x.1 && decide (x.1 % 4 = 0)) = [] :=
      List.filter_eq_nil_iff.mpr fun x hx => by simp [hregs x hx]
    simp [memwrRegs, this]
  unfold memWr
  simp only [hl, hnone, memwrMisaligned, hnoregs, hwhole, hother]
  rfl

/-- One byte to the free part of shared SRAM is a store there. -/
theorem memWr_freeSram {s : State} (ptr : BitVec 16) (d : Byte) (ha : freeSram (s.winBase + ptr.toNat)) :
    memWr (toBytesLE 2 ptr.toNat ++ [d]) s = sramStore (s.winBase + ptr.toNat) [d] s := by
  have htake : (toBytesLE 2 ptr.toNat ++ [d]).take 2 = toBytesLE 2 ptr.toNat := List.take_left' (length_toBytesLE _ _)
  have hdrop : (toBytesLE 2 ptr.toNat ++ [d]).drop 2 = [d] := List.drop_left' (length_toBytesLE _ _)
  have hplaces : [d].zipIdx.map (fun x => (memwrAddr s ptr.toNat x.2, x.1)) = [(s.winBase + ptr.toNat, d)] := by
    simp [memwrAddr_zero]
  rw [memWr_of_places (l := [(s.winBase + ptr.toNat, d)]) (by rw [htake, hdrop, natLE_word16, hplaces])
    (by simp [memwrRefused_freeSram ha]) (by simp [inRegSpace_freeSram ha])]
  simp only [List.foldl_cons, List.foldl_nil, memwrByte_freeSram ha]

theorem hostEffect_memwr (d : List Byte) (active : Option WakeSource) (s : State) : hostEffect 0xD2 d active s = memWr d s := by rfl

/-! ## What the commands answer -/

/-- What stands before the effect of a whole write: the bus cleared, and HOSTCMD fired on SV (R288). -/
theorem changesOnly_fired_hostStart (s : State) {l : List Area} (hb : Area.bus ∈ l) (hsrc : Area.events ∈ l ∨ Area.sources ∈ l) :
    changesOnly l s ((hostStart s).fireSrc coreSV 0) :=
  changesOnly_trans (changesOnly_hostStart s hb) (changesOnly_fireSrc _ _ _ _ hsrc)

section
variable {s : State} (hs : s.settled)
include hs

section
variable (ha : codeAccepted s.hostState 0xD0 = true)
include ha

theorem answers_winsel_of_low_zero (base : BitVec 16) :
    answers (.winsel (s.writes 0xD0 true (toBytesLE 2 (0 : BitVec 16).toNat ++ toBytesLE 2 base.toNat))) s fun t =>
      t.host = { s.host with winbase := base, sent := [], nack := none } ∧ changesOnly [.bus, .sources] s t := by
  have hrun := hostRun_writes (d := toBytesLE 2 (0 : BitVec 16).toNat ++ toBytesLE 2 base.toNat) none rfl (by simp) ha rfl rfl
  rw [hostPerform, hostEffect_winsel_of_low_zero] at hrun
  refine ⟨_, (exec_winsel _ s).trans <| (congrArg done hrun).trans (done_quiet _ hs.2), rfl, ?_⟩
  exact changesOnly_trans (changesOnly_fired_hostStart s (by simp) (by simp)) (changesOnly_host _ _ (by simp))

theorem hostError_winsel_of_low_ne {low : BitVec 16} (base : BitVec 16) (hlow : low ≠ 0) :
    hostError (.winsel (s.writes 0xD0 true (toBytesLE 2 low.toNat ++ toBytesLE 2 base.toNat))) s 0xD0 2 [] none := by
  have hrun := hostRun_writes (d := toBytesLE 2 low.toNat ++ toBytesLE 2 base.toNat) none rfl (by simp) ha rfl rfl
  rw [hostPerform, hostEffect_winsel_of_low_ne _ _ _ _ hlow] at hrun
  exact hostError_of_busError hs ((exec_winsel _ s).trans (congrArg done hrun)) (by decide) rfl rfl rfl
    (changesOnly_fired_hostStart s (by simp) (by simp))

theorem hostSays_winsel {x : Xact} (hx : s.takes x) :
    hostSays (.winsel x) s (s.asked 0xD0) (4 :: (0 :: 0 :: toBytesLE 2 s.host.winbase.toNat)) s.host := by
  obtain ⟨hread, hkept⟩ := hx
  have hsays := hostSays_read hs (exec_winsel x s) hread ha rfl (by decide)
  rwa [readData_winsel, setupNoted_of_kept hkept] at hsays

end

section
variable (ha : codeAccepted s.hostState 0xD1 = true) (ptr : BitVec 16) (whole : Bool)
include ha

theorem hostSays_memrd_len {len : Byte} (hlen : len ≠ 0) :
    hostSays (.memrd ⟨.processCall, 3, toBytesLE 2 ptr.toNat ++ [len], .repStart, whole, none⟩) s
      ((s.addrByte :: 0xD1 :: 3 :: (toBytesLE 2 ptr.toNat ++ [len])) ++ [s.addrByte + 1])
      (len :: memrdBytes s ptr.toNat len.toNat) s.host := by
  have hnack : writeNack s.hostState 0xD1 (3 :: (toBytesLE 2 ptr.toNat ++ [len])) = none :=
    writeNack_of_count (k := .proc) rfl (by decide) rfl rfl (fun h => hlen h.2.2) (by simp)
  have hrun := hostRun_processCall whole none ha rfl hnack rfl
  rw [procRead_memrd_len, hostStart_addrByte, memrdBytes_hostStart] at hrun
  exact hostSays_hostSend hs ((exec_memrd _ s).trans (congrArg done hrun))

theorem hostSays_memrd_default :
    hostSays (.memrd ⟨.processCall, 2, toBytesLE 2 ptr.toNat, .repStart, whole, none⟩) s
      ((s.addrByte :: 0xD1 :: 2 :: toBytesLE 2 ptr.toNat) ++ [s.addrByte + 1]) (32 :: memrdBytes s ptr.toNat 32) s.host := by
  have hnack : writeNack s.hostState 0xD1 (2 :: toBytesLE 2 ptr.toNat) = none :=
    writeNack_of_count (k := .proc) rfl (by decide) rfl rfl (fun h => absurd h.2.1 (by decide)) (by simp)
  have hrun := hostRun_processCall whole none ha rfl hnack rfl
  rw [procRead_memrd_default, hostStart_addrByte, memrdBytes_hostStart] at hrun
  exact hostSays_hostSend hs ((exec_memrd _ s).trans (congrArg done hrun))

end

theorem answers_memwr_freeSram (ha : codeAccepted s.hostState 0xD2 = true) (ptr : BitVec 16) (d : Byte)
    (hfree : freeSram (s.winBase + ptr.toNat)) :
    answers (.memwr (s.writes 0xD2 true (toBytesLE 2 ptr.toNat ++ [d]))) s fun t =>
      memRead t.mem (s.winBase + ptr.toNat) = d
        ∧ changesOnly [.bus, .sources, .mem (s.winBase + ptr.toNat) (s.winBase + ptr.toNat + 1)] s t := by
  obtain ⟨hgood, hempty⟩ := hs
  have hwf : Memory.wf s.mem := of_decide_eq_true hgood
  let u := (hostStart s).fireSrc coreSV 0
  have hrun := hostRun_writes (d := toBytesLE 2 ptr.toNat ++ [d]) none rfl (by simp) ha rfl rfl
  have hstore : memWr (toBytesLE 2 ptr.toNat ++ [d]) u = sramStore (s.winBase + ptr.toNat) [d] u := memWr_freeSram ptr d hfree
  rw [hostPerform, hostEffect_memwr, hstore] at hrun
  refine ⟨_, (exec_memwr _ s).trans <| (congrArg done hrun).trans (done_quiet _ ((sramStore_evq _ _ u).trans hempty)), ?_, ?_⟩
  · rw [sramStore_mem, sramPut_freeSram hfree]
    exact (memRead_memWrite _ _ _ _ hwf.1).trans (if_pos rfl)
  · exact changesOnly_trans (changesOnly_fired_hostStart s (by simp) (by simp))
      (changesOnly_sramStore_freeSram (s := u) hfree d hwf (by simp) (by simp))

end

/-- Settles O51: WINSEL's base as written, refused and read, MEMRD's two forms, and a byte through MEMWR. -/
theorem winselSetsTheWindow : Obligations.WinselSetsTheWindow := by
  unfold Obligations.WinselSetsTheWindow
  intro s x base low ptr len whole d hs bytes at_
  have hat : at_ 0 = s.winBase + ptr.toNat := by
    show _ + (ptr.toNat + 0) % 65536 = _
    rw [Nat.add_zero, Nat.mod_eq_of_lt ptr.isLt]
    rfl
  refine ⟨fun ha => ⟨?base, fun hlow => hostError_winsel_of_low_ne hs ha base hlow, hostSays_winsel hs ha⟩,
    fun ha hlen => ⟨hostSays_memrd_len hs ha ptr whole hlen, hostSays_memrd_default hs ha ptr whole⟩, ?write⟩
  case base =>
    rintro rfl
    exact answers_winsel_of_low_zero hs ha base
  case write =>
    rw [hat]
    exact fun ha hlo hhi => answers_memwr_freeSram hs ha ptr d ⟨hlo, hhi⟩

end Sys2Proof.Machine
end

section
/-! Every command completes, leaves the queue of commands alone, keeps the memory canonical and leaves no fired event unwritten:
one lemma per meaning, from the frame lemmas of the operations it calls; O1 to O6 (O5 apart from the rest) follow. -/

namespace Sys2Proof.Machine

/-! ## What completing means -/

/-- The queue of commands stays, and a canonical memory stays canonical. -/
def Keeps (s u : State) : Prop := u.pending = s.pending ∧ (memGood s.mem = true → memGood u.mem = true)

/-- A next state that keeps the queue and the canonical memory, with every fired event written. -/
def Completes (s : State) (o : Out) : Prop := ∃ t, o = .next t ∧ Keeps s t ∧ t.evq = []

@[simp] theorem keeps_iff {s u : State} :
    Keeps s u ↔ u.pending = s.pending ∧ (memGood s.mem = true → memGood u.mem = true) := Iff.rfl

theorem Keeps.refl (s : State) : Keeps s s := ⟨rfl, id⟩

theorem Keeps.trans {s t u : State} (h : Keeps s t) (k : Keeps t u) : Keeps s u := ⟨k.1.trans h.1, k.2 ∘ h.2⟩

/-- An operation kept at every element is kept over the list. -/
theorem Keeps.foldl {α : Type} {f : State → α → State} (h : ∀ t x, Keeps t (f t x)) (l : List α) (s : State) :
    Keeps s (l.foldl f s) :=
  ⟨foldl_pending f l s fun t x => (h t x).1, foldl_memGood2 f l s (fun t x => (h t x).2)⟩

/-- A meaning that ends with `done` completes where its state keeps the queue and the memory. -/
theorem completes_done {s u : State} (h : Keeps s u) : Completes s (done u) :=
  ⟨_, rfl, ⟨by simpa using h.1, fun hs => flush_memGood u (h.2 hs)⟩, by simp⟩

/-! ## Operations under which the queue and the memory are kept -/

theorem keeps_dev (s : State) (d : DeviceSt) : Keeps s { s with dev := d } := ⟨rfl, id⟩
theorem keeps_fd (s : State) (f : FeedSt) : Keeps s { s with fd := f } := ⟨rfl, id⟩
theorem keeps_th (s : State) (t : ThermalSt) : Keeps s { s with th := t } := ⟨rfl, id⟩
theorem keeps_stone (s : State) (t : StoneSt) : Keeps s { s with stone := t } := ⟨rfl, id⟩

/-- An operation kept at every element that satisfies a test is kept over the list. -/
theorem Keeps.foldl_if {α : Type} {f : State → α → State} {p : State → α → Prop} [∀ t x, Decidable (p t x)]
    (h : ∀ t x, Keeps t (f t x)) (l : List α) (s : State) : Keeps s (l.foldl (fun t x => if p t x then f t x else t) s) :=
  Keeps.foldl (fun t x => by split <;> [exact h t x; exact Keeps.refl t]) l s

theorem liftForce_keeps (l : List ForceSource) (n : Port) (s : State) : Keeps s (liftForce l n s) := by simp +contextual
theorem noFeed_keeps (s : State) : Keeps s (noFeed s) := by simp +contextual
theorem feedSeek_keeps (s : State) : Keeps s (feedSeek s) := by simp +contextual
theorem takeSample_keeps (x : PortSample) (s : State) : Keeps s (takeSample x s) := by simp +contextual
theorem tickPort_keeps (n : Port) (s : State) : Keeps s (tickPort n s) := by simp +contextual
theorem tickHbus_keeps (mv : Nat) (s : State) : Keeps s (tickHbus mv s) := by simp +contextual
theorem updateMeans_keeps (n : Port) (s : State) : Keeps s (updateMeans n s) := by simp +contextual
theorem portRecord_keeps (n : Port) (q : Word) (s : State) : Keeps s (portRecord n q s) := by simp +contextual
theorem hbusRecord_keeps (q : Word) (s : State) : Keeps s (hbusRecord q s) := by simp +contextual
theorem partBit_keeps (b : Nat) (s : State) : Keeps s (partBit b s) := by simp +contextual
theorem stoneEnd_keeps (c : BitVec 4) (s : State) : Keeps s (stoneEnd c s) := by simp +contextual
theorem farRun_keeps (c : Option Core) (k : Nat) (s : State) : Keeps s (farRun c k s) := by simp +contextual
theorem drainCore_keeps (c : Core) (s : State) : Keeps s (drainCore c s) := by simp +contextual
theorem thermRecord_keeps (s : State) : Keeps s (thermRecord s) := by simp +contextual
theorem lowPower_keeps (s : State) : Keeps s (lowPower s) := by simp +contextual

/-! ## The stages of a thermal round (R438 to R451) -/

/-- Every sensor has taken its sample. -/
def thermSensed (readings : List (Option Int)) (s : State) : State :=
  (List.finRange 24).foldl (fun t i =>
    match readings[i.val]? with
    | some r => stepSensor i r t
    | none => t) { s with th := { s.th with now := s.th.now + (if s.th.fast then 1 else 40) } }

/-- The rate of sampling and the highest reading follow the samples. -/
def thermJudged (s : State) : State :=
  let hot := (List.finRange 24).any fun i => s.sensorHot i
  { s with th := { s.th with
    fast := hot || (s.th.fast && decide (s.th.calm + 1 < 100))
    calm := if hot then 0 else s.th.calm + 1
    maxTemp := s.th.sensors[s.hottest].temp, maxSensor := BitVec.ofNat 5 s.hottest.val } }

/-- The device's own limit has been judged: a hub already shut down keeps its peak, another shuts down. -/
def thermLimited (s : State) : State :=
  if s.dev.mode = .shutdown then
    let p := s.th.sensors[s.bt.rsensor.toNat % 24]'(by omega)
    if (s.bt.rpeak.toInt) < p.reading then { s with bt := { s.bt with rpeak := p.temp } } else s
  else match deviceOver s with
    | some i => enterShutdown i s
    | none => s

/-- Ports that have cooled down are released, unless the hub is shut down. -/
def thermReleased (s : State) : State :=
  if s.dev.mode = .shutdown then s else allPorts.foldl (fun t n => releaseHold n t) s

theorem thermalRound_eq (readings : List (Option Int)) (s : State) :
    thermalRound readings s = thermReleased (thermRecord (thermLimited (thermJudged (thermSensed readings s)))) := rfl

theorem thermSensed_keeps (readings : List (Option Int)) (s : State) : Keeps s (thermSensed readings s) :=
  (keeps_th s _).trans (Keeps.foldl (fun t i => by split <;> simp +contextual) _ _)

theorem thermLimited_keeps (s : State) : Keeps s (thermLimited s) := by
  unfold thermLimited
  split
  · dsimp only
    split <;> simp
  · split <;> simp +contextual

theorem thermReleased_keeps (s : State) : Keeps s (thermReleased s) := by
  unfold thermReleased
  split
  · exact Keeps.refl s
  · exact Keeps.foldl (fun t n => by simp +contextual) _ s

theorem thermalRound_keeps (readings : List (Option Int)) (s : State) : Keeps s (thermalRound readings s) := by
  rw [thermalRound_eq]
  exact (thermSensed_keeps readings s).trans ((keeps_th _ _).trans ((thermLimited_keeps _).trans
    ((thermRecord_keeps _).trans (thermReleased_keeps _))))

/-! ## Meanings that work through a list -/

theorem ownTick_completes (k : Fin 24) (which : Counter → Bool) (s : State) : Completes s (ownTick k which s) := by
  unfold ownTick; dsimp only; split <;> exact completes_done (by simp +contextual)

@[simp] theorem execZero_completes (k : Fin 24) (s : State) : Completes s (execZero k s) := ownTick_completes _ _ _
@[simp] theorem execMatch_completes (k : Fin 24) (s : State) : Completes s (execMatch k s) := ownTick_completes _ _ _
@[simp] theorem execCounterTick_completes (k : Fin 24) (s : State) : Completes s (execCounterTick k s) := ownTick_completes _ _ _

@[simp] theorem execHbusOvRelease_completes (s : State) : Completes s (execHbusOvRelease s) := by
  unfold execHbusOvRelease
  dsimp only
  generalize hu : List.foldl _ _ allPorts = u
  have lifted : Keeps s u := by
    rw [← hu]
    exact (keeps_fd s _).trans (Keeps.foldl (fun t n => liftForce_keeps _ n t) _ _)
  split
  · split
    · exact completes_done (lifted.trans (noFeed_keeps u))
    · exact completes_done (lifted.trans (feedSeek_keeps u))
  · exact completes_done lifted

@[simp] theorem execTelemetryTick_completes (smp : List PortSample) (mv : Nat) (s : State) :
    Completes s (execTelemetryTick smp mv s) := by
  unfold execTelemetryTick
  exact completes_done (((Keeps.foldl_if (fun t x => takeSample_keeps x t) smp s).trans
    (Keeps.foldl (fun t n => tickPort_keeps n t) allPorts _)).trans (tickHbus_keeps mv _))

@[simp] theorem execTelemetryUpdate_completes (s : State) : Completes s (execTelemetryUpdate s) := by
  unfold execTelemetryUpdate
  dsimp only
  exact completes_done ((((Keeps.foldl_if (fun t n => updateMeans_keeps n t) allPorts s).trans (keeps_fd _ _)).trans
    (Keeps.foldl_if (fun t n => portRecord_keeps n _ t) allPorts _)).trans (hbusRecord_keeps _ _))

@[simp] theorem execStoneOperationDone_completes (ok : Bool) (s : State) : Completes s (execStoneOperationDone ok s) := by
  unfold execStoneOperationDone
  split
  · exact completes_done (by simp +contextual)
  · dsimp only
    split
    · exact completes_done ((keeps_stone s _).trans (stoneEnd_keeps _ _))
    · split
      · exact completes_done (by simp +contextual)
      · exact completes_done ((Keeps.foldl (fun t b => partBit_keeps b t) _ s).trans (stoneEnd_keeps _ _))

@[simp] theorem execSleepEntry_completes (a : Option WakeSource) (s : State) : Completes s (execSleepEntry a s) := by
  unfold execSleepEntry
  split
  · dsimp only
    split
    · exact completes_done (by simp +contextual)
    · split
      · exact completes_done (((((keeps_dev s _).trans (farRun_keeps _ _ _)).trans (Keeps.foldl (fun t c => drainCore_keeps c t) _ _)).trans
          (lowPower_keeps _)).trans (keeps_dev _ _))
      · exact completes_done (by simp +contextual)
  · exact completes_done (by simp +contextual)

/-! ## The other meanings -/

@[simp] theorem execCfReadingChange_completes (n : Port) (r1 r2 : Reading) (s : State) :
    Completes s (execCfReadingChange n r1 r2 s) := by
  unfold execCfReadingChange; split <;> exact completes_done (by simp +contextual)
@[simp] theorem execCfAttachDone_completes (n : Port) (s : State) : Completes s (execCfAttachDone n s) := by
  unfold execCfAttachDone; dsimp only; split <;> exact completes_done (by simp +contextual)
@[simp] theorem execCfDetachTimeout_completes (n : Port) (s : State) : Completes s (execCfDetachTimeout n s) := by
  unfold execCfDetachTimeout; dsimp only; (repeat' split) <;> exact completes_done (by simp +contextual)
@[simp] theorem execCfUndecidedTimeout_completes (n : Port) (s : State) : Completes s (execCfUndecidedTimeout n s) := by
  unfold execCfUndecidedTimeout; split <;> exact completes_done (by simp +contextual)
@[simp] theorem execDrpToggle_completes (n : Port) (s : State) : Completes s (execDrpToggle n s) := by
  unfold execDrpToggle; dsimp only; (repeat' split) <;> exact completes_done (by simp +contextual)
@[simp] theorem execTryDebounceDone_completes (n : Port) (s : State) : Completes s (execTryDebounceDone n s) := by
  unfold execTryDebounceDone; dsimp only; (repeat' split) <;> exact completes_done (by simp +contextual)
@[simp] theorem execTryTimeout_completes (n : Port) (s : State) : Completes s (execTryTimeout n s) := by
  unfold execTryTimeout; split <;> exact completes_done (by simp +contextual)
@[simp] theorem execTryWaitTimeout_completes (n : Port) (s : State) : Completes s (execTryWaitTimeout n s) := by
  unfold execTryWaitTimeout; split <;> exact completes_done (by simp +contextual)
@[simp] theorem execLegacyTimeout_completes (n : Port) (s : State) : Completes s (execLegacyTimeout n s) := by
  unfold execLegacyTimeout; dsimp only; (repeat' split) <;> exact completes_done (by simp +contextual)
@[simp] theorem execSwapPresentationTimeout_completes (n : Port) (s : State) :
    Completes s (execSwapPresentationTimeout n s) := by
  unfold execSwapPresentationTimeout; split <;> exact completes_done (by simp +contextual)
@[simp] theorem execSwapPresentationRead_completes (n : Port) (s : State) : Completes s (execSwapPresentationRead n s) := by
  unfold execSwapPresentationRead; dsimp only; split <;> exact completes_done (by simp +contextual)
@[simp] theorem execSeatBreak_completes (n : Port) (s : State) : Completes s (execSeatBreak n s) := by
  unfold execSeatBreak; split <;> exact completes_done (by simp +contextual)
@[simp] theorem execSeatSeated_completes (n : Port) (s : State) : Completes s (execSeatSeated n s) := by
  unfold execSeatSeated; split <;> exact completes_done (by simp +contextual)
@[simp] theorem execCsupOvercurrent_completes (n : Port) (s : State) : Completes s (execCsupOvercurrent n s) := by
  unfold execCsupOvercurrent; split <;> exact completes_done (by simp +contextual)
@[simp] theorem execCsupRetry_completes (n : Port) (s : State) : Completes s (execCsupRetry n s) := by
  unfold execCsupRetry; dsimp only; split <;> exact completes_done (by simp +contextual)
@[simp] theorem execRolemodeWrite_completes (n : Port) (w : Writer) (v : Word) (s : State) :
    Completes s (execRolemodeWrite n w v s) := by
  unfold execRolemodeWrite; split <;> exact completes_done (by simp +contextual)
@[simp] theorem execCfctlLevelWrite_completes (n : Port) (w : Writer) (v : Word) (s : State) :
    Completes s (execCfctlLevelWrite n w v s) := by
  unfold execCfctlLevelWrite; split <;> exact completes_done (by simp +contextual)
@[simp] theorem execCherryCapture_completes (k : Fin 4) (rising : Bool) (t : Nat) (s : State) :
    Completes s (execCherryCapture k rising t s) := by
  unfold execCherryCapture; dsimp only; (repeat' split) <;> exact completes_done (by simp +contextual)
@[simp] theorem execSyncAcquisition_completes (s : State) : Completes s (execSyncAcquisition s) := by
  unfold execSyncAcquisition; split <;> exact completes_done (by simp +contextual)
@[simp] theorem execSyncLock_completes (s : State) : Completes s (execSyncLock s) := by
  unfold execSyncLock; split <;> exact completes_done (by simp +contextual)
@[simp] theorem execSyncLoss_completes (s : State) : Completes s (execSyncLoss s) := by
  unfold execSyncLoss; split <;> exact completes_done (by simp +contextual)
@[simp] theorem execToneLeadingEdge_completes (n : Port) (t : Nat) (s : State) : Completes s (execToneLeadingEdge n t s) := by
  unfold execToneLeadingEdge; dsimp only; (repeat' split) <;> exact completes_done (by simp +contextual)
@[simp] theorem execToneTrailingEdge_completes (n : Port) (t : Nat) (s : State) :
    Completes s (execToneTrailingEdge n t s) := by
  unfold execToneTrailingEdge; dsimp only; (repeat' split) <;> exact completes_done (by simp +contextual)
@[simp] theorem execAngctlWrite_completes (n : Port) (w : Writer) (v : Word) (s : State) :
    Completes s (execAngctlWrite n w v s) := by
  unfold execAngctlWrite; split <;> exact completes_done (by simp +contextual)
@[simp] theorem execAngleModeTimeout_completes (n : Port) (s : State) : Completes s (execAngleModeTimeout n s) := by
  unfold execAngleModeTimeout; split <;> exact completes_done (by simp +contextual)
@[simp] theorem execSuspTimeout_completes (n : Port) (s : State) : Completes s (execSuspTimeout n s) := by
  unfold execSuspTimeout; split <;> exact completes_done (by simp +contextual)
@[simp] theorem execAngleUpdate_completes (n : Port) (t : Nat) (s : State) : Completes s (execAngleUpdate n t s) := by
  unfold execAngleUpdate; dsimp only; (repeat' split) <;> exact completes_done (by simp +contextual)
@[simp] theorem execPipFire_completes (e : Fin 256) (s : State) : Completes s (execPipFire e s) := by
  unfold execPipFire; dsimp only; (repeat' split) <;> exact completes_done (by simp +contextual)
@[simp] theorem execSweepQueueExecute_completes (s : State) : Completes s (execSweepQueueExecute s) := by
  unfold execSweepQueueExecute; split <;> exact completes_done (by simp +contextual)
@[simp] theorem execTokenReturn_completes (n : Port) (s : State) : Completes s (execTokenReturn n s) := by
  unfold execTokenReturn; dsimp only; (repeat' split) <;> exact completes_done (by simp +contextual)
@[simp] theorem execBurstTolExpiry_completes (n : Port) (s : State) : Completes s (execBurstTolExpiry n s) := by
  unfold execBurstTolExpiry; dsimp only; split <;> exact completes_done (by simp +contextual)
@[simp] theorem execBurstTmaxExpiry_completes (n : Port) (s : State) : Completes s (execBurstTmaxExpiry n s) := by
  unfold execBurstTmaxExpiry; dsimp only; split <;> exact completes_done (by simp +contextual)
@[simp] theorem execCaps_completes (n : Port) (m : Msg) (choice : CapsChoice) (s : State) :
    Completes s (execCaps n m choice s) := by
  unfold execCaps; split <;> exact completes_done (by simp +contextual)
@[simp] theorem execGetcaps_completes (n : Port) (m : Msg) (ans : List Word) (s : State) :
    Completes s (execGetcaps n m ans s) := by
  unfold execGetcaps; dsimp only; (repeat' split) <;> exact completes_done (by simp +contextual)
@[simp] theorem execAsk_completes (n : Port) (m : Msg) (s : State) : Completes s (execAsk n m s) := by
  unfold execAsk; split <;> exact completes_done (by simp +contextual)
@[simp] theorem execGrant_completes (n : Port) (m : Msg) (s : State) : Completes s (execGrant n m s) := by
  unfold execGrant; split <;> exact completes_done (by simp +contextual)
@[simp] theorem execDeny_completes (n : Port) (m : Msg) (s : State) : Completes s (execDeny n m s) := by
  unfold execDeny; dsimp only; (repeat' split) <;> exact completes_done (by simp +contextual)
@[simp] theorem execWaitMessage_completes (n : Port) (m : Msg) (s : State) : Completes s (execWaitMessage n m s) := by
  unfold execWaitMessage; dsimp only; (repeat' split) <;> exact completes_done (by simp +contextual)
@[simp] theorem execRetryWaitDone_completes (n : Port) (s : State) : Completes s (execRetryWaitDone n s) := by
  unfold execRetryWaitDone; dsimp only; (repeat' split) <;> exact completes_done (by simp +contextual)
@[simp] theorem execAnswerTimeout_completes (n : Port) (s : State) : Completes s (execAnswerTimeout n s) := by
  unfold execAnswerTimeout; (repeat' split) <;> exact completes_done (by simp +contextual)
@[simp] theorem execCapsRepeat_completes (n : Port) (s : State) : Completes s (execCapsRepeat n s) := by
  unfold execCapsRepeat; dsimp only; (repeat' split) <;> exact completes_done (by simp +contextual)
@[simp] theorem execSlewStart_completes (n : Port) (s : State) : Completes s (execSlewStart n s) := by
  unfold execSlewStart; dsimp only; (repeat' split) <;> exact completes_done (by simp +contextual)
@[simp] theorem execReadyHoldDone_completes (n : Port) (mv : Nat) (s : State) : Completes s (execReadyHoldDone n mv s) := by
  unfold execReadyHoldDone; dsimp only; (repeat' split) <;> exact completes_done (by simp +contextual)
@[simp] theorem execTransTimeout_completes (n : Port) (s : State) : Completes s (execTransTimeout n s) := by
  unfold execTransTimeout; dsimp only; (repeat' split) <;> exact completes_done (by simp +contextual)
@[simp] theorem execDefaultWindowNarrow_completes (n : Port) (s : State) : Completes s (execDefaultWindowNarrow n s) := by
  unfold execDefaultWindowNarrow; dsimp only; split <;> exact completes_done (by simp +contextual)
@[simp] theorem execAskNewTimeout_completes (n : Port) (s : State) : Completes s (execAskNewTimeout n s) := by
  unfold execAskNewTimeout; dsimp only; split <;> exact completes_done (by simp +contextual)
@[simp] theorem execPswap_completes (n : Port) (m : Msg) (choice : SwapChoice) (s : State) :
    Completes s (execPswap n m choice s) := by
  unfold execPswap; dsimp only; (repeat' split) <;> exact completes_done (by simp +contextual)
@[simp] theorem execSswap_completes (n : Port) (m : Msg) (choice : SwapChoice) (s : State) :
    Completes s (execSswap n m choice s) := by
  unfold execSswap; dsimp only; (repeat' split) <;> exact completes_done (by simp +contextual)
@[simp] theorem execReady_completes (n : Port) (m : Msg) (byHub : Bool) (s : State) :
    Completes s (execReady n m byHub s) := by
  unfold execReady; split <;> exact completes_done (by simp +contextual)
@[simp] theorem execAbort_completes (n : Port) (m : Msg) (s : State) : Completes s (execAbort n m s) := by
  unfold execAbort; split <;> exact completes_done (by simp +contextual)
@[simp] theorem execProfile_completes (n : Port) (m : Msg) (s : State) : Completes s (execProfile n m s) := by
  unfold execProfile; split <;> exact completes_done (by simp +contextual)
@[simp] theorem execInfo_completes (n : Port) (m : Msg) (s : State) : Completes s (execInfo n m s) := by
  unfold execInfo; split <;> exact completes_done (by simp +contextual)
@[simp] theorem execStatusMessage_completes (n : Port) (m : Msg) (s : State) : Completes s (execStatusMessage n m s) := by
  unfold execStatusMessage; split <;> exact completes_done (by simp +contextual)
@[simp] theorem execBye_completes (n : Port) (m : Msg) (byHub : Bool) (s : State) : Completes s (execBye n m byHub s) := by
  unfold execBye; split <;> exact completes_done (by simp +contextual)
@[simp] theorem execSwapOffTimeout_completes (n : Port) (s : State) : Completes s (execSwapOffTimeout n s) := by
  unfold execSwapOffTimeout; dsimp only; split <;> exact completes_done (by simp +contextual)
@[simp] theorem execSwapOnTimeout_completes (n : Port) (s : State) : Completes s (execSwapOnTimeout n s) := by
  unfold execSwapOnTimeout; dsimp only; split <;> exact completes_done (by simp +contextual)
@[simp] theorem execSswapTimeout_completes (n : Port) (s : State) : Completes s (execSswapTimeout n s) := by
  unfold execSswapTimeout; dsimp only; split <;> exact completes_done (by simp +contextual)
@[simp] theorem execShedTimeout_completes (s : State) : Completes s (execShedTimeout s) := by
  unfold execShedTimeout; dsimp only; (repeat' split) <;> exact completes_done (by simp +contextual)
@[simp] theorem execRaise_completes (n : Port) (s : State) : Completes s (execRaise n s) := by
  unfold execRaise; split <;> exact completes_done (by simp +contextual)
@[simp] theorem execSettle_completes (n : Port) (s : State) : Completes s (execSettle n s) := by
  unfold execSettle; split <;> exact completes_done (by simp +contextual)
@[simp] theorem execRelease_completes (n : Port) (s : State) : Completes s (execRelease n s) := by
  unfold execRelease; split <;> exact completes_done (by simp +contextual)
@[simp] theorem execTokensWrite_completes (w : Writer) (v : BitVec 4) (s : State) : Completes s (execTokensWrite w v s) := by
  unfold execTokensWrite; dsimp only; (repeat' split) <;> exact completes_done (by simp +contextual)
@[simp] theorem execLedctlWrite_completes (w : Writer) (v : Word) (s : State) : Completes s (execLedctlWrite w v s) := by
  unfold execLedctlWrite; split <;> exact completes_done (by simp +contextual)
@[simp] theorem execPeakLatchClear_completes (n : Port) (w : Writer) (s : State) :
    Completes s (execPeakLatchClear n w s) := by
  unfold execPeakLatchClear; split <;> exact completes_done (by simp +contextual)
@[simp] theorem execPeriodStart_completes (n : Port) (pathMv : Nat) (t : Nat) (s : State) :
    Completes s (execPeriodStart n pathMv t s) := by
  unfold execPeriodStart; dsimp only; (repeat' split) <;> exact completes_done (by simp +contextual)
@[simp] theorem execPeakTrip_completes (n : Port) (importing : Bool) (s : State) :
    Completes s (execPeakTrip n importing s) := by
  unfold execPeakTrip; dsimp only; (repeat' split) <;> exact completes_done (by simp +contextual)
@[simp] theorem execDmaxReached_completes (n : Port) (s : State) : Completes s (execDmaxReached n s) := by
  unfold execDmaxReached; dsimp only; split <;> exact completes_done (by simp +contextual)
@[simp] theorem execHardShortTrip_completes (n : Port) (s : State) : Completes s (execHardShortTrip n s) := by
  unfold execHardShortTrip; split <;> exact completes_done (by simp +contextual)
@[simp] theorem execOvTrip_completes (n : Port) (s : State) : Completes s (execOvTrip n s) := by
  unfold execOvTrip; split <;> exact completes_done (by simp +contextual)
@[simp] theorem execUvTrip_completes (n : Port) (s : State) : Completes s (execUvTrip n s) := by
  unfold execUvTrip; split <;> exact completes_done (by simp +contextual)
@[simp] theorem execOvRelease_completes (n : Port) (s : State) : Completes s (execOvRelease n s) := by
  unfold execOvRelease; split <;> exact completes_done (by simp +contextual)
@[simp] theorem execUvRelease_completes (n : Port) (s : State) : Completes s (execUvRelease n s) := by
  unfold execUvRelease; split <;> exact completes_done (by simp +contextual)
@[simp] theorem execCmptestStart_completes (n : Port) (w : Writer) (v : Word) (s : State) :
    Completes s (execCmptestStart n w v s) := by
  unfold execCmptestStart; split <;> exact completes_done (by simp +contextual)
@[simp] theorem execHbuswinTestStart_completes (w : Writer) (v : Word) (s : State) :
    Completes s (execHbuswinTestStart w v s) := by
  unfold execHbuswinTestStart; exact completes_done (by simp +contextual)
@[simp] theorem execSelfTestDone_completes (k : TestTarget) (untested out : BitVec 3) (s : State) :
    Completes s (execSelfTestDone k untested out s) := by
  unfold execSelfTestDone; dsimp only; (repeat' split) <;> exact completes_done (by simp +contextual)
@[simp] theorem execSampleTrigger_completes (n : Port) (t : Nat) (s : State) : Completes s (execSampleTrigger n t s) := by
  unfold execSampleTrigger; dsimp only; (repeat' split) <;> exact completes_done (by simp +contextual)
@[simp] theorem execSampleReady_completes (n : Port) (code : BitVec 12) (s : State) :
    Completes s (execSampleReady n code s) := by
  unfold execSampleReady; dsimp only; (repeat' split) <;> exact completes_done (by simp +contextual)
@[simp] theorem execSetReady_completes (n : Port) (v1 v2 v3 : BitVec 12) (lag : Nat) (s : State) :
    Completes s (execSetReady n v1 v2 v3 lag s) := by
  unfold execSetReady; dsimp only; (repeat' split) <;> exact completes_done (by simp +contextual)
@[simp] theorem execSwctlStart_completes (n : Port) (w : Writer) (s : State) : Completes s (execSwctlStart n w s) := by
  unfold execSwctlStart; split <;> exact completes_done (by simp +contextual)
@[simp] theorem execSwctlStop_completes (n : Port) (w : Writer) (s : State) : Completes s (execSwctlStop n w s) := by
  unfold execSwctlStop; split <;> exact completes_done (by simp +contextual)
@[simp] theorem execReadmit_completes (n : Port) (w : Writer) (s : State) : Completes s (execReadmit n w s) := by
  unfold execReadmit; split <;> exact completes_done (by simp +contextual)
@[simp] theorem execSeatSettled_completes (n : Port) (s : State) : Completes s (execSeatSettled n s) := by
  unfold execSeatSettled; dsimp only; (repeat' split) <;> exact completes_done (by simp +contextual)
@[simp] theorem execBSupplyBreak_completes (s : State) : Completes s (execBSupplyBreak s) := by
  unfold execBSupplyBreak; exact completes_done (by simp +contextual)
@[simp] theorem execPretimeExpiry_completes (n : Port) (s : State) : Completes s (execPretimeExpiry n s) := by
  unfold execPretimeExpiry; split <;> exact completes_done (by simp +contextual)
@[simp] theorem execRampDone_completes (n : Port) (s : State) : Completes s (execRampDone n s) := by
  unfold execRampDone; dsimp only; (repeat' split) <;> exact completes_done (by simp +contextual)
@[simp] theorem execFaultTimerExpiry_completes (n : Port) (s : State) : Completes s (execFaultTimerExpiry n s) := by
  unfold execFaultTimerExpiry; dsimp only; split <;> exact completes_done (by simp +contextual)
@[simp] theorem execDischargeDone_completes (n : Port) (s : State) : Completes s (execDischargeDone n s) := by
  unfold execDischargeDone; split <;> exact completes_done (by simp +contextual)
@[simp] theorem execDischargeTimeout_completes (n : Port) (s : State) : Completes s (execDischargeTimeout n s) := by
  unfold execDischargeTimeout; split <;> exact completes_done (by simp +contextual)
@[simp] theorem execBackfedCheck_completes (n : Port) (ma : Int) (s : State) : Completes s (execBackfedCheck n ma s) := by
  unfold execBackfedCheck; dsimp only; (repeat' split) <;> exact completes_done (by simp +contextual)
@[simp] theorem execOfftimeEnd_completes (n : Port) (s : State) : Completes s (execOfftimeEnd n s) := by
  unfold execOfftimeEnd; exact completes_done (by simp +contextual)
@[simp] theorem execPgDeglitchDone_completes (n : Port) (s : State) : Completes s (execPgDeglitchDone n s) := by
  unfold execPgDeglitchDone; split <;> exact completes_done (by simp +contextual)
@[simp] theorem execSupplyRise_completes (p : Supply) (mv : Nat) (s : State) : Completes s (execSupplyRise p mv s) := by
  unfold execSupplyRise; exact completes_done (by simp +contextual)
@[simp] theorem execSupplyFall_completes (p : Supply) (mv : Nat) (s : State) : Completes s (execSupplyFall p mv s) := by
  unfold execSupplyFall; exact completes_done (by simp +contextual)
@[simp] theorem execSupplyRangeChange_completes (p : Supply) (mv : Nat) (s : State) :
    Completes s (execSupplyRangeChange p mv s) := by
  unfold execSupplyRangeChange; dsimp only; split <;> exact completes_done (by simp +contextual)
@[simp] theorem execFeedGapEnd_completes (s : State) : Completes s (execFeedGapEnd s) := by
  unfold execFeedGapEnd; split <;> exact completes_done (by simp +contextual)
@[simp] theorem execHbusPrechargeTimeout_completes (s : State) : Completes s (execHbusPrechargeTimeout s) := by
  unfold execHbusPrechargeTimeout; split <;> exact completes_done (by simp +contextual)
@[simp] theorem execPlan_completes (w : Writer) (target : BitVec 2) (s : State) : Completes s (execPlan w target s) := by
  unfold execPlan; split <;> exact completes_done (by simp +contextual)
@[simp] theorem execProgWrite_completes (w : Writer) (v : Bool) (s : State) : Completes s (execProgWrite w v s) := by
  unfold execProgWrite; split <;> exact completes_done (by simp +contextual)
@[simp] theorem execBenClear_completes (w : Writer) (s : State) : Completes s (execBenClear w s) := by
  unfold execBenClear; split <;> exact completes_done (by simp +contextual)
@[simp] theorem execHbusOvTrip_completes (s : State) : Completes s (execHbusOvTrip s) := by
  unfold execHbusOvTrip; split <;> exact completes_done (by simp +contextual)
@[simp] theorem execMoistureMeasurementStart_completes (n : Port) (s : State) :
    Completes s (execMoistureMeasurementStart n s) := by
  unfold execMoistureMeasurementStart; split <;> exact completes_done (by simp +contextual)
@[simp] theorem execMoistureMeasurementDone_completes (n : Port) (r : MoistSample) (s : State) :
    Completes s (execMoistureMeasurementDone n r s) := by
  unfold execMoistureMeasurementDone; dsimp only; (repeat' split) <;> exact completes_done (by simp +contextual)
@[simp] theorem execMoistureYield_completes (n : Port) (s : State) : Completes s (execMoistureYield n s) := by
  unfold execMoistureYield; split <;> exact completes_done (by simp +contextual)
@[simp] theorem execLeakageWet_completes (n : Port) (s : State) : Completes s (execLeakageWet n s) := by
  unfold execLeakageWet; (repeat' split) <;> exact completes_done (by simp +contextual)
@[simp] theorem execLeakageDry_completes (n : Port) (s : State) : Completes s (execLeakageDry n s) := by
  unfold execLeakageDry; split <;> exact completes_done (by simp +contextual)
@[simp] theorem execWetTimeout_completes (n : Port) (s : State) : Completes s (execWetTimeout n s) := by
  unfold execWetTimeout; dsimp only; (repeat' split) <;> exact completes_done (by simp +contextual)
@[simp] theorem execResetNLow_completes (ns : Nat) (s : State) : Completes s (execResetNLow ns s) := by
  unfold execResetNLow; dsimp only; (repeat' split) <;> exact completes_done (by simp +contextual)
@[simp] theorem execBrownOut_completes (s : State) : Completes s (execBrownOut s) := by
  unfold execBrownOut; exact completes_done (by simp +contextual)
@[simp] theorem execHbusUvRelease_completes (s : State) : Completes s (execHbusUvRelease s) := by
  unfold execHbusUvRelease; dsimp only; split <;> exact completes_done (by simp +contextual)
@[simp] theorem execThermalRound_completes (readings : List (Option Int)) (s : State) :
    Completes s (execThermalRound readings s) := by
  unfold execThermalRound; split
  · exact completes_done (by simp)
  · exact completes_done (thermalRound_keeps readings s)
@[simp] theorem execThermalShutdownEnd_completes (s : State) : Completes s (execThermalShutdownEnd s) := by
  unfold execThermalShutdownEnd; split <;> exact completes_done (by simp +contextual)
@[simp] theorem execImageOperationDone_completes (s : State) : Completes s (execImageOperationDone s) := by
  unfold execImageOperationDone; dsimp only; (repeat' split) <;> exact completes_done (by simp +contextual)
@[simp] theorem execBoot_completes (addr : BitVec 3) (reads : List StoneRead) (tboot : Byte) (s : State) :
    Completes s (execBoot addr reads tboot s) := by
  unfold execBoot; dsimp only; split <;> exact completes_done (by simp +contextual)
@[simp] theorem execRestart_completes (c : Core) (w : Writer) (s : State) : Completes s (execRestart c w s) := by
  unfold execRestart; (repeat' split) <;> exact completes_done (by simp +contextual)
@[simp] theorem execPcAutoRestart_completes (c : Core) (s : State) : Completes s (execPcAutoRestart c s) := by
  unfold execPcAutoRestart; split <;> exact completes_done (by simp +contextual)
@[simp] theorem execWatchdogExpiry_completes (c : Core) (s : State) : Completes s (execWatchdogExpiry c s) := by
  unfold execWatchdogExpiry; dsimp only; (repeat' split) <;> exact completes_done (by simp +contextual)
@[simp] theorem execSvWatchdogExpiry_completes (s : State) : Completes s (execSvWatchdogExpiry s) := by
  unfold execSvWatchdogExpiry; dsimp only; (repeat' split) <;> exact completes_done (by simp +contextual)
@[simp] theorem execSetripReq_completes (n : Port) (w : Writer) (s : State) : Completes s (execSetripReq n w s) := by
  unfold execSetripReq; split <;> exact completes_done (by simp +contextual)
@[simp] theorem execPortSetExchange_completes (n : Port) (s : State) : Completes s (execPortSetExchange n s) := by
  unfold execPortSetExchange; split <;> exact completes_done (by simp +contextual)
@[simp] theorem execRipreqReq_completes (c : Core) (w : Writer) (s : State) : Completes s (execRipreqReq c w s) := by
  unfold execRipreqReq; split <;> exact completes_done (by simp +contextual)
@[simp] theorem execImemRipenSafePoint_completes (c : Core) (s : State) : Completes s (execImemRipenSafePoint c s) := by
  unfold execImemRipenSafePoint; dsimp only; (repeat' split) <;> exact completes_done (by simp +contextual)
@[simp] theorem execRipenTimeout_completes (c : Core) (s : State) : Completes s (execRipenTimeout c s) := by
  unfold execRipenTimeout; split <;> exact completes_done (by simp +contextual)
@[simp] theorem execRegisterWrite_completes (w : Writer) (addr v : Word) (s : State) :
    Completes s (execRegisterWrite w addr v s) := by
  unfold execRegisterWrite; exact completes_done (by simp +contextual)
@[simp] theorem execMsgComplete_completes (c : Core) (s : State) : Completes s (execMsgComplete c s) := by
  unfold execMsgComplete; split <;> exact completes_done (by simp +contextual)
@[simp] theorem execResultCommit_completes (c : Core) (s : State) : Completes s (execResultCommit c s) := by
  unfold execResultCommit; exact completes_done (by simp +contextual)
@[simp] theorem execFarAccessPerformed_completes (c : Core) (s : State) : Completes s (execFarAccessPerformed c s) := by
  unfold execFarAccessPerformed; split <;> exact completes_done (by simp +contextual)
@[simp] theorem execWaitEnd_completes (c : Core) (timeout : Bool) (t : Nat) (s : State) :
    Completes s (execWaitEnd c timeout t s) := by
  unfold execWaitEnd; dsimp only; (repeat' split) <;> exact completes_done (by simp +contextual)
@[simp] theorem execInstructionIssue_completes (c : Core) (e : Ecc) (s : State) :
    Completes s (execInstructionIssue c e s) := by
  unfold execInstructionIssue; dsimp only; (repeat' split) <;> exact completes_done (by simp +contextual)
@[simp] theorem execStatus_completes (x : Xact) (s : State) : Completes s (execStatus x s) := by
  unfold execStatus; exact completes_done (by simp +contextual)
@[simp] theorem execReadWithoutCommand_completes (whole : Bool) (s : State) :
    Completes s (execReadWithoutCommand whole s) := by
  unfold execReadWithoutCommand; dsimp only; split <;> exact completes_done (by simp +contextual)
@[simp] theorem execQuick_completes (s : State) : Completes s (execQuick s) := by
  unfold execQuick; exact completes_done (by simp +contextual)
@[simp] theorem execEvpop_completes (x : Xact) (s : State) : Completes s (execEvpop x s) := by
  unfold execEvpop; exact completes_done (by simp +contextual)
@[simp] theorem execEvcount_completes (x : Xact) (s : State) : Completes s (execEvcount x s) := by
  unfold execEvcount; exact completes_done (by simp +contextual)
@[simp] theorem execPortsel_completes (x : Xact) (s : State) : Completes s (execPortsel x s) := by
  unfold execPortsel; exact completes_done (by simp +contextual)
@[simp] theorem execPortBlockRead_completes (c : Byte) (x : Xact) (s : State) : Completes s (execPortBlockRead c x s) := by
  unfold execPortBlockRead; exact completes_done (by simp +contextual)
@[simp] theorem execPortBlockWrite_completes (c : Byte) (x : Xact) (s : State) : Completes s (execPortBlockWrite c x s) := by
  unfold execPortBlockWrite; exact completes_done (by simp +contextual)
@[simp] theorem execGlobalBlockRead_completes (c : Byte) (x : Xact) (s : State) :
    Completes s (execGlobalBlockRead c x s) := by
  unfold execGlobalBlockRead; exact completes_done (by simp +contextual)
@[simp] theorem execGlobalBlockWrite_completes (c : Byte) (x : Xact) (s : State) :
    Completes s (execGlobalBlockWrite c x s) := by
  unfold execGlobalBlockWrite; exact completes_done (by simp +contextual)
@[simp] theorem execWinsel_completes (x : Xact) (s : State) : Completes s (execWinsel x s) := by
  unfold execWinsel; exact completes_done (by simp +contextual)
@[simp] theorem execMemrd_completes (x : Xact) (s : State) : Completes s (execMemrd x s) := by
  unfold execMemrd; exact completes_done (by simp +contextual)
@[simp] theorem execMemwr_completes (x : Xact) (s : State) : Completes s (execMemwr x s) := by
  unfold execMemwr; exact completes_done (by simp +contextual)
@[simp] theorem execRingpush_completes (x : Xact) (s : State) : Completes s (execRingpush x s) := by
  unfold execRingpush; exact completes_done (by simp +contextual)
@[simp] theorem execRingpop_completes (x : Xact) (s : State) : Completes s (execRingpop x s) := by
  unfold execRingpop; exact completes_done (by simp +contextual)
@[simp] theorem execRipen_completes (x : Xact) (s : State) : Completes s (execRipen x s) := by
  unfold execRipen; exact completes_done (by simp +contextual)
@[simp] theorem execSleep_completes (x : Xact) (active : Option WakeSource) (s : State) :
    Completes s (execSleep x active s) := by
  unfold execSleep; exact completes_done (by simp +contextual)
@[simp] theorem execReset_completes (x : Xact) (s : State) : Completes s (execReset x s) := by
  unfold execReset; exact completes_done (by simp +contextual)
@[simp] theorem execPgm_completes (r : StoneReq) (s : State) : Completes s (execPgm r s) := by
  unfold execPgm; split <;> exact completes_done (by simp +contextual)
@[simp] theorem execLock_completes (r : StoneReq) (s : State) : Completes s (execLock r s) := by
  unfold execLock; split <;> exact completes_done (by simp +contextual)
@[simp] theorem execAdvance_completes (x : Xact) (s : State) : Completes s (execAdvance x s) := by
  unfold execAdvance; exact completes_done (by simp +contextual)
@[simp] theorem execScrap_completes (x : Xact) (s : State) : Completes s (execScrap x s) := by
  unfold execScrap; exact completes_done (by simp +contextual)
@[simp] theorem execErase_completes (r : ImageReq) (s : State) : Completes s (execErase r s) := by
  unfold execErase; exact completes_done (by simp +contextual)
@[simp] theorem execWrite_completes (r : ImageReq) (s : State) : Completes s (execWrite r s) := by
  unfold execWrite; exact completes_done (by simp +contextual)
@[simp] theorem execCheck_completes (r : ImageReq) (s : State) : Completes s (execCheck r s) := by
  unfold execCheck; exact completes_done (by simp +contextual)
@[simp] theorem execLoadgreen_completes (r : ImageReq) (s : State) : Completes s (execLoadgreen r s) := by
  unfold execLoadgreen; exact completes_done (by simp +contextual)
@[simp] theorem execBusConditionMisplaced_completes (cmd : Byte) (writing : Bool) (s : State) :
    Completes s (execBusConditionMisplaced cmd writing s) := by
  unfold execBusConditionMisplaced; split <;> exact completes_done (by simp +contextual)
@[simp] theorem execSclLowTimeout_completes (cmd : Byte) (inTransaction : Bool) (s : State) :
    Completes s (execSclLowTimeout cmd inTransaction s) := by
  unfold execSclLowTimeout; split <;> exact completes_done (by simp +contextual)
@[simp] theorem execSdaHoldRelease_completes (s : State) : Completes s (execSdaHoldRelease s) := by
  unfold execSdaHoldRelease; split <;> exact completes_done (by simp +contextual)
@[simp] theorem execWake_completes (w : WakeSource) (s : State) : Completes s (execWake w s) := by
  unfold execWake; split <;> exact completes_done (by simp +contextual)
@[simp] theorem execTxStart_completes (n : Port) (s : State) : Completes s (execTxStart n s) := by
  unfold execTxStart; dsimp only; (repeat' split) <;> exact completes_done (by simp +contextual)
@[simp] theorem execHoldDone_completes (n : Port) (s : State) : Completes s (execHoldDone n s) := by
  unfold execHoldDone; dsimp only; split <;> exact completes_done (by simp +contextual)
@[simp] theorem execFrameSent_completes (n : Port) (s : State) : Completes s (execFrameSent n s) := by
  unfold execFrameSent; dsimp only; (repeat' split) <;> exact completes_done (by simp +contextual)
@[simp] theorem execNodTimeout_completes (n : Port) (s : State) : Completes s (execNodTimeout n s) := by
  unfold execNodTimeout; split <;> exact completes_done (by simp +contextual)
@[simp] theorem execTxRetry_completes (n : Port) (s : State) : Completes s (execTxRetry n s) := by
  unfold execTxRetry; dsimp only; (repeat' split) <;> exact completes_done (by simp +contextual)
@[simp] theorem execNodSend_completes (n : Port) (s : State) : Completes s (execNodSend n s) := by
  unfold execNodSend; dsimp only; (repeat' split) <;> exact completes_done (by simp +contextual)
@[simp] theorem execNod_completes (n : Port) (f : FrameRx) (s : State) : Completes s (execNod n f s) := by
  unfold execNod; dsimp only; (repeat' split) <;> exact completes_done (by simp +contextual)
@[simp] theorem execNotsup_completes (n : Port) (m : Msg) (s : State) : Completes s (execNotsup n m s) := by
  unfold execNotsup; exact completes_done (by simp +contextual)
@[simp] theorem execGrantMarkReceived_completes (n : Port) (s : State) : Completes s (execGrantMarkReceived n s) := by
  unfold execGrantMarkReceived; split <;> exact completes_done (by simp +contextual)
@[simp] theorem execFrameSyncDetected_completes (n : Port) (s : State) : Completes s (execFrameSyncDetected n s) := by
  unfold execFrameSyncDetected; dsimp only; split <;> exact completes_done (by simp +contextual)
@[simp] theorem execRelay_completes (n : Port) (m : Msg) (k : Fin 8) (s : State) : Completes s (execRelay n m k s) := by
  unfold execRelay; dsimp only; (repeat' split) <;> exact completes_done (by simp +contextual)
@[simp] theorem execMarkStart_completes (n : Port) (s : State) : Completes s (execMarkStart n s) := by
  unfold execMarkStart; dsimp only; (repeat' split) <;> exact completes_done (by simp +contextual)
@[simp] theorem execMarkEnd_completes (n : Port) (s : State) : Completes s (execMarkEnd n s) := by
  unfold execMarkEnd; dsimp only; split <;> exact completes_done (by simp +contextual)

@[simp] theorem execComparatorValid_completes (k : CmpName) (tripped : Bool) (s : State) :
    Completes s (execComparatorValid k tripped s) := by
  cases k with
  | hbusUv =>
    simp only [execComparatorValid]
    split
    · exact completes_done (by simp +contextual)
    · exact execHbusUvRelease_completes s
  | _ => simp only [execComparatorValid]; (repeat' split) <;> exact completes_done (by simp +contextual)

@[simp] theorem acceptFrame_memGood (n : Port) (c : Nat) (f : FrameRx) (s : State) (h : memGood s.mem) :
    memGood (acceptFrame n c f s).mem := by
  simp [acceptFrame, apply_ite State.mem, apply_ite memGood, h]

@[simp] theorem execFrameReceived_completes (n : Port) (f : FrameRx) (t : Nat) (s : State) :
    Completes s (execFrameReceived n f t s) := by
  unfold execFrameReceived
  dsimp only
  split
  · split <;> exact completes_done (by simp +contextual)
  · exact completes_done (by simp)

/-! ## Every command -/

theorem exec_completes (c : Instr) (s : State) : Completes s (exec c s) := by
  cases c <;> simp [exec]

theorem tick_keeps (s : State) : Keeps s (tick s) := by
  unfold tick; split <;> exact ⟨rfl, id⟩

theorem tick_evq (s : State) : (tick s).evq = s.evq := by
  unfold tick; split <;> rfl

/-- A step, of a command or of the clock, keeps the settled state. -/
theorem step_settled {s t : State} (h : s.settled) (ht : step s = .next t) : t.settled := by
  obtain ⟨hmem, hevq⟩ := h
  unfold step at ht
  split at ht
  next =>
    cases ht
    exact ⟨(tick_keeps s).2 hmem, (tick_evq s).trans hevq⟩
  next c rest _ =>
    obtain ⟨u, hu, hk, hq⟩ := exec_completes c { s with pending := rest }
    cases hu.symm.trans ht
    exact ⟨hk.2 hmem, hq⟩

/-- Settles O4: a tick touches neither memory nor events, and every command completes. -/
theorem everyStepKeepsSettled : Obligations.EveryStepKeepsSettled := fun _ _ h ht => step_settled h ht

/-- Settles O3: every meaning ends in a next state, by the lemma of each. -/
theorem everyCommandCompletes : Obligations.EveryCommandCompletes := by
  intro c s
  obtain ⟨t, ht, hk, hq⟩ := exec_completes c s
  exact ⟨t, ht, hk.1, fun _ => hq⟩

/-- Settles O6: a write keeps the canonical form and is read back. -/
theorem memoryReadsBack : Obligations.MemoryReadsBack := fun m a x b h =>
  ⟨memWrite_wf m a b h, memRead_memWrite m a x b h.1⟩

/-- Settles O1: it is how a step is defined on a queue that is not empty. -/
theorem stepRunsTheFrontCommand : Obligations.StepRunsTheFrontCommand := by
  intro s c rest h
  simp only [step, h]

/-- Settles O2: the two branches of a tick. -/
theorem emptyQueueTicks : Obligations.EmptyQueueTicks := by
  intro s h
  have hstep : step s = .next (tick s) := by simp only [step, h]
  refine ⟨fun hstop => ?_, fun hawake hfree => ?_⟩
  · rw [hstep, tick, if_pos (by simpa using hstop)]
  · rw [hstep, tick, if_neg (by simp [hawake, hfree])]

@[simp] theorem port_reset (n : Port) : State.reset.port n = PortSt.reset n := by simp [State.port, State.reset]

@[simp] theorem core_reset (c : Core) : State.reset.core c = CoreSt.reset (wdReset c) := by simp [State.core, State.reset]

/-- Settles O5: the fields of the reset state of the hub, a core and a port. -/
theorem resetHoldsEverythingOff : Obligations.ResetHoldsEverythingOff := by
  refine ⟨⟨memGood_nil, rfl⟩, rfl, fun c => ?_, fun n => ?_, rfl, rfl, rfl⟩
  · rw [core_reset]
    exact ⟨rfl, rfl, rfl, rfl, rfl, rfl⟩
  · rw [port_reset]
    exact ⟨rfl, rfl, rfl, rfl, rfl⟩

end Sys2Proof.Machine
end

section
/-! Changes that compose: `Moves l s t` is `changesOnly l s t` with what has been fired and not yet written left out of view. It is
an equivalence, so that each operation has one rule: under the areas it touches it moves nothing. A command's statement follows
from the rules of the operations it calls. -/

namespace Sys2Proof.Machine

/-! ## A state put together from parts -/

@[simp] theorem State.port_mk (s : State) (cc evq dev cores led tim fd th stone bt host mem freeCtr pending) (n : Port) :
    (State.mk cc evq dev cores s.ports led tim fd th stone bt host mem freeCtr pending).port n = s.port n := rfl

@[simp] theorem State.core_mk (s : State) (cc evq dev ports led tim fd th stone bt host mem freeCtr pending) (c : Core) :
    (State.mk cc evq dev s.cores ports led tim fd th stone bt host mem freeCtr pending).core c = s.core c := rfl

/-! ## An equivalence of states -/

/-- From s to t nothing has changed outside the areas, whatever has been fired and not yet written. -/
def Moves (l : List Area) (s t : State) : Prop := changesOnly l { s with evq := [] } { t with evq := [] }

@[simp] theorem Moves.refl (l : List Area) (s : State) : Moves l s s := changesOnly_refl _ _

theorem Moves.trans {l : List Area} {s t u : State} (h : Moves l s t) (k : Moves l t u) : Moves l s u := changesOnly_trans h k

theorem changesOnly_symm {l : List Area} {s t : State} (h : changesOnly l s t) : changesOnly l t s := by
  obtain ⟨hpend, hevq, hcc, hdev, hcore, hport, hled, htim, hfd, hth, hstone, hbt, hhost, hfree, hmem⟩ := h
  refine ⟨hpend.symm, hevq.symm, hcc.imp id Eq.symm, hdev.imp id Eq.symm, fun c => ?_, fun n => (hport n).imp id (.imp id Eq.symm),
    hled.imp id Eq.symm, htim.imp id Eq.symm, hfd.imp id Eq.symm, hth.imp id Eq.symm, hstone.imp id Eq.symm, hbt.imp id Eq.symm,
    ?_, hfree.imp id Eq.symm, fun a ha hr => (hmem a ha hr).symm⟩
  · exact (hcore c).imp id (.imp id (.imp Eq.symm fun h => ⟨h.1, h.2.symm⟩))
  · exact hhost.imp id (.imp Eq.symm fun h => ⟨h.1, h.2.symm⟩)

theorem Moves.symm {l : List Area} {s t : State} (h : Moves l s t) : Moves l t s := changesOnly_symm h

/-- An operation that moves nothing outside the areas can be left out. -/
theorem Moves.iff_right {l : List Area} {s t u : State} (h : Moves l t u) : Moves l s u ↔ Moves l s t :=
  ⟨fun k => k.trans h.symm, fun k => k.trans h⟩

theorem moves_ite {l : List Area} {s t u : State} {p : Prop} [Decidable p] (ht : Moves l s t) (hu : Moves l s u) :
    Moves l s (if p then t else u) := by
  split <;> assumption

theorem Moves.foldl {α : Type} {l : List Area} {f : State → α → State} (h : ∀ t x, Moves l t (f t x)) (xs : List α) (s : State) :
    Moves l s (xs.foldl f s) := by
  induction xs generalizing s with
  | nil => exact Moves.refl l s
  | cons x xs ih => exact (h s x).trans (ih _)

/-! ## The parts one by one -/

section
variable {l : List Area} {s t : State}

@[simp] theorem moves_evq (q : List (Nat × Nat)) : Moves l s { t with evq := q } ↔ Moves l s t := Iff.rfl

/-- A part that a listed area stands for may take any value. -/
theorem moves_part {u : State} (h : Area.clock ∈ l ∨ u.cc = s.cc) (hdev : Area.dev ∈ l ∨ u.dev = s.dev)
    (hled : Area.led ∈ l ∨ u.led = s.led) (htim : Area.tim ∈ l ∨ u.tim = s.tim) (hfd : Area.fd ∈ l ∨ u.fd = s.fd)
    (hth : Area.th ∈ l ∨ u.th = s.th) (hstone : Area.stone ∈ l ∨ u.stone = s.stone) (hbt : Area.bt ∈ l ∨ u.bt = s.bt)
    (hbus : Area.bus ∈ l ∨ u.host = s.host) (hopen : Area.open_ ∈ l ∨ u.freeCtr = s.freeCtr)
    (hsame : u.pending = s.pending ∧ u.cores = s.cores ∧ u.ports = s.ports ∧ u.mem = s.mem) : Moves l s u := by
  obtain ⟨hpend, hcores, hports, hmem⟩ := hsame
  exact ⟨hpend, rfl, h, hdev, fun c => .inr (.inr (.inl (same_cores s u hcores c))),
    fun n => .inr (.inr (same_ports s u hports n)), hled, htim, hfd, hth, hstone, hbt, hbus.imp id .inl, hopen,
    fun a _ _ => congrArg (fun m => memRead m a) hmem⟩

@[simp] theorem moves_cc (h : Area.clock ∈ l) (v : Nat) : Moves l s { t with cc := v } ↔ Moves l s t :=
  Moves.iff_right (moves_part (.inl h) (.inr rfl) (.inr rfl) (.inr rfl) (.inr rfl) (.inr rfl) (.inr rfl) (.inr rfl) (.inr rfl) (.inr rfl)
    ⟨rfl, rfl, rfl, rfl⟩)
@[simp] theorem moves_dev (h : Area.dev ∈ l) (v : DeviceSt) : Moves l s { t with dev := v } ↔ Moves l s t :=
  Moves.iff_right (moves_part (.inr rfl) (.inl h) (.inr rfl) (.inr rfl) (.inr rfl) (.inr rfl) (.inr rfl) (.inr rfl) (.inr rfl) (.inr rfl)
    ⟨rfl, rfl, rfl, rfl⟩)
@[simp] theorem moves_led (h : Area.led ∈ l) (v : LedgerSt) : Moves l s { t with led := v } ↔ Moves l s t :=
  Moves.iff_right (moves_part (.inr rfl) (.inr rfl) (.inl h) (.inr rfl) (.inr rfl) (.inr rfl) (.inr rfl) (.inr rfl) (.inr rfl) (.inr rfl)
    ⟨rfl, rfl, rfl, rfl⟩)
@[simp] theorem moves_tim (h : Area.tim ∈ l) (v : TimerSt) : Moves l s { t with tim := v } ↔ Moves l s t :=
  Moves.iff_right (moves_part (.inr rfl) (.inr rfl) (.inr rfl) (.inl h) (.inr rfl) (.inr rfl) (.inr rfl) (.inr rfl) (.inr rfl) (.inr rfl)
    ⟨rfl, rfl, rfl, rfl⟩)
@[simp] theorem moves_fd (h : Area.fd ∈ l) (v : FeedSt) : Moves l s { t with fd := v } ↔ Moves l s t :=
  Moves.iff_right (moves_part (.inr rfl) (.inr rfl) (.inr rfl) (.inr rfl) (.inl h) (.inr rfl) (.inr rfl) (.inr rfl) (.inr rfl) (.inr rfl)
    ⟨rfl, rfl, rfl, rfl⟩)
@[simp] theorem moves_th (h : Area.th ∈ l) (v : ThermalSt) : Moves l s { t with th := v } ↔ Moves l s t :=
  Moves.iff_right (moves_part (.inr rfl) (.inr rfl) (.inr rfl) (.inr rfl) (.inr rfl) (.inl h) (.inr rfl) (.inr rfl) (.inr rfl) (.inr rfl)
    ⟨rfl, rfl, rfl, rfl⟩)
@[simp] theorem moves_stone (h : Area.stone ∈ l) (v : StoneSt) : Moves l s { t with stone := v } ↔ Moves l s t :=
  Moves.iff_right (moves_part (.inr rfl) (.inr rfl) (.inr rfl) (.inr rfl) (.inr rfl) (.inr rfl) (.inl h) (.inr rfl) (.inr rfl) (.inr rfl)
    ⟨rfl, rfl, rfl, rfl⟩)
@[simp] theorem moves_bt (h : Area.bt ∈ l) (v : BootSt) : Moves l s { t with bt := v } ↔ Moves l s t :=
  Moves.iff_right (moves_part (.inr rfl) (.inr rfl) (.inr rfl) (.inr rfl) (.inr rfl) (.inr rfl) (.inr rfl) (.inl h) (.inr rfl) (.inr rfl)
    ⟨rfl, rfl, rfl, rfl⟩)
@[simp] theorem moves_host (h : Area.bus ∈ l) (v : HostSt) : Moves l s { t with host := v } ↔ Moves l s t :=
  Moves.iff_right (moves_part (.inr rfl) (.inr rfl) (.inr rfl) (.inr rfl) (.inr rfl) (.inr rfl) (.inr rfl) (.inr rfl) (.inl h) (.inr rfl)
    ⟨rfl, rfl, rfl, rfl⟩)
@[simp] theorem moves_freeCtr (h : Area.open_ ∈ l) (v : Nat) : Moves l s { t with freeCtr := v } ↔ Moves l s t :=
  Moves.iff_right (moves_part (.inr rfl) (.inr rfl) (.inr rfl) (.inr rfl) (.inr rfl) (.inr rfl) (.inr rfl) (.inr rfl) (.inr rfl) (.inl h)
    ⟨rfl, rfl, rfl, rfl⟩)

@[simp] theorem moves_at (h : Area.clock ∈ l) (c : Nat) : Moves l s (t.at c) ↔ Moves l s t := by
  unfold State.at
  split
  · exact moves_cc h c
  · exact Iff.rfl

/-! ## Ports, cores and memory -/

theorem moves_updPort_self {n : Port} (h : Area.port n ∈ l ∨ Area.anyPort ∈ l) (f : PortSt → PortSt) (t : State) :
    Moves l t (t.updPort n f) :=
  changesOnly_of ⟨rfl, rfl⟩ (.inr rfl) (.inr rfl) (fun _ => .inr (.inr (.inl rfl)))
    (fun m => by
      by_cases hm : m = n
      · subst hm; exact h.imp id .inl
      · exact .inr (.inr (State.port_updPort_ne _ _ _ _ hm)))
    ⟨.inr rfl, .inr rfl, .inr rfl, .inr rfl, .inr rfl, .inr rfl, .inr rfl, .inr rfl⟩ fun _ _ _ => rfl

variable {n : Port} (hn : Area.port n ∈ l ∨ Area.anyPort ∈ l)
include hn

@[simp] theorem moves_updPort (f : PortSt → PortSt) : Moves l s (t.updPort n f) ↔ Moves l s t :=
  (moves_updPort_self hn f t).iff_right
@[simp] theorem moves_updPw (f : PowerSt → PowerSt) : Moves l s (t.updPw n f) ↔ Moves l s t := moves_updPort hn _
@[simp] theorem moves_updCf (f : CfSt → CfSt) : Moves l s (t.updCf n f) ↔ Moves l s t := moves_updPort hn _
@[simp] theorem moves_updLn (f : LineSt → LineSt) : Moves l s (t.updLn n f) ↔ Moves l s t := moves_updPort hn _
@[simp] theorem moves_updCt (f : ContractSt → ContractSt) : Moves l s (t.updCt n f) ↔ Moves l s t := moves_updPort hn _
@[simp] theorem moves_updSt (f : StageSt → StageSt) : Moves l s (t.updSt n f) ↔ Moves l s t := moves_updPort hn _
@[simp] theorem moves_updWh (f : WheelSt → WheelSt) : Moves l s (t.updWh n f) ↔ Moves l s t := moves_updPort hn _
@[simp] theorem moves_updMo (f : MoistSt → MoistSt) : Moves l s (t.updMo n f) ↔ Moves l s t := moves_updPort hn _
@[simp] theorem moves_updMe (f : MeterSt → MeterSt) : Moves l s (t.updMe n f) ↔ Moves l s t := moves_updPort hn _

omit hn

/-- Cores of which nothing but the wait sources has changed. -/
theorem moves_sources {u : State} (h : Area.events ∈ l ∨ Area.sources ∈ l)
    (hq : u.cores.map CoreSt.quiet = t.cores.map CoreSt.quiet) (hsame : { u with cores := t.cores, evq := t.evq } = t) :
    Moves l t u := by
  have hparts := congrArg (fun s : State => (s.pending, s.cc, s.dev, s.ports, s.led, s.tim, s.fd, s.th, s.stone, s.bt, s.host,
    s.freeCtr, s.mem)) hsame
  simp only [Prod.mk.injEq] at hparts
  obtain ⟨hpend, hcc, hdev, hports, hled, htim, hfd, hth, hstone, hbt, hhost, hfree, hmem⟩ := hparts
  exact changesOnly_of ⟨hpend, rfl⟩ (.inr hcc) (.inr hdev) (fun c => .inr (.inr (.inr ⟨h, quiet_core t u hq c⟩)))
    (fun m => .inr (.inr (same_ports t u hports m)))
    ⟨.inr hled, .inr htim, .inr hfd, .inr hth, .inr hstone, .inr hbt, .inr hhost, .inr hfree⟩
    fun a _ _ => congrArg (fun m => memRead m a) hmem

section
variable (h : Area.events ∈ l ∨ Area.sources ∈ l)
include h

@[simp] theorem moves_fireSrc (c : Core) (b : Nat) : Moves l s (t.fireSrc c b) ↔ Moves l s t :=
  (moves_sources h (fireSrc_quiet t c b) rfl).iff_right

@[simp] theorem moves_globalSrc (e : Nat) : Moves l s (t.globalSrc e) ↔ Moves l s t := by
  unfold State.globalSrc
  (repeat' split) <;> simp [h]

@[simp] theorem moves_fire (e arg : Nat) : Moves l s (t.fire e arg) ↔ Moves l s t := by
  unfold State.fire
  split
  · exact moves_globalSrc h e
  · exact Iff.rfl

@[simp] theorem moves_firePort (m : Port) (k arg : Nat) : Moves l s (t.firePort m k arg) ↔ Moves l s t := by
  refine (moves_sources h (firePort_quiet t m k arg) ?_).iff_right
  unfold State.firePort
  split <;> rfl

end

theorem moves_updCore_self {c : Core} (h : Area.core c ∈ l ∨ Area.anyCore ∈ l) (f : CoreSt → CoreSt) (t : State) :
    Moves l t (t.updCore c f) :=
  changesOnly_of ⟨rfl, rfl⟩ (.inr rfl) (.inr rfl)
    (fun d => by
      by_cases hd : d = c
      · subst hd; exact h.imp id .inl
      · exact .inr (.inr (.inl (State.core_updCore_ne _ _ _ _ hd))))
    (fun _ => .inr (.inr rfl)) ⟨.inr rfl, .inr rfl, .inr rfl, .inr rfl, .inr rfl, .inr rfl, .inr rfl, .inr rfl⟩ fun _ _ _ => rfl

@[simp] theorem moves_updCore {c : Core} (h : Area.core c ∈ l ∨ Area.anyCore ∈ l) (f : CoreSt → CoreSt) :
    Moves l s (t.updCore c f) ↔ Moves l s t := (moves_updCore_self h f t).iff_right

/-- Within a core that may change, a wait source of it may fire. -/
theorem moves_fireSrc_core {c : Core} (h : Area.core c ∈ l ∨ Area.anyCore ∈ l) (b : Nat) :
    Moves l s (t.fireSrc c b) ↔ Moves l s t := moves_updCore h _

/-- A memory that differs inside the areas alone. -/
theorem moves_mem {m : Memory} (h : ∀ a, (∀ lo hi, Area.mem lo hi ∈ l → a < lo ∨ hi ≤ a) → memRead m a = memRead t.mem a) :
    Moves l s { t with mem := m } ↔ Moves l s t :=
  Moves.iff_right (changesOnly_of ⟨rfl, rfl⟩ (.inr rfl) (.inr rfl) (fun _ => .inr (.inr (.inl rfl))) (fun _ => .inr (.inr rfl))
    ⟨.inr rfl, .inr rfl, .inr rfl, .inr rfl, .inr rfl, .inr rfl, .inr rfl, .inr rfl⟩ fun a ha _ => h a ha)

theorem moves_writeMem {a lo hi : Nat} {bs : List Byte} (hm : memGood t.mem = true) (h : Area.mem lo hi ∈ l) (hlo : lo ≤ a)
    (hhi : a + bs.length ≤ hi) : Moves l s (t.writeMem a bs) ↔ Moves l s t :=
  moves_mem fun x hx => memRead_memWriteN_out bs t.mem a x (of_decide_eq_true hm) (by have := hx lo hi h; omega)

end

/-! ## From a computed state to a statement -/

/-- A command that fires nothing. -/
theorem Moves.changesOnly {l : List Area} {s u : State} (h : Moves l s u) (hs : s.evq = []) (hu : u.evq = []) :
    changesOnly l s u := by
  have hs' : ({ s with evq := [] } : State) = s := by rw [← hs]
  have hu' : ({ u with evq := [] } : State) = u := by rw [← hu]
  rwa [Moves, hs', hu'] at h

/-- What is fired is written last. -/
theorem Moves.flush {l : List Area} {s u : State} (h : Moves l s u) (he : Area.events ∈ l) (hs : s.evq = [])
    (hm : memGood u.mem = true) : Machine.changesOnly l s u.flush := by
  refine changesOnly_flush he hs ?_ hm
  have hs' : ({ s with evq := [] } : State) = s := by rw [← hs]
  rwa [Moves, hs'] at h

theorem answers_of {c : Instr} {s u : State} {P : State → Prop} (h : exec c s = done u) (hP : P u.flush) : answers c s P :=
  ⟨_, h, hP⟩

/-- A command that fires nothing ends in the state that its meaning computes. -/
theorem answers_quiet {c : Instr} {s u : State} {P : State → Prop} (h : exec c s = done u) (hu : u.evq = []) (hP : P u) :
    answers c s P := answers_of h (by rwa [u.flush_nil hu])

/-! ## Several events into the log ring (R515, R517) -/

@[simp] theorem writeEvent_timeUs (s : State) (e arg : Nat) : (s.writeEvent e arg).timeUs = s.timeUs := by simp [State.timeUs]

@[simp] theorem flush_timeUs (s : State) : s.flush.timeUs = s.timeUs := by simp [State.timeUs]

theorem writeEvent_loghead_toNat (s : State) (e arg : Nat) :
    (s.writeEvent e arg).host.loghead.toNat = (s.host.loghead.toNat + 1) % 256 := by
  rw [State.writeEvent_loghead, BitVec.toNat_add]
  rfl

/-- The entries of a list of events, written one after the other. -/
def writeEvents (l : List (Nat × Nat)) (s : State) : State := l.foldl (fun t x => t.writeEvent x.1 x.2) s

/-- An event leaves the other entries of the log ring as they are. -/
theorem writeEvent_log_other {s : State} (e arg j : Nat) (h : Memory.wf s.mem) (hj : j < 256) (hne : j ≠ s.host.loghead.toNat) :
    (s.writeEvent e arg).readMem (0x3000B000 + 8 * j) 8 = s.readMem (0x3000B000 + 8 * j) 8 := by
  have hl := s.host.loghead.isLt
  have hlog := memReadN_memWriteN_out 8 s.mem (0x3000B000 + 8 * s.host.loghead.toNat) (0x3000B000 + 8 * j)
    (eventBytes e arg s.timeUs) h (by rw [eventBytes_length]; omega)
  unfold State.writeEvent
  simp only []
  split
  · split
    · exact hlog
    · refine Eq.trans ?_ hlog
      exact memReadN_memWriteN_out 8 _ _ _ _ (s.writeMem_wf _ _ h) (by rw [eventBytes_length]; omega)
  · exact hlog

theorem writeEvents_log_other (l : List (Nat × Nat)) {s : State} (j : Nat) (h : Memory.wf s.mem) (hj : j < 256)
    (hne : ∀ i < l.length, j ≠ (s.host.loghead.toNat + i) % 256) :
    (writeEvents l s).readMem (0x3000B000 + 8 * j) 8 = s.readMem (0x3000B000 + 8 * j) 8 := by
  induction l generalizing s with
  | nil => rfl
  | cons x l ih =>
    have hhead : j ≠ s.host.loghead.toNat := by
      have := hne 0 (by simp)
      have hl := s.host.loghead.isLt
      omega
    rw [← writeEvent_log_other x.1 x.2 j h hj hhead]
    refine ih (s.writeEvent_wf _ _ h) fun i hi => ?_
    have := hne (i + 1) (by simpa using hi)
    rw [writeEvent_loghead_toNat]
    omega

theorem writeEvents_reports (l : List (Nat × Nat)) {s : State} (h : Memory.wf s.mem) (hlen : l.length ≤ 256) :
    reports s (writeEvents l s) l ∧ (writeEvents l s).timeUs = s.timeUs := by
  induction l generalizing s with
  | nil => exact ⟨⟨by simp [writeEvents], fun i => i.elim0⟩, rfl⟩
  | cons x l ih =>
    obtain ⟨⟨hhead, hrest⟩, htime⟩ := ih (s.writeEvent_wf x.1 x.2 h) (by simp at hlen; omega)
    have hl := s.host.loghead.isLt
    refine ⟨⟨?_, fun i => ?_⟩, htime.trans (writeEvent_timeUs s x.1 x.2)⟩
    · show (writeEvents l (s.writeEvent x.1 x.2)).host.loghead = _
      rw [hhead, State.writeEvent_loghead, List.length_cons]
      bv_omega
    · show (writeEvents l (s.writeEvent x.1 x.2)).readMem _ 8 = eventBytes _ _ (writeEvents l (s.writeEvent x.1 x.2)).timeUs
      rcases i with ⟨_ | i, hi⟩
      · rw [htime, writeEvent_timeUs]
        have hz : (s.host.loghead.toNat + 0) % 256 = s.host.loghead.toNat := by omega
        simp only [hz]
        rw [writeEvents_log_other l _ (s.writeEvent_wf x.1 x.2 h) hl, s.writeEvent_log x.1 x.2 h]
        · rfl
        · intro i hi
          simp only [List.length_cons] at hlen
          rw [writeEvent_loghead_toNat]
          omega
      · have := hrest ⟨i, by simpa using hi⟩
        have hpos : ((s.writeEvent x.1 x.2).host.loghead.toNat + i) % 256 = (s.host.loghead.toNat + (i + 1)) % 256 := by
          rw [writeEvent_loghead_toNat]
          omega
        simp only [hpos] at this
        exact this

/-- The events a command has fired are reported in ascending number. -/
theorem reports_flush {s u : State} {l : List (Nat × Nat)} (hq : sortEvents u.evq = l) (hlen : l.length ≤ 256)
    (hm : memGood u.mem = true) (hh : u.host.loghead = s.host.loghead) : reports s u.flush l := by
  obtain ⟨⟨hhead, hrest⟩, -⟩ := writeEvents_reports l (s := { u with evq := [] }) (of_decide_eq_true hm) hlen
  have hf : u.flush = writeEvents l { u with evq := [] } := by rw [← hq]; rfl
  rw [← hf] at hhead hrest
  exact ⟨by rw [hhead, ← hh], fun i => by simpa [← hh] using hrest i⟩

end Sys2Proof.Machine
end

section
/-! The words of the statements (Safety.lean), each from what a meaning computes: the state it ends in, what that state has fired,
and that it moves nothing else. -/

namespace Sys2Proof.Machine

/-! ## One port is set -/

/-- An update that leaves its port as it is. -/
theorem updPort_of_fixed {s : State} {n : Port} {f : PortSt → PortSt} (h : f (s.port n) = s.port n) : s.updPort n f = s := by
  have hset : s.ports.set n (f s.ports[n]) = s.ports := by
    ext i hi : 1
    rw [Vector.getElem_set]
    split
    · next hni => subst hni; exact h
    · rfl
  rw [State.updPort, hset]

/-- Two updates of a port are one. -/
theorem updPort_updPort (s : State) (n : Port) (f g : PortSt → PortSt) :
    (s.updPort n f).updPort n g = s.updPort n fun p => g (f p) := by
  simp [State.updPort]

/-- An update is known by what it makes of its port. -/
theorem updPort_congr {s : State} {n : Port} {f g : PortSt → PortSt} (h : f (s.port n) = g (s.port n)) :
    s.updPort n f = s.updPort n g := by
  have h' : f s.ports[n] = g s.ports[n] := h
  rw [State.updPort, State.updPort, h']

theorem updPw_updPw (s : State) (n : Port) (f g : PowerSt → PowerSt) : (s.updPw n f).updPw n g = s.updPw n fun x => g (f x) :=
  updPort_updPort s n _ _
theorem updCf_updCf (s : State) (n : Port) (f g : CfSt → CfSt) : (s.updCf n f).updCf n g = s.updCf n fun x => g (f x) :=
  updPort_updPort s n _ _
theorem updLn_updLn (s : State) (n : Port) (f g : LineSt → LineSt) : (s.updLn n f).updLn n g = s.updLn n fun x => g (f x) :=
  updPort_updPort s n _ _
theorem updCt_updCt (s : State) (n : Port) (f g : ContractSt → ContractSt) : (s.updCt n f).updCt n g = s.updCt n fun x => g (f x) :=
  updPort_updPort s n _ _
theorem updSt_updSt (s : State) (n : Port) (f g : StageSt → StageSt) : (s.updSt n f).updSt n g = s.updSt n fun x => g (f x) :=
  updPort_updPort s n _ _
theorem updWh_updWh (s : State) (n : Port) (f g : WheelSt → WheelSt) : (s.updWh n f).updWh n g = s.updWh n fun x => g (f x) :=
  updPort_updPort s n _ _
theorem updPw_congr {s : State} {n : Port} {f g : PowerSt → PowerSt} (h : f (s.port n).pw = g (s.port n).pw) :
    s.updPw n f = s.updPw n g := updPort_congr (by rw [h])
theorem updCf_congr {s : State} {n : Port} {f g : CfSt → CfSt} (h : f (s.port n).cf = g (s.port n).cf) :
    s.updCf n f = s.updCf n g := updPort_congr (by rw [h])
theorem updLn_congr {s : State} {n : Port} {f g : LineSt → LineSt} (h : f (s.port n).ln = g (s.port n).ln) :
    s.updLn n f = s.updLn n g := updPort_congr (by rw [h])
theorem updCt_congr {s : State} {n : Port} {f g : ContractSt → ContractSt} (h : f (s.port n).ct = g (s.port n).ct) :
    s.updCt n f = s.updCt n g := updPort_congr (by rw [h])
theorem updSt_congr {s : State} {n : Port} {f g : StageSt → StageSt} (h : f (s.port n).st = g (s.port n).st) :
    s.updSt n f = s.updSt n g := updPort_congr (by rw [h])
theorem updWh_congr {s : State} {n : Port} {f g : WheelSt → WheelSt} (h : f (s.port n).wh = g (s.port n).wh) :
    s.updWh n f = s.updWh n g := updPort_congr (by rw [h])

theorem updSt_of_fixed {s : State} {n : Port} {f : StageSt → StageSt} (h : f (s.port n).st = (s.port n).st) : s.updSt n f = s :=
  updPort_of_fixed (f := fun p => { p with st := f p.st }) (by rw [h])
theorem updLn_of_fixed {s : State} {n : Port} {f : LineSt → LineSt} (h : f (s.port n).ln = (s.port n).ln) : s.updLn n f = s :=
  updPort_of_fixed (f := fun p => { p with ln := f p.ln }) (by rw [h])
theorem updCf_of_fixed {s : State} {n : Port} {f : CfSt → CfSt} (h : f (s.port n).cf = (s.port n).cf) : s.updCf n f = s :=
  updPort_of_fixed (f := fun p => { p with cf := f p.cf }) (by rw [h])
theorem updCt_of_fixed {s : State} {n : Port} {f : ContractSt → ContractSt} (h : f (s.port n).ct = (s.port n).ct) :
    s.updCt n f = s := updPort_of_fixed (f := fun p => { p with ct := f p.ct }) (by rw [h])
theorem updPw_of_fixed {s : State} {n : Port} {f : PowerSt → PowerSt} (h : f (s.port n).pw = (s.port n).pw) : s.updPw n f = s :=
  updPort_of_fixed (f := fun p => { p with pw := f p.pw }) (by rw [h])

section
variable {c : Instr} {s u : State} {n : Port} {p : PortSt} (hs : s.settled)
include hs

theorem idles_of_same (h : exec c s = done u) (hu : u = s) : idles c s := idles_of hs (hu ▸ h)

/-- A command that fires nothing and moves port n alone. -/
theorem setsPort_of_moves (h : exec c s = done u) (hu : u.evq = []) (hp : u.port n = p) (hm : Moves [.port n] s u) :
    setsPort c s n p :=
  answers_quiet h hu ⟨hp, hm.changesOnly hs.2 hu⟩

theorem setsPort_updPw {f : PowerSt → PowerSt} (h : exec c s = done (s.updPw n f)) :
    setsPort c s n { s.port n with pw := f (s.port n).pw } := setsPort_of _ hs h rfl
theorem setsPort_updCf {f : CfSt → CfSt} (h : exec c s = done (s.updCf n f)) :
    setsPort c s n { s.port n with cf := f (s.port n).cf } := setsPort_of _ hs h rfl
theorem setsPort_updLn {f : LineSt → LineSt} (h : exec c s = done (s.updLn n f)) :
    setsPort c s n { s.port n with ln := f (s.port n).ln } := setsPort_of _ hs h rfl
theorem setsPort_updCt {f : ContractSt → ContractSt} (h : exec c s = done (s.updCt n f)) :
    setsPort c s n { s.port n with ct := f (s.port n).ct } := setsPort_of _ hs h rfl
theorem setsPort_updSt {f : StageSt → StageSt} (h : exec c s = done (s.updSt n f)) :
    setsPort c s n { s.port n with st := f (s.port n).st } := setsPort_of _ hs h rfl
theorem setsPort_updWh {f : WheelSt → WheelSt} (h : exec c s = done (s.updWh n f)) :
    setsPort c s n { s.port n with wh := f (s.port n).wh } := setsPort_of _ hs h rfl
theorem setsPort_updMo {f : MoistSt → MoistSt} (h : exec c s = done (s.updMo n f)) :
    setsPort c s n { s.port n with mo := f (s.port n).mo } := setsPort_of _ hs h rfl

/-- A command that fires one event and moves port n alone. -/
theorem setsPortFires_of_moves {e arg : Nat} (h : exec c s = done u) (hu : u.evq = [(e, arg)]) (hp : u.port n = p)
    (hm : Moves [.port n, .events] s u) (hgood : memGood u.mem = true) (hh : u.host.loghead = s.host.loghead) :
    setsPortFires c s n p e arg :=
  answers_of h ⟨by rw [State.port_flush, hp], logs_flush hu hgood hh, hm.flush (by simp) hs.2 hgood⟩

/-! ## A register write is refused -/

/-- A refused write of a core sets REFUSED; the host's is a bus error (R307, R511). -/
theorem refusesWrite_of {w : Writer} {code : BitVec 4} (hc : code ≠ 9) (h : exec c s = done (s.refuseWrite w code)) :
    refusesWrite c s w code := by
  cases w with
  | core d =>
    have hq : (s.refuseWrite (.core d) code).evq = [] := hs.2
    refine answers_quiet h hq ⟨State.core_updCore_same _ _ _, ?_⟩
    exact changesOnly_updCore _ _ _ _ (by simp)
  | host =>
    intro hon
    have herr := hostError_of_busError (sent := s.host.sent) (nack := s.host.nack) hs h hc rfl rfl rfl (changesOnly_refl _ _) hon
    exact herr

/-- The refusal of a core's write, in the words of a statement about that core alone. -/
theorem answers_refused_core {d : Core} {code : BitVec 4} (h : exec c s = done (s.refuseWrite (.core d) code)) :
    answers c s fun t => t.core d = { s.core d with lsuFlag := (s.core d).lsuFlag ||| 1 } ∧ changesOnly [.core d] s t :=
  answers_quiet h hs.2 ⟨State.core_updCore_same _ _ _, changesOnly_updCore _ _ _ _ (by simp)⟩

end

/-! ## The feed selector -/

/-- A command that changes nothing but the feed selector. -/
theorem answers_fd {c : Instr} {s : State} {f : FeedSt} (hs : s.settled) (h : exec c s = done { s with fd := f }) :
    answers c s fun t => t.fd = f ∧ changesOnly [.fd] s t :=
  answers_quiet h hs.2 ⟨rfl, Moves.changesOnly (by simp) hs.2 hs.2⟩

end Sys2Proof.Machine
end

section
/-! O7: on-times and the peak latch (R193, R197, R202, R209 to R211). -/

namespace Sys2Proof.Machine

section
variable {s : State} {n : Port} (hs : s.settled)
include hs

/-- A trip outside the blanking ends the on-time of a stage that switches and sets its latch (R209). -/
theorem setsPort_peakTrip_converting (imp : Bool) (hc : (s.port n).st.mode.converting = true)
    (hb : (s.port n).ripe.blank ≤ s.cc - (s.port n).st.startCc) :
    setsPort (.peakTrip n imp) s n { s.port n with st := { (s.port n).st with
      pkLat := true, clrCc := none, pkTripCc := some s.cc, pk := ⟨true, true⟩, ended := true } } := by
  have hmode : (s.port n).st.mode ≠ .bypass := by rintro h; simp [h, StageMode.converting] at hc
  have h := setsPort_updSt hs (c := .peakTrip n imp) ((if_pos (by simp [hc])).trans (if_pos hb))
  simpa only [if_neg hmode] using h

/-- In BYPASS the trip also sets LIMIT, and the stage will leave BYPASS (R193). -/
theorem setsPort_peakTrip_bypass (imp : Bool) (hm : (s.port n).st.mode = .bypass)
    (hb : (s.port n).ripe.blank ≤ s.cc - (s.port n).st.startCc) :
    setsPort (.peakTrip n imp) s n { s.port n with st := { (s.port n).st with
      pkLat := true, clrCc := none, pkTripCc := some s.cc, pk := ⟨true, true⟩, ended := true, limit := true, limitSeen := true
      bypExit := some imp } } := by
  have h := setsPort_updSt hs (c := .peakTrip n imp) ((if_pos (by simp [hm])).trans (if_pos hb))
  simpa only [if_pos hm] using h

/-- During blanking the raw output alone shows the trip (R202). -/
theorem setsPort_peakTrip_blanked (imp : Bool) (hm : (s.port n).st.mode.converting = true ∨ (s.port n).st.mode = .bypass)
    (hb : s.cc - (s.port n).st.startCc < (s.port n).ripe.blank) :
    setsPort (.peakTrip n imp) s n { s.port n with st := { (s.port n).st with
      pk := ⟨(s.port n).st.pk.valid, (s.port n).st.pk.valid⟩ } } :=
  setsPort_updSt hs (c := .peakTrip n imp) ((if_pos (by simpa using hm)).trans (if_neg (Nat.not_le.mpr hb)))

theorem idles_peakTrip (imp : Bool) (hm : (s.port n).st.mode = .off ∨ (s.port n).st.mode = .startReg) :
    idles (.peakTrip n imp) s :=
  idles_of hs (by rcases hm with hm | hm <;> simp [exec, execPeakTrip, hm, StageMode.converting])

/-- DMAX ends an on-time that no trip has ended, and counts it (R202). -/
theorem setsPort_dmaxReached (ha : (s.port n).st.active = true) (he : (s.port n).st.ended = false)
    (hd : (s.port n).dmaxNow n ≤ s.cc - (s.port n).st.startCc) :
    setsPort (.dmaxReached n) s n { s.port n with st := { (s.port n).st with
      ended := true, dmaxCnt := satInc (s.port n).st.dmaxCnt } } :=
  setsPort_updSt hs (c := .dmaxReached n) (if_pos (by simp [ha, he, hd]))

theorem idles_dmaxReached (he : (s.port n).st.ended = true) : idles (.dmaxReached n) s :=
  idles_of hs (by simp [exec, execDmaxReached, he])

omit hs

/-- The engine that owns the port and the host may clear its latch (R211). -/
theorem exec_peakLatchClear {w : Writer} (hp : s.has n = true) (hw : w = .host ∨ w = .core (leOf n)) :
    exec (.peakLatchClear n w) s = done (pkClear n s) := by
  simp [exec, execPeakLatchClear, hp, hw]

include hs

theorem setsPort_peakLatchClear {w : Writer} (hp : s.has n = true) (hw : w = .host ∨ w = .core (leOf n))
    (ht : (s.port n).st.pkTripCc ≠ some s.cc) :
    setsPort (.peakLatchClear n w) s n { s.port n with st := { (s.port n).st with
      pkLat := (s.port n).st.latched s.cc, clrCc := some s.cc } } := by
  simpa only [if_neg ht] using setsPort_updSt hs (exec_peakLatchClear hp hw)

/-- A trip of the same cycle stands against the clear (R210). -/
theorem idles_peakLatchClear {w : Writer} (hp : s.has n = true) (hw : w = .host ∨ w = .core (leOf n))
    (ht : (s.port n).st.pkTripCc = some s.cc) : idles (.peakLatchClear n w) s :=
  idles_of_same hs (exec_peakLatchClear hp hw) (updSt_of_fixed (if_pos ht))

end

/-- A latch cleared in a cycle stands in it as it stood. -/
theorem latched_cleared_same (t : StageSt) (cc : Nat) :
    ({ t with pkLat := t.latched cc, clrCc := some cc } : StageSt).latched cc = t.latched cc := by
  simp [StageSt.latched]

/-- A latch cleared in a cycle is released from the next (R210). -/
theorem latched_cleared_later (t : StageSt) {cc later : Nat} (h : cc < later) :
    ({ t with pkLat := t.latched cc, clrCc := some cc } : StageSt).latched later = false := by
  simp [StageSt.latched, h]

/-- Settles O7: a trip by the stage's mode and its blanking, DMAX, and the clear of the latch by its writer. -/
theorem onTimesEndAndLatchesClear : Obligations.OnTimesEndAndLatchesClear := by
  refine ⟨fun s n imp hs => ⟨setsPort_peakTrip_converting hs imp, setsPort_peakTrip_bypass hs imp,
    setsPort_peakTrip_blanked hs imp, idles_peakTrip hs imp, setsPort_dmaxReached hs, idles_dmaxReached hs⟩,
    fun s n w hs hp => ⟨fun hw ht => ⟨setsPort_peakLatchClear hs hp hw ht, ?_, fun cc hcc => ?_⟩,
      idles_peakLatchClear hs hp, fun c hw hc => ?_⟩⟩
  · exact latched_cleared_same _ _
  · exact latched_cleared_later _ hcc
  · subst hw
    exact answers_refused_core hs (code := 2) (by simp [exec, execPeakLatchClear, hc])

end Sys2Proof.Machine
end

section
/-! Wait sources of the cores (R288, R289, R371): a source that fires is pending, one that is pending stays so, and the wait lines
bound to an event fire with it. -/

namespace Sys2Proof.Machine

/-! ## Pending bits -/

theorem bitOf_setFld_one (w : Word) (b i : Nat) : bitOf (setFld w b b 1) i = (bitOf w i || decide (i = b ∧ b < 32)) := by
  have hmask : (BitVec.ofNat 32 (1 <<< b)).getLsbD i = decide (i = b ∧ b < 32) := by
    rw [BitVec.getLsbD_ofNat, Nat.one_shiftLeft, Nat.testBit_two_pow]
    by_cases hi : i = b
    · simp [hi]
    · simp [hi, Ne.symm hi]
  simp only [bitOf, setFld, Nat.sub_self, Nat.zero_add, pow_one, Nat.add_one_sub_one, BitVec.getLsbD_or, BitVec.getLsbD_and,
    BitVec.getLsbD_not, hmask, Bool.and_self]
  by_cases hi : i = b ∧ b < 32
  · simp [hi]
  · by_cases hw : i < 32
    · simp [hi, hw]
    · simp [hi, hw, BitVec.getLsbD_of_ge w i (by omega)]

theorem bitOf_setFld_same (w : Word) {b : Nat} (h : b < 32) : bitOf (setFld w b b 1) b = true := by
  simp [bitOf_setFld_one, h]

theorem bitOf_setFld_mono {w : Word} (b : Nat) {i : Nat} (h : bitOf w i = true) : bitOf (setFld w b b 1) i = true := by
  simp [bitOf_setFld_one, h]

/-! ## A source fires (R289) -/

theorem evtPend_fireSrc_same (s : State) (c : Core) {b : Nat} (h : b < 32) :
    bitOf ((s.fireSrc c b).core c).evtPend b = true := by
  rw [State.fireSrc, State.core_updCore_same]
  exact bitOf_setFld_same _ h

theorem evtPend_fireSrc_mono {s : State} {d : Core} {i : Nat} (c : Core) (b : Nat)
    (h : bitOf (s.core d).evtPend i = true) : bitOf ((s.fireSrc c b).core d).evtPend i = true := by
  by_cases hd : d = c
  · subst hd
    rw [State.fireSrc, State.core_updCore_same]
    exact bitOf_setFld_mono b h
  · rwa [State.fireSrc, State.core_updCore_ne _ _ _ _ hd]

/-! ## Bound wait lines (R371) -/

/-- Wait line i of the 56, if it is bound to the event. -/
def fireLine (ch evt : Nat) (tbind : Vector Word 56) (t : State) (i : Nat) : State :=
  if fld (tbind[i % 56]'(by omega)) 2 0 = evt ∧ fld (tbind[i % 56]'(by omega)) 15 8 = ch ∧ evt ≠ 0 then
    t.fireSrc ⟨(i / 8) % 7, by omega⟩ (tmrBit ⟨(i / 8) % 7, by omega⟩ (i % 8))
  else t

theorem fireBound_eq (ch evt : Nat) (s : State) : fireBound ch evt s = (List.range 56).foldl (fireLine ch evt s.tim.tbind) s := rfl

@[simp] theorem fireBound_evq (ch evt : Nat) (s : State) : (fireBound ch evt s).evq = s.evq :=
  foldl_get State.evq (fireLine ch evt s.tim.tbind) (fun t i => by unfold fireLine; split <;> rfl) _ s

@[simp] theorem port_fireBound (ch evt : Nat) (s : State) (n : Port) : (fireBound ch evt s).port n = s.port n :=
  same_ports _ _ (fireBound_frame ch evt s).2.2.1 n

theorem evtPend_fireLine_mono {t : State} {d : Core} {b : Nat} (ch evt : Nat) (tb : Vector Word 56) (i : Nat)
    (h : bitOf (t.core d).evtPend b = true) : bitOf ((fireLine ch evt tb t i).core d).evtPend b = true := by
  unfold fireLine
  split
  · exact evtPend_fireSrc_mono _ _ h
  · exact h

theorem evtPend_foldl_fireLine {t : State} {d : Core} {b : Nat} (ch evt : Nat) (tb : Vector Word 56) (l : List Nat)
    (h : bitOf (t.core d).evtPend b = true) : bitOf ((l.foldl (fireLine ch evt tb) t).core d).evtPend b = true := by
  induction l generalizing t with
  | nil => exact h
  | cons i l ih => exact ih (evtPend_fireLine_mono ch evt tb i h)

/-- A source that is pending stays so. -/
theorem evtPend_fireBound_mono {s : State} {d : Core} {b : Nat} (ch evt : Nat) (h : bitOf (s.core d).evtPend b = true) :
    bitOf ((fireBound ch evt s).core d).evtPend b = true := evtPend_foldl_fireLine ch evt _ _ h

theorem tmrBit_lt (c : Core) (j : Nat) : tmrBit c (j % 8) < 32 := by
  unfold tmrBit
  split <;> omega

/-- The lines bound to the event are pending. -/
theorem evtPend_fireBound_bound {s : State} {ch evt : Nat} (he : evt ≠ 0) (i : Fin 56) (hevt : fld s.tim.tbind[i] 2 0 = evt)
    (hch : fld s.tim.tbind[i] 15 8 = ch) :
    bitOf ((fireBound ch evt s).core ⟨(i.val / 8) % 7, by omega⟩).evtPend (tmrBit ⟨(i.val / 8) % 7, by omega⟩ (i.val % 8)) = true := by
  obtain ⟨before, after, hsplit⟩ := List.append_of_mem (List.mem_range.mpr i.isLt)
  rw [fireBound_eq, hsplit, List.foldl_append, List.foldl_cons]
  refine evtPend_foldl_fireLine _ _ _ _ ?_
  have hi : i.val % 56 = i.val := Nat.mod_eq_of_lt i.isLt
  have hline : fld (s.tim.tbind[i.val % 56]'(by omega)) 2 0 = evt ∧ fld (s.tim.tbind[i.val % 56]'(by omega)) 15 8 = ch ∧ evt ≠ 0 := by
    simp only [hi]
    exact ⟨hevt, hch, he⟩
  rw [fireLine, if_pos hline]
  exact evtPend_fireSrc_same _ _ (tmrBit_lt _ _)

@[simp] theorem moves_fireBound {l : List Area} {s t : State} (h : Area.events ∈ l ∨ Area.sources ∈ l) (ch evt : Nat) :
    Moves l s (fireBound ch evt t) ↔ Moves l s t := by
  refine Moves.iff_right (Moves.foldl (fun u i => ?_) _ t)
  show Moves l u (fireLine ch evt t.tim.tbind u i)
  unfold fireLine
  split
  · simp [h]
  · exact Moves.refl l u

end Sys2Proof.Machine
end

section
/-! O8: what a period start takes over (R193 to R195, R201, R207, R209, R368; log entries 19, 20 and 105). -/

namespace Sys2Proof.Machine

theorem State.at_eq {s : State} {t : Nat} (h : s.cc ≤ t) : s.at t = { s with cc := t } := by
  unfold State.at
  split
  · rfl
  · next hlt => rw [show t = s.cc by omega]

/-- The stage after a period start in cc c, in mode m, with the void BYPASS write noted or not. -/
def PortSt.periodStarted (p : PortSt) (c : Nat) (m : StageMode) (void : Bool) : StageSt :=
  let hold := p.ripe.latchHold
  { p.st with
    limit := p.st.limitSeen || decide (p.clamp c ≤ (p.st.codeAt c).toNat), limitSeen := false
    pkLat := hold && p.st.latched c
    mode := m, bypRef := p.st.bypRef || void, bypExit := none
    pendMode := if p.st.lateMode c then p.st.pendMode else none, prevMode := none
    pk := { p.st.pk with out := false }, hsCmp := { p.st.hsCmp with out := false }
    active := m.converting && !(hold && (p.st.latched c || decide (p.st.clrCc = some c))), ended := false
    dmaxRun := p.st.dmaxPend.getD p.st.dmaxRun, dmaxPend := none
    periods := p.st.periods + 1, startCc := c }

/-- The timers after a period start of port n: W0 is measured while the hub is locked to SYNC_IN (R368). -/
def periodTim (s : State) (n : Port) (c : Nat) : TimerSt :=
  if n = 0 ∧ s.tim.lock = true ∧ c - (s.port n).st.startCc ≠ 150 then { s.tim with corrcnt := satInc s.tim.corrcnt } else s.tim

/-- The state a period start computes, before the lines bound to it fire. -/
def periodState (s : State) (n : Port) (c : Nat) (m : StageMode × Bool) : State :=
  { s with cc := c, tim := periodTim s n c }.updSt n fun _ => (s.port n).periodStarted c m.1 m.2

section
variable {s : State} {n : Port} {mv c : Nat} (hs : s.settled) (hp : s.has n = true) (hold : s.dev.hold = .none)
  (hawake : s.dev.asleep = false) (hc : s.cc ≤ c) (hforce : (s.port n).st.force = [])
include hp hold hawake hc hforce

/-- A period start of a port that nothing forces off. -/
theorem exec_periodStart : exec (.periodStart n mv c) s =
    done (fireBound n.val 1 ((periodState s n c (modeAtStart (s.port n).st c mv (s.mayBypass n))).fireSrc (leOf n) (8 + leLocal n))) := by
  have hcond : (({ s with cc := c } : State).has n && decide (({ s with cc := c } : State).dev.hold = .none)
      && !({ s with cc := c } : State).dev.asleep) = true := by
    rw [show ({ s with cc := c } : State).has n = true from hp]
    simp [hold, hawake]
  show execPeriodStart n mv c s = _
  unfold execPeriodStart
  rw [State.at_eq hc]
  refine (if_pos hcond).trans ?_
  have hfree : ∀ held, ((({ s with cc := c } : State).port n).st.force.isEmpty || held) = true := by
    intro held
    rw [show (({ s with cc := c } : State).port n).st.force = [] from hforce]
    rfl
  simp only [hfree, if_true]
  unfold periodState periodTim
  by_cases hlock : n = 0 ∧ s.tim.lock = true ∧ c - (s.port n).st.startCc ≠ 150
  · rw [if_pos hlock]
    exact congrArg done (congrArg (fun u : State => fireBound n.val 1 (u.fireSrc (leOf n) (8 + leLocal n))) (if_pos hlock))
  · rw [if_neg hlock]
    exact congrArg done (congrArg (fun u : State => fireBound n.val 1 (u.fireSrc (leOf n) (8 + leLocal n))) (if_neg hlock))

/-- A period start leaves the clock at its cc, the port's stage started, the period measured and PERk pending; the lines bound to
it fire, and nothing else changes. -/
theorem answers_periodStart {P : State → Prop} {m : StageMode × Bool} (hs : s.settled)
    (hm : modeAtStart (s.port n).st c mv (s.mayBypass n) = m)
    (hP : ∀ t, t.cc = c → t.port n = { s.port n with st := (s.port n).periodStarted c m.1 m.2 }
      → bitOf (t.core (leOf n)).evtPend (8 + leLocal n) = true → t.tim = periodTim s n c
      → changesOnly [.clock, .port n, .tim, .events] s t → P t) : answers (.periodStart n mv c) s P := by
  subst hm
  refine answers_quiet (exec_periodStart hp hold hawake hc hforce) (by simp [periodState, hs.2]) (hP _ ?_ ?_ ?_ ?_ ?_)
  · simp [periodState]
  · simp [periodState, State.updSt]
  · exact evtPend_fireBound_mono _ _ (evtPend_fireSrc_same _ _ (by unfold leLocal; omega))
  · simp [periodState]
  · refine Moves.changesOnly ?_ hs.2 (by simp [periodState, hs.2])
    have hparts : Moves [.clock, .port n, .tim, .events] s { s with cc := c, tim := periodTim s n c } :=
      ((moves_cc (by simp) c).mpr (Moves.refl _ s)).trans ((moves_tim (by simp) _).mpr (Moves.refl _ _))
    simp [periodState, hparts]

end

theorem dueMode_of_early {t : StageSt} {c : Nat} (h : t.pendCc ≠ c) : t.dueMode c = t.pendMode := by
  simp [StageSt.dueMode, StageSt.lateMode, h]

theorem dueMode_of_late {t : StageSt} {c : Nat} {m : StageMode} (hm : t.pendMode = some m) (h : t.pendCc = c) :
    t.dueMode c = t.prevMode := by
  simp [StageSt.dueMode, StageSt.lateMode, h, hm]

theorem modeAtStart_none {t : StageSt} {c mv : Nat} {may : Bool} (h : t.dueMode c = none) (hx : t.bypExit = none) :
    modeAtStart t c mv may = (t.mode, false) := by
  simp [modeAtStart, h, hx]

theorem modeAtStart_some {t : StageSt} {c mv : Nat} {may : Bool} {m : StageMode} (h : t.dueMode c = some m) (hm : m ≠ .bypass) :
    modeAtStart t c mv may = (m, false) := by
  simp [modeAtStart, h, hm]

theorem modeAtStart_bypass {t : StageSt} {c mv : Nat} {may : Bool} (h : t.dueMode c = some .bypass) (hx : t.bypExit = none) :
    modeAtStart t c mv may = if may = true ∧ mv < 1000 then (.bypass, false) else (t.mode, true) := by
  simp [modeAtStart, h, hx]

/-- Settles O8: the state a period start computes, by the mode write it meets. -/
theorem periodStartsApplyWhatWaits : Obligations.PeriodStartsApplyWhatWaits := by
  refine ⟨?steady, ?written⟩
  case steady =>
    intro s n mv c hs hp hold hawake hc
    dsimp only
    intro hforce hpend hexit hconv
    have hdue : (s.port n).st.dueMode c = none := by simp [StageSt.dueMode, StageSt.lateMode, hpend]
    refine answers_periodStart hp hold hawake hc hforce hs (modeAtStart_none hdue hexit)
      fun t hcc hport hpnd htim hch => ⟨hcc, ?_, hpnd, htim, hch⟩
    rw [hport]
    simp [PortSt.periodStarted, hpend, hexit, hconv]
  case written =>
    intro s n mv c m hs hp hold hawake hc
    dsimp only
    intro hforce hpend hexit
    refine ⟨fun hearly => ?_, fun hlate => ?_⟩
    · have hdue := (dueMode_of_early hearly).trans hpend
      by_cases hm : m = .bypass
      · subst hm
        refine answers_periodStart hp hold hawake hc hforce hs (modeAtStart_bypass hdue hexit) fun t _ hport _ _ _ => ?_
        rw [hport]
        refine ⟨by simp [PortSt.periodStarted, StageSt.lateMode, hearly], fun h => absurd rfl h, fun _ hmv hmay => ?_, fun _ hno => ?_⟩
        · rw [if_pos ⟨hmay, hmv⟩]
          rfl
        · rw [if_neg (by rcases hno with h | h <;> simp [h])]
          exact ⟨rfl, Bool.or_true _⟩
      · refine answers_periodStart hp hold hawake hc hforce hs (modeAtStart_some hdue hm) fun t _ hport _ _ _ => ?_
        rw [hport]
        exact ⟨by simp [PortSt.periodStarted, StageSt.lateMode, hearly], fun _ => rfl, fun h => absurd h hm, fun h => absurd h hm⟩
    · have hdue := dueMode_of_late hpend hlate
      have hwaits (k : StageMode × Bool) : ((s.port n).periodStarted c k.1 k.2).pendMode = some m := by
        simp [PortSt.periodStarted, StageSt.lateMode, hlate, hpend]
      refine answers_periodStart hp hold hawake hc hforce hs rfl fun t _ hport _ _ _ => ?_
      rw [hport]
      refine ⟨hwaits _, fun m1 h1 hm1 => ?_, fun h1 => ?_⟩
      · rw [modeAtStart_some (hdue.trans h1) hm1]
        rfl
      · rw [modeAtStart_none (hdue.trans h1) hexit]
        rfl

end Sys2Proof.Machine
end

section
/-! O9: sample triggers, samples and sample sets (R308, R309, R329 to R335). -/

namespace Sys2Proof.Machine

/-- An element that is written reads back from the list of a vector. -/
theorem getD_set_same {α : Type} {k : Nat} (v : Vector α k) {i j : Nat} (hi : i < k) (hj : j = i) (x d : α) :
    (v.set i x hi).toList.getD j d = x := by
  subst hj
  simp [List.getD, hi]

theorem getD_set_ne {α : Type} {k : Nat} (v : Vector α k) {i j : Nat} (hi : i < k) (hj : j ≠ i) (x d : α) :
    (v.set i x hi).toList.getD j d = v.toList.getD j d := by
  simp [List.getD, Ne.symm hj]

theorem leLocal_lt (n : Port) : leLocal n < 4 := by unfold leLocal; omega

/-! ## Slots (R308) -/

@[simp] theorem port_putSlot (c : Core) (m : Nat) (code : BitVec 12) (s : State) (n : Port) : (putSlot c m code s).port n = s.port n := rfl
@[simp] theorem putSlot_evq (c : Core) (m : Nat) (code : BitVec 12) (s : State) : (putSlot c m code s).evq = s.evq := rfl

theorem adcr_putSlot_same (c : Core) {m : Nat} (hm : m < 32) (code : BitVec 12) (s : State) :
    ((putSlot c m code s).core c).adcr.toList.getD m 0 = code := by
  rw [putSlot, State.core_updCore_same]
  exact getD_set_same _ (by omega) (Nat.mod_eq_of_lt hm).symm _ _

theorem adcr_putSlot_ne (c : Core) {m i : Nat} (hm : m < 32) (hi : i ≠ m) (code : BitVec 12) (s : State) :
    ((putSlot c m code s).core c).adcr.toList.getD i 0 = (s.core c).adcr.toList.getD i 0 := by
  rw [putSlot, State.core_updCore_same]
  exact getD_set_ne _ (by omega) (by rwa [Nat.mod_eq_of_lt hm]) _ _

@[simp] theorem adcr_fireSrc (s : State) (c d : Core) (b : Nat) : ((s.fireSrc c b).core d).adcr = (s.core d).adcr := by
  by_cases h : d = c
  · subst h; simp [State.fireSrc, CoreSt.noteFired]
  · simp [State.fireSrc, h]

section
variable {l : List Area} {s t : State} {c : Core} (h : Area.core c ∈ l)
include h

@[simp] theorem moves_putSlot (m : Nat) (code : BitVec 12) : Moves l s (putSlot c m code t) ↔ Moves l s t :=
  moves_updCore (.inl h) _

end

/-- Slot j of a set, where the set takes it. -/
def putOfSet (slots : BitVec 8) (n : Port) (j : Nat) (v : BitVec 12) (s : State) : State :=
  if bitOf slots j then putSlot (leOf n) (8 * leLocal n + j) v s else s

section
variable (slots : BitVec 8) (n : Port) (j : Nat) (v : BitVec 12) (s : State)

@[simp] theorem port_putOfSet (m : Port) : (putOfSet slots n j v s).port m = s.port m := by unfold putOfSet; split <;> rfl
@[simp] theorem putOfSet_evq : (putOfSet slots n j v s).evq = s.evq := by unfold putOfSet; split <;> rfl

theorem moves_putOfSet {l : List Area} (h : Area.core (leOf n) ∈ l) : Moves l s (putOfSet slots n j v s) := by
  unfold putOfSet
  exact moves_ite ((moves_putSlot h _ _).mpr (Moves.refl l s)) (Moves.refl l s)

variable {slots j}

theorem adcr_putOfSet_same (hj : j < 8) (hb : bitOf slots j = true) :
    ((putOfSet slots n j v s).core (leOf n)).adcr.toList.getD (8 * leLocal n + j) 0 = v := by
  rw [putOfSet, if_pos hb]
  exact adcr_putSlot_same _ (by have := leLocal_lt n; omega) _ _

theorem adcr_putOfSet_ne {i : Nat} (hj : j < 8) (hi : i ≠ j) :
    ((putOfSet slots n j v s).core (leOf n)).adcr.toList.getD (8 * leLocal n + i) 0
      = (s.core (leOf n)).adcr.toList.getD (8 * leLocal n + i) 0 := by
  unfold putOfSet
  split
  · exact adcr_putSlot_ne _ (by have := leLocal_lt n; omega) (by omega) _ _
  · rfl

end

/-! ## The three commands -/

section
variable {s : State} {n : Port} (hs : s.settled) (hp : s.has n = true)
include hs hp

theorem answers_sampleTrigger {c : Nat} (hc : s.cc ≤ c) : answers (.sampleTrigger n c) s fun t =>
    (t.core (leOf n)).adcrStamp.toList.getD (leLocal n) 0 = BitVec.ofNat 32 (c - (s.core (leOf n)).startCc) ∧ t.cc = c
    ∧ t.port n = { s.port n with st := { (s.port n).st with
        setDue := if setTaken n (s.port n) = true then (s.port n).st.setDue ++ [(s.port n).ripe.adcset.setWidth 8]
          else (s.port n).st.setDue } }
    ∧ changesOnly [.clock, .port n, .core (leOf n)] s t := by
  have hexec : exec (.sampleTrigger n c) s = done ((({ s with cc := c } : State).updCore (leOf n) fun k =>
      { k with adcrStamp := k.adcrStamp.set (leLocal n % 4) (k.cyc c) (by omega) }).updSt n fun t =>
      { t with setDue := if setTaken n (s.port n) then t.setDue ++ [(s.port n).ripe.adcset.setWidth 8] else t.setDue }) := by
    show execSampleTrigger n c s = _
    rw [execSampleTrigger, State.at_eq hc]
    exact if_pos hp
  refine answers_quiet hexec (by simp [hs.2]) ⟨?_, rfl, by simp [State.updSt], ?_⟩
  · rw [State.core_updSt, State.core_updCore_same]
    exact getD_set_same _ (by omega) (Nat.mod_eq_of_lt (leLocal_lt n)).symm _ _
  · exact Moves.changesOnly (by simp) hs.2 (by simp [hs.2])

theorem answers_sampleReady (code : BitVec 12) : answers (.sampleReady n code) s fun t =>
    (t.core (leOf n)).adcr.toList.getD (8 * leLocal n) 0 = code
    ∧ bitOf (t.core (leOf n)).evtPend (leLocal n) = true
    ∧ t.port n = { s.port n with st := { (s.port n).st with
        smpOvf := if bitOf (s.core (leOf n)).evtPend (leLocal n) then satInc (s.port n).st.smpOvf else (s.port n).st.smpOvf } }
    ∧ changesOnly [.port n, .core (leOf n)] s t := by
  have hlt := leLocal_lt n
  have hexec : exec (.sampleReady n code) s = done
      (((putSlot (leOf n) (8 * leLocal n) code s).updSt n fun t =>
        { t with smpOvf := if bitOf (s.core (leOf n)).evtPend (leLocal n) then satInc t.smpOvf else t.smpOvf }).fireSrc
        (leOf n) (leLocal n)) := by
    refine (if_pos hp : execSampleReady n code s = _).trans (congrArg (fun u : State => done (u.fireSrc (leOf n) (leLocal n))) ?_)
    split
    · rfl
    · exact (updSt_of_fixed rfl).symm
  refine answers_quiet hexec (by simp [hs.2]) ⟨?_, evtPend_fireSrc_same _ _ (by omega), by simp [State.updSt], ?_⟩
  · rw [adcr_fireSrc, State.core_updSt]
    exact adcr_putSlot_same _ (by omega) _ _
  · exact Moves.changesOnly ((moves_fireSrc_core (.inl (by simp)) _).mpr (by simp)) hs.2 (by simp [hs.2])

theorem answers_setReady {slots : BitVec 8} {rest : List (BitVec 8)} (v1 v2 v3 : BitVec 12) (lag : Nat)
    (hdue : (s.port n).st.setDue = slots :: rest) : answers (.setReady n v1 v2 v3 lag) s fun t =>
    (bitOf slots 1 = true → (t.core (leOf n)).adcr.toList.getD (8 * leLocal n + 1) 0 = v1)
    ∧ (bitOf slots 2 = true → (t.core (leOf n)).adcr.toList.getD (8 * leLocal n + 2) 0 = v2)
    ∧ (bitOf slots 3 = true → (t.core (leOf n)).adcr.toList.getD (8 * leLocal n + 3) 0 = v3)
    ∧ bitOf (t.core (leOf n)).evtPend (4 + leLocal n) = true
    ∧ (t.port n).st.setDue = rest ∧ (t.port n).st.setCnt = (s.port n).st.setCnt + 1
    ∧ changesOnly [.port n, .core (leOf n)] s t := by
  have hlt := leLocal_lt n
  have hexec : exec (.setReady n v1 v2 v3 lag) s = done
      (((putOfSet slots n 3 v3 (putOfSet slots n 2 v2 (putOfSet slots n 1 v1 s))).updSt n fun t =>
        { t with setDue := rest, setCnt := t.setCnt + 1
                 lagMax := if t.lagMax.toNat < min lag (if isW n then 150 else 0) then
                   BitVec.ofNat 8 (min lag (if isW n then 150 else 0)) else t.lagMax }).fireSrc (leOf n) (4 + leLocal n)) := by
    show execSetReady n v1 v2 v3 lag s = _
    rw [execSetReady, hdue]
    exact if_pos hp
  refine answers_quiet hexec (by simp [hs.2])
    ⟨fun hb => ?_, fun hb => ?_, fun hb => ?_, evtPend_fireSrc_same _ _ (by omega), by simp, by simp, ?_⟩
  · rw [adcr_fireSrc, State.core_updSt, adcr_putOfSet_ne _ _ _ (by omega) (by omega), adcr_putOfSet_ne _ _ _ (by omega) (by omega)]
    exact adcr_putOfSet_same _ _ _ (by omega) hb
  · rw [adcr_fireSrc, State.core_updSt, adcr_putOfSet_ne _ _ _ (by omega) (by omega)]
    exact adcr_putOfSet_same _ _ _ (by omega) hb
  · rw [adcr_fireSrc, State.core_updSt]
    exact adcr_putOfSet_same _ _ _ (by omega) hb
  · refine Moves.changesOnly ((moves_fireSrc_core (.inl (by simp)) _).mpr ((moves_updSt (.inl (by simp)) _).mpr ?_)) hs.2
      (by simp [hs.2])
    exact ((moves_putOfSet _ _ _ _ _ (by simp)).trans (moves_putOfSet _ _ _ _ _ (by simp))).trans
      (moves_putOfSet _ _ _ _ _ (by simp))

end

/-- Settles O9: the trigger stamps, a sample and a set reach their slots, and their sources are pending. -/
theorem samplesReachTheirSlots : Obligations.SamplesReachTheirSlots := fun _ _ code v1 v2 v3 _ lag hs hp =>
  ⟨answers_sampleTrigger hs hp, answers_sampleReady hs hp code, fun _ _ => answers_setReady hs hp v1 v2 v3 lag⟩

end Sys2Proof.Machine
end

section
/-! Rules about the shared power operations (Machine/Power.lean): what each does to the port it is called for, where its case is
known, what it fires, and that it moves nothing but that port and the events. -/

namespace Sys2Proof.Machine

/-! ## What is known of the device and the feed -/

theorem eventsOn_congr {s u : State} (h : u.dev = s.dev) : u.eventsOn = s.eventsOn := by unfold State.eventsOn; rw [h]

theorem has_congr {s u : State} (hd : u.dev = s.dev) (ht : u.stone = s.stone) (n : Port) : u.has n = s.has n := by
  unfold State.has State.variant; rw [hd, ht]

section
variable (s : State) (n m : Port) (f : PortSt → PortSt)

@[simp] theorem eventsOn_updPort : (s.updPort n f).eventsOn = s.eventsOn := rfl
@[simp] theorem eventsOn_updPw (g : PowerSt → PowerSt) : (s.updPw n g).eventsOn = s.eventsOn := rfl
@[simp] theorem eventsOn_updCf (g : CfSt → CfSt) : (s.updCf n g).eventsOn = s.eventsOn := rfl
@[simp] theorem eventsOn_updLn (g : LineSt → LineSt) : (s.updLn n g).eventsOn = s.eventsOn := rfl
@[simp] theorem eventsOn_updCt (g : ContractSt → ContractSt) : (s.updCt n g).eventsOn = s.eventsOn := rfl
@[simp] theorem eventsOn_updSt (g : StageSt → StageSt) : (s.updSt n g).eventsOn = s.eventsOn := rfl
@[simp] theorem eventsOn_updWh (g : WheelSt → WheelSt) : (s.updWh n g).eventsOn = s.eventsOn := rfl
@[simp] theorem eventsOn_updMo (g : MoistSt → MoistSt) : (s.updMo n g).eventsOn = s.eventsOn := rfl
@[simp] theorem eventsOn_fireSrc (c : Core) (b : Nat) : (s.fireSrc c b).eventsOn = s.eventsOn := rfl
@[simp] theorem eventsOn_fire (e a : Nat) : (s.fire e a).eventsOn = s.eventsOn := eventsOn_congr (by simp)
@[simp] theorem eventsOn_firePort (k a : Nat) : (s.firePort n k a).eventsOn = s.eventsOn := eventsOn_congr (by simp)

@[simp] theorem has_updPort : (s.updPort n f).has m = s.has m := rfl
@[simp] theorem has_updPw (g : PowerSt → PowerSt) : (s.updPw n g).has m = s.has m := rfl
@[simp] theorem has_updCf (g : CfSt → CfSt) : (s.updCf n g).has m = s.has m := rfl
@[simp] theorem has_updLn (g : LineSt → LineSt) : (s.updLn n g).has m = s.has m := rfl
@[simp] theorem has_updCt (g : ContractSt → ContractSt) : (s.updCt n g).has m = s.has m := rfl
@[simp] theorem has_updSt (g : StageSt → StageSt) : (s.updSt n g).has m = s.has m := rfl
@[simp] theorem has_updWh (g : WheelSt → WheelSt) : (s.updWh n g).has m = s.has m := rfl
@[simp] theorem has_updMo (g : MoistSt → MoistSt) : (s.updMo n g).has m = s.has m := rfl
@[simp] theorem has_fireSrc (c : Core) (b : Nat) : (s.fireSrc c b).has m = s.has m := rfl
@[simp] theorem has_fire (e a : Nat) : (s.fire e a).has m = s.has m := has_congr (by simp) (by simp) m
@[simp] theorem has_firePort (k a : Nat) : (s.firePort n k a).has m = s.has m := has_congr (by simp) (by simp) m

end

theorem isFeed_congr {s u : State} (h : u.fd = s.fd) (n : Port) : u.isFeed n = s.isFeed n := by unfold State.isFeed; rw [h]

/-! ## Events of a port -/

/-- FAULT and PGOOD fire on every port the hub has, B included (R11). -/
theorem firePort_evq_power {s : State} {n : Port} {k : Nat} (arg : Nat) (hk : k = 2 ∨ k = 3) (hon : s.eventsOn = true)
    (hp : s.has n = true) : (s.firePort n k arg).evq = s.evq ++ [(8 * n.val + k, arg)] := by
  rcases hk with rfl | rfl <;> simp [State.firePort, hon, hp]

theorem fault_evq {s : State} {n : Port} (cause : BitVec 4) (hon : s.eventsOn = true) (hp : s.has n = true) :
    (fault n cause s).evq = s.evq ++ [(8 * n.val + 2, cause.toNat)] := by
  unfold fault
  rw [firePort_evq_power _ (.inl rfl) (by simpa using hon) (by simpa using hp)]
  rfl

@[simp] theorem port_fault (n m : Port) (cause : BitVec 4) (s : State) :
    (fault n cause s).port m = (s.updPw n fun p => { p with cause := cause }).port m := by simp [fault]

/-! ## Power-good, burst windows and force-off -/

theorem dropPg_of_low {s : State} {n : Port} (h : (s.port n).pw.pg = false) : dropPg n s = s := by simp [dropPg, h]

theorem forcedClose_of_closed {s : State} {n : Port} (h : (s.port n).wh.burstOpen = false) : forcedClose n s = s := by
  simp [forcedClose, h]

/-- The stage with a force-off source asserted (R200). -/
def StageSt.forcedOff (t : StageSt) (x : ForceSource) : StageSt :=
  { t with force := addForce x t.force, mode := .off, pendMode := none, prevMode := none, bypExit := none, bypBack := false
           active := false }

theorem forceOff_of_closed {s : State} {n : Port} (x : ForceSource) (h : (s.port n).wh.burstOpen = false) :
    forceOff x n s = (s.updSt n fun t => t.forcedOff x).fireSrc (leOf n) (12 + leLocal n) := by
  unfold forceOff
  rw [forcedClose_of_closed (by simpa using h)]
  rfl

@[simp] theorem closeWindow_evq (n : Port) (s : State) : (closeWindow n s).evq = s.evq := by
  unfold closeWindow; dsimp only; split <;> rfl

@[simp] theorem forcedClose_evq (n : Port) (s : State) : (forcedClose n s).evq = s.evq := by
  unfold forcedClose; split <;> simp

@[simp] theorem forceOff_evq (x : ForceSource) (n : Port) (s : State) : (forceOff x n s).evq = s.evq := by
  unfold forceOff; simp

theorem liftForce_of_absent {s : State} {n : Port} {xs : List ForceSource} (h : ∀ x ∈ xs, x ∉ (s.port n).st.force) :
    liftForce xs n s = s := by
  refine updSt_of_fixed (f := fun t => { t with force := t.force.filter fun y => !xs.contains y }) ?_
  have : (s.port n).st.force.filter (fun y => !xs.contains y) = (s.port n).st.force :=
    List.filter_eq_self.mpr fun y hy => by simpa using fun hx => h y hx hy
  rw [this]

/-! ## Switches -/

/-- With no port waiting none begins its pre-charge. -/
theorem promoteWaiting_of_noneWaits {s : State} (h : s.noneWaits) : promoteWaiting s = s := by
  have hno (n : Port) : mayPrecharge s n = false := by simp [mayPrecharge, h n]
  unfold promoteWaiting
  generalize allPorts = l
  induction l with
  | nil => rfl
  | cons n l ih => rw [List.foldl_cons, hno, if_neg (by decide)]; exact ih

theorem openSwitch_of_open {s : State} {n : Port} (next : SwState)
    (h : (s.port n).pw.sw ≠ .wait ∧ (s.port n).pw.sw ≠ .prechg ∧ (s.port n).pw.sw ≠ .ramp ∧ (s.port n).pw.sw ≠ .on) :
    openSwitch next n s = s := by
  obtain ⟨hwait, hprechg, hramp, hon⟩ := h
  simp [openSwitch, hwait, hprechg, hramp, hon]

/-! ## The feed -/

theorem feedSeek_of_fed {s : State} (h : s.fd.feed ≠ .none) : feedSeek s = s := by simp [feedSeek, h]

theorem feedReview_of_fed {s : State} (h : s.fd.feed ≠ .none) (hp : s.fd.pre = false) : feedReview s = s := by
  simp [feedReview, hp, feedSeek_of_fed h]

/-! ## What these operations move -/

section
variable {l : List Area} {s t : State} {n : Port} (hn : Area.port n ∈ l ∨ Area.anyPort ∈ l)
include hn

@[simp] theorem moves_liftForce (xs : List ForceSource) : Moves l s (liftForce xs n t) ↔ Moves l s t := moves_updSt hn _

@[simp] theorem moves_closeWindow : Moves l s (closeWindow n t) ↔ Moves l s t := by
  unfold closeWindow; dsimp only; split <;> simp [hn]

@[simp] theorem moves_forcedClose : Moves l s (forcedClose n t) ↔ Moves l s t := by
  unfold forcedClose; split <;> simp [hn]

@[simp] theorem moves_resumeDetach : Moves l s (resumeDetach n t) ↔ Moves l s t := by
  unfold resumeDetach; split <;> simp [hn]

variable (he : Area.events ∈ l ∨ Area.sources ∈ l)
include he

@[simp] theorem moves_forceOff (x : ForceSource) : Moves l s (forceOff x n t) ↔ Moves l s t := by
  unfold forceOff; simp [hn, he]

@[simp] theorem moves_dropPg : Moves l s (dropPg n t) ↔ Moves l s t := by
  unfold dropPg; split <;> simp [hn, he]

@[simp] theorem moves_fault (cause : BitVec 4) : Moves l s (fault n cause t) ↔ Moves l s t := by
  unfold fault; simp [hn, he]

@[simp] theorem moves_setContract (st : CtrState) (v : BitVec 11) (i : BitVec 9) (src : Bool) :
    Moves l s (setContract n st v i src t) ↔ Moves l s t := by
  unfold setContract; dsimp only; split <;> simp [hn, he]

end

end Sys2Proof.Machine
end

section
/-! O10: comparators follow their inputs (R203 to R206, R219 to R221, R407, R415). -/

namespace Sys2Proof.Machine

/-! ## OV and UV -/

section
variable {s : State} {n : Port} (hs : s.settled) (hp : s.has n = true)
include hs hp

theorem setsPort_ovRelease : setsPort (.ovRelease n) s n { s.port n with st := { (s.port n).st with ov := ⟨true, false⟩ } } :=
  setsPort_updSt hs (c := .ovRelease n) (if_pos hp)

theorem setsPort_uvRelease : setsPort (.uvRelease n) s n { s.port n with st := { (s.port n).st with uv := ⟨true, false⟩ } } :=
  setsPort_updSt hs (c := .uvRelease n) (if_pos hp)

/-- On a port that is off, no feed and shows no power-good an OV trip sets the comparator alone. -/
theorem setsPort_ovTrip (ho : (s.port n).st.ov.out = false) (hoff : (s.port n).pw.sw = .off) (hpg : (s.port n).pw.pg = false)
    (hf : s.fedElsewhere n) :
    setsPort (.ovTrip n) s n { s.port n with st := { (s.port n).st with ov := ⟨true, true⟩ } } := by
  obtain ⟨hfeed, hno, hpre⟩ := hf
  have htrip : ovTripped n s = s.updSt n fun t => { t with ov := ⟨true, true⟩ } := by
    unfold ovTripped
    dsimp only
    rw [if_neg (by simp [hno]), if_neg (by simp [hoff]), if_neg (by simp [hoff]), dropPg_of_low (by simpa using hpg)]
    exact feedReview_of_fed hfeed hpre
  exact setsPort_updSt hs (c := .ovTrip n) ((if_pos (by simp [hp, ho])).trans (congrArg done htrip))

theorem setsPort_uvTrip (ho : (s.port n).st.uv.out = false) (hoff : (s.port n).pw.sw = .off) (hf : s.fedElsewhere n) :
    setsPort (.uvTrip n) s n { s.port n with st := { (s.port n).st with uv := ⟨true, true⟩ } } := by
  obtain ⟨hfeed, hno, hpre⟩ := hf
  have htrip : uvTripped n s = s.updSt n fun t => { t with uv := ⟨true, true⟩ } := by
    unfold uvTripped
    dsimp only
    rw [if_neg (by simp [hno]), if_neg (by simp [hoff])]
    exact feedReview_of_fed hfeed hpre
  exact setsPort_updSt hs (c := .uvTrip n) ((if_pos (by simp [hp, ho])).trans (congrArg done htrip))

omit hp

theorem idles_ovTrip (h : (s.port n).st.ov = ⟨true, true⟩) : idles (.ovTrip n) s :=
  idles_of hs (by simp [exec, execOvTrip, h])

theorem idles_uvTrip (h : (s.port n).st.uv = ⟨true, true⟩) : idles (.uvTrip n) s :=
  idles_of hs (by simp [exec, execUvTrip, h])

/-! ## COMPARATOR_VALID (R220, R221) -/

/-- A SEAT input that reads seated: no break holds the stage. -/
theorem setsPort_valid_seated (h : .seatBreak ∉ (s.port n).st.force) :
    setsPort (.comparatorValid (.seat n) true) s n { s.port n with pw := { (s.port n).pw with seat := ⟨true, true⟩ } } := by
  have hexec : exec (.comparatorValid (.seat n) true) s =
      done (liftForce [.seatBreak] n (s.updPw n fun p => { p with seat := ⟨true, true⟩ })) := rfl
  exact setsPort_updPw hs (hexec.trans (congrArg done (liftForce_of_absent (by simpa using h))))

/-- HBUS that reads above 18.0 V on a hub that is not held. -/
theorem answers_valid_hbusUv (h : s.dev.hold ≠ .brownOut) : answers (.comparatorValid .hbusUv false) s fun t =>
    t.fd = { s.fd with uv := ⟨true, false⟩, vhost := true } ∧ changesOnly [.fd] s t :=
  answers_fd hs (show execHbusUvRelease s = _ from if_neg h)

end

/-- Settles O10: each comparator by its own rule, and a first tripped reading as the trip itself. -/
theorem comparatorsFollowTheirInputs : Obligations.ComparatorsFollowTheirInputs := by
  refine ⟨fun s n hs hp => ⟨setsPort_ovRelease hs hp, setsPort_uvRelease hs hp, setsPort_ovTrip hs hp, setsPort_uvTrip hs hp,
    idles_ovTrip hs, idles_uvTrip hs⟩, fun s n b hs => ?_⟩
  refine ⟨?pk, ?hs, ?ov, ?uv, setsPort_valid_seated hs,
    ?broken, ?unseated, ?short, ?high, ?low, rfl, rfl, ?hbusOver, ?tone, answers_valid_hbusUv hs,
    answers_fd hs rfl⟩
  case pk => exact setsPort_updSt hs (f := fun t => { t with pk := ⟨true, b⟩ }) rfl
  case hs => exact setsPort_updSt hs (f := fun t => { t with hsCmp := ⟨true, false⟩ }) rfl
  case ov => exact setsPort_updSt hs (f := fun t => { t with ov := ⟨true, false⟩ }) rfl
  case uv => exact setsPort_updSt hs (f := fun t => { t with uv := ⟨true, false⟩ }) rfl
  case broken => exact fun hsig => (if_pos hsig).trans (if_pos hsig).symm
  case unseated =>
    intro hsig
    have hexec : exec (.comparatorValid (.seat n) false) s =
        if s.signals n = true then done (seatBroken n s) else done (s.updPw n fun p => { p with seat := ⟨true, false⟩ }) := rfl
    exact setsPort_updPw hs (f := fun p => { p with seat := ⟨true, false⟩ }) (hexec.trans (if_neg (by simp [hsig])))
  case short => exact fun hp ha => (if_pos (by simp [hp, ha])).trans (if_pos (by simp [hp, ha])).symm
  case high =>
    intro hp ho
    show done (ovTripped n s) = execOvTrip n s
    exact (if_pos (by simp [hp, ho])).symm
  case low =>
    intro hp ho
    show done (uvTripped n s) = execUvTrip n s
    exact (if_pos (by simp [hp, ho])).symm
  case tone => exact setsPort_updWh hs (f := fun w => { w with tone := ⟨true, b⟩ }) rfl
  case hbusOver =>
    intro ho
    show done (hbusOvTripped s) = execHbusOvTrip s
    exact (if_neg (by simp [ho])).symm

end Sys2Proof.Machine
end

section
/-! O11: hard shorts (R199, R200, R212 to R217), and the rules of a breaker trip (R407 to R410) and of a switch that opens (R403). -/

namespace Sys2Proof.Machine

/-! ## The port that an update sets -/

section
variable (s : State) (n : Port)

@[simp] theorem port_updPw (f : PowerSt → PowerSt) : (s.updPw n f).port n = { s.port n with pw := f (s.port n).pw } :=
  State.port_updPort_same s n _
@[simp] theorem port_updCf (f : CfSt → CfSt) : (s.updCf n f).port n = { s.port n with cf := f (s.port n).cf } :=
  State.port_updPort_same s n _
@[simp] theorem port_updLn (f : LineSt → LineSt) : (s.updLn n f).port n = { s.port n with ln := f (s.port n).ln } :=
  State.port_updPort_same s n _
@[simp] theorem port_updCt (f : ContractSt → ContractSt) : (s.updCt n f).port n = { s.port n with ct := f (s.port n).ct } :=
  State.port_updPort_same s n _
@[simp] theorem port_updSt (f : StageSt → StageSt) : (s.updSt n f).port n = { s.port n with st := f (s.port n).st } :=
  State.port_updPort_same s n _
@[simp] theorem port_updWh (f : WheelSt → WheelSt) : (s.updWh n f).port n = { s.port n with wh := f (s.port n).wh } :=
  State.port_updPort_same s n _
@[simp] theorem port_updMo (f : MoistSt → MoistSt) : (s.updMo n f).port n = { s.port n with mo := f (s.port n).mo } :=
  State.port_updPort_same s n _
@[simp] theorem port_updMe (f : MeterSt → MeterSt) : (s.updMe n f).port n = { s.port n with me := f (s.port n).me } :=
  State.port_updPort_same s n _

end

/-! ## A switch opens (R403) -/

/-- The power state of a port whose switch opens. -/
def PowerSt.opened (p : PowerSt) (next : SwState) (n : Port) : PowerSt :=
  { p with sw := .disch, after := next, discharging := decide (n ≠ portB), startHeld := false }

@[simp] theorem port_dropPg (n m : Port) (s : State) :
    (dropPg n s).port m = (s.updPw n fun p => { p with pg := false }).port m := by
  unfold dropPg
  split
  · simp
  · next h => rw [updPw_of_fixed]; rw [← Bool.eq_false_iff.mpr h]

/-- PG's fall is reported where it stood (R415). -/
theorem dropPg_evq {s : State} {n : Port} (hon : s.eventsOn = true) (hp : s.has n = true) :
    (dropPg n s).evq = s.evq ++ if (s.port n).pw.pg = true then [(8 * n.val + 3, 0)] else [] := by
  unfold dropPg
  split
  · rw [firePort_evq_power _ (.inr rfl) (by simpa using hon) (by simpa using hp)]; rfl
  · simp

/-- A switch that was closed, or whose start waited, opens; no other port waits for the group's place. -/
theorem openSwitch_eq {s : State} {n : Port} (next : SwState)
    (h : (s.port n).pw.sw = .wait ∨ (s.port n).pw.sw = .prechg ∨ (s.port n).pw.sw = .ramp ∨ (s.port n).pw.sw = .on)
    (hw : ∀ m, m ≠ n → (s.port m).pw.sw ≠ .wait) :
    openSwitch next n s = dropPg n (s.updPw n fun p => p.opened next n) := by
  refine (if_pos h).trans (promoteWaiting_of_noneWaits fun m => ?_)
  by_cases hm : m = n
  · subst hm; simp
  · simpa [hm, State.port_updPw_ne] using hw m hm

/-- On a trip a switch that was open passes DISCH too. -/
theorem openTripped_eq {s : State} {n : Port} (next : SwState)
    (h : (s.port n).pw.sw = .off ∨ ((s.port n).pw.sw = .prechg ∨ (s.port n).pw.sw = .ramp ∨ (s.port n).pw.sw = .on) ∧ s.noneWaits) :
    openTripped next n s = dropPg n (s.updPw n fun p => p.opened next n) := by
  by_cases hoff : (s.port n).pw.sw = .off
  · exact if_pos hoff
  · obtain ⟨hsw, hw⟩ := h.resolve_left hoff
    exact (if_neg hoff).trans (openSwitch_eq next (.inr hsw) fun m _ => hw m)

/-! ## A breaker trip (R407 to R410) -/

/-- The force-off of a trip: a hard short has already forced the stage off. -/
def tripForced (n : Port) (s : State) : State :=
  if (s.port n).st.force.contains .hardShort = true then s else forceOff .trip n s

/-- The trip counted and reported, the off-time set, the switch not yet open. -/
def tripRecorded (n : Port) (cause : BitVec 4) (s : State) : State :=
  let s1 := (tripForced n s).updPw n fun p => { p with tripCnt := satInc p.tripCnt }
  (fault n cause (if (s.port n).firstStart = true then s1.updCt n fun c => { c with transfail := satInc c.transfail } else s1)).updPw n
    fun p => { p with offTimeUs := offTimeUs (onAttemptUs s n) (s.port n).ripe.duty, offStart := s.cc, ripenedSinceTrip := false
                      offElapsed := false, retrying := false }

/-- What a trip's BYE says (R163, R408; DESIGN CHOICE, log entry 91). -/
def tripBye (first : Bool) (cause : BitVec 4) : Nat := if first = true then 0x10 else if cause = 6 then 0x09 else 0x15

theorem trip_eq {s : State} {n : Port} (cause : BitVec 4) (hb : (s.port n).st.force.contains .seatBreak = false)
    (hf : s.isFeed n = false) :
    trip n cause s = sendBye n (tripBye (s.port n).firstStart cause) false
      (openTripped (if s.retries n = true then .offtime else .giveup) n (tripRecorded n cause s)) :=
  (if_neg (by rw [hb]; decide)).trans (if_neg (by rw [hf]; decide))

/-- The stage of a port that trips, no burst window being open. -/
def StageSt.tripForced (t : StageSt) : StageSt := if t.force.contains .hardShort = true then t else t.forcedOff .trip

theorem port_tripForced {s : State} {n : Port} (h : (s.port n).wh.burstOpen = false) :
    (tripForced n s).port n = { s.port n with st := (s.port n).st.tripForced } := by
  unfold Machine.tripForced StageSt.tripForced
  split
  · rfl
  · simp [forceOff_of_closed, h]

theorem port_tripForced_ne {s : State} {n m : Port} (h : (s.port n).wh.burstOpen = false) (hm : m ≠ n) :
    (tripForced n s).port m = s.port m := by
  unfold Machine.tripForced
  split
  · rfl
  · simp [forceOff_of_closed, h, State.port_updSt_ne, hm]

@[simp] theorem tripForced_evq (n : Port) (s : State) : (tripForced n s).evq = s.evq := by
  unfold tripForced; split <;> simp

@[simp] theorem tripForced_frame (n : Port) (s : State) : (tripForced n s).cc = s.cc ∧ (tripForced n s).dev = s.dev ∧
    (tripForced n s).stone = s.stone ∧ (tripForced n s).fd = s.fd ∧ (tripForced n s).mem = s.mem ∧ (tripForced n s).host = s.host := by
  unfold tripForced; split <;> simp

/-- The power state of a port that trips, its switch not yet open. -/
def PowerSt.tripRecorded (p : PowerSt) (cause : BitVec 4) (us cc : Nat) : PowerSt :=
  { p with tripCnt := satInc p.tripCnt, cause := cause, offTimeUs := us, offStart := cc, ripenedSinceTrip := false
           offElapsed := false, retrying := false }

/-- The port that trips, its switch not yet open. -/
def PortSt.tripRecorded (p : PortSt) (cause : BitVec 4) (us cc : Nat) : PortSt :=
  { p with
    st := p.st.tripForced, pw := p.pw.tripRecorded cause us cc
    ct := { p.ct with transfail := if p.firstStart = true then satInc p.ct.transfail else p.ct.transfail } }

theorem port_tripRecorded {s : State} {n : Port} (cause : BitVec 4) (h : (s.port n).wh.burstOpen = false) :
    (tripRecorded n cause s).port n =
      (s.port n).tripRecorded cause (offTimeUs (onAttemptUs s n) (s.port n).ripe.duty) s.cc := by
  unfold tripRecorded PortSt.tripRecorded PowerSt.tripRecorded
  split <;> simp [port_tripForced h]

theorem port_tripRecorded_ne {s : State} {n m : Port} (cause : BitVec 4) (h : (s.port n).wh.burstOpen = false) (hm : m ≠ n) :
    (tripRecorded n cause s).port m = s.port m := by
  unfold tripRecorded
  split <;> simp [port_tripForced_ne h hm, hm, State.port_updPw_ne, State.port_updCt_ne]

@[simp] theorem tripRecorded_frame (n : Port) (cause : BitVec 4) (s : State) : (tripRecorded n cause s).cc = s.cc ∧
    (tripRecorded n cause s).dev = s.dev ∧ (tripRecorded n cause s).stone = s.stone ∧ (tripRecorded n cause s).fd = s.fd ∧
    (tripRecorded n cause s).mem = s.mem ∧ (tripRecorded n cause s).host = s.host := by
  unfold tripRecorded; split <;> simp

theorem tripRecorded_evq {s : State} {n : Port} (cause : BitVec 4) (hon : s.eventsOn = true) (hp : s.has n = true) :
    (tripRecorded n cause s).evq = s.evq ++ [(8 * n.val + 2, cause.toNat)] := by
  unfold tripRecorded
  dsimp only
  have hfr := tripForced_frame n s
  rw [State.updPw_evq, fault_evq]
  · split <;> simp
  · rw [← hon]; apply eventsOn_congr; split <;> simp
  · rw [← hp]; apply has_congr <;> split <;> simp

section
variable {l : List Area} {s t : State} {n : Port} (hn : Area.port n ∈ l ∨ Area.anyPort ∈ l)
  (he : Area.events ∈ l ∨ Area.sources ∈ l)
include hn he

theorem moves_tripRecorded (cause : BitVec 4) : Moves l s (tripRecorded n cause s) := by
  unfold tripRecorded Machine.tripForced
  simp only [moves_updPw hn, moves_fault hn he]
  split <;> split <;> simp [hn, he]

end

/-- A port that trips: what a trip does before its BYE, on a port that is no feed. -/
theorem port_tripOpened {s : State} {n : Port} (cause : BitVec 4) (hc : (s.port n).wh.burstOpen = false)
    (hsw : (s.port n).pw.sw = .off ∨
      ((s.port n).pw.sw = .prechg ∨ (s.port n).pw.sw = .ramp ∨ (s.port n).pw.sw = .on) ∧ s.noneWaits) (next : SwState) :
    openTripped next n (tripRecorded n cause s) = dropPg n ((tripRecorded n cause s).updPw n fun p => p.opened next n) := by
  refine openTripped_eq next ?_
  rw [port_tripRecorded cause hc]
  refine hsw.imp id (.imp id fun hw m => ?_)
  by_cases hm : m = n
  · subst hm; rw [port_tripRecorded cause hc]; exact hw m
  · rw [port_tripRecorded_ne cause hc hm]; exact hw m

/-- Everything a trip does before its BYE, on a port with no burst window open. -/
structure TripOpened (s u : State) (n : Port) (cause : BitVec 4) : Prop where
  port : u.port n =
    let p := (s.port n).tripRecorded cause (offTimeUs (onAttemptUs s n) (s.port n).ripe.duty) s.cc
    { p with pw := { p.pw.opened (if s.retries n = true then .offtime else .giveup) n with pg := false } }
  evq : u.evq = s.evq ++ [(8 * n.val + 2, cause.toNat)] ++ if (s.port n).pw.pg = true then [(8 * n.val + 3, 0)] else []
  frame : u.mem = s.mem ∧ u.host = s.host
  moves : Moves [.port n, .events] s u

theorem tripOpened {s : State} {n : Port} (cause : BitVec 4) (hon : s.eventsOn = true) (hp : s.has n = true)
    (hc : (s.port n).wh.burstOpen = false)
    (hsw : (s.port n).pw.sw = .off ∨
      ((s.port n).pw.sw = .prechg ∨ (s.port n).pw.sw = .ramp ∨ (s.port n).pw.sw = .on) ∧ s.noneWaits) :
    TripOpened s (openTripped (if s.retries n = true then .offtime else .giveup) n (tripRecorded n cause s)) n cause := by
  rw [port_tripOpened cause hc hsw]
  refine ⟨?_, ?_, ?_, ?_⟩
  · simp [port_tripRecorded cause hc]
  · rw [dropPg_evq, State.updPw_evq, tripRecorded_evq cause hon hp, State.port_updPw_same, port_tripRecorded cause hc]
    · rfl
    · rw [eventsOn_updPw, ← hon]; exact eventsOn_congr (by simp)
    · rw [has_updPw, ← hp]; exact has_congr (by simp) (by simp) n
  · simp
  · simp [moves_tripRecorded]

/-! ## BYE (R163) -/

theorem sendBye_of_phyOn {s : State} {n : Port} (code : Nat) (dflt : Bool) (h : (s.port n).phyOn = true) :
    sendBye n code dflt s = s.updLn n fun l =>
      { l with own := l.own ++ [{ ctx := 0, type := 0x10, objs := [refObj 0 0 code (b2n dflt)] }] } := if_pos h

/-- With no contract a BYE that cannot be sent ends nothing. -/
theorem sendBye_of_phyOff {s : State} {n : Port} (code : Nat) (dflt : Bool) (h : (s.port n).phyOn = false)
    (hc : (s.port n).ct.state = .none) : sendBye n code dflt s = s :=
  (if_neg (by rw [h]; decide)).trans (if_pos (.inr (.inl hc)))

/-- With no contract a BYE is queued at the most. -/
structure ByeQueued (n : Port) (s u : State) : Prop where
  port : u.port n = { s.port n with ln := (u.port n).ln }
  evq : u.evq = s.evq
  moves : ∀ l, Area.port n ∈ l → Moves l s u

theorem byeQueued {s : State} {n : Port} (code : Nat) (dflt : Bool) (hc : (s.port n).ct.state = .none) :
    ByeQueued n s (sendBye n code dflt s) := by
  cases h : (s.port n).phyOn with
  | true =>
    rw [sendBye_of_phyOn code dflt h]
    exact ⟨by simp, rfl, fun l hl => by simp [hl]⟩
  | false =>
    rw [sendBye_of_phyOff code dflt h hc]
    exact ⟨rfl, rfl, fun l _ => Moves.refl l s⟩

/-! ## A hard short -/

/-- Settles O11: the force-off at the trip, then the breaker's decision on a port whose switch was open. -/
theorem hardShortTurnsTheStageOff : Obligations.HardShortTurnsTheStageOff := by
  intro s n hs hp hon
  dsimp only
  intro hmode hforce hsw hpg hct hclosed hfeed hpre
  let s1 := forceOff .hardShort n (s.updSt n fun t => { t with hs := true, hsCmp := { valid := true, out := true } })
  have hport : s1.port n = { s.port n with st := { (s.port n).st with
      hs := true, hsCmp := ⟨true, true⟩, force := [.hardShort], mode := .off, pendMode := none, prevMode := none
      bypExit := none, bypBack := false, active := false } } := by
    simp [s1, forceOff_of_closed, hclosed, StageSt.forcedOff, hforce, addForce]
  have hexec : exec (.hardShortTrip n) s = done (trip n 2 s1) :=
    (if_pos (by simp [hp, State.hsArmed, hmode])).trans (congrArg done (if_neg (by simp [s1, hpre])))
  have hfeed1 : s1.isFeed n = false := by rw [← hfeed]; exact isFeed_congr (by simp [s1]) n
  have hret : s1.retries n = s.retries n := by simp [State.retries, hport]
  have hopen := tripOpened (s := s1) (n := n) 2 (by rw [← hon]; exact eventsOn_congr (by simp [s1]))
    (by rw [← hp]; exact has_congr (by simp [s1]) (by simp [s1]) n) (by rw [hport]; exact hclosed) (.inl (by rw [hport]; exact hsw))
  rw [trip_eq 2 (by rw [hport]; rfl) hfeed1] at hexec
  obtain ⟨hoport, hoevq, ⟨homem, hohost⟩, homoves⟩ := hopen
  have hbye := byeQueued (tripBye (s1.port n).firstStart 2) false (s := openTripped
    (if s1.retries n = true then .offtime else .giveup) n (tripRecorded n 2 s1)) (n := n)
    (by rw [hoport]; simp [PortSt.tripRecorded, hport, hct])
  obtain ⟨hbport, hbevq, hbmoves⟩ := hbye
  have hgood : memGood s1.mem = true := by simp [s1, hs.1]
  have hevq : (sendBye n (tripBye (s1.port n).firstStart 2) false (openTripped
      (if s1.retries n = true then .offtime else .giveup) n (tripRecorded n 2 s1))).evq = [(8 * n.val + 2, 2)] := by
    rw [hbevq, hoevq, hport]
    simp [s1, hs.2, hpg]
  have hmoves : Moves [.port n, .events] s s1 := by simp [s1]
  refine answers_of hexec ⟨?_, ?_, ?_, ?_, ?_, ?_, ?_⟩
  · rw [State.port_flush, hbport, hoport, hport]; rfl
  · rw [State.port_flush, hbport, hoport]; rfl
  · rw [State.port_flush, hbport, hoport, hret]; rfl
  · rw [State.port_flush, hbport, hoport]; rfl
  · rw [State.port_flush, hbport, hoport, hport]; rfl
  · exact logs_flush hevq (by simp [homem, hgood]) (by simp [hohost, s1])
  · exact ((hmoves.trans homoves).trans (hbmoves _ (by simp))).flush (by simp) hs.2 (by simp [homem, hgood])

end Sys2Proof.Machine
end

section
/-! O12: self-tests (R218 to R228; DESIGN CHOICE, log entry 107). -/

namespace Sys2Proof.Machine

/-! ## CMPTEST -/

section
variable {s : State} {n : Port} (hs : s.settled) (hp : s.has n = true)
include hs hp

/-- An accepted test of a comparator. -/
theorem setsPort_cmptest_accepted (w : Writer) {v : Word} (hb : (s.port n).st.testBusy = false) (hm : fld v 18 16 ≠ 0)
    (hsel : fld v 11 8 < 4) (hr : testRefused s n (fld v 11 8) (fld v 18 16) = false) :
    setsPort (.cmptestStart n w v) s n { s.port n with st := { (s.port n).st with
      testDone := w1c1 (s.port n).st.testDone v 30, testRefused := w1c1 (s.port n).st.testRefused v 29
      testSel := BitVec.ofNat 4 (fld v 11 8), testMode := BitVec.ofNat 3 (fld v 18 16), testBusy := true, testPass := false } } := by
  refine setsPort_of_moves hs (u := cmptestWrite n v s) (if_pos hp) ?_ ?_ ?_
  all_goals
    unfold cmptestWrite
    simp [hb, hm, hr, Nat.ne_of_lt hsel, show fld v 11 8 ≠ 5 by omega, hs.2]

/-- A test while another runs. -/
theorem setsPort_cmptest_busy (w : Writer) {v : Word} (hb : (s.port n).st.testBusy = true) (hm : fld v 18 16 ≠ 0) :
    setsPort (.cmptestStart n w v) s n { s.port n with st := { (s.port n).st with
      testDone := true, testRefused := true, testPass := false } } := by
  refine setsPort_of_moves hs (u := cmptestWrite n v s) (if_pos hp) ?_ ?_ ?_
  all_goals
    unfold cmptestWrite
    simp [hb, hm, testRefused, hs.2]

omit hp

/-- The end of a test of the OV comparator. -/
theorem setsPort_ovTestDone (u o : BitVec 3) (hb : (s.port n).st.testBusy = true) (hsel : (s.port n).st.testSel = 2) :
    setsPort (.selfTestDone (.port n) u o) s n { s.port n with st := { (s.port n).st with
      testBusy := false, testDone := true, testOut := o &&& 1
      testPass := decide (o &&& 1 = testExpected (s.port n).st.testMode false u), ov := ⟨false, false⟩ } } := by
  have hexec : exec (.selfTestDone (.port n) u o) s = _ := if_pos hb
  refine setsPort_of_moves hs hexec hs.2 ?_ (by simp)
  simp [hsel, Comparator.reset]

end

/-! ## HBUSWIN -/

theorem hbuswinWrite_accepted {s : State} {v : Word} (hb : s.fd.testBusy = false) (hm : fld v 18 16 ≠ 0) (hle : fld v 18 16 ≤ 3) :
    hbuswinWrite v s = { s with fd := { s.fd with
      testDone := w1c1 s.fd.testDone v 30, testRefused := w1c1 s.fd.testRefused v 29, testSel := bitOf v 8
      testMode := BitVec.ofNat 3 (fld v 18 16), testBusy := true, testPass := false } } := by
  have h3 : ¬ 3 < fld v 18 16 := by omega
  simp [hbuswinWrite, hb, hm, h3]

theorem exec_hbusTestDone {s : State} (u o : BitVec 3) (hb : s.fd.testBusy = true) (hsel : s.fd.testSel = true) :
    exec (.selfTestDone .hbus u o) s = done { s with fd := { s.fd with
      testBusy := false, testDone := true, testPass := decide (o &&& 1 = testExpected s.fd.testMode false u)
      ov := ⟨false, false⟩ } } := by
  have hexec : exec (.selfTestDone .hbus u o) s = _ := if_pos hb
  simp [hexec, hsel, Comparator.reset]

/-- Settles O12: the start, the refusal and the end of a test, of a port's comparators and of HBUSWIN's. -/
theorem selfTestsRunAndEnd : Obligations.SelfTestsRunAndEnd :=
  fun _ _ w _ u o hs hp =>
    ⟨setsPort_cmptest_accepted hs hp w, setsPort_cmptest_busy hs hp w, setsPort_ovTestDone hs u o,
      fun hb hm hle => answers_fd hs (congrArg done (hbuswinWrite_accepted hb hm hle)),
      fun hb hsel => answers_fd hs (exec_hbusTestDone u o hb hsel)⟩

end Sys2Proof.Machine
end

section
/-! O13: general counters (R359 to R366, R371; DESIGN CHOICE, log entry 67). -/

namespace Sys2Proof.Machine

/-! ## Operations in place -/

theorem perform_due (c : Counter) (op : CtOp) : (c.perform op).due = c.due := by
  cases op with
  | write i v => unfold Counter.perform Counter.write; dsimp only; split <;> rfl
  | start | stop | reload => rfl

theorem meet_due (ops : List (Nat × CtOp)) (c : Counter) (x : Nat × CtOp) : (Counter.meet ops c x).due = c.due := by
  unfold Counter.meet
  split
  · rfl
  · exact perform_due c x.2

theorem foldl_meet_due (ops l : List (Nat × CtOp)) (c : Counter) : (l.foldl (Counter.meet ops) c).due = c.due := by
  induction l generalizing c with
  | nil => rfl
  | cons x l ih => rw [List.foldl_cons, ih, meet_due]

/-- A start, a stop and a reload leave CTL and LINK as they are. -/
theorem meet_config (ops : List (Nat × CtOp)) (c : Counter) {x : Nat × CtOp} (h : x.2.isWrite = false) :
    (Counter.meet ops c x).link = c.link ∧ (Counter.meet ops c x).ctl = c.ctl := by
  obtain ⟨t, op⟩ := x
  unfold Counter.meet
  cases op with
  | write i v => cases h
  | start => split <;> exact ⟨rfl, rfl⟩
  | stop | reload => exact ⟨rfl, rfl⟩

theorem foldl_meet_config (ops l : List (Nat × CtOp)) (c : Counter) (h : ∀ x ∈ l, x.2.isWrite = false) :
    (l.foldl (Counter.meet ops) c).link = c.link ∧ (l.foldl (Counter.meet ops) c).ctl = c.ctl := by
  induction l generalizing c with
  | nil => exact ⟨rfl, rfl⟩
  | cons x l ih =>
    obtain ⟨hlink, hctl⟩ := ih (Counter.meet ops c x) fun y hy => h y (List.mem_cons_of_mem x hy)
    obtain ⟨hlink', hctl'⟩ := meet_config ops c (h x List.mem_cons_self)
    exact ⟨hlink.trans hlink', hctl.trans hctl'⟩

/-- What still waits when a tick meets its counter is of a later cc, or no write. -/
theorem atTick_due {c : Counter} {t : Nat} {x : Nat × CtOp} (h : x ∈ (c.atTick t).due) (ht : x.1 ≤ t) : x.2.isWrite = false := by
  unfold Counter.atTick at h
  rw [foldl_meet_due] at h
  simp only [List.mem_filter, Bool.not_eq_true', Bool.or_eq_false_iff, decide_eq_false_iff_not, Bool.and_eq_false_iff] at h
  obtain ⟨-, hearly, hwrite⟩ := h
  exact hwrite.resolve_left fun hne => hne (by omega)

/-- Nothing that still waits after a tick changes the configuration in the tick's own cc. -/
theorem now_config {c : Counter} {t : Nat} (h : ∀ x ∈ c.due, x.1 ≤ t → x.2.isWrite = false) :
    (c.now t).link = c.link ∧ (c.now t).ctl = c.ctl := by
  unfold Counter.now
  exact foldl_meet_config _ _ _ fun x hx => by
    rw [List.mem_filter] at hx
    exact h x hx.1 (of_decide_eq_true hx.2)

/-- The one operation asked of a counter with nothing waiting is performed in its cc. -/
theorem now_single (d : Counter) (t : Nat) (op : CtOp) (hd : d.due = []) (hop : op = .start ∨ op = .stop ∨ op = .reload) :
    ({ d with due := insertOp (t, op) d.due } : Counter).now t = d.perform op := by
  have hnil : ({ d with due := [] } : Counter) = d := by rw [← hd]
  rcases hop with rfl | rfl | rfl <;> simp [hd, Counter.now, insertOp, Counter.meet, hnil]

/-! ## One counter replaced -/

@[simp] theorem updCounter_evq (s : State) (k : Fin 24) (f : Counter → Counter) : (s.updCounter k f).evq = s.evq := rfl

@[simp] theorem moves_updCounter {l : List Area} {s t : State} (h : Area.tim ∈ l) (k : Fin 24) (f : Counter → Counter) :
    Moves l s (t.updCounter k f) ↔ Moves l s t := moves_tim h _

theorem counter_updCounter_same (s : State) (k : Fin 24) (f : Counter → Counter) :
    (s.updCounter k f).counter k = (f s.tim.counters[k]).now s.cc := by
  simp [State.counter, State.updCounter]

theorem updCounter_updCounter (s : State) (k : Fin 24) (f g : Counter → Counter) :
    (s.updCounter k f).updCounter k g = s.updCounter k (g ∘ f) := by
  simp [State.updCounter]

/-! ## A tick of the counter's own -/

section
variable {s : State} {k : Fin 24}

theorem ownTick_live {which : Counter → Bool} (hrun : ((s.tim.counters[k]).atTick s.cc).run = true)
    (hw : which ((s.tim.counters[k]).atTick s.cc) = true) (hl : tickLive s k = true) :
    ownTick k which s = done (tickOnce (tickCounter 23) k s) := if_pos (by simp only [hrun, hw, hl, Bool.and_self])

/-- A tick that finds its counter stopped, gated off or without a clock does nothing. -/
theorem ownTick_dead (which : Counter → Bool)
    (h : ((s.tim.counters[k]).atTick s.cc).run = false ∨ gatedOff s k = true ∨ tickLive s k = false) :
    ownTick k which s = done s := by
  unfold ownTick
  dsimp only
  split
  · next hc =>
    simp only [Bool.and_eq_true] at hc
    obtain ⟨⟨hrun, -⟩, hlive⟩ := hc
    refine congrArg done (if_pos (.inr ?_))
    rcases h with h | h | h
    · rw [hrun] at h; cases h
    · exact h
    · rw [hlive] at h; cases h
  · rfl

/-- A stop or a reset of the same cc takes away a tick that is no zero (R366). -/
theorem ownTick_preEmpted (which : Counter → Bool) (hc : ((s.tim.counters[k]).atTick s.cc).count ≠ 0)
    (hp : ((s.tim.counters[k]).atTick s.cc).preEmpted s.cc = true) : ownTick k which s = done s := by
  unfold ownTick
  dsimp only
  split
  · refine congrArg done ?_
    show tickOnce _ k s = s
    unfold tickOnce
    dsimp only
    rw [if_neg hc, if_pos hp, ite_self]
  · rfl

/-- A counter's link that does not answer to an event. -/
theorem followLink_other (next : Fin 24 → State → State) {evt : Nat} (h : (s.counter k).levt ≠ evt) :
    followLink next k evt s = s := if_neg h

theorem counterOf_channel (j : Fin 24) : counterOf (j.val + 16) = some j := by
  have h : 16 ≤ j.val + 16 ∧ j.val + 16 ≤ 39 := by omega
  simp [counterOf, h]

/-- A link that starts, stops or reloads its target asks it of the counter in this cc (R363). -/
theorem followLink_op (next : Fin 24 → State → State) {evt : Nat} {j : Fin 24} {op : CtOp} (h : (s.counter k).levt = evt)
    (htarget : (s.counter k).target = j.val + 16)
    (hop : ((s.counter k).lact = 1 ∧ op = .start) ∨ ((s.counter k).lact = 2 ∧ op = .stop) ∨ ((s.counter k).lact = 3 ∧ op = .reload)) :
    followLink next k evt s = askCounter j s.cc op s := by
  unfold followLink
  dsimp only
  rw [if_pos h, htarget, counterOf_channel]
  rcases hop with ⟨hact, rfl⟩ | ⟨hact, rfl⟩ | ⟨hact, rfl⟩ <;> simp [hact, startCounter, stopCounter, forceReload]

/-! ## The three kinds of tick -/

/-- The ticks that COUNTER_TICK, ZERO and MATCH stand for. -/
def Counter.ticksPlainly (c : Counter) : Bool := decide (c.count ≠ 0) && decide (c.count - 1 ≠ c.cmp)
def Counter.ticksToZero (c : Counter) : Bool := decide (c.count = 0)
def Counter.ticksToMatch (c : Counter) : Bool := decide (c.count ≠ 0) && decide (c.count - 1 = c.cmp)

theorem exec_counterTick (k : Fin 24) (s : State) : exec (.counterTick k) s = ownTick k Counter.ticksPlainly s := rfl
theorem exec_zero (k : Fin 24) (s : State) : exec (.zero k) s = ownTick k Counter.ticksToZero s := rfl
theorem exec_matchEvent (k : Fin 24) (s : State) : exec (.matchEvent k) s = ownTick k Counter.ticksToMatch s := rfl

/-- The counter after a zero (R360). -/
def Counter.zeroed (c : Counter) : Counter :=
  { c with count := c.reload, zerof := true, zcnt := c.zcnt + 1, out := true, run := !c.zstop }

variable (hrun : ((s.tim.counters[k]).atTick s.cc).run = true) (hgate : gatedOff s k = false)
include hrun hgate

theorem tickOnce_plain (next : Fin 24 → State → State) (h0 : ((s.tim.counters[k]).atTick s.cc).count ≠ 0)
    (hm : ((s.tim.counters[k]).atTick s.cc).count - 1 ≠ ((s.tim.counters[k]).atTick s.cc).cmp)
    (hp : ((s.tim.counters[k]).atTick s.cc).preEmpted s.cc = false) :
    tickOnce next k s = s.updCounter k fun _ =>
      { (s.tim.counters[k]).atTick s.cc with count := ((s.tim.counters[k]).atTick s.cc).count - 1 } := by
  unfold tickOnce
  dsimp only
  rw [if_neg (not_or.mpr ⟨by rw [hrun]; decide, by rw [hgate]; decide⟩), if_neg h0, hp, if_neg hm]
  rfl

theorem tickOnce_zero (next : Fin 24 → State → State) (h0 : ((s.tim.counters[k]).atTick s.cc).count = 0)
    (hr : ((s.tim.counters[k]).atTick s.cc).reload ≠ ((s.tim.counters[k]).atTick s.cc).cmp) :
    tickOnce next k s = followLink next k 1 (fireBound (k.val + 16) 1 (s.updCounter k fun _ =>
      ((s.tim.counters[k]).atTick s.cc).zeroed)) := by
  unfold tickOnce
  dsimp only
  rw [if_neg (not_or.mpr ⟨by rw [hrun]; decide, by rw [hgate]; decide⟩), if_pos h0, if_neg hr]
  rfl

theorem tickOnce_match (next : Fin 24 → State → State) (h0 : ((s.tim.counters[k]).atTick s.cc).count ≠ 0)
    (hm : ((s.tim.counters[k]).atTick s.cc).count - 1 = ((s.tim.counters[k]).atTick s.cc).cmp)
    (hp : ((s.tim.counters[k]).atTick s.cc).preEmpted s.cc = false) :
    tickOnce next k s = counterMatches next k (s.updCounter k fun _ =>
      { (s.tim.counters[k]).atTick s.cc with count := ((s.tim.counters[k]).atTick s.cc).cmp }) := by
  unfold tickOnce
  dsimp only
  rw [if_neg (not_or.mpr ⟨by rw [hrun]; decide, by rw [hgate]; decide⟩), if_neg h0, hp, if_pos hm, hm]
  rfl

end

@[simp] theorem counter_fireBound (ch evt : Nat) (s : State) (k : Fin 24) : (fireBound ch evt s).counter k = s.counter k := by
  simp [State.counter]

/-- After its own zero a counter's link is the one the tick met. -/
theorem counter_zeroed_config (s : State) (k : Fin 24) :
    let c := (s.tim.counters[k]).atTick s.cc
    ((fireBound (k.val + 16) 1 (s.updCounter k fun _ => c.zeroed)).counter k).link = c.link := by
  intro c
  rw [counter_fireBound, counter_updCounter_same]
  exact (now_config (c := c.zeroed) fun x hx => atTick_due hx).1

/-- A match whose counter does nothing to itself and links to nothing (R362). -/
theorem counterMatches_alone (next : Fin 24 → State → State) (s : State) (k : Fin 24) {c : Counter}
    (hdue : ∀ x ∈ c.due, x.1 ≤ s.cc → x.2.isWrite = false) (hself : c.mself = 0) (hevt : c.levt ≠ 2) :
    counterMatches next k (s.updCounter k fun _ => c) =
      fireBound (k.val + 16) 2 (s.updCounter k fun _ => { c with matchf := true, out := false }) := by
  have hconfig := now_config (c := { c with matchf := true, out := false }) (t := s.cc) hdue
  unfold counterMatches
  dsimp only
  rw [updCounter_updCounter]
  have hcounter : (fireBound (k.val + 16) 2 (s.updCounter k fun _ => { c with matchf := true, out := false })).counter k =
      ({ c with matchf := true, out := false } : Counter).now s.cc := by
    rw [counter_fireBound, counter_updCounter_same]
  have hself' : ((fireBound (k.val + 16) 2 (s.updCounter k fun _ => { c with matchf := true, out := false })).counter k).mself = 0 := by
    rw [hcounter, Counter.mself, hconfig.2]; exact hself
  show followLink next k 2 (if ((fireBound _ 2 (s.updCounter k fun _ => { c with matchf := true, out := false })).counter k).mself = 1
    then _ else if ((fireBound _ 2 (s.updCounter k fun _ => { c with matchf := true, out := false })).counter k).mself = 2
    then _ else fireBound _ 2 (s.updCounter k fun _ => { c with matchf := true, out := false })) = _
  rw [hself', if_neg (by decide), if_neg (by decide)]
  refine followLink_other next ?_
  rw [hcounter, Counter.levt, hconfig.1]
  exact hevt

/-! ## The statement -/

/-- A tick whose event fires the wait lines bound to it. -/
theorem answers_bound {cmd : Instr} {s : State} {k : Fin 24} {e : Nat} {v : Counter} (hs : s.settled) (he : e ≠ 0)
    (h : exec cmd s = done (fireBound (k.val + 16) e (s.updCounter k fun _ => v))) :
    answers cmd s fun t =>
      t.tim = { s.tim with counters := s.tim.counters.set k v }
      ∧ (∀ i : Fin 56, fld s.tim.tbind[i] 2 0 = e → fld s.tim.tbind[i] 15 8 = k.val + 16 →
        bitOf (t.core ⟨(i.val / 8) % 7, by omega⟩).evtPend (tmrBit ⟨(i.val / 8) % 7, by omega⟩ (i.val % 8)) = true)
      ∧ changesOnly [.tim, .events] s t := by
  have hq : (fireBound (k.val + 16) e (s.updCounter k fun _ => v)).evq = [] := by simp [hs.2]
  refine answers_quiet h hq ⟨by simp [State.updCounter], fun i hevt hch => ?_, Moves.changesOnly (by simp) hs.2 hq⟩
  exact evtPend_fireBound_bound he i hevt hch

/-- Settles O13: a plain tick, a zero and a match with what follows in their cc, and the link of a zero. -/
theorem countersTickAndLink : Obligations.CountersTickAndLink := by
  refine ⟨fun s k hs => ⟨?tick, ?zero, ?mtch, ?dead, ?preEmpted⟩, ?link⟩
  case tick =>
    intro hrun hlive hgate h0 hm hp
    have hw : ((s.tim.counters[k]).atTick s.cc).ticksPlainly = true := Bool.and_eq_true_iff.mpr ⟨decide_eq_true h0, decide_eq_true hm⟩
    have h := (exec_counterTick k s).trans ((ownTick_live hrun hw hlive).trans
      (congrArg done (tickOnce_plain hrun hgate _ h0 hm hp)))
    exact answers_quiet h hs.2 ⟨rfl, Moves.changesOnly (by simp) hs.2 hs.2⟩
  case zero =>
    intro hrun hlive hgate h0 hr hevt
    refine answers_bound hs (by decide) ((exec_zero k s).trans ((ownTick_live hrun (decide_eq_true h0) hlive).trans
      (congrArg done ((tickOnce_zero hrun hgate _ h0 hr).trans ?_))))
    exact followLink_other _ (by rw [Counter.levt, counter_zeroed_config]; exact hevt)
  case mtch =>
    intro hrun hlive hgate h0 hm hp hself hevt
    have hw : ((s.tim.counters[k]).atTick s.cc).ticksToMatch = true := Bool.and_eq_true_iff.mpr ⟨decide_eq_true h0, decide_eq_true hm⟩
    refine answers_bound hs (by decide) ((exec_matchEvent k s).trans ((ownTick_live hrun hw hlive).trans
      (congrArg done ((tickOnce_match hrun hgate _ h0 hm hp).trans ?_))))
    exact counterMatches_alone _ s k (fun x hx => atTick_due hx) hself hevt
  case dead =>
    intro h
    have hdead : (s.tim.counters[k].atTick s.cc).run = false ∨ gatedOff s k = true ∨ tickLive s k = false := h
    exact ⟨idles_of hs ((exec_counterTick k s).trans (ownTick_dead _ hdead)), idles_of hs ((exec_zero k s).trans (ownTick_dead _ hdead)),
      idles_of hs ((exec_matchEvent k s).trans (ownTick_dead _ hdead))⟩
  case preEmpted =>
    exact fun h0 hp => ⟨idles_of hs ((exec_counterTick k s).trans (ownTick_preEmpted _ h0 hp)),
      idles_of hs ((exec_matchEvent k s).trans (ownTick_preEmpted _ h0 hp))⟩
  case link =>
    intro s k j hs hne
    dsimp only
    intro hrun hlive hgate h0 hr hevt htarget op hop
    let c := (s.tim.counters[k]).atTick s.cc
    let u := fireBound (k.val + 16) 1 (s.updCounter k fun _ => c.zeroed)
    have hlink : (u.counter k).link = c.link := counter_zeroed_config s k
    have hfollow : followLink (tickCounter 23) k 1 u = askCounter j u.cc op u :=
      followLink_op _ (by rw [Counter.levt, hlink]; exact hevt) (by rw [Counter.target, hlink]; exact htarget)
        (by simp only [Counter.lact, hlink]; exact hop)
    have hexec : exec (.zero k) s = done (askCounter j u.cc op u) := (exec_zero k s).trans ((ownTick_live hrun (decide_eq_true h0) hlive).trans
      (congrArg done ((tickOnce_zero hrun hgate _ h0 hr).trans hfollow)))
    have hj : u.tim.counters[j] = s.tim.counters[j] := by
      have : k.val ≠ j.val := fun h => hne (Fin.ext h.symm)
      simp [u, State.updCounter, this]
    have hq : (askCounter j u.cc op u).evq = [] := by simp [askCounter, u, hs.2]
    refine answers_quiet hexec hq ⟨?_, fun hd => ?_, Moves.changesOnly (by simp [askCounter, u]) hs.2 hq⟩
    · have hcc : u.cc = s.cc := by simp [u, State.updCounter]
      have htim : u.tim = { s.tim with counters := s.tim.counters.set k c.zeroed } := by simp [u, State.updCounter]
      rw [askCounter, hcc]
      unfold State.updCounter
      rw [hj]
      simp only [htim]
      rfl
    · have hcc : u.cc = s.cc := by simp [u, State.updCounter]
      rw [askCounter, counter_updCounter_same, hj, hcc]
      exact now_single _ _ op hd (hop.imp (·.2) (.imp (·.2) (·.2)))

end Sys2Proof.Machine
end

section
/-! O14: cherry captures (R369 to R371) and SYNC_IN (R372 to R374). -/

namespace Sys2Proof.Machine

/-- A cherry pair that has captured an edge of its input at a time. -/
def Cherry.captured (c : Cherry) (rising : Bool) (now : Word) : Cherry :=
  let ends := decide (rising = !bitOf c.ctl 1)
  let c1 := if rising then { c with rise := now } else { c with fall := now }
  let c2 := if ends && c.other then
      { c1 with width := if rising then c1.rise - c1.fall else c1.fall - c1.rise, pulses := c1.pulses + 1 }
    else c1
  { c2 with other := !ends }

/-- The wait lines an edge fires, and those of the pulse it ends (R371). -/
def captureLines (k : Fin 4) (rising pulse : Bool) (s : State) : State :=
  let s1 := fireBound (52 + k.val) (if rising then 3 else 4) s
  if pulse then fireBound (52 + k.val) 5 s1 else s1

@[simp] theorem captureLines_evq (k : Fin 4) (r p : Bool) (s : State) : (captureLines k r p s).evq = s.evq := by
  unfold captureLines; dsimp only; split <;> simp

@[simp] theorem captureLines_frame (k : Fin 4) (r p : Bool) (s : State) :
    (captureLines k r p s).cc = s.cc ∧ (captureLines k r p s).tim = s.tim := by
  unfold captureLines; dsimp only; split <;> simp

@[simp] theorem moves_captureLines {l : List Area} {s t : State} (h : Area.events ∈ l ∨ Area.sources ∈ l) (k : Fin 4) (r p : Bool) :
    Moves l s (captureLines k r p t) ↔ Moves l s t := by
  unfold captureLines; dsimp only; split <;> simp [h]

/-- An edge on an enabled input whose source can show it. -/
theorem exec_cherryCapture_live {s : State} {k : Fin 4} (rising : Bool) {t : Nat} (ht : s.cc ≤ t)
    (hen : bitOf ((s.tim.cherries[k]).now t).ctl 0 = true) (hl : giLive s k = true) :
    exec (.cherryCapture k rising t) s = done (captureLines k rising
      (decide (rising = !bitOf ((s.tim.cherries[k]).now t).ctl 1) && ((s.tim.cherries[k]).now t).other)
      { s with cc := t, tim := { s.tim with
        cherries := s.tim.cherries.set k (((s.tim.cherries[k]).now t).captured rising (BitVec.ofNat 32 t)) } }) := by
  have hexec : exec (.cherryCapture k rising t) s = execCherryCapture k rising t s := rfl
  rw [hexec, execCherryCapture, State.at_eq ht]
  dsimp only
  rw [hen, show giLive { s with cc := t } k = true from hl]
  rfl

theorem exec_cherryCapture_off {s : State} {k : Fin 4} (rising : Bool) {t : Nat} (ht : s.cc ≤ t)
    (hen : bitOf ((s.tim.cherries[k]).now t).ctl 0 = false) :
    exec (.cherryCapture k rising t) s = done { s with cc := t } := by
  have hexec : exec (.cherryCapture k rising t) s = execCherryCapture k rising t s := rfl
  rw [hexec, execCherryCapture, State.at_eq ht]
  dsimp only
  rw [hen]
  rfl

section
variable (c : Cherry) (rising : Bool) (now : Word)

theorem captured_rise : (c.captured rising now).rise = if rising then now else c.rise := by
  cases rising <;> unfold Cherry.captured <;> dsimp only <;> split <;> rfl

theorem captured_fall : (c.captured rising now).fall = if rising then c.fall else now := by
  cases rising <;> unfold Cherry.captured <;> dsimp only <;> split <;> rfl

theorem captured_width : (c.captured rising now).width =
    if (rising != bitOf c.ctl 1) = true ∧ c.other = true then (if rising then now - c.fall else now - c.rise) else c.width := by
  cases rising <;> cases hb : bitOf c.ctl 1 <;> cases ho : c.other <;> simp [Cherry.captured, hb, ho]

theorem captured_pulses : (c.captured rising now).pulses =
    if (rising != bitOf c.ctl 1) = true ∧ c.other = true then c.pulses + 1 else c.pulses := by
  cases rising <;> cases hb : bitOf c.ctl 1 <;> cases ho : c.other <;> simp [Cherry.captured, hb, ho]

end

/-- A command that changes nothing but the timers. -/
theorem answers_tim {c : Instr} {s : State} {v : TimerSt} (hs : s.settled) (h : exec c s = done { s with tim := v }) :
    answers c s fun t => t.tim = v ∧ changesOnly [.tim] s t :=
  answers_quiet h hs.2 ⟨rfl, Moves.changesOnly (by simp) hs.2 hs.2⟩

/-- Settles O14: what a captured edge writes, and the three events of SYNC_IN. -/
theorem capturesAndSync : Obligations.CapturesAndSync := by
  refine ⟨fun s k rising t hs ht => ⟨fun hen hl => ?_, fun hen => ?_⟩, fun s hs => ⟨fun hen hlock => ?_, fun hen hacq => ?_,
    fun hen => ⟨?_, ?_⟩, fun hlock => ?_⟩⟩
  · refine answers_quiet (exec_cherryCapture_live rising ht hen hl) (by simp [hs.2]) ⟨by simp, ?_⟩
    simp only [captureLines_frame, Fin.getElem_fin, Vector.getElem_set_self]
    exact ⟨captured_rise _ _ _, captured_fall _ _ _, captured_width _ _ _, captured_pulses _ _ _, trivial,
      Moves.changesOnly ((moves_captureLines (by simp) _ _ _).mpr (moves_part (.inl (by simp)) (.inr rfl) (.inr rfl) (.inl (by simp))
        (.inr rfl) (.inr rfl) (.inr rfl) (.inr rfl) (.inr rfl) (.inr rfl) ⟨rfl, rfl, rfl, rfl⟩)) hs.2 (by simp [hs.2])⟩
  · exact answers_quiet (exec_cherryCapture_off rising ht hen) hs.2 ⟨rfl, Moves.changesOnly (by simp) hs.2 hs.2⟩
  · exact answers_tim hs (if_pos (by simp [hen, hlock]))
  · exact answers_tim hs (if_pos (by simp [hen, hacq]))
  · exact idles_of hs (if_neg (by simp [hen]))
  · exact idles_of hs (if_neg (by simp [hen]))
  · exact answers_tim hs (if_pos hlock)

end Sys2Proof.Machine
end

section
/-! O15: wheel edges and the classes of tooth (R369, R375 to R381; DESIGN CHOICE, log entry 68). -/

namespace Sys2Proof.Machine

/-! ## The tracker off the teeth -/

/-- In TIME mode the angle does not follow the teeth (R380). -/
theorem byTeeth_time {w : WheelSt} (h : w.mode = .time) : w.byTeeth = false := by simp [WheelSt.byTeeth, h]

theorem stepForward_time {s : State} {n : Port} (hm : (s.port n).wh.mode = .time)
    (ht : (s.port n).wh.tpos + 1 < (s.port n).wh.teeth) :
    stepForward n s = s.updWh n fun w => { w with tpos := w.tpos + 1 } := by
  unfold stepForward
  dsimp only
  rw [byTeeth_time hm, if_neg (by simp)]
  exact updWh_congr (by simp [byTeeth_time hm, Nat.not_le.mpr ht])

theorem stepBackward_time {s : State} {n : Port} (hm : (s.port n).wh.mode = .time) (ht : 1 ≤ (s.port n).wh.tpos) :
    stepBackward n s = s.updWh n fun w => { w with tpos := w.tpos - 1 } :=
  updWh_congr (by simp [byTeeth_time hm, show (s.port n).wh.tpos ≠ 0 by omega])

theorem setWheelMode_same {s : State} {n : Port} {m : WheelMode} (h : (s.port n).wh.mode = m) : setWheelMode n m s = s := if_pos h

/-- A wheel without SYNC, or without two periods that count, belongs in TIME mode (R380). -/
theorem wanted_time {w : WheelSt} (he : w.en = true) (h : w.sync = false ∨ w.runs = []) : w.wanted false = .time := by
  rcases h with h | h <;> simp [WheelSt.wanted, he, h]

/-! ## A pulse ends -/

/-- The wheel at the trailing edge of a pulse (R369). -/
def WheelSt.pulsed (w : WheelSt) (now : Word) : WheelSt :=
  { w with rise := now, width := now - w.fall, pulses := w.pulses + 1, fallSeen := false }

/-- The hub at the trailing edge of a pulse, the tooth not yet classified. -/
def pulseSeen (n : Port) (t : Nat) (s : State) : State :=
  fireBound (40 + n.val) 5 ((fireBound (40 + n.val) 3 ({ s with cc := t }.updWh n fun w => { w with rise := BitVec.ofNat 32 t })).updWh n
    fun w => { w with width := BitVec.ofNat 32 t - w.fall, pulses := w.pulses + 1, fallSeen := false })

theorem port_pulseSeen (n : Port) (t : Nat) (s : State) :
    (pulseSeen n t s).port n = { s.port n with wh := (s.port n).wh.pulsed (BitVec.ofNat 32 t) } := by
  simp [pulseSeen, WheelSt.pulsed]

@[simp] theorem pulseSeen_evq (n : Port) (t : Nat) (s : State) : (pulseSeen n t s).evq = s.evq := by simp [pulseSeen]

@[simp] theorem pulseSeen_cc (n : Port) (t : Nat) (s : State) : (pulseSeen n t s).cc = t := by simp [pulseSeen]

theorem moves_pulseSeen (n : Port) (t : Nat) (s : State) : Moves [.clock, .port n, .events] s (pulseSeen n t s) := by
  simp [pulseSeen]

/-- What an enabled wheel whose receiver is VALID does at the end of a pulse. -/
def classify (n : Port) (width : Nat) (susp : Bool) (s : State) : Out :=
  if 12000 ≤ width ∧ width ≤ 18000 then
    done (setWheelMode n (((toothForward n false s).port n).wh.wanted false) (toothForward n false s))
  else if 54000 ≤ width ∧ width ≤ 66000 then
    done (setWheelMode n (((toothForward n true s).port n).wh.wanted false) (toothForward n true s))
  else if 27000 ≤ width ∧ width ≤ 33000 then done (setWheelMode n .susp (toothReverse n s))
  else done (setWheelMode n (((toothInvalid n s).port n).wh.wanted susp) (toothInvalid n s))

section
variable (n : Port) {width : Nat} (susp : Bool) (s : State)

theorem classify_forward (h : 12000 ≤ width ∧ width ≤ 18000) : classify n width susp s =
    done (setWheelMode n (((toothForward n false s).port n).wh.wanted false) (toothForward n false s)) := if_pos h

theorem classify_index (h : 54000 ≤ width ∧ width ≤ 66000) : classify n width susp s =
    done (setWheelMode n (((toothForward n true s).port n).wh.wanted false) (toothForward n true s)) :=
  (if_neg (by omega)).trans (if_pos h)

theorem classify_reverse (h : 27000 ≤ width ∧ width ≤ 33000) : classify n width susp s =
    done (setWheelMode n .susp (toothReverse n s)) :=
  (if_neg (by omega)).trans ((if_neg (by omega)).trans (if_pos h))

theorem classify_invalid (h : width < 12000 ∨ 66000 < width) : classify n width susp s =
    done (setWheelMode n (((toothInvalid n s).port n).wh.wanted susp) (toothInvalid n s)) :=
  (if_neg (by omega)).trans ((if_neg (by omega)).trans (if_neg (by omega)))

end

section
variable {s : State} {n : Port} {t : Nat} (ht : s.cc ≤ t)
include ht

theorem exec_toneTrailingEdge (hw : isW n = true) (hp : s.has n = true) (hen : (s.port n).wh.en = true)
    (hv : (s.port n).wh.tone.valid = true) (hf : (s.port n).wh.fallSeen = true) :
    exec (.toneTrailingEdge n t) s = classify n (BitVec.ofNat 32 t - (s.port n).wh.fall).toNat
      (decide ((s.port n).wh.mode = .susp)) (pulseSeen n t s) := by
  have hexec : exec (.toneTrailingEdge n t) s = execToneTrailingEdge n t s := rfl
  rw [hexec, execToneTrailingEdge, State.at_eq ht]
  have hc : (isW n && { s with cc := t }.has n && (s.port n).wh.en && (s.port n).wh.tone.valid) = true := by
    rw [hw, show ({ s with cc := t } : State).has n = true from hp, hen, hv]; rfl
  exact (if_pos hc).trans (if_pos hf)

/-- A wheel that is not enabled, or whose receiver is not VALID, sees no edge (R221). -/
theorem exec_tone_deaf (h : (s.port n).wh.en = false ∨ (s.port n).wh.tone.valid = false) :
    exec (.toneLeadingEdge n t) s = done { s with cc := t } ∧ exec (.toneTrailingEdge n t) s = done { s with cc := t } := by
  have hlead : exec (.toneLeadingEdge n t) s = execToneLeadingEdge n t s := rfl
  have htrail : exec (.toneTrailingEdge n t) s = execToneTrailingEdge n t s := rfl
  have hc : ¬ (isW n && { s with cc := t }.has n && (s.port n).wh.en && (s.port n).wh.tone.valid) = true := by
    rcases h with h | h <;> simp [h]
  rw [hlead, htrail, execToneLeadingEdge, execToneTrailingEdge, State.at_eq ht]
  exact ⟨if_neg hc, if_neg hc⟩

theorem exec_toneLeadingEdge (hw : isW n = true) (hp : s.has n = true) (hen : (s.port n).wh.en = true)
    (hv : (s.port n).wh.tone.valid = true) (hd : (s.port n).wh.dir = false) :
    exec (.toneLeadingEdge n t) s = done (stepForward n (fireBound (40 + n.val) 4
      ({ s with cc := t }.updWh n fun w => { w with fall := BitVec.ofNat 32 t, fallSeen := true }))) := by
  have hexec : exec (.toneLeadingEdge n t) s = execToneLeadingEdge n t s := rfl
  rw [hexec, execToneLeadingEdge, State.at_eq ht]
  have hc : (isW n && { s with cc := t }.has n && (s.port n).wh.en && (s.port n).wh.tone.valid) = true := by
    rw [hw, show ({ s with cc := t } : State).has n = true from hp, hen, hv]; rfl
  have hd' : ¬ (({ s with cc := t } : State).port n).wh.dir = true := by simp [hd]
  exact (if_pos hc).trans (congrArg done (if_neg hd'))

end

/-! ## The classes of tooth -/

section
variable {u : State} {n : Port} (hd : (u.port n).wh.dir = false)
include hd

/-- A forward tooth that begins the count of periods (R377, R379). -/
theorem toothForward_first (hl : (u.port n).wh.lastLead = none) (hs : (u.port n).wh.sync = false) :
    toothForward n false u = u.updWh n fun w => { w with lastLead := some w.fall.toNat, sinceIndex := w.sinceIndex + 1 } := by
  unfold toothForward
  dsimp only
  simp only [hd, hl, Bool.false_eq_true, ↓reduceIte]
  simp only [updWh_updWh]
  exact updWh_congr (by simp [hs])

/-- The index brings SYNC at tooth 0 (R379). -/
theorem toothForward_index (hl : (u.port n).wh.lastLead = none) (hs : (u.port n).wh.sync = false) :
    toothForward n true u = u.updWh n fun w =>
      { w with lastLead := some w.fall.toNat, tpos := 0, sync := true, sinceIndex := 0, resync := satInc w.resync } := by
  unfold toothForward
  dsimp only
  simp only [hd, hl, Bool.false_eq_true, ↓reduceIte]
  refine (if_pos (by simp [hs])).trans ?_
  simp only [updWh_updWh]

variable (hm : (u.port n).wh.mode = .time)
include hm

/-- A reverse tooth takes both steps back (R377). -/
theorem toothReverse_time (ht : 2 ≤ (u.port n).wh.tpos) :
    toothReverse n u = u.updWh n fun w => { w with tpos := w.tpos - 2, angper := 0, dir := true, gapped := true } := by
  unfold toothReverse
  dsimp only
  rw [hd, if_neg (by simp), stepBackward_time hm (by omega), stepBackward_time (by simpa using hm) (by simp; omega)]
  simp only [updWh_updWh]
  exact updWh_congr (by simp [Nat.sub_sub])

/-- Any other width takes its step back and counts (R377). -/
theorem toothInvalid_time (ht : 1 ≤ (u.port n).wh.tpos) :
    toothInvalid n u = u.updWh n fun w => { w with tpos := w.tpos - 1, angper := 0, gapped := true, errcnt := satInc w.errcnt } := by
  unfold toothInvalid
  dsimp only
  rw [hd, if_neg (by simp), stepBackward_time hm ht]
  simp only [updWh_updWh]

end

/-- Into SUSP with no window open (R381). -/
theorem setWheelMode_susp {u : State} {n : Port} (hm : (u.port n).wh.mode = .time) (hb : (u.port n).wh.burstOpen = false) :
    setWheelMode n .susp u = u.updWh n fun w => { w with mode := .susp, before := .time } := by
  unfold setWheelMode
  dsimp only
  rw [if_neg (by simp [hm]), forcedClose_of_closed (by simpa using hb)]
  exact updWh_congr (by simp [hm])

/-! ## The statement -/

/-- A wheel edge that sets the wheel alone. -/
theorem answers_wheel {c : Instr} {s u : State} {n : Port} {t : Nat} {f : WheelSt → WheelSt} {w : WheelSt} (hs : s.settled)
    (hexec : exec c s = done (u.updWh n f)) (hcc : u.cc = t) (hq : u.evq = s.evq)
    (hport : { u.port n with wh := f (u.port n).wh } = { s.port n with wh := w })
    (hmoves : Moves [.clock, .port n, .events] s u) :
    answers c s fun t' => t'.cc = t ∧ t'.port n = { s.port n with wh := w } ∧ changesOnly [.clock, .port n, .events] s t' := by
  have hq' : (u.updWh n f).evq = [] := hq.trans hs.2
  exact answers_quiet hexec hq' ⟨hcc, (port_updWh u n f).trans hport, Moves.changesOnly (by simpa using hmoves) hs.2 hq'⟩

/-- Settles O15: the leading edge moves the tracker, the trailing edge classifies the tooth. -/
theorem toneEdgesMoveTheTracker : Obligations.ToneEdgesMoveTheTracker := by
  intro s n t hs hw hp ht
  dsimp only
  refine ⟨fun hen hv hd hm htp => ?lead, fun hen hv hd hm hf => ?trail, fun hdeaf => ?deaf⟩
  case lead =>
    have hexec := exec_toneLeadingEdge ht hw hp hen hv hd
    rw [stepForward_time (by simpa using hm) (by simpa [WheelSt.teeth] using htp)] at hexec
    exact answers_wheel hs hexec (by simp) (by simp) (by simp) (by simp)
  case trail =>
    have hexec := exec_toneTrailingEdge ht hw hp hen hv hf
    have hport := port_pulseSeen n t s
    have hcc := pulseSeen_cc n t s
    have hq := pulseSeen_evq n t s
    have hmoves := moves_pulseSeen n t s
    generalize pulseSeen n t s = u at *
    have hud : (u.port n).wh.dir = false := by rw [hport]; exact hd
    have hum : (u.port n).wh.mode = .time := by rw [hport]; exact hm
    have hue : (u.port n).wh.en = true := by rw [hport]; exact hen
    refine ⟨fun h1 h2 hl hsync => ?_, fun h1 h2 hl hsync hr => ?_, fun h1 h2 hb htp => ?_, fun h1 hsync htp => ?_⟩
    · have hul : (u.port n).wh.lastLead = none := by rw [hport]; exact hl
      have hus : (u.port n).wh.sync = false := by rw [hport]; exact hsync
      rw [classify_forward _ _ _ ⟨h1, h2⟩, toothForward_first hud hul hus, setWheelMode_same] at hexec
      · exact answers_wheel hs hexec hcc hq (by rw [hport]; rfl) hmoves
      · rw [port_updWh]; exact hum.trans (wanted_time hue (.inl hus)).symm
    · have hul : (u.port n).wh.lastLead = none := by rw [hport]; exact hl
      have hus : (u.port n).wh.sync = false := by rw [hport]; exact hsync
      have hur : (u.port n).wh.runs = [] := by rw [hport]; exact hr
      rw [classify_index _ _ _ ⟨h1, h2⟩, toothForward_index hud hul hus, setWheelMode_same] at hexec
      · exact answers_wheel hs hexec hcc hq (by rw [hport]; rfl) hmoves
      · rw [port_updWh]; refine hum.trans (wanted_time ?_ (.inr ?_)).symm <;> assumption
    · have hub : (u.port n).wh.burstOpen = false := by rw [hport]; exact hb
      have hut : 2 ≤ (u.port n).wh.tpos := by rw [hport]; exact htp
      rw [classify_reverse _ _ _ ⟨h1, h2⟩, toothReverse_time hud hum hut,
        setWheelMode_susp (by simpa using hum) (by simpa using hub), updWh_updWh] at hexec
      exact answers_wheel hs hexec hcc hq (by rw [hport]; rfl) hmoves
    · have hus : (u.port n).wh.sync = false := by rw [hport]; exact hsync
      have hut : 1 ≤ (u.port n).wh.tpos := by rw [hport]; exact htp
      rw [classify_invalid _ _ _ h1, toothInvalid_time hud hum hut,
        setWheelMode_same] at hexec
      · exact answers_wheel hs hexec hcc hq (by rw [hport]; rfl) hmoves
      · rw [port_updWh, hm]; exact hum.trans (wanted_time hue (.inl hus)).symm
  case deaf =>
    obtain ⟨hlead, htrail⟩ := exec_tone_deaf ht hdeaf
    exact ⟨answers_quiet hlead hs.2 ⟨rfl, rfl, Moves.changesOnly (by simp) hs.2 hs.2⟩,
      answers_quiet htrail hs.2 ⟨rfl, rfl, Moves.changesOnly (by simp) hs.2 hs.2⟩⟩

end Sys2Proof.Machine
end

section
/-! O16: ANGCTL, the modes of a wheel and its angle (R376 to R381, R396; DESIGN CHOICE, log entry 68). -/

namespace Sys2Proof.Machine

/-! ## ANGCTL (R396) -/

/-- A wheel whose ANGCTL has been written with EN turned over: the pulse under way counts no more (R369, R377). -/
def WheelSt.rewound (w : WheelSt) (v : Word) : WheelSt :=
  { w with
    angctl := v &&& 0x80FFFFFF, sync := false, tpos := { w with angctl := v &&& 0x80FFFFFF }.undone, fallSeen := false
    lastLead := none, runs := [], gapped := false, sinceIndex := 0 }

section
variable {s : State} {n : Port} {v : Word}

theorem exec_angctlWrite (wr : Writer) (hw : isW n = true) (hp : s.has n = true) (h8 : 8 ≤ fld v 23 16) (h0 : fld v 15 0 ≠ 0)
    (ht : (s.port n).wh.en = true → fld v 23 16 = (s.port n).wh.teeth) :
    exec (.angctlWrite n wr v) s = done (angctlApply n v s) := by
  refine if_neg ?_
  simp only [angctlReserved, hw, hp, h0, Bool.not_true, Bool.false_or, decide_false, Bool.or_false, Bool.or_eq_true,
    decide_eq_true_eq, Bool.and_eq_true]
  rintro (h | ⟨hen, hne⟩)
  · omega
  · exact hne (ht hen)

theorem angctlApply_turned (h : (s.port n).wh.en ≠ bitOf v 31) :
    angctlApply n v s = setWheelMode n (if bitOf v 31 then .time else .off) (s.updWh n fun w => w.rewound v) := by
  unfold angctlApply
  dsimp only
  rw [if_neg h, updWh_updWh]
  rfl

/-- EN set begins TIME mode at angle 0. -/
theorem angctlApply_begin (he : (s.port n).wh.en = false) (hm : (s.port n).wh.mode = .off) (hv : bitOf v 31 = true) :
    angctlApply n v s = s.updWh n fun w =>
      { w.rewound v with mode := .time, turn := 0, tu := 0, synthCc := s.cc, synthRem := 0 } := by
  rw [angctlApply_turned (by rw [he, hv]; decide), hv, if_pos rfl]
  unfold setWheelMode
  dsimp only
  rw [if_neg (by simp [WheelSt.rewound, hm]), updWh_updWh]
  exact updWh_congr (by simp [WheelSt.rewound, hm])

/-- EN clear ends any mode. -/
theorem angctlApply_end (he : (s.port n).wh.en = true) (hm : (s.port n).wh.mode ≠ .off) (hb : (s.port n).wh.burstOpen = false)
    (hv : bitOf v 31 = false) :
    angctlApply n v s = s.updWh n fun w => { w.rewound v with mode := .off, turn := 0, tu := 0 } := by
  rw [angctlApply_turned (by rw [he, hv]; decide), hv, if_neg (by decide)]
  unfold setWheelMode
  dsimp only
  rw [if_neg (by simpa [WheelSt.rewound] using hm), forcedClose_of_closed (by simpa [WheelSt.rewound] using hb), updWh_updWh]

/-! ## Back to TIME mode (R380, R381) -/

theorem setWheelMode_time (hm : (s.port n).wh.mode = .angle ∨ (s.port n).wh.mode = .susp) :
    setWheelMode n .time (s.updWh n fun w => { w with runs := [] }) =
      s.updWh n fun w => { w with runs := [], mode := .time, synthCc := s.cc, synthRem := 0 } := by
  unfold setWheelMode
  dsimp only
  rw [if_neg (by rcases hm with hm | hm <;> simp [hm]), updWh_updWh]
  exact updWh_congr (by rcases hm with hm | hm <;> simp [hm])

end

/-! ## ANGLE_UPDATE (R378, R380) -/

/-- A wheel whose synthetic angle has advanced to a time, within its turn. -/
def WheelSt.synthetic (w : WheelSt) (t : Nat) : WheelSt :=
  let num := (t - w.synthCc) * 65536 + w.synthRem
  { w with tu := BitVec.ofNat 16 (w.tu.toNat + num / w.tintCc), synthCc := t, synthRem := num % w.tintCc }

section
variable {s : State} {n : Port} {t : Nat}

theorem exec_angleUpdate : exec (.angleUpdate n t) s = execAngleUpdate n t s := rfl

variable (ht : s.cc ≤ t)
include ht

theorem exec_angleUpdate_angle (hm : (s.port n).wh.mode = .angle) :
    exec (.angleUpdate n t) s = done ({ s with cc := t }.updWh n fun w => { w with tu := BitVec.ofNat 16 (w.toothTu (w.sinceLead t)) }) := by
  rw [exec_angleUpdate, execAngleUpdate, State.at_eq ht]
  simp only [State.port_mk, hm]

theorem exec_angleUpdate_still (hm : (s.port n).wh.mode = .off ∨ (s.port n).wh.mode = .susp) :
    exec (.angleUpdate n t) s = done { s with cc := t } := by
  rw [exec_angleUpdate, execAngleUpdate, State.at_eq ht]
  rcases hm with hm | hm <;> simp only [State.port_mk, hm]

theorem exec_angleUpdate_time (hm : (s.port n).wh.mode = .time)
    (h : (s.port n).wh.tu.toNat + ((t - (s.port n).wh.synthCc) * 65536 + (s.port n).wh.synthRem) / (s.port n).wh.tintCc < 65536) :
    exec (.angleUpdate n t) s = done ({ s with cc := t }.updWh n fun w => w.synthetic t) := by
  rw [exec_angleUpdate, execAngleUpdate, State.at_eq ht]
  simp only [State.port_mk, hm, Nat.add_assoc]
  generalize hq : (s.port n).wh.tu.toNat + ((t - (s.port n).wh.synthCc) * 65536 + (s.port n).wh.synthRem) / (s.port n).wh.tintCc = q at h
  have hturn : ((s.port n).wh.turn.toNat * 65536 + q) / 65536 = (s.port n).wh.turn.toNat := by omega
  rw [hturn, if_pos rfl]
  refine congrArg done (updWh_congr ?_)
  have htu : BitVec.ofNat 16 ((s.port n).wh.turn.toNat * 65536 + q) = BitVec.ofNat 16 q := by
    apply BitVec.eq_of_toNat_eq
    simp only [BitVec.toNat_ofNat]
    omega
  simp [WheelSt.synthetic, htu, hq]

end

/-- Settles O16: ANGCTL's writes, the way back to TIME mode, and the angle of each mode. -/
theorem wheelModesAndAngle : Obligations.WheelModesAndAngle := by
  refine ⟨fun s n wr v hs hw hp => ⟨?begin, ?endd, ?refused, ?angle, ?susp, ?notAngle, ?notSusp⟩,
    fun s n t hs ht => ⟨?inAngle, ?inTime, ?still⟩⟩
  case begin =>
    intro he hm hv h8 h0
    refine setsPort_updWh hs ((exec_angctlWrite wr hw hp h8 h0 fun h => ?_).trans (congrArg done (angctlApply_begin he hm hv)))
    rw [he] at h
    cases h
  case endd =>
    intro he hb hm hv h8 h0 ht
    exact setsPort_updWh hs ((exec_angctlWrite wr hw hp h8 h0 fun _ => ht).trans (congrArg done (angctlApply_end he hm hb hv)))
  case refused =>
    intro h
    refine refusesWrite_of hs (by decide) (if_pos ?_)
    simp only [angctlReserved, Bool.or_eq_true, Bool.and_eq_true, decide_eq_true_eq]
    rcases h with h | h | h
    · exact .inl (.inl (.inr h))
    · exact .inl (.inr h)
    · exact .inr h
  case angle =>
    intro hm
    exact setsPort_updWh hs (c := .angleModeTimeout n) ((if_pos hm).trans (congrArg done (setWheelMode_time (.inl hm))))
  case susp =>
    intro hm
    exact setsPort_updWh hs (c := .suspTimeout n) ((if_pos hm).trans (congrArg done (setWheelMode_time (.inr hm))))
  case notAngle => exact fun hm => idles_of hs (if_neg hm)
  case notSusp => exact fun hm => idles_of hs (if_neg hm)
  case inAngle =>
    intro hm
    exact answers_quiet (exec_angleUpdate_angle ht hm) hs.2
      ⟨rfl, port_updWh _ n _, Moves.changesOnly (by simp) hs.2 hs.2⟩
  case inTime =>
    intro hm h
    exact answers_quiet (exec_angleUpdate_time ht hm h) hs.2
      ⟨rfl, port_updWh _ n _, Moves.changesOnly (by simp) hs.2 hs.2⟩
  case still =>
    intro hm
    exact answers_quiet (exec_angleUpdate_still ht hm) hs.2 ⟨rfl, rfl, Moves.changesOnly (by simp) hs.2 hs.2⟩

end Sys2Proof.Machine
end

section
/-! Fields of words and words of memory: a field that is set leaves the others, a word that is written reads back (R543). -/

namespace Sys2Proof.Machine

/-! ## Fields -/

theorem getLsbD_setFld {k : Nat} (w : BitVec k) (hi lo v i : Nat) (h : i < k) :
    (setFld w hi lo v).getLsbD i = if lo ≤ i ∧ i < lo + (hi - lo + 1) then v.testBit (i - lo) else w.getLsbD i := by
  have hmask : (BitVec.ofNat k ((2 ^ (hi - lo + 1) - 1) <<< lo)).getLsbD i = decide (lo ≤ i ∧ i < lo + (hi - lo + 1)) := by
    rw [BitVec.getLsbD_ofNat, Nat.testBit_shiftLeft, Nat.testBit_two_pow_sub_one]
    by_cases hlo : lo ≤ i
    · by_cases hhi : i < lo + (hi - lo + 1)
      · have : i - lo < hi - lo + 1 := by omega
        simp [h, hlo, hhi, this]
      · have : ¬ i - lo < hi - lo + 1 := by omega
        simp [hhi, this]
    · simp [hlo]
  simp only [setFld, BitVec.getLsbD_or, BitVec.getLsbD_and, BitVec.getLsbD_not, hmask, BitVec.getLsbD_ofNat, Nat.testBit_shiftLeft]
  by_cases hr : lo ≤ i ∧ i < lo + (hi - lo + 1)
  · simp [hr, h]
  · simp [hr, h]

theorem testBit_fld {k : Nat} (w : BitVec k) (hi lo i : Nat) :
    (fld w hi lo).testBit i = (decide (i < hi - lo + 1) && w.getLsbD (lo + i)) := by
  rw [fld, Nat.testBit_mod_two_pow, Nat.testBit_shiftRight]
  rfl

/-- A field that is set leaves the fields beside it. -/
theorem fld_setFld_out {k : Nat} (w : BitVec k) {hi lo hi' lo' : Nat} (v : Nat) (h : hi < lo' ∨ hi' < lo) (hhi : hi < k)
    (hle : lo ≤ hi) (hle' : lo' ≤ hi') : fld (setFld w hi' lo' v) hi lo = fld w hi lo := by
  refine Nat.eq_of_testBit_eq fun i => ?_
  rw [testBit_fld, testBit_fld]
  by_cases hi' : i < hi - lo + 1
  · rw [getLsbD_setFld _ _ _ _ _ (by omega), if_neg (by omega)]
  · simp [hi']

theorem bitOf_setFld_out {k : Nat} (w : BitVec k) {i hi lo : Nat} (v : Nat) (h : i < lo ∨ hi < i) (hi' : i < k) (hle : lo ≤ hi) :
    bitOf (setFld w hi lo v) i = bitOf w i := by
  rw [bitOf, bitOf, getLsbD_setFld _ _ _ _ _ hi', if_neg (by omega)]

/-- A mask that covers a field keeps it. -/
theorem fld_and {k : Nat} (w m : BitVec k) {hi lo : Nat} (hle : lo ≤ hi) (hm : ∀ j, lo ≤ j → j ≤ hi → m.getLsbD j = true) :
    fld (w &&& m) hi lo = fld w hi lo := by
  refine Nat.eq_of_testBit_eq fun i => ?_
  rw [testBit_fld, testBit_fld, BitVec.getLsbD_and]
  by_cases hi' : i < hi - lo + 1
  · rw [hm (lo + i) (by omega) (by omega), Bool.and_true]
  · simp [hi']

/-! ## Words in memory -/

theorem natLE_bytesLE (w : Word) : natLE (bytesLE w) = w.toNat := by
  simp only [bytesLE, natLE, BitVec.extractLsb'_toNat, Nat.shiftRight_eq_div_pow]
  omega

theorem memWord_memWriteWord {m : Memory} (a : Nat) (w : Word) (h : Memory.wf m) : memWord (memWriteWord m a w) a = w := by
  have hr : memReadN (memWriteWord m a w) a 4 = bytesLE w := memReadN_memWriteN (bytesLE w) m a h
  rw [memWord, memNat, hr, natLE_bytesLE, BitVec.ofNat_toNat, BitVec.setWidth_eq]

theorem memWord_memWriteWord_out {m : Memory} {a x : Nat} (w : Word) (h : Memory.wf m) (hx : x + 4 ≤ a ∨ a + 4 ≤ x) :
    memWord (memWriteWord m a w) x = memWord m x := by
  have hr : memReadN (memWriteWord m a w) x 4 = memReadN m x 4 := memReadN_memWriteN_out 4 m a x (bytesLE w) h hx
  rw [memWord, memWord, memNat, memNat, hr]

theorem moves_memWriteWord {l : List Area} {s t : State} {a : Nat} {lo hi : Nat} (w : Word) (hm : memGood t.mem = true)
    (h : Area.mem lo hi ∈ l) (hlo : lo ≤ a) (hhi : a + 4 ≤ hi) :
    Moves l s { t with mem := memWriteWord t.mem a w } ↔ Moves l s t :=
  moves_writeMem (bs := bytesLE w) hm h hlo hhi

end Sys2Proof.Machine
end

section
/-! O17: pips and the windows they open (R319, R382 to R388). -/

namespace Sys2Proof.Machine

/-! ## The entry of a pip that fires (R319, R384) -/

/-- Word 1 of an entry that has fired in time: LATE is clear and FIRES counts, unless PIP.ARM has rewritten it in this cc. -/
def firedWord (s : State) (e : Fin 256) (w : Word) : Word :=
  if pipRewritten s e = true then pipW1 s e.val
  else setFld (setFld w 30 30 0) 15 0 ((fld (pipW1 s e.val) 15 0 + 1) % 65536)

/-- A memory of which entry e alone has changed, its second word now v. -/
structure PipMemory (m0 : Memory) (e : Fin 256) (v : Word) (m : Memory) : Prop where
  good : memGood m = true
  word : memWord m (pipAddr e.val + 4) = v
  other : ∀ x, x < pipAddr e.val + 4 ∨ pipAddr e.val + 8 ≤ x → memRead m x = memRead m0 x

theorem pipMemory_same {s : State} {e : Fin 256} (hm : memGood s.mem = true) : PipMemory s.mem e (pipW1 s e.val) s.mem :=
  ⟨hm, rfl, fun _ _ => rfl⟩

theorem pipMemory_written {m0 m : Memory} {e : Fin 256} {v : Word} (w : Word) (h : PipMemory m0 e v m) :
    PipMemory m0 e w (memWriteWord m (pipAddr e.val + 4) w) :=
  ⟨memGood_memWriteWord _ _ _ h.good, memWord_memWriteWord _ _ (of_decide_eq_true h.good), fun x hx =>
    (memRead_memWriteN_out (bytesLE w) m _ x (of_decide_eq_true h.good) hx).trans (h.other x hx)⟩

theorem PipMemory.moves {l : List Area} {s t : State} {e : Fin 256} {v : Word} {m : Memory} (h : PipMemory t.mem e v m)
    (hl : Area.mem (pipAddr e.val + 4) (pipAddr e.val + 8) ∈ l) : Moves l s { t with mem := m } ↔ Moves l s t :=
  moves_mem fun x hx => h.other x (hx _ _ hl)

/-- The count of a firing in time. -/
theorem countFiring_eq {s : State} (e : Fin 256) (hm : memGood s.mem = true) :
    ∃ m, countFiring e false s = { s with mem := m } ∧ PipMemory s.mem e (firedWord s e (pipW1 s e.val)) m := by
  unfold countFiring firedWord
  dsimp only
  split
  · exact ⟨s.mem, rfl, pipMemory_same hm⟩
  · exact ⟨_, rfl, pipMemory_written _ (pipMemory_same hm)⟩

/-- What PIP_FIRE makes of the entry before its action: LAST takes the turn, and the firing counts. -/
theorem countFiring_last {s : State} (e : Fin 256) (turn : Nat) (hm : memGood s.mem = true) :
    ∃ m, countFiring e false (if pipRewritten s e = true then s else setPipLast e.val turn s) = { s with mem := m }
      ∧ PipMemory s.mem e (firedWord s e (setFld (pipW1 s e.val) 29 22 (turn % 256))) m := by
  by_cases hr : pipRewritten s e = true
  · refine ⟨s.mem, ?_, ?_⟩
    · rw [if_pos hr, countFiring, if_pos hr]
    · rw [firedWord, if_pos hr]; exact pipMemory_same hm
  · have hlast := pipMemory_written (setFld (pipW1 s e.val) 29 22 (turn % 256)) (pipMemory_same (e := e) hm)
    have hw : pipW1 (setPipLast e.val turn s) e.val = setFld (pipW1 s e.val) 29 22 (turn % 256) := hlast.word
    refine ⟨_, ?_, pipMemory_written (firedWord s e (setFld (pipW1 s e.val) 29 22 (turn % 256))) hlast⟩
    rw [if_neg hr, countFiring]
    refine (if_neg (fun h => hr h)).trans ?_
    rw [hw, firedWord, if_neg hr, fld_setFld_out _ _ (.inl (by omega)) (by omega) (by omega) (by omega)]
    rfl

/-- Setting LAST changes neither word 0 of an entry nor whether it is armed. -/
theorem pipSeen_setPipLast (s : State) (e : Fin 256) (turn : Nat) (hm : memGood s.mem = true) :
    (pipSeen (setPipLast e.val turn s) e).1 = (pipSeen s e).1
    ∧ bitOf (pipSeen (setPipLast e.val turn s) e).2 31 = bitOf (pipSeen s e).2 31 := by
  have hwf := of_decide_eq_true hm
  have hshadow : pipShadow (setPipLast e.val turn s) e = pipShadow s e := rfl
  unfold pipSeen
  rw [hshadow]
  cases pipShadow s e with
  | some x => exact ⟨rfl, rfl⟩
  | none =>
    refine ⟨memWord_memWriteWord_out _ hwf (by omega), ?_⟩
    have hw : pipW1 (setPipLast e.val turn s) e.val = setFld (pipW1 s e.val) 29 22 (turn % 256) := memWord_memWriteWord _ _ hwf
    show bitOf (pipW1 (setPipLast e.val turn s) e.val) 31 = bitOf (pipW1 s e.val) 31
    rw [hw, bitOf_setFld_out _ _ (.inr (by omega)) (by omega) (by omega)]

theorem armed_of_due {s : State} {e : Fin 256} (h : pipDue s e = true) : bitOf (pipSeen s e).2 31 = true := by
  simp only [pipDue, Bool.and_eq_true] at h
  exact h.1.1.1.1.1

/-- A due pip fires: its entry is counted and its action happens (R384). -/
theorem exec_pipFire {s : State} {e : Fin 256} (hm : memGood s.mem = true) (h : pipDue s e = true) :
    ∃ m, exec (.pipFire e) s = done (pipAct e (pipSeen s e).1 false false { s with mem := m })
      ∧ PipMemory s.mem e (firedWord s e (setFld (pipW1 s e.val) 29 22
        ((s.port ⟨pipWheel (pipSeen s e).1 % 16, by omega⟩).wh.turn.toNat % 256))) m := by
  obtain ⟨m, hcount, hmem⟩ := countFiring_last (s := s) e
    (s.port ⟨pipWheel (pipSeen s e).1 % 16, by omega⟩).wh.turn.toNat hm
  refine ⟨m, (if_pos h).trans (congrArg done ?_), hmem⟩
  rw [← hcount]
  have harmed := armed_of_due h
  split
  · exact if_pos harmed
  · obtain ⟨hw0, hw1⟩ := pipSeen_setPipLast s e (s.port ⟨pipWheel (pipSeen s e).1 % 16, by omega⟩).wh.turn.toNat hm
    rw [firePip, hw1, if_pos harmed, hw0]

/-- The entry at the head of the sweep queue acts unless it has been disarmed (R385). -/
theorem exec_sweep_armed {s : State} {e : Fin 256} {qs : List SweepItem} (hm : memGood s.mem = true)
    (hq : s.tim.queue = ⟨e, false, false⟩ :: qs) (h : bitOf (pipSeen s e).2 31 = true) :
    ∃ m, exec .sweepQueueExecute s =
        done (pipAct e (pipSeen s e).1 false false { s with mem := m, tim := { s.tim with queue := qs } })
      ∧ PipMemory s.mem e (firedWord s e (pipW1 s e.val)) m := by
  obtain ⟨m, hcount, hmem⟩ := countFiring_eq (s := { s with tim := { s.tim with queue := qs } }) e hm
  have hexec : exec .sweepQueueExecute s = execSweepQueueExecute s := rfl
  refine ⟨m, ?_, hmem⟩
  rw [hexec, execSweepQueueExecute, hq]
  refine congrArg done ((if_pos h).trans ?_)
  dsimp only
  rw [hcount]
  rfl

theorem exec_sweep_disarmed {s : State} {x : SweepItem} {qs : List SweepItem} (hq : s.tim.queue = x :: qs)
    (h : bitOf (pipSeen s x.entry).2 31 = false) :
    exec .sweepQueueExecute s = done { s with tim := { s.tim with queue := qs } } := by
  have hexec : exec .sweepQueueExecute s = execSweepQueueExecute s := rfl
  have hu : ¬ bitOf (pipSeen { s with tim := { s.tim with queue := qs } } x.entry).2 31 = true := by
    rw [show pipSeen { s with tim := { s.tim with queue := qs } } x.entry = pipSeen s x.entry from rfl, h]; decide
  rw [hexec, execSweepQueueExecute, hq]
  exact congrArg done (if_neg hu)

/-! ## The actions (R387) -/

section
variable (e : Fin 256) {w0 : Word} (u : State)

theorem pipAct_open (h : pipAction w0 = 1) :
    pipAct e w0 false false u = openPip ⟨pipWheel w0 % 16, by omega⟩ false false u := by
  unfold pipAct; rw [h]; rfl

theorem pipAct_start {k : Fin 24} (h : pipAction w0 = 4) (hk : pipArg w0 = k.val + 16) :
    pipAct e w0 false false u = startCounter k u := by
  unfold pipAct; rw [h, hk, counterOf_channel]; rfl

theorem pipAct_stop {k : Fin 24} (h : pipAction w0 = 6) (hk : pipArg w0 = k.val + 16) :
    pipAct e w0 false false u = stopCounter k u := by
  unfold pipAct; rw [h, hk, counterOf_channel]; rfl

/-- The note of a NOTIFY pip (R387, R395). -/
def pipNote (e : Fin 256) (turn : Nat) (old : Word) : Word :=
  place ((fld old 23 16 + 1) % 256) 16 ||| place (turn % 64) 8 ||| place e.val 0

theorem pipAct_notify (h : pipAction w0 = 3) (harg : pipArg w0 % 4 < 3) :
    pipAct e w0 false false u =
      State.fireSrc
        { u with tim := { u.tim with pipnote := (u.tim.pipnote.set (pipArg w0 % 4)
          (pipNote e (u.port ⟨pipWheel w0 % 16, by omega⟩).wh.turn.toNat u.tim.pipnote[pipArg w0 % 4])) } }
        ⟨pipArg w0 % 4 + 4, by omega⟩ (if pipArg w0 % 4 = 2 then 16 else 15) := by
  have hcore : ((⟨pipArg w0 % 4 + 4, by omega⟩ : Core) = coreSV) ↔ pipArg w0 % 4 = 2 := by
    rw [Fin.ext_iff]; show pipArg w0 % 4 + 4 = 6 ↔ _; omega
  unfold pipAct
  rw [h]
  show notifyPip ⟨pipWheel w0 % 16, by omega⟩ e (pipArg w0) false u = _
  unfold notifyPip
  rw [dif_pos harg]
  simp only [hcore, pipNote, placeB, Bool.false_eq_true, if_false, BitVec.ofNat_eq_ofNat, BitVec.or_zero]

end

/-! ## An OPEN pip (R388) -/

section
variable {u : State} {n : Port} (hc : bitOf (u.port n).ripe.burstctl 31 = true)
  (hw : ¬ ((u.port n).wh.burstOpen = true ∨ (u.port n).cf.attach ≠ .attachedSrc ∨ bitOf (u.port n).ln.linectl 0 = false
    ∨ (u.port n).st.mode = .off ∨ (u.port n).st.force ≠ []))
include hc hw

/-- A token left: the window opens. -/
theorem openPip_opens (ht : ¬ (u.led.tokens ≤ u.led.tokout ∨ u.led.cut = true)) :
    openPip n false false u = { u with led := { u.led with tokout := u.led.tokout + 1 } }.updPort n fun p =>
      { p with
        wh := { p.wh with burstOpen := true, token := true, markPend := true, tmaxRun := true, opens := p.wh.opens + 1 }
        st := p.st.setBurst u.cc true
        ln := { p.ln with mark := some { isOpen := true, turn := p.wh.turn.setWidth 6 } }
        ct := { p.ct with prof := p.ct.profGranted } } := by
  unfold openPip
  dsimp only
  rw [if_neg (by rw [hc]; decide), if_neg hw, if_neg (by simp)]
  refine (if_neg ht).trans ?_
  simp only [armProfile, State.updCt, State.updWh, State.updSt, State.updLn, State.updPort]
  simp
  rfl

/-- No token left: the burst is skipped. -/
theorem openPip_skips (ht : u.led.tokens ≤ u.led.tokout ∨ u.led.cut = true) :
    openPip n false false u = (u.updPort n fun p =>
      { p with wh := { p.wh with skipTok := satInc p.wh.skipTok }, ct := { p.ct with prof := p.ct.profGranted } }).fire 143 n.val := by
  unfold openPip
  dsimp only
  rw [if_neg (by rw [hc]; decide), if_neg hw, if_neg (by simp)]
  refine (if_pos ht).trans ?_
  rw [armProfile, State.updCt, State.updWh, updPort_updPort]

end

/-! ## The statement -/

/-- Settles O17: the entry of a pip that fires, its action, and the window that an OPEN pip opens or skips. -/
theorem pipsActAndOpenWindows : Obligations.PipsActAndOpenWindows := by
  refine ⟨fun s e hs => ⟨?notify, ?start, ?undue, ?stop, ?disarmed, ?empty⟩, fun s e hs hon => ?opens⟩
  case notify =>
    intro hdue hact harg
    obtain ⟨m, hexec, hmem⟩ := exec_pipFire hs.1 hdue
    rw [pipAct_notify e _ hact harg] at hexec
    refine answers_quiet hexec hs.2 ⟨hmem.word, rfl, ?_, Moves.changesOnly ?_ hs.2 hs.2⟩
    · exact evtPend_fireSrc_same _ _ (by split <;> omega)
    · exact (moves_fireSrc (by simp) _ _).mpr ((moves_tim (by simp) _).mpr ((hmem.moves (by simp)).mpr (Moves.refl _ _)))
  case start =>
    intro k hdue hact hk
    obtain ⟨m, hexec, hmem⟩ := exec_pipFire hs.1 hdue
    rw [pipAct_start e _ hact hk] at hexec
    exact answers_quiet hexec hs.2 ⟨hmem.word, rfl, Moves.changesOnly ((moves_tim (by simp) _).mpr ((hmem.moves (by simp)).mpr (Moves.refl _ _))) hs.2 hs.2⟩
  case undue => exact fun h => idles_of hs (if_neg (by rw [h]; decide))
  case stop =>
    intro k qs hq harmed hact hk
    obtain ⟨m, hexec, hmem⟩ := exec_sweep_armed hs.1 hq harmed
    rw [pipAct_stop e _ hact hk] at hexec
    refine answers_quiet hexec hs.2 ⟨hmem.word, rfl, Moves.changesOnly ?_ hs.2 hs.2⟩
    exact (moves_tim (t := { s with mem := m }) (by simp) _).mpr ((hmem.moves (t := s) (by simp)).mpr (Moves.refl _ _))
  case disarmed =>
    intro late crossed qs hq h
    exact answers_tim hs (exec_sweep_disarmed hq h)
  case empty =>
    intro hq
    have hexec : exec .sweepQueueExecute s = execSweepQueueExecute s := rfl
    exact idles_of hs (by rw [hexec, execSweepQueueExecute, hq])
  case opens =>
    dsimp only
    intro hdue hact hctl hb hatt hline hmode hforce
    obtain ⟨m, hexec, hmem⟩ := exec_pipFire hs.1 hdue
    rw [pipAct_open e _ hact] at hexec
    have hw : ¬ (({ s with mem := m }.port ⟨pipWheel (pipSeen s e).1 % 16, by omega⟩).wh.burstOpen = true ∨
        ({ s with mem := m }.port ⟨pipWheel (pipSeen s e).1 % 16, by omega⟩).cf.attach ≠ .attachedSrc ∨
        bitOf ({ s with mem := m }.port ⟨pipWheel (pipSeen s e).1 % 16, by omega⟩).ln.linectl 0 = false ∨
        ({ s with mem := m }.port ⟨pipWheel (pipSeen s e).1 % 16, by omega⟩).st.mode = .off ∨
        ({ s with mem := m }.port ⟨pipWheel (pipSeen s e).1 % 16, by omega⟩).st.force ≠ []) := by
      simp [hb, hatt, hline, hmode, hforce]
    refine ⟨fun htok hcut => ?_, fun htok => ?_⟩
    · rw [openPip_opens (u := { s with mem := m }) hctl hw (by simp [htok, hcut])] at hexec
      refine answers_quiet hexec hs.2 ⟨rfl, State.port_updPort_same _ _ _, Moves.changesOnly ?_ hs.2 hs.2⟩
      exact (moves_updPort (by simp) _).mpr ((moves_led (t := { s with mem := m }) (by simp) _).mpr ((hmem.moves (by simp)).mpr (Moves.refl _ _)))
    · rw [openPip_skips (u := { s with mem := m }) hctl hw htok] at hexec
      refine answers_of hexec ⟨?_, logs_flush ?_ ?_ ?_, Moves.flush ?_ (by simp) hs.2 ?_⟩
      · rw [State.port_flush, State.port_fire]; exact State.port_updPort_same _ _ _
      · refine (State.fire_evq _ _ _ ?_).trans ?_
        · exact hon
        · exact congrArg (· ++ _) hs.2
      · simpa using hmem.good
      · simp
      · exact (moves_fire (by simp) _ _).mpr ((moves_updPort (by simp) _).mpr ((hmem.moves (by simp)).mpr (Moves.refl _ _)))
      · simpa using hmem.good

end Sys2Proof.Machine
end

section
/-! O18: burst windows end, tokens return (R389, R390, R173; DESIGN CHOICE, log entries 79 and 98). -/

namespace Sys2Proof.Machine

/-- An open window whose OPEN mark waits is closed, its mark withdrawn. -/
theorem port_closeWindow_marked {s : State} {n : Port} (h : (s.port n).wh.markPend = true) :
    (closeWindow n s).port n = { s.port n with
      wh := { (s.port n).wh with burstOpen := false, markPend := false, tmaxRun := false, returning := (s.port n).wh.token }
      st := (s.port n).st.setBurst s.cc false
      ln := { (s.port n).ln with mark := none } } := by
  unfold closeWindow
  simp [h]

/-- The OPEN mark has found no free line by TOL: the burst counts as skipped. -/
theorem setsPortFires_burstTolExpiry {s : State} {n : Port} (hs : s.settled) (hon : s.eventsOn = true)
    (hb : (s.port n).wh.burstOpen = true) (hm : (s.port n).wh.markPend = true) :
    setsPortFires (.burstTolExpiry n) s n { s.port n with
      wh := { (s.port n).wh with burstOpen := false, markPend := false, tmaxRun := false, returning := (s.port n).wh.token
                                 skipLate := satInc (s.port n).wh.skipLate }
      st := (s.port n).st.setBurst s.cc false
      ln := { (s.port n).ln with mark := none } } 141 (n.val + 16) := by
  have hexec : exec (.burstTolExpiry n) s = done (skipLate n (closeWindow n s)) := if_pos (by simp [hb, hm])
  have hon' : ((closeWindow n s).updWh n fun w => { w with skipLate := satInc w.skipLate }).eventsOn = true := by
    rw [eventsOn_updWh, ← hon]; exact eventsOn_congr (by simp)
  refine setsPortFires_of_moves hs hexec ?_ ?_ ?_ ?_ ?_
  · rw [skipLate, State.fire_evq _ _ _ hon']; simp [hs.2]
  · simp [skipLate, port_closeWindow_marked hm]
  · simp [skipLate]
  · simp [skipLate, hs.1]
  · simp [skipLate]

/-- Settles O18: the two ends of a window by its timers, and the token that comes back. -/
theorem windowsEndAndTokensReturn : Obligations.WindowsEndAndTokensReturn := by
  intro s n hs hon
  dsimp only
  refine ⟨setsPortFires_burstTolExpiry hs hon, fun hb ht => ?_, fun hb => ⟨?_, ?_⟩, fun hret htok => ?_⟩
  · exact setsPort_of_moves hs (c := .burstTmaxExpiry n) (if_pos (by simp [hb, ht])) hs.2 (by simp) (by simp)
  · exact idles_of hs (if_neg (by simp [hb]))
  · exact idles_of hs (if_neg (by simp [hb]))
  · have hexec : exec (.tokenReturn n) s = done ({ s with led := { s.led with tokout := s.led.tokout - 1 } }.updWh n
        fun w => { w with returning := false, token := w.burstOpen }) := by
      refine (if_pos hret).trans ?_
      rw [htok]
    refine answers_quiet hexec hs.2 ⟨rfl, port_updWh _ _ _, Moves.changesOnly ?_ hs.2 hs.2⟩
    exact (moves_updWh (by simp) _).mpr ((moves_led (t := s) (by simp) _).mpr (Moves.refl _ _))

end Sys2Proof.Machine
end

section
/-! O19: new readings on the configuration wires (R89 to R92, R95, R105 to R107, R429; DESIGN CHOICE, log entry 13). -/

namespace Sys2Proof.Machine

/-! ## Seeking a partner (R106) -/

/-- The wires of an unattached port that may look for a partner. -/
def CfSt.seeking (c : CfSt) (cc : Nat) : CfSt :=
  if c.asSource then
    if c.sinkSeen cc then
      { c with attach := .attachWait, attachRun := (c.sourceRow cc).isSome, debounced := false, startRow := (c.cf1, c.cf2) }
    else c
  else if c.sourceSeen then
    { c with attach := .attachWait, attachRun := true, debounced := false, startRow := (c.cf1, c.cf2) }
  else c

section
variable {s : State} {n : Port}

theorem seekPartner_eq (ha : (s.port n).cf.attach = .unattached) (hsig : s.signals n = true)
    (hp : (s.port n).cf.presents n = true) (hm : s.muted n = false) :
    seekPartner n s = s.updCf n fun c => c.seeking s.cc := by
  unfold seekPartner
  dsimp only
  rw [if_neg (by simp [ha, hsig, hp, hm])]
  have hkeep (h : (s.port n).cf.seeking s.cc = (s.port n).cf) : s = s.updCf n fun c => c.seeking s.cc :=
    (updCf_of_fixed (f := fun c => c.seeking s.cc) h).symm
  split
  · next hsrc =>
    split
    · next hseen => exact updCf_congr ((if_pos hsrc).trans (if_pos hseen)).symm
    · next hseen => exact hkeep ((if_pos hsrc).trans (if_neg hseen))
  · next hsrc =>
    split
    · next hseen => exact updCf_congr ((if_neg hsrc).trans (if_pos hseen)).symm
    · next hseen => exact hkeep ((if_neg hsrc).trans (if_neg hseen))

/-- The same of wires that have just been set. -/
theorem seekPartner_updCf (g : CfSt → CfSt) (ha : (g (s.port n).cf).attach = .unattached) (hsig : s.signals n = true)
    (hp : (g (s.port n).cf).presents n = true) (hm : s.muted n = false) :
    seekPartner n (s.updCf n g) = s.updCf n fun c => (g c).seeking s.cc := by
  rw [seekPartner_eq (s := s.updCf n g) (by rwa [port_updCf]) hsig (by rwa [port_updCf]) hm, updCf_updCf]
  rfl

/-- A port that presents nothing, or is kept mute, looks for no partner. -/
theorem seekPartner_silent (h : (s.port n).cf.presents n = false ∨ s.muted n = true) : seekPartner n s = s :=
  if_pos (by rcases h with h | h <;> simp [h])

/-! ## A reading changes -/

/-- The wires of an unattached port with new readings: on KU tLEGACY starts anew where R105 does not hold. -/
def CfSt.reread (c : CfSt) (n : Port) (legacy : Bool) : CfSt := { c with legacyDue := c.legacyDue && (decide (n ≠ portKU) || legacy) }

theorem legacyDue_reread (f : CfSt → CfSt) :
    (if n = portKU ∧ (s.updCf n f).legacyCond = false then (s.updCf n f).updCf n fun c => { c with legacyDue := false }
      else s.updCf n f) =
    s.updCf n fun c => (f c).reread n (decide (20000 ≤ s.fd.kuMv ∧ s.fd.kuMv ≤ 32000) && !(f (s.port n).cf).sourceSeen) := by
  by_cases hku : n = portKU
  · subst hku
    have hcond : (s.updCf portKU f).legacyCond =
        (decide (20000 ≤ s.fd.kuMv ∧ s.fd.kuMv ≤ 32000) && !(f (s.port portKU).cf).sourceSeen) := by
      rw [State.legacyCond, port_updCf]; rfl
    rw [hcond]
    generalize (decide (20000 ≤ s.fd.kuMv ∧ s.fd.kuMv ≤ 32000) && !(f (s.port portKU).cf).sourceSeen) = b
    cases b
    · rw [if_pos ⟨rfl, rfl⟩, updCf_updCf]
      exact updCf_congr (by simp [CfSt.reread])
    · rw [if_neg (by simp)]
      exact updCf_congr (by simp [CfSt.reread])
  · rw [if_neg (by simp [hku])]
    exact updCf_congr (by simp [CfSt.reread, hku])

theorem exec_cfReadingChange (r1 r2 : Reading) (hsig : s.signals n = true) (hm : (s.port n).mo.measuring = false) :
    exec (.cfReadingChange n r1 r2) s = done (onReading n r1 r2 s) := if_pos (by simp [hsig, hm])

theorem onReading_unattached {r1 r2 : Reading} (ha : (s.port n).cf.attach = .unattached) :
    onReading n r1 r2 s = seekPartner n (s.updCf n fun c => { c with cf1 := r1, cf2 := r2 }.reread n
      (decide (20000 ≤ s.fd.kuMv ∧ s.fd.kuMv ≤ 32000) && !{ (s.port n).cf with cf1 := r1, cf2 := r2 }.sourceSeen)) := by
  rw [← legacyDue_reread fun c => { c with cf1 := r1, cf2 := r2 }]
  simp only [onReading, port_updCf, ha]

theorem onReading_attachedSrc {r1 r2 : Reading} (ha : (s.port n).cf.attach = .attachedSrc) :
    onReading n r1 r2 s = s.updCf n fun c => { c with cf1 := r1, cf2 := r2 } := by
  simp only [onReading, port_updCf, ha]

theorem onReading_attachedSnk {r1 r2 : Reading} (ha : (s.port n).cf.attach = .attachedSnk) (hoff : (s.port n).cf.csupOn = false) :
    onReading n r1 r2 s = s.updCf n fun c =>
      { c with cf1 := r1, cf2 := r2, csupIn := decide ({ c with cf1 := r1, cf2 := r2 }.otherReading = .floatBand) } := by
  simp only [onReading, port_updCf, ha, hoff, Bool.false_eq_true, if_false, updCf_updCf]

end

/-- Settles O19: what a reading does to the attach machine in each of its states. -/
theorem readingsBeginTheAttach : Obligations.ReadingsBeginTheAttach := by
  intro s n r1 r2 hs hsig
  dsimp only
  refine ⟨fun hm => idles_of hs (if_neg (by simp [hm])), fun hm => ?_⟩
  have hexec := exec_cfReadingChange r1 r2 hsig hm
  refine ⟨fun ha hp hmute hsrc => ?_, fun ha hp hmute hsrc => ?_, fun ha hp => ?_, fun ha => ?_, fun ha hoff => ?_⟩
  · rw [onReading_unattached ha, seekPartner_updCf _ ha hsig hp hmute] at hexec
    exact setsPort_of_moves hs hexec hs.2 ((port_updCf _ _ _).trans (congrArg (fun c => ({ s.port n with cf := c } : PortSt))
      (if_pos hsrc))) (by simp)
  · rw [onReading_unattached ha, seekPartner_updCf _ ha hsig hp hmute] at hexec
    exact setsPort_of_moves hs hexec hs.2 ((port_updCf _ _ _).trans (congrArg (fun c => ({ s.port n with cf := c } : PortSt))
      (if_neg (Bool.not_eq_true _ ▸ hsrc)))) (by simp)
  · rw [onReading_unattached ha, seekPartner_silent (by rw [port_updCf]; exact hp)] at hexec
    exact setsPort_updCf hs hexec
  · exact setsPort_updCf hs (hexec.trans (congrArg done (onReading_attachedSrc ha)))
  · exact setsPort_updCf hs (hexec.trans (congrArg done (onReading_attachedSnk ha hoff)))

end Sys2Proof.Machine
end

section
/-! The ledger's operations where the books fit (R166 to R168, R171): what each leaves in the books, in the request slot, in the
grant record and in the journal, and that it moves nothing else. -/

namespace Sys2Proof.Machine

/-! ## Bytes of memory -/

theorem memReadN_memWriteN_start {m : Memory} {a k : Nat} {bs : List Byte} (h : memGood m = true) (hk : k ≤ bs.length) :
    memReadN (memWriteN m a bs) a k = bs.take k := by
  have hr := memReadN_memWriteN_part [] (bs.take k) (bs.drop k) m a (of_decide_eq_true h)
  simpa [Nat.min_eq_left hk] using hr

theorem readMem_writeMem_start {s : State} {a k : Nat} {bs : List Byte} (h : memGood s.mem = true) (hk : k ≤ bs.length) :
    (s.writeMem a bs).readMem a k = bs.take k := memReadN_memWriteN_start h hk

theorem readMem_writeMem_out {s : State} {a x k : Nat} {bs : List Byte} (h : memGood s.mem = true)
    (hx : x + k ≤ a ∨ a + bs.length ≤ x) : (s.writeMem a bs).readMem x k = s.readMem x k :=
  memReadN_memWriteN_out k s.mem a x bs (of_decide_eq_true h) hx

theorem readMem_congr {s u : State} (h : u.mem = s.mem) (a k : Nat) : u.readMem a k = s.readMem a k := by
  rw [State.readMem, State.readMem, h]

/-- What lies off the event rings is read from a flushed state as before. -/
theorem readMem_flush {s : State} {a k : Nat} (h : memGood s.mem = true) (ha : 0x3000B800 ≤ a) :
    s.flush.readMem a k = s.readMem a k := by
  unfold State.readMem
  induction k generalizing a with
  | zero => rfl
  | succ k ih => rw [memReadN, memReadN, ih (by omega), s.flush_read a (of_decide_eq_true h) (.inr ha)]

/-- One of the listed areas holds the addresses from lo below hi. -/
def covers (l : List Area) (lo hi : Nat) : Prop := ∃ a b, Area.mem a b ∈ l ∧ a ≤ lo ∧ hi ≤ b

theorem covers_of_mem {l : List Area} {lo hi : Nat} (h : Area.mem lo hi ∈ l) : covers l lo hi := ⟨lo, hi, h, le_rfl, le_rfl⟩

theorem moves_writeMem_covered {l : List Area} {s t : State} {a b : Nat} {bs : List Byte} (hm : memGood t.mem = true)
    (h : covers l a b) (hb : a + bs.length ≤ b) : Moves l s (t.writeMem a bs) ↔ Moves l s t := by
  obtain ⟨lo, hi, hmem, hlo, hhi⟩ := h
  exact moves_writeMem hm hmem hlo (by omega)

/-! ## Sums (R164) -/

theorem grantSum_set (l : LedgerSt) (n : Port) (h : Nat) :
    ({ l with held := l.held.set n h } : LedgerSt).grantSum = l.grantSum - l.held[n] + h := by
  have hsum := List.sum_set l.held.toList n.val h
  have hself := List.sum_set l.held.toList n.val l.held[n]
  have hn : n.val < l.held.toList.length := by simp
  have hget : l.held.toList.set n.val l.held[n] = l.held.toList :=
    (Vector.toList_set n.isLt).symm.trans (congrArg Vector.toList (Vector.set_getElem_self n.isLt))
  rw [if_pos hn] at hsum hself
  rw [hget] at hself
  simp only [LedgerSt.grantSum, Vector.toList_set]
  omega

/-- A RAISE that is not refused fits AVAIL with what it holds then (R166). -/
theorem raise_fits {l : LedgerSt} {n : Port} {new tok : Nat} (h : raiseRefused l n new tok = false) :
    (l.holding n (max l.held[n] new) (max l.tokpwr[n] tok)).grantSum +
      (l.holding n (max l.held[n] new) (max l.tokpwr[n] tok)).tokRes ≤ l.avail := by
  have hsum : (l.holding n (max l.held[n] new) (max l.tokpwr[n] tok)).grantSum = l.grantSum - l.held[n] + max l.held[n] new :=
    grantSum_set l n _
  unfold raiseRefused at h
  simp only [decide_eq_false_iff_not, Nat.not_lt] at h
  rw [hsum]
  refine le_trans (Nat.add_le_add_left ?_ _) h
  by_cases ht : 0 < tok
  · rw [if_pos ht]
    unfold LedgerSt.tokRes
    split
    · exact Nat.zero_le _
    · exact le_rfl
  · have h0 : max l.tokpwr[n] tok = l.tokpwr[n] := by omega
    rw [if_neg ht, h0]
    simp [LedgerSt.tokRes, LedgerSt.tokPwrMax]

/-! ## The books fit (R171) -/

/-- The books once they have been found to fit. -/
abbrev LedgerSt.settled (l : LedgerSt) : LedgerSt := { l with shedRun := false, excursion := false }

theorem ledgerAct_of_fits {s : State} (h : s.led.grantSum + s.led.tokRes ≤ s.led.avail) :
    ledgerAct s = { s with led := s.led.settled } := if_pos h

/-! ## One operation (R166, R167) -/

/-- A book operation that is not refused: the grant, its record, its journal entry, and R171. -/
def bookOp (n : Port) (op new h tok : Nat) (s : State) : State :=
  ledgerAct (journal n op 1 (writeGrant n s.led.held[n] new (setHeld n h tok s)))

theorem opRaise_covered_eq {s : State} {n : Port} {new tok : Nat} (h : raiseRefused s.led n new tok = false) :
    opRaise n new tok s = (1, bookOp n 0 new (max s.led.held[n] new) (max s.led.tokpwr[n] tok) s) :=
  if_neg (by rw [h]; decide)

theorem opSettle_eq (n : Port) (new tok : Nat) (s : State) : opSettle n new tok s = bookOp n 1 new new tok s := rfl

theorem opRelease_eq (n : Port) (s : State) : opRelease n s = bookOp n 2 0 0 0 s := rfl

/-- Where a token power ends while the token is out, the old one is 0 already. -/
def keepsTok (s : State) (n : Port) (tok : Nat) : Prop := (s.port n).wh.token = true → tok = 0 → s.led.tokpwr[n] = 0

theorem keepsTok_of_free {s : State} {n : Port} (tok : Nat) (h : (s.port n).wh.token = false) : keepsTok s n tok := by
  intro ht
  rw [h] at ht
  cases ht

theorem keepsTok_raise (s : State) (n : Port) (tok : Nat) : keepsTok s n (max s.led.tokpwr[n] tok) := fun _ h => by omega

theorem setHeld_led {s : State} {n : Port} (h : Nat) {tok : Nat} (ht : keepsTok s n tok) :
    (setHeld n h tok s).led = s.led.holding n h tok := by
  unfold setHeld
  split
  · next hc =>
    obtain ⟨rfl, htok⟩ := hc
    have hset : s.led.tokpwr.set n 0 = s.led.tokpwr := by
      conv_lhs => rw [← ht htok rfl]
      exact Vector.set_getElem_self _
    simp [LedgerSt.holding, hset]
  · rfl

theorem port_setHeld (n : Port) (h tok : Nat) (s : State) :
    (setHeld n h tok s).port n = { s.port n with
      ct := { (s.port n).ct with tokAfter := if tok = 0 ∧ (s.port n).wh.token then some 0 else none } } := by
  unfold setHeld
  split <;> simp

theorem setHeld_mem (n : Port) (h tok : Nat) (s : State) : (setHeld n h tok s).mem = s.mem := by
  unfold setHeld
  split <;> rfl

theorem moves_setHeld {l : List Area} {n : Port} (hn : .port n ∈ l) (hl : .led ∈ l) (h tok : Nat) (s : State) :
    Moves l s (setHeld n h tok s) := by
  unfold setHeld
  split
  · exact (moves_updCt (.inl hn) _).mpr ((moves_led (t := s) hl _).mpr (Moves.refl l s))
  · exact (moves_updCt (.inl hn) _).mpr ((moves_led (t := s) hl _).mpr (Moves.refl l s))

theorem port_setHeld_ne {n m : Port} (h tok : Nat) (s : State) (hm : m ≠ n) : (setHeld n h tok s).port m = s.port m := by
  unfold setHeld
  split <;> simp [hm]

/-- The grant record of an operation (R167). -/
def grantBytes (l : LedgerSt) (n : Port) (old new time : Nat) : List Byte :=
  toBytesLE 2 l.held[n] ++ toBytesLE 2 old ++ toBytesLE 2 new ++ toBytesLE 2 l.tokpwr[n] ++ toBytesLE 4 time ++ toBytesLE 4 0

/-- Its journal entry (R167). -/
def journalBytes (l : LedgerSt) (n : Port) (op result time : Nat) : List Byte :=
  toBytesLE 2 (n.val * 4096 + op * 1024 + result * 256) ++ toBytesLE 2 l.held[n] ++ toBytesLE 2 l.grantSum ++ toBytesLE 2 0
    ++ toBytesLE 4 time ++ toBytesLE 4 0

@[simp] theorem grantBytes_length (l : LedgerSt) (n : Port) (old new time : Nat) : (grantBytes l n old new time).length = 16 := by
  simp [grantBytes]

@[simp] theorem journalBytes_length (l : LedgerSt) (n : Port) (op result time : Nat) : (journalBytes l n op result time).length = 16 := by
  simp [journalBytes]

/-- The memory once an operation that is not refused has written its grant record and its journal entry. -/
def bookMemory (s : State) (n : Port) (op new h tok : Nat) : Memory :=
  memWriteN (memWriteN s.mem (0x3000C100 + 16 * n.val) (grantBytes (s.led.holding n h tok) n s.led.held[n] new s.timeUs))
    (0x3000C200 + 16 * (s.led.jhead % 32)) (journalBytes (s.led.holding n h tok) n op 1 s.timeUs)

theorem journal_eq (n : Port) (op result : Nat) (s : State) : journal n op result s =
    { s with
      mem := memWriteN s.mem (0x3000C200 + 16 * (s.led.jhead % 32)) (journalBytes s.led n op result s.timeUs)
      led := { s.led with jhead := (s.led.jhead + 1) % 32 } } := rfl

section
variable {s : State} {n : Port} (op new h : Nat) {tok : Nat}

/-- The hub once a book operation has recorded its grant and its journal entry, the books not yet judged. -/
def bookWritten (n : Port) (op new h tok : Nat) (s : State) : State :=
  journal n op 1 (writeGrant n s.led.held[n] new (setHeld n h tok s))

theorem bookOp_eq (h1 : ((bookWritten n op new h tok s).led).grantSum + ((bookWritten n op new h tok s).led).tokRes ≤
    ((bookWritten n op new h tok s).led).avail) :
    bookOp n op new h tok s = { bookWritten n op new h tok s with led := (bookWritten n op new h tok s).led.settled } :=
  ledgerAct_of_fits h1

theorem bookWritten_led (ht : keepsTok s n tok) :
    (bookWritten n op new h tok s).led = { s.led.holding n h tok with jhead := (s.led.jhead + 1) % 32 } := by
  have hset := setHeld_led h ht
  show { (setHeld n h tok s).led with jhead := ((setHeld n h tok s).led.jhead + 1) % 32 } = _
  rw [hset]

theorem bookWritten_mem (ht : keepsTok s n tok) : (bookWritten n op new h tok s).mem = bookMemory s n op new h tok := by
  have hset := setHeld_led h ht
  have htime : (setHeld n h tok s).timeUs = s.timeUs := by unfold setHeld; split <;> rfl
  have hmem : (setHeld n h tok s).mem = s.mem := by unfold setHeld; split <;> rfl
  show memWriteN (memWriteN (setHeld n h tok s).mem _ (grantBytes (setHeld n h tok s).led n s.led.held[n] new (setHeld n h tok s).timeUs))
    (0x3000C200 + 16 * ((setHeld n h tok s).led.jhead % 32))
    (journalBytes (setHeld n h tok s).led n op 1 (setHeld n h tok s).timeUs) = _
  rw [hset, htime, hmem]
  rfl

@[simp] theorem bookWritten_rest : (bookWritten n op new h tok s).evq = s.evq
    ∧ (bookWritten n op new h tok s).host = s.host ∧ (bookWritten n op new h tok s).cores = s.cores := by
  unfold bookWritten setHeld
  split <;> exact ⟨rfl, rfl, rfl⟩

@[simp] theorem port_bookWritten (m : Port) : (bookWritten n op new h tok s).port m = (setHeld n h tok s).port m := by
  unfold bookWritten
  rw [journal_eq]
  exact same_ports _ _ rfl m

end

/-- What a book operation that fits leaves: the books, the two records, and nothing else. -/
structure Booked (s u : State) (n : Port) (op new h tok : Nat) : Prop where
  led : u.led = { (s.led.holding n h tok).settled with jhead := (s.led.jhead + 1) % 32 }
  evq : u.evq = s.evq
  host : u.host = s.host
  cores : u.cores = s.cores
  port : u.port n = { s.port n with
    ct := { (s.port n).ct with tokAfter := if tok = 0 ∧ (s.port n).wh.token then some 0 else none } }
  others : ∀ m, m ≠ n → u.port m = s.port m
  mem : u.mem = bookMemory s n op new h tok
  moves : memGood s.mem = true → ∀ l, .port n ∈ l → .led ∈ l → covers l (0x3000C100 + 16 * n.val) (0x3000C110 + 16 * n.val) →
    covers l (0x3000C200 + 16 * (s.led.jhead % 32)) (0x3000C210 + 16 * (s.led.jhead % 32)) → Moves l s u

theorem booked {s : State} {n : Port} (op new h : Nat) {tok : Nat} (ht : keepsTok s n tok)
    (hfits : (s.led.holding n h tok).grantSum + (s.led.holding n h tok).tokRes ≤ s.led.avail) :
    Booked s (bookOp n op new h tok s) n op new h tok := by
  have hled := bookWritten_led op new h ht
  have hw : bookOp n op new h tok s =
      { bookWritten n op new h tok s with led := (bookWritten n op new h tok s).led.settled } :=
    bookOp_eq op new h (by rw [hled]; exact hfits)
  have hmem := bookWritten_mem op new h ht
  obtain ⟨hevq, hhost, hcores⟩ := bookWritten_rest (s := s) (n := n) op new h (tok := tok)
  have hport (m : Port) : ({ bookWritten n op new h tok s with led := (bookWritten n op new h tok s).led.settled } : State).port m =
      (setHeld n h tok s).port m := (same_ports _ _ rfl m).trans (port_bookWritten op new h m)
  rw [hw]
  refine ⟨?_, hevq, hhost, hcores, (hport n).trans (port_setHeld n h tok s), fun m hm => (hport m).trans (port_setHeld_ne h tok s hm), ?_, ?_⟩
  · show (bookWritten n op new h tok s).led.settled = _
    rw [hled]
  · exact hmem
  · intro hm l hn hl hg hj
    have hgood : memGood (setHeld n h tok s).mem = true := by rw [setHeld_mem]; exact hm
    have hjhead : (setHeld n h tok s).led.jhead = s.led.jhead := by rw [setHeld_led h ht]
    have hgrant : Moves l s (writeGrant n s.led.held[n] new (setHeld n h tok s)) :=
      (moves_writeMem_covered hgood hg (by simp; omega)).mpr (moves_setHeld hn hl h tok s)
    have hgood' : memGood (writeGrant n s.led.held[n] new (setHeld n h tok s)).mem = true := memGood_memWriteN _ _ _ hgood
    have hjournal : Moves l s (bookWritten n op new h tok s) := by
      have hsame : (writeGrant n s.led.held[n] new (setHeld n h tok s)).led.jhead = s.led.jhead := hjhead
      exact (moves_led hl _).mpr ((moves_writeMem_covered hgood' (by rw [hsame]; exact hj) (by simp; omega)).mpr hgrant)
    exact (moves_led hl _).mpr hjournal

section
variable {s u : State} {n : Port} {op new h tok : Nat} (hb : Booked s u n op new h tok) (hm : memGood s.mem = true)
include hb hm

theorem Booked.good : memGood u.mem = true := by
  rw [hb.mem]
  exact memGood_memWriteN _ _ _ (memGood_memWriteN _ _ _ hm)

/-- The grant record as an operation leaves it. -/
theorem Booked.grant : u.readMem (0x3000C100 + 16 * n.val) 8 =
    toBytesLE 2 h ++ toBytesLE 2 s.led.held[n] ++ toBytesLE 2 new ++ toBytesLE 2 tok := by
  have hn := n.isLt
  rw [State.readMem, hb.mem, bookMemory, memReadN_memWriteN_out _ _ _ _ _ (of_decide_eq_true (memGood_memWriteN _ _ _ hm)) (.inl (by omega))]
  refine (memReadN_memWriteN_start hm (by rw [grantBytes_length]; decide)).trans ?_
  simp [grantBytes, toBytesLE]

/-- Its journal entry. -/
theorem Booked.journal : u.readMem (0x3000C200 + 16 * (s.led.jhead % 32)) 6 =
    toBytesLE 2 (n.val * 4096 + op * 1024 + 1 * 256) ++ toBytesLE 2 h ++ toBytesLE 2 (s.led.holding n h tok).grantSum := by
  rw [State.readMem, hb.mem, bookMemory]
  refine (memReadN_memWriteN_start (memGood_memWriteN _ _ _ hm) (by rw [journalBytes_length]; decide)).trans ?_
  simp [journalBytes, toBytesLE]

end

/-- What lies outside the two records is as before. -/
theorem Booked.other {s u : State} {n : Port} {op new h tok : Nat} (hb : Booked s u n op new h tok) (hm : memGood s.mem = true)
    {a : Nat} (hg : a < 0x3000C100 + 16 * n.val ∨ 0x3000C110 + 16 * n.val ≤ a)
    (hj : a < 0x3000C200 + 16 * (s.led.jhead % 32) ∨ 0x3000C210 + 16 * (s.led.jhead % 32) ≤ a) :
    memRead u.mem a = memRead s.mem a := by
  rw [hb.mem, bookMemory, memRead_memWriteN_out _ _ _ _ (of_decide_eq_true (memGood_memWriteN _ _ _ hm)) (by simp; omega),
    memRead_memWriteN_out _ _ _ _ (of_decide_eq_true hm) (by simp; omega)]

end Sys2Proof.Machine
end

section
/-! Request slots served (R167, R323 to R325), a RAISE that a policy program posts, and O37. -/

namespace Sys2Proof.Machine

/-! ## The slot shows its result (R167) -/

/-- CTL of a slot once it has been served: PEND clear, DONE set, RESULT. -/
def ctlServed (ctl : BitVec 16) (r : Nat) : BitVec 16 := setFld (setFld (setFld ctl 15 15 0) 14 14 1) 11 8 r

/-- The hub once the slot of port n shows result r, and PC0 has heard of a slot of its ports. -/
def slotShown (n : Port) (ctl : BitVec 16) (r : Nat) (t : State) : State :=
  let s1 := t.writeMem (slotAddr n) (toBytesLE 2 (ctlServed ctl r).toNat)
  { (if isW n then s1.fireSrc corePC0 12 else s1) with led := { s1.led with lastServed := n.val } }

theorem serveSlot_op0 {s : State} {n : Port} (h : fld (slotCtl n s) 13 12 = 0) :
    let r := opRaise n (memNat s.mem (slotAddr n + 2) 2) (memNat s.mem (slotAddr n + 4) 2) s
    serveSlot n s = (r.1, slotShown n (slotCtl n s) r.1 r.2) := by
  simp only [serveSlot, h, if_true]
  rfl

theorem serveSlot_op1 {s : State} {n : Port} (h : fld (slotCtl n s) 13 12 = 1) :
    serveSlot n s = (1, slotShown n (slotCtl n s) 1
      (opSettle n (memNat s.mem (slotAddr n + 2) 2) (memNat s.mem (slotAddr n + 4) 2) s)) := by
  simp [serveSlot, h]
  rfl

theorem serveSlot_op2 {s : State} {n : Port} (h : fld (slotCtl n s) 13 12 = 2) :
    serveSlot n s = (1, slotShown n (slotCtl n s) 1 (opRelease n s)) := by
  simp [serveSlot, h]
  rfl

section
variable (n : Port) (ctl : BitVec 16) (r : Nat) (t : State)

@[simp] theorem slotShown_led : (slotShown n ctl r t).led = { t.led with lastServed := n.val } := by
  simp [slotShown, State.writeMem]

@[simp] theorem slotShown_rest : (slotShown n ctl r t).evq = t.evq ∧ (slotShown n ctl r t).host = t.host
    ∧ (slotShown n ctl r t).cc = t.cc ∧ (slotShown n ctl r t).dev = t.dev ∧ (slotShown n ctl r t).fd = t.fd
    ∧ (slotShown n ctl r t).stone = t.stone
    ∧ (slotShown n ctl r t).mem = memWriteN t.mem (slotAddr n) (toBytesLE 2 (ctlServed ctl r).toNat) := by
  unfold slotShown
  dsimp only
  split <;> and_intros <;> rfl

@[simp] theorem port_slotShown (m : Port) : (slotShown n ctl r t).port m = t.port m := by
  unfold slotShown
  dsimp only
  split <;> exact same_ports _ _ rfl m

@[simp] theorem core_slotShown : (slotShown n ctl r t).core corePC1 = t.core corePC1 := by
  unfold slotShown
  dsimp only
  split
  · rw [State.core_mk, State.fireSrc]
    exact State.core_updCore_ne _ _ _ _ (by decide : corePC1 ≠ corePC0)
  · rfl

theorem evtPend_slotShown (hw : isW n = true) : bitOf ((slotShown n ctl r t).core corePC0).evtPend 12 = true := by
  unfold slotShown
  dsimp only
  rw [if_pos hw]
  exact evtPend_fireSrc_same _ _ (by decide)

theorem slotAddr_bounds : 0x3000C000 ≤ slotAddr n ∧ slotAddr n + 16 ≤ 0x3000C100 := by
  have hn := n.isLt
  unfold slotAddr
  omega

variable {t} (hm : memGood t.mem = true)
include hm

theorem slotShown_good : memGood (slotShown n ctl r t).mem = true := by
  rw [(slotShown_rest n ctl r t).2.2.2.2.2.2]
  exact memGood_memWriteN _ _ _ hm

theorem readMem_slotShown : (slotShown n ctl r t).readMem (slotAddr n) 2 = toBytesLE 2 (ctlServed ctl r).toNat := by
  rw [State.readMem, (slotShown_rest n ctl r t).2.2.2.2.2.2, memReadN_memWriteN_start hm (by rw [length_toBytesLE])]
  exact List.take_of_length_le (by rw [length_toBytesLE])

theorem readMem_slotShown_out {a : Nat} (k : Nat) (ha : 0x3000C100 ≤ a) :
    (slotShown n ctl r t).readMem a k = t.readMem a k := by
  have hb := slotAddr_bounds n
  rw [State.readMem, (slotShown_rest n ctl r t).2.2.2.2.2.2]
  exact memReadN_memWriteN_out _ _ _ _ _ (of_decide_eq_true hm) (.inr (by rw [length_toBytesLE]; omega))

theorem moves_slotShown {l : List Area} {s : State} (hl : .led ∈ l) (he : .events ∈ l ∨ .sources ∈ l)
    (hslot : covers l (slotAddr n) (slotAddr n + 2)) : Moves l s (slotShown n ctl r t) ↔ Moves l s t := by
  have hw : Moves l s (t.writeMem (slotAddr n) (toBytesLE 2 (ctlServed ctl r).toNat)) ↔ Moves l s t :=
    moves_writeMem_covered hm hslot (by rw [length_toBytesLE])
  unfold slotShown
  dsimp only
  split
  · exact (moves_led hl _).trans ((moves_fireSrc he _ _).trans hw)
  · exact (moves_led hl _).trans hw

end

/-! ## Operations that a policy program posts and that the books carry (R166, R167) -/

/-- What an operation for `asked` leaves that the policy program posts, that PC1 serves at once and that the books carry. -/
structure PostBooked (s u : State) (n : Port) (asked h tok : Nat) : Prop where
  led : u.led = { (s.led.holding n h tok).settled with jhead := (s.led.jhead + 1) % 32, lastServed := n.val }
  evq : u.evq = s.evq
  host : u.host = s.host
  port : u.port n = { s.port n with
    ct := { (s.port n).ct with tokAfter := if tok = 0 ∧ (s.port n).wh.token then some 0 else none } }
  others : ∀ m, m ≠ n → u.port m = s.port m
  good : memGood u.mem = true
  grant : u.readMem (0x3000C100 + 16 * n.val) 8 =
    toBytesLE 2 h ++ toBytesLE 2 s.led.held[n] ++ toBytesLE 2 asked ++ toBytesLE 2 tok
  moves : ∀ l, .port n ∈ l → .led ∈ l → ledgerArea ∈ l → .events ∈ l ∨ .sources ∈ l → Moves l s u

/-- What a RAISE leaves that is posted and that the books cover. -/
abbrev PostRaised (s u : State) (n : Port) (new tok : Nat) : Prop :=
  PostBooked s u n new (max s.led.held[n] new) (max s.led.tokpwr[n] tok)

theorem posted_good {s : State} (hm : memGood s.mem = true) (n : Port) (op new tok : Nat) :
    memGood (posted n op new tok s).mem = true := memGood_memWriteN _ _ _ hm

theorem posted_moves {s : State} {l : List Area} (hm : memGood s.mem = true) (hal : ledgerArea ∈ l) (hel : .events ∈ l ∨ .sources ∈ l)
    (n : Port) (op new tok : Nat) : Moves l s (posted n op new tok s) := by
  have hb := slotAddr_bounds n
  refine (moves_fireSrc hel _ _).mpr ((moves_writeMem_covered hm (b := slotAddr n + 16) ⟨_, _, hal, hb.1, by omega⟩ ?_).mpr (Moves.refl l s))
  simp [length_toBytesLE]

/-- A posted operation that is booked, once its slot shows it. -/
theorem PostBooked.of_booked {s u : State} {n : Port} {op asked h tok tok' : Nat} (ctl : BitVec 16) (hm : memGood s.mem = true)
    (hbook : Booked (posted n op asked tok' s) u n op asked h tok) : PostBooked s (slotShown n ctl 1 u) n asked h tok := by
  obtain ⟨hled, hevq, hhost, hcores, hport, hothers, hmem, hmoves⟩ := id hbook
  have hgood := posted_good hm n op asked tok'
  have hug := hbook.good hgood
  have hport' (m : Port) : (posted n op asked tok' s).port m = s.port m := rfl
  refine ⟨?_, ?_, ?_, ?_, fun m hne => ?_, slotShown_good n _ 1 hug, ?_, fun l hpl hll hal hel => ?_⟩
  · rw [slotShown_led, hled]; rfl
  · rw [(slotShown_rest _ _ _ _).1, hevq]; rfl
  · rw [(slotShown_rest _ _ _ _).2.1, hhost]; rfl
  · rw [port_slotShown, hport]; rfl
  · rw [port_slotShown, hothers m hne, hport']
  · rw [readMem_slotShown_out n ctl 1 hug _ (by omega), hbook.grant hgood]; rfl
  · have hb := slotAddr_bounds n
    have hlt := n.isLt
    have hj : (posted n op asked tok' s).led.jhead % 32 < 32 := Nat.mod_lt _ (by decide)
    have hcov : ∀ lo hi, 0x3000C000 ≤ lo → hi ≤ 0x3000C400 → covers l lo hi := fun lo hi h1 h2 => ⟨_, _, hal, h1, h2⟩
    exact (moves_slotShown n _ 1 hug hll hel (hcov _ _ hb.1 (by omega))).mpr ((posted_moves hm hal hel n op asked tok').trans
      (hmoves hgood l hpl hll (hcov _ _ (by omega) (by omega)) (hcov _ _ (by omega) (by omega))))

section
variable {s : State} {n : Port} {new tok : Nat} (hm : memGood s.mem = true) (hp : s.postServed n)
include hm hp

theorem postRaised (hn : new < 256 ^ 2) (ht : tok < 256 ^ 2) (hr : raiseRefused s.led n new tok = false) :
    (ledgerPost n 0 new tok s).1 = 1 ∧ PostRaised s (ledgerPost n 0 new tok s).2 n new tok := by
  have hwf := of_decide_eq_true hm
  have hserve := serveSlot_op0 (slotOp_posted hwf n new tok (op := 0) (by decide))
  rw [slotNew_posted hwf n 0 tok hn, slotTok_posted hwf n 0 new ht] at hserve
  have hr' : raiseRefused (posted n 0 new tok s).led n new tok = false := hr
  rw [opRaise_covered_eq hr'] at hserve
  rw [ledgerPost_of_postServed hp, hserve]
  exact ⟨rfl, .of_booked _ hm (booked 0 new (max (posted n 0 new tok s).led.held[n] new) (keepsTok_raise (posted n 0 new tok s) n tok)
    (raise_fits hr'))⟩

/-- A SETTLE that fits (R166). -/
theorem postSettled (hn : new < 256 ^ 2) (ht : tok < 256 ^ 2) (hfree : (s.port n).wh.token = false)
    (hfits : (s.led.holding n new tok).grantSum + (s.led.holding n new tok).tokRes ≤ s.led.avail) :
    PostBooked s (ledgerPost n 1 new tok s).2 n new new tok := by
  have hwf := of_decide_eq_true hm
  have hserve := serveSlot_op1 (slotOp_posted hwf n new tok (op := 1) (by decide))
  rw [slotNew_posted hwf n 1 tok hn, slotTok_posted hwf n 1 new ht, opSettle_eq] at hserve
  rw [ledgerPost_of_postServed hp, hserve]
  exact .of_booked _ hm (booked 1 new new (keepsTok_of_free tok hfree) hfits)

/-- A RELEASE that fits (R166). -/
theorem postReleased (hfree : (s.port n).wh.token = false)
    (hfits : (s.led.holding n 0 0).grantSum + (s.led.holding n 0 0).tokRes ≤ s.led.avail) :
    PostBooked s (ledgerPost n 2 0 0 s).2 n 0 0 0 := by
  have hserve := serveSlot_op2 (slotOp_posted (of_decide_eq_true hm) n 0 0 (op := 2) (by decide))
  rw [opRelease_eq] at hserve
  rw [ledgerPost_of_postServed hp, hserve]
  exact .of_booked _ hm (booked 2 0 0 (keepsTok_of_free 0 hfree) hfits)

end

/-! ## A slot's operation by its own command (R166, R323, R324) -/

/-- The LED.SERVE of PC1 that is under way for a port. -/
abbrev servingOf (s : State) (n : Port) : Option (Nat × Port) := (s.core corePC1).ledServe.find? fun x => decide (x.2 = n)

/-- The areas of a served slot's command, beside what the operation itself may change. -/
abbrev servedAreas (s : State) (n : Port) : List Area :=
  [.port n, .led, .events, .mem (slotAddr n) (slotAddr n + 2),
    .mem (0x3000C200 + 16 * (s.led.jhead % 32)) (0x3000C210 + 16 * (s.led.jhead % 32))]
    ++ if servingOf s n = none then [] else [.core corePC1]

/-- The statement's words for a served slot: operation op ended with result r and left the books l, of a request for `asked`. -/
def SlotServed (s : State) (n : Port) (op r asked : Nat) (l : LedgerSt) (more : List Area) (t : State) : Prop :=
  t.led = { l with jhead := (s.led.jhead + 1) % 32, lastServed := n.val }
  ∧ t.readMem (slotAddr n) 2 = toBytesLE 2 (ctlServed (slotCtl n s) r).toNat
  ∧ (r = 1 → t.readMem (0x3000C100 + 16 * n.val) 8 =
      toBytesLE 2 l.held[n] ++ toBytesLE 2 s.led.held[n] ++ toBytesLE 2 asked ++ toBytesLE 2 l.tokpwr[n])
  ∧ t.readMem (0x3000C200 + 16 * (s.led.jhead % 32)) 6 =
      toBytesLE 2 (n.val * 4096 + op * 1024 + r * 256) ++ toBytesLE 2 l.held[n] ++ toBytesLE 2 l.grantSum
  ∧ (isW n = true → bitOf (t.core corePC0).evtPend 12 = true)
  ∧ (∀ x, servingOf s n = some x →
      (t.core corePC1).ledOut = (if x.1 < (s.core corePC1).startCc + 12 then (s.core corePC1).ledOut
        else place n.val 0 ||| place r 4 ||| place l.held[n] 16)
      ∧ (t.core corePC1).ledServe = (s.core corePC1).ledServe.erase x)
  ∧ (t.port n).ct = (if r = 1 then { (s.port n).ct with tokAfter := none } else (s.port n).ct)
  ∧ changesOnly (more ++ servedAreas s n) s t

/-- What a slot's operation has left before the slot shows it. -/
structure OpDone (s u : State) (n : Port) (op r asked : Nat) (l : LedgerSt) (more : List Area) : Prop where
  led : u.led = { l with jhead := (s.led.jhead + 1) % 32 }
  good : memGood u.mem = true
  grant : r = 1 → u.readMem (0x3000C100 + 16 * n.val) 8 =
    toBytesLE 2 l.held[n] ++ toBytesLE 2 s.led.held[n] ++ toBytesLE 2 asked ++ toBytesLE 2 l.tokpwr[n]
  journal : u.readMem (0x3000C200 + 16 * (s.led.jhead % 32)) 6 =
    toBytesLE 2 (n.val * 4096 + op * 1024 + r * 256) ++ toBytesLE 2 l.held[n] ++ toBytesLE 2 l.grantSum
  core : u.core corePC1 = s.core corePC1
  port : (u.port n).ct = (if r = 1 then { (s.port n).ct with tokAfter := none } else (s.port n).ct)
  moves : Moves (more ++ servedAreas s n) s u

theorem commitServe_none {s u : State} {n : Port} {r : Nat} (hc : u.core corePC1 = s.core corePC1) (h : servingOf s n = none) :
    commitServe n (r, u) = u := by
  unfold commitServe
  dsimp only
  rw [hc, show List.find? _ _ = none from h]

theorem commitServe_some {s u : State} {n : Port} {r : Nat} {x : Nat × Port} (hc : u.core corePC1 = s.core corePC1)
    (h : servingOf s n = some x) :
    commitServe n (r, u) = u.updCore corePC1 (endServe x (ledOutWord n r false u)) := by
  unfold commitServe
  dsimp only
  rw [hc, show List.find? _ _ = some x from h]

theorem ledOutWord_served (n : Port) (r : Nat) (u : State) :
    ledOutWord n r false u = place n.val 0 ||| place r 4 ||| place u.led.held[n] 16 := by
  simp only [ledOutWord, placeB, Bool.false_eq_true, if_false, BitVec.ofNat_eq_ofNat, BitVec.or_zero]

/-- A served slot, and the SERVE that asked for it, in the words of the statement. -/
theorem slotServed {s u : State} {n : Port} {op r asked : Nat} {l : LedgerSt} {more : List Area} (hs : s.settled)
    (hu : OpDone s u n op r asked l more) :
    SlotServed s n op r asked l more (commitServe n (r, slotShown n (slotCtl n s) r u)).flush
    ∧ (commitServe n (r, slotShown n (slotCtl n s) r u)).evq = u.evq
    ∧ memGood (commitServe n (r, slotShown n (slotCtl n s) r u)).mem = true
    ∧ (commitServe n (r, slotShown n (slotCtl n s) r u)).host = u.host := by
  obtain ⟨hled, hgood, hgrant, hjournal, hcore, hport, hmoves⟩ := hu
  have hv := slotShown_good n (slotCtl n s) r hgood
  have hcore' : (slotShown n (slotCtl n s) r u).core corePC1 = s.core corePC1 := by rw [core_slotShown, hcore]
  have hmem : (commitServe n (r, slotShown n (slotCtl n s) r u)).mem = (slotShown n (slotCtl n s) r u).mem
      ∧ (commitServe n (r, slotShown n (slotCtl n s) r u)).led = (slotShown n (slotCtl n s) r u).led
      ∧ (commitServe n (r, slotShown n (slotCtl n s) r u)).evq = (slotShown n (slotCtl n s) r u).evq
      ∧ (commitServe n (r, slotShown n (slotCtl n s) r u)).host = (slotShown n (slotCtl n s) r u).host
      ∧ (commitServe n (r, slotShown n (slotCtl n s) r u)).ports = (slotShown n (slotCtl n s) r u).ports := by
    unfold commitServe
    split <;> exact ⟨rfl, rfl, rfl, rfl, rfl⟩
  obtain ⟨hvmem, hvled, hvevq, hvhost, hvports⟩ := hmem
  have hread {a k : Nat} (ha : 0x3000C000 ≤ a) : (commitServe n (r, slotShown n (slotCtl n s) r u)).flush.readMem a k =
      (slotShown n (slotCtl n s) r u).readMem a k := by
    rw [readMem_flush (by rw [hvmem]; exact hv) (by omega)]
    exact readMem_congr hvmem a k
  have hb := slotAddr_bounds n
  refine ⟨⟨?_, ?_, fun hr => ?_, ?_, fun hw => ?_, fun x hx => ?_, ?_, ?_⟩, ?_, ?_, ?_⟩
  · rw [State.flush_led, hvled, slotShown_led, hled]
  · rw [hread hb.1, readMem_slotShown n _ r hgood]
  · rw [hread (by omega), readMem_slotShown_out n _ r hgood _ (by omega), hgrant hr]
  · rw [hread (by omega), readMem_slotShown_out n _ r hgood _ (by omega), hjournal]
  · rw [State.core_flush]
    have hpend := evtPend_slotShown n (slotCtl n s) r u hw
    cases hx : servingOf s n with
    | none => rw [commitServe_none hcore' hx]; exact hpend
    | some x =>
      rw [commitServe_some hcore' hx, State.core_updCore_ne _ _ _ _ (by decide : corePC0 ≠ corePC1)]
      exact hpend
  · rw [State.core_flush, commitServe_some hcore' hx, State.core_updCore_same, ledOutWord_served, hcore', slotShown_led, hled]
    exact ⟨rfl, rfl⟩
  · rw [State.port_flush, same_ports _ _ hvports n, port_slotShown, hport]
  · refine Moves.flush ?_ (by simp) hs.2 (by rw [hvmem]; exact hv)
    have hshown : Moves (more ++ servedAreas s n) s (slotShown n (slotCtl n s) r u) :=
      (moves_slotShown n _ r hgood (by simp) (by simp) (covers_of_mem (by simp))).mpr hmoves
    cases hx : servingOf s n with
    | none => rw [commitServe_none hcore' hx]; exact hshown
    | some x =>
      rw [commitServe_some hcore' hx]
      exact (moves_updCore (.inl (by simp [servedAreas, hx])) _).mpr hshown
  · rw [hvevq, (slotShown_rest _ _ _ _).1]
  · rw [hvmem]; exact hv
  · rw [hvhost, (slotShown_rest _ _ _ _).2.1]

/-- The area of a port's grant record (R167). -/
abbrev grantArea (n : Port) : Area := .mem (0x3000C100 + 16 * n.val) (0x3000C110 + 16 * n.val)

/-- An operation that the books carry, before the slot shows it. -/
theorem opDone_booked {s : State} {n : Port} (hs : s.settled) (op new h : Nat) {tok : Nat} (hfree : (s.port n).wh.token = false)
    (hfits : (s.led.holding n h tok).grantSum + (s.led.holding n h tok).tokRes ≤ s.led.avail) :
    OpDone s (bookOp n op new h tok s) n op 1 new (s.led.holding n h tok).settled [grantArea n]
    ∧ (bookOp n op new h tok s).evq = [] ∧ (bookOp n op new h tok s).host = s.host := by
  have hb := booked op new h (keepsTok_of_free tok hfree) hfits
  refine ⟨⟨hb.led, hb.good hs.1, fun _ => ?_, ?_, ?_, ?_, ?_⟩, hb.evq.trans hs.2, hb.host⟩
  · rw [hb.grant hs.1]; simp
  · rw [hb.journal hs.1]; simp [LedgerSt.holding]
    rfl
  · exact same_cores _ _ hb.cores corePC1
  · rw [hb.port, hfree]; simp
  · exact hb.moves hs.1 _ (by simp) (by simp) (covers_of_mem (by simp)) (covers_of_mem (by simp))

/-- A RAISE that is refused, before the slot shows it (R166). -/
theorem opDone_refused {s : State} {n : Port} (hs : s.settled) {new tok : Nat} (hr : raiseRefused s.led n new tok = true)
    (hon : s.eventsOn = true) :
    (opRaise n new tok s).1 = 2
    ∧ OpDone s (opRaise n new tok s).2 n 0 2 new { s.led with refuse := satInc s.led.refuse } []
    ∧ (opRaise n new tok s).2.evq = [(140, n.val + 0x10)] ∧ (opRaise n new tok s).2.host = s.host := by
  let l : LedgerSt := { s.led with refuse := satInc s.led.refuse }
  let u := journal n 0 2 { s with led := l }
  have heq : opRaise n new tok s = (2, u.fire 140 (n.val + 0x10)) := if_pos hr
  rw [heq]
  have hon' : u.eventsOn = true := hon
  have hgood : memGood u.mem = true := memGood_memWriteN _ _ _ hs.1
  refine ⟨rfl, ⟨?_, ?_, fun h => ?_, ?_, ?_, ?_, ?_⟩, ?_, ?_⟩
  · rw [State.fire_led]; rfl
  · rw [State.fire_mem]; exact hgood
  · cases h
  · rw [readMem_congr (s := u) (by simp)]
    refine (memReadN_memWriteN_start (bs := journalBytes l n 0 2 s.timeUs) hs.1 (by rw [journalBytes_length]; decide)).trans ?_
    simp [journalBytes, toBytesLE, l]
  · have : (u.fire 140 (n.val + 0x10)).cores = u.cores := by simp [State.fire, hon', State.globalSrc]
    exact same_cores _ _ this corePC1
  · rw [State.port_fire]; rfl
  · have hcov : covers ([] ++ servedAreas s n) (0x3000C200 + 16 * (s.led.jhead % 32)) (0x3000C210 + 16 * (s.led.jhead % 32)) :=
      covers_of_mem (by simp)
    have hlen : 0x3000C200 + 16 * (s.led.jhead % 32) + (journalBytes l n 0 2 s.timeUs).length ≤
        0x3000C210 + 16 * (s.led.jhead % 32) := by rw [journalBytes_length]; omega
    exact (moves_fire (by simp) _ _).mpr ((moves_led (by simp) _).mpr ((moves_writeMem_covered (t := { s with led := l }) hs.1 hcov
      hlen).mpr ((moves_led (t := s) (by simp) _).mpr (Moves.refl _ _))))
  · rw [State.fire_evq _ _ _ hon']; exact congrArg (· ++ _) hs.2
  · rw [State.fire_host]; rfl

/-- A slot is served whose operation is pending, by PC1 or by a SERVE under way (R166, R268). -/
theorem servedNow_iff {s : State} {n : Port} {op : Nat} : servedNow n op s = true ↔
    bitOf (slotCtl n s) 15 = true ∧ fld (slotCtl n s) 13 12 = op ∧ (s.pc1Serves = true ∨ servingOf s n ≠ none) := by
  have hany : ((s.core corePC1).ledServe.any fun x => decide (x.2 = n)) = true ↔ servingOf s n ≠ none := by
    rw [List.any_eq_true, ne_eq, List.find?_eq_none]
    simp
  simp only [servedNow, slotPending, Bool.and_eq_true, decide_eq_true_eq, Bool.or_eq_true, hany, and_assoc]

/-- Settles O37: the three operations of a pending slot, a refused RAISE, and the slots that are not served. -/
theorem ledgerOperationsKeepTheBooks : Obligations.LedgerOperationsKeepTheBooks := by
  intro s n hs
  dsimp only
  have hidle {op : Nat} (h : ¬ (bitOf (slotCtl n s) 15 = true ∧ fld (slotCtl n s) 13 12 = op ∧
      (s.pc1Serves = true ∨ servingOf s n ≠ none))) : ¬ servedNow n op s = true := fun k => h (servedNow_iff.mp k)
  refine ⟨fun h => ⟨?_, ?_, ?_⟩, fun hfree hpend hserve => ⟨fun hop hr => ?_, fun hop hr hon => ?_, fun hop hfits => ?_,
    fun hop hfits => ?_, fun hop => ?_, fun hop => ?_, fun hop => ?_⟩⟩
  iterate 3
    refine idles_of hs (if_neg (hidle ?_))
    rintro ⟨hpend, -, hserve⟩
    rcases h with h | ⟨hpc, hnone⟩
    · rw [h] at hpend; cases hpend
    · rcases hserve with hserve | hserve
      · rw [hpc] at hserve; cases hserve
      · exact hserve hnone
  · have hexec : exec (.raise n) s = done (commitServe n (serveSlot n s)) := if_pos (servedNow_iff.mpr ⟨hpend, hop, hserve⟩)
    rw [serveSlot_op0 hop, opRaise_covered_eq hr] at hexec
    obtain ⟨hdone, hevq, hhost⟩ := opDone_booked hs 0 _ _ hfree (raise_fits hr)
    obtain ⟨hserved, hvevq, hvgood, hvhost⟩ := slotServed hs hdone
    exact answers_of hexec ⟨hserved, reports_flush (by rw [hvevq, hevq]; rfl) (by simp) hvgood (by rw [hvhost, hhost])⟩
  · have hexec : exec (.raise n) s = done (commitServe n (serveSlot n s)) := if_pos (servedNow_iff.mpr ⟨hpend, hop, hserve⟩)
    obtain ⟨hres, hdone, hevq, hhost⟩ := opDone_refused hs hr hon
    rw [serveSlot_op0 hop, hres] at hexec
    obtain ⟨hserved, hvevq, hvgood, hvhost⟩ := slotServed hs hdone
    exact answers_of hexec ⟨hserved, logs_flush (hvevq.trans hevq) hvgood (by rw [hvhost, hhost])⟩
  · have hexec : exec (.settle n) s = done (commitServe n (serveSlot n s)) := if_pos (servedNow_iff.mpr ⟨hpend, hop, hserve⟩)
    rw [serveSlot_op1 hop, opSettle_eq] at hexec
    obtain ⟨hdone, hevq, hhost⟩ := opDone_booked hs 1 _ _ hfree hfits
    obtain ⟨hserved, hvevq, hvgood, hvhost⟩ := slotServed hs hdone
    exact answers_of hexec ⟨hserved, reports_flush (by rw [hvevq, hevq]; rfl) (by simp) hvgood (by rw [hvhost, hhost])⟩
  · have hexec : exec (.release n) s = done (commitServe n (serveSlot n s)) := if_pos (servedNow_iff.mpr ⟨hpend, hop, hserve⟩)
    rw [serveSlot_op2 hop, opRelease_eq] at hexec
    obtain ⟨hdone, hevq, hhost⟩ := opDone_booked hs 2 _ _ hfree hfits
    obtain ⟨hserved, hvevq, hvgood, hvhost⟩ := slotServed hs hdone
    exact answers_of hexec ⟨hserved, reports_flush (by rw [hvevq, hevq]; rfl) (by simp) hvgood (by rw [hvhost, hhost])⟩
  iterate 3 exact idles_of hs (if_neg (hidle fun h => hop h.2.1))

end Sys2Proof.Machine
end

section
/-! Shedding (R171 to R173): what each of its operations may change, that a port that is shed is commanded off and stays so, and that
the fuel of `shedLoop` lets it end. -/

namespace Sys2Proof.Machine

/-! ## What the operations move, any port being listed -/

section
variable {l : List Area} {s t : State} (ha : Area.anyPort ∈ l)
include ha

@[simp] theorem moves_promoteWaiting : Moves l s (promoteWaiting t) ↔ Moves l s t := by
  refine Moves.iff_right (Moves.foldl (fun u n => ?_) _ t)
  split
  · exact (moves_updPw (.inr ha) _).mpr (Moves.refl l u)
  · exact Moves.refl l u

variable (he : Area.events ∈ l ∨ Area.sources ∈ l)
include he

@[simp] theorem moves_openSwitch (next : SwState) (n : Port) : Moves l s (openSwitch next n t) ↔ Moves l s t := by
  unfold openSwitch
  dsimp only
  split <;> simp [ha, he]

@[simp] theorem moves_endContract (n : Port) : Moves l s (endContract n t) ↔ Moves l s t := by
  unfold endContract
  simp [ha, he]

@[simp] theorem moves_sendBye (n : Port) (code : Nat) (dflt : Bool) : Moves l s (sendBye n code dflt t) ↔ Moves l s t := by
  unfold sendBye
  dsimp only
  split
  · simp [ha]
  · split <;> simp [ha, he]

variable (hl : Area.led ∈ l)
include hl

@[simp] theorem moves_shedPort (n : Port) : Moves l s (shedPort n t) ↔ Moves l s t := by
  unfold shedPort
  dsimp only
  rw [moves_sendBye ha he, moves_fault (.inr ha) he, moves_led hl, moves_promoteWaiting ha, moves_dropPg (.inr ha) he,
    moves_updPw (.inr ha), moves_forceOff (.inr ha) he]

theorem moves_shedLoop (limit k : Nat) : Moves l s (shedLoop limit k t) ↔ Moves l s t := by
  induction k generalizing t with
  | zero => exact Iff.rfl
  | succ k ih =>
    unfold shedLoop
    split
    · exact Iff.rfl
    · split
      · exact Iff.rfl
      · rw [ih, moves_shedPort ha he hl]

/-- The hub once R171 has shed what exceeds HARD. -/
def hardShed (s : State) : State :=
  if s.led.hard < s.led.grantSum + s.led.tokRes then shedLoop s.led.hard 16 { s with led := { s.led with cut := true } } else s

/-- The excursion above AVAIL that R171 reports. -/
def excursionNoted (s : State) : State :=
  if s.liveSum ≤ s.led.avail ∨ s.led.excursion = true then s
  else ({ s with led := { s.led with excursion := true, shedRun := true } }.fire 140 0x30).fireSrc corePC1 13

omit ha he hl in
theorem ledgerAct_exceeds (h : ¬ t.led.grantSum + t.led.tokRes ≤ t.led.avail) : ledgerAct t = excursionNoted (hardShed t) :=
  if_neg h

theorem moves_hardShed : Moves l s (hardShed t) ↔ Moves l s t := by
  unfold hardShed
  split
  · rw [moves_shedLoop ha he hl, moves_led hl]
  · exact Iff.rfl

omit ha in
theorem moves_excursionNoted : Moves l s (excursionNoted t) ↔ Moves l s t := by
  unfold excursionNoted
  split
  · exact Iff.rfl
  · rw [moves_fireSrc he, moves_fire he, moves_led hl]

@[simp] theorem moves_ledgerAct : Moves l s (ledgerAct t) ↔ Moves l s t := by
  by_cases h : t.led.grantSum + t.led.tokRes ≤ t.led.avail
  · rw [ledgerAct_of_fits h, moves_led hl]
  · rw [ledgerAct_exceeds h, moves_excursionNoted he hl, moves_hardShed ha he hl]

end

/-! ## The books under shedding -/

/-- Shedding counts ports, and changes the books in nothing else. -/
theorem shedPort_led (n : Port) (s : State) : (shedPort n s).led = { s.led with shedCnt := satInc s.led.shedCnt } := by
  simp [shedPort]

theorem shedLoop_led (limit k : Nat) (s : State) : ∃ c, (shedLoop limit k s).led = { s.led with shedCnt := c } := by
  induction k generalizing s with
  | zero => exact ⟨_, rfl⟩
  | succ k ih =>
    unfold shedLoop
    split
    · exact ⟨_, rfl⟩
    · split
      · exact ⟨_, rfl⟩
      · next n _ =>
        obtain ⟨c, hc⟩ := ih (shedPort n s)
        exact ⟨c, by rw [hc, shedPort_led]⟩

/-- R171 keeps the pool, the grants and AVAIL, and clears no CUT. -/
theorem ledgerAct_keeps (s : State) : (ledgerAct s).led.tokens = s.led.tokens ∧ (ledgerAct s).led.held = s.led.held
    ∧ (ledgerAct s).led.avail = s.led.avail ∧ (s.led.cut = true → (ledgerAct s).led.cut = true) := by
  by_cases h : s.led.grantSum + s.led.tokRes ≤ s.led.avail
  · rw [ledgerAct_of_fits h]; exact ⟨rfl, rfl, rfl, id⟩
  · have hhard : (hardShed s).led.tokens = s.led.tokens ∧ (hardShed s).led.held = s.led.held
        ∧ (hardShed s).led.avail = s.led.avail ∧ (s.led.cut = true → (hardShed s).led.cut = true) := by
      unfold hardShed
      split
      · obtain ⟨c, hc⟩ := shedLoop_led s.led.hard 16 { s with led := { s.led with cut := true } }
        rw [hc]; exact ⟨rfl, rfl, rfl, fun _ => rfl⟩
      · exact ⟨rfl, rfl, rfl, id⟩
    rw [ledgerAct_exceeds h, excursionNoted]
    split
    · exact hhard
    · simpa using hhard

/-! ## A port that is shed (R172, R173) -/

/-- Beginning a pre-charge takes no port out of those commanded off, and puts none among them. -/
theorem commandedOff_promoteWaiting (m : Port) (s : State) :
    ((promoteWaiting s).port m).pw.commandedOff = (s.port m).pw.commandedOff := by
  refine foldl_get (fun t : State => (t.port m).pw.commandedOff) _ (fun t n => ?_) _ s
  split
  · next h =>
    have hwait : (t.port n).pw.sw = .wait := by
      simp only [mayPrecharge, Bool.and_eq_true, decide_eq_true_eq] at h
      exact h.1.1
    by_cases hm : m = n
    · subst hm; simp [PowerSt.commandedOff, hwait]
    · simp [hm]
  · rfl

@[simp] theorem pw_forcedClose (n m : Port) (s : State) : ((forcedClose n s).port m).pw = (s.port m).pw := by
  unfold forcedClose closeWindow
  dsimp only
  split
  · split <;> simp
  · rfl

@[simp] theorem pw_forceOff (x : ForceSource) (n m : Port) (s : State) : ((forceOff x n s).port m).pw = (s.port m).pw := by
  unfold forceOff
  simp

theorem commandedOff_dropPg (n m : Port) (s : State) : ((dropPg n s).port m).pw.commandedOff = (s.port m).pw.commandedOff := by
  rw [port_dropPg]
  by_cases hm : m = n
  · subst hm; simp [PowerSt.commandedOff]
  · simp [hm]

theorem commandedOff_fault (n m : Port) (cause : BitVec 4) (s : State) :
    ((fault n cause s).port m).pw.commandedOff = (s.port m).pw.commandedOff := by
  rw [port_fault]
  by_cases hm : m = n
  · subst hm; simp [PowerSt.commandedOff]
  · simp [hm]

@[simp] theorem pw_setContract (n m : Port) (st : CtrState) (v : BitVec 11) (i : BitVec 9) (src : Bool) (s : State) :
    ((setContract n st v i src s).port m).pw = (s.port m).pw := by
  unfold setContract
  dsimp only
  split <;> simp

@[simp] theorem pw_resumeDetach (n m : Port) (s : State) : ((resumeDetach n s).port m).pw = (s.port m).pw := by
  unfold resumeDetach
  split <;> simp

/-- A BYE opens no switch of a port that is already commanded off. -/
theorem commandedOff_sendBye {n : Port} (m : Port) (code : Nat) (dflt : Bool) {s : State} (h : (s.port n).pw.commandedOff = true) :
    ((sendBye n code dflt s).port m).pw.commandedOff = (s.port m).pw.commandedOff := by
  have hsw (u : State) (hu : (u.port n).pw = (s.port n).pw) : openSwitch .off n u = u := by
    refine openSwitch_of_open .off ?_
    rw [hu]
    simp only [PowerSt.commandedOff, Bool.or_eq_true, decide_eq_true_eq, or_assoc] at h
    rcases h with h | h | h <;> simp [h]
  unfold sendBye
  dsimp only
  split
  · simp
  · split
    · rfl
    · unfold endContract
      dsimp only
      rw [hsw _ (by simp)]
      simp

/-- The hub once the switch of a port that is shed is open (R172). -/
def shedOpened (n : Port) (s : State) : State :=
  promoteWaiting (dropPg n ((forceOff .trip n s).updPw n fun p =>
    { p with sw := .disch, after := .off, discharging := decide (n ≠ portB), startHeld := false }))

theorem commandedOff_shedOpened (n m : Port) (s : State) :
    ((shedOpened n s).port m).pw.commandedOff = if m = n then true else (s.port m).pw.commandedOff := by
  unfold shedOpened
  rw [commandedOff_promoteWaiting, commandedOff_dropPg]
  by_cases hm : m = n
  · subst hm; simp [PowerSt.commandedOff]
  · simp [hm]

theorem commandedOff_led (m : Port) (v : LedgerSt) (s : State) :
    (({ s with led := v } : State).port m).pw.commandedOff = (s.port m).pw.commandedOff := rfl

/-- A port that is shed: its switch open, it is counted, reported and told (R172). -/
theorem shedPort_eq (n : Port) (s : State) : shedPort n s = sendBye n 0x14 false (fault n 7 { shedOpened n s with
    led := { (shedOpened n s).led with shedCnt := satInc (shedOpened n s).led.shedCnt } }) := by
  unfold shedPort shedOpened
  with_reducible rfl

/-- A port that is shed is commanded off, and no other port's standing changes. -/
theorem commandedOff_shedPort (n m : Port) (s : State) :
    ((shedPort n s).port m).pw.commandedOff = if m = n then true else (s.port m).pw.commandedOff := by
  have hcounted (m : Port) : ((fault n 7 { shedOpened n s with
      led := { (shedOpened n s).led with shedCnt := satInc (shedOpened n s).led.shedCnt } }).port m).pw.commandedOff =
      if m = n then true else (s.port m).pw.commandedOff := by
    rw [commandedOff_fault, commandedOff_led, commandedOff_shedOpened]
  rw [shedPort_eq, commandedOff_sendBye _ _ _ ((hcounted n).trans (if_pos rfl)), hcounted]

/-! ## The loop ends (R173) -/

/-- The ports that may still be shed. -/
def sheddable (s : State) : Finset Port := Finset.univ.filter fun n => 0 < s.led.held[n] ∧ (s.port n).pw.commandedOff = false

/-- The choice among candidates is one of them. -/
theorem foldl_choice_mem {α : Type} (f : Option α → α → Option α) (hf : ∀ b x y, f b x = some y → y = x ∨ b = some y) (l : List α)
    (b : Option α) (y : α) (h : l.foldl f b = some y) : y ∈ l ∨ b = some y := by
  induction l generalizing b with
  | nil => exact .inr h
  | cons x l ih =>
    rcases ih (f b x) h with h | h
    · exact .inl (List.mem_cons_of_mem x h)
    · rcases hf b x y h with rfl | h
      · exact .inl List.mem_cons_self
      · exact .inr h

theorem mem_allPorts (n : Port) : n ∈ allPorts := List.mem_finRange n

theorem nextShed_mem {s : State} {n : Port} (h : nextShed s = some n) : n ∈ sheddable s := by
  have hmem := (foldl_choice_mem _ (fun b x y hy => by
    cases b with
    | none => exact .inl (Option.some.inj hy).symm
    | some b =>
      dsimp only at hy
      split at hy
      · exact .inl (Option.some.inj hy).symm
      · exact .inr hy) _ _ n h).resolve_right (by simp)
  simpa [sheddable, mem_allPorts] using hmem

theorem nextShed_none {s : State} (h : sheddable s = ∅) : nextShed s = none := by
  by_contra hne
  obtain ⟨n, hn⟩ := Option.ne_none_iff_exists'.mp hne
  have := nextShed_mem hn
  rw [h] at this
  simp at this

theorem sheddable_shedPort {s : State} {n : Port} (h : n ∈ sheddable s) : (sheddable (shedPort n s)).card < (sheddable s).card := by
  refine Finset.card_lt_card (Finset.ssubset_iff_of_subset ?_ |>.mpr ⟨n, h, ?_⟩)
  · intro m hm
    simp only [sheddable, Finset.mem_filter, Finset.mem_univ, true_and, shedPort_held, commandedOff_shedPort] at hm ⊢
    obtain ⟨hheld, hoff⟩ := hm
    split at hoff
    · cases hoff
    · exact ⟨hheld, hoff⟩
  · simp [sheddable, commandedOff_shedPort]

/-- With fuel for every port that may be shed, the sum fits in the end or no port is left to shed. -/
theorem shedLoop_ends (limit k : Nat) (s : State) (h : (sheddable s).card ≤ k) :
    (shedLoop limit k s).liveSum ≤ limit ∨ nextShed (shedLoop limit k s) = none := by
  induction k generalizing s with
  | zero => exact .inr (nextShed_none (Finset.card_eq_zero.mp (Nat.le_zero.mp h)))
  | succ k ih =>
    unfold shedLoop
    split
    · next hfits => exact .inl hfits
    · split
      · next hnone => exact .inr hnone
      · next n hn =>
        have := sheddable_shedPort (nextShed_mem hn)
        exact ih _ (by omega)

theorem sheddable_card_le (s : State) : (sheddable s).card ≤ 16 := (Finset.card_le_univ _).trans (by simp [Port])

end Sys2Proof.Machine
end

section
/-! O38: the token pool, RESERVE with SHEDMARGIN, and tSHED (R168, R171 to R173, R187, R324). -/

namespace Sys2Proof.Machine

/-! ## A write of TOKENS (R168, R324) -/

/-- The hub once a write of TOKENS has been refused and reported. -/
abbrev State.tokensRefused (s : State) : State :=
  { s with led := { s.led with refuse := satInc s.led.refuse }, evq := s.evq ++ [(140, 0x2F)] }

theorem moves_tokensRefused {l : List Area} (h : Area.led ∈ l) (s : State) : Moves l s s.tokensRefused :=
  (moves_led (s := s) (t := s) h _).mpr (Moves.refl l s)

theorem opTokens_refused {s : State} {k : BitVec 4} (hon : s.eventsOn = true)
    (h : 12 < k.toNat ∨ (s.led.tokens.toNat < k.toNat ∧ s.led.avail < s.led.grantSum + k.toNat * s.led.tokPwrMax)) :
    opTokens k s = (false, false, s.tokensRefused) := by
  have hon' : ({ s with led := { s.led with refuse := satInc s.led.refuse } } : State).eventsOn = true := hon
  exact (if_pos h).trans (by simp [State.fire, hon', State.globalSrc])

theorem opTokens_fits {s : State} {k : BitVec 4} (hk : k.toNat ≤ 12)
    (h : s.led.grantSum + k.toNat * s.led.tokPwrMax ≤ s.led.avail) :
    opTokens k s = (true, s.led.cut,
      { s with led := { s.led with tokens := k, cut := false, shedRun := false, excursion := false } }) := by
  refine (if_neg (by omega)).trans ?_
  have hclears : (s.led.cut && decide (s.led.grantSum + k.toNat * s.led.tokPwrMax ≤ s.led.avail)) = s.led.cut := by
    rw [decide_eq_true h, Bool.and_true]
  have hcut : (s.led.cut && !s.led.cut) = false := by cases s.led.cut <;> rfl
  dsimp only
  rw [hclears, hcut]
  exact congrArg (fun t => (true, s.led.cut, t))
    (ledgerAct_of_fits (s := { s with led := { s.led with tokens := k, cut := false } }) h)

theorem opTokens_smaller {s : State} {k : BitVec 4} (hk : k.toNat ≤ 12) (hle : k.toNat ≤ s.led.tokens.toNat)
    (h : s.led.avail < s.led.grantSum + k.toNat * s.led.tokPwrMax) :
    opTokens k s = (true, false, ledgerAct { s with led := { s.led with tokens := k } }) := by
  refine (if_neg (by omega)).trans ?_
  have hclears : (s.led.cut && decide (s.led.grantSum + k.toNat * s.led.tokPwrMax ≤ s.led.avail)) = false := by
    rw [decide_eq_false (by omega), Bool.and_false]
  dsimp only
  rw [hclears, Bool.not_false, Bool.and_true]

/-- LED.TOKR after an answer, unless PC1 has restarted since the trigger, and LED.TOKW less the operation performed. -/
def CoreSt.tokAnswered (c : CoreSt) (k : BitVec 4) (x : Word) : CoreSt :=
  { c with
    ledTokr := if (c.ledTokw.find? fun x => decide (x.2 = k)).any fun x => decide (x.1 < c.startCc + 4) then c.ledTokr else x
    ledTokw := c.ledTokw.eraseP fun x => decide (x.2 = k) }

theorem commitTokw_eq {s t : State} {k : BitVec 4} {a b : Bool} (h : opTokens k s = (a, b, t)) :
    commitTokw k s = t.updCore corePC1 fun c => c.tokAnswered k (placeB a 0 ||| placeB b 1) := by
  unfold commitTokw
  rw [h]
  rfl

section
variable {s t : State} {w : Writer} {k : BitVec 4} {a b : Bool}

theorem exec_tokensWrite_core (h : opTokens k s = (a, b, t)) : exec (.tokensWrite (.core corePC1) k) s =
    done (t.updCore corePC1 fun c => c.tokAnswered k (placeB a 0 ||| placeB b 1)) := by
  have hexec : exec (.tokensWrite (.core corePC1) k) s = execTokensWrite (.core corePC1) k s := rfl
  rw [hexec, execTokensWrite, if_pos rfl, commitTokw_eq h]

theorem exec_tokensWrite_other (hw : w ≠ .core corePC1) (hk : k.toNat ≤ 12) (h : opTokens k s = (a, b, t)) :
    exec (.tokensWrite w k) s = done t := by
  have h' : (opTokens k s).2.2 = t := by rw [h]
  rw [← h']
  exact (if_neg hw).trans (if_neg (by omega))

variable (hs : s.settled)
include hs

/-- The answers of a write of TOKENS that reports its refusal. -/
theorem answers_tokens_refused (hon : s.eventsOn = true)
    (h : 12 < k.toNat ∨ (s.led.tokens.toNat < k.toNat ∧ s.led.avail < s.led.grantSum + k.toNat * s.led.tokPwrMax)) :
    answers (.tokensWrite (.core corePC1) k) s fun t => t.led = { s.led with refuse := satInc s.led.refuse }
      ∧ (t.core corePC1).ledTokr = ((s.core corePC1).tokAnswered k 0).ledTokr ∧ logs s t 140 0x2F
      ∧ changesOnly [.led, .core corePC1, .events] s t := by
  refine answers_of (exec_tokensWrite_core (opTokens_refused hon h)) ⟨by simp, ?_, logs_flush (by simp [hs.2]) hs.1 rfl,
    Moves.flush ((moves_updCore (by simp) _).mpr (moves_tokensRefused (by simp) s)) (by simp) hs.2 hs.1⟩
  rw [State.core_flush]
  exact congrArg CoreSt.ledTokr (State.core_updCore_same s.tokensRefused corePC1 _)

theorem answers_tokens_refused_other (hw : w ≠ .core corePC1) (hk : k.toNat ≤ 12) (hon : s.eventsOn = true)
    (h : s.led.tokens.toNat < k.toNat ∧ s.led.avail < s.led.grantSum + k.toNat * s.led.tokPwrMax) :
    answers (.tokensWrite w k) s fun t => t.led = { s.led with refuse := satInc s.led.refuse } ∧ logs s t 140 0x2F
      ∧ changesOnly [.led, .events] s t :=
  answers_of (exec_tokensWrite_other hw hk (opTokens_refused hon (.inr h))) ⟨State.flush_led _, logs_flush (by simp [hs.2]) hs.1 rfl,
    Moves.flush (moves_tokensRefused (by simp) s) (by simp) hs.2 hs.1⟩

/-- A smaller pool that does not yet fit is taken, and R171 follows. -/
theorem answers_tokens_smaller (hk : k.toNat ≤ 12) (hle : k.toNat ≤ s.led.tokens.toNat)
    (h : s.led.avail < s.led.grantSum + k.toNat * s.led.tokPwrMax) : answers (.tokensWrite w k) s fun t =>
      t.led.tokens = k ∧ t.led.held = s.led.held ∧ (s.led.cut = true → t.led.cut = true)
      ∧ changesOnly [.led, .anyPort, .core corePC1, .events] s t := by
  have hop := opTokens_smaller hk hle h
  obtain ⟨htok, hheld, -, hcut⟩ := ledgerAct_keeps { s with led := { s.led with tokens := k } }
  by_cases hw : w = .core corePC1
  · subst hw
    exact answers_of (exec_tokensWrite_core hop) ⟨by simpa using htok, by simp, by simpa using hcut,
      Moves.flush (by simp) (by simp) hs.2 (by simp [hs.1])⟩
  · exact answers_of (exec_tokensWrite_other hw hk hop) ⟨by simpa using htok, by simp, by simpa using hcut,
      Moves.flush (by simp) (by simp) hs.2 (by simp [hs.1])⟩

/-! ## LEDCTL (R171, R187) -/

omit hs in
/-- LEDCTL keeps RESERVE and SHEDMARGIN as they are written. -/
theorem fld_ledctl (v : Word) (hi lo : Nat) (hhi : hi < 32) (hlo : 4 ≤ lo) (hle : lo ≤ hi) :
    fld (v &&& 0xFFFFFFF0) hi lo = fld v hi lo := by
  have hmask : ∀ j : Fin 32, 4 ≤ j.val → (0xFFFFFFF0 : Word).getLsbD j.val = true := by decide
  exact fld_and _ _ hle fun j h1 h2 => hmask ⟨j, by omega⟩ (by dsimp only; omega)

/-- The books with new limits. -/
abbrev LedgerSt.limits (l : LedgerSt) (ctl : Word) (avail hard : Nat) : LedgerSt :=
  { l with ledctl := ctl, avail := avail, hard := hard, shedRun := false, excursion := false }

theorem answers_ledctl {v : Word} (hres : fld v 15 4 ≤ fld v 31 16) :
    let power := if s.fd.feed = .none then 0 else s.powerOf s.fd.feed
    s.led.grantSum + s.led.tokRes ≤ power - fld v 31 16 → answers (.ledctlWrite w v) s fun t =>
      t.led = s.led.limits (v &&& 0xFFFFFFF0) (power - fld v 31 16) (power - fld v 15 4)
      ∧ t.led.reserve = fld v 31 16 ∧ t.led.shedMargin = fld v 15 4 ∧ changesOnly [.led] s t := by
  intro power hfits
  have hreserve : fld (v &&& 0xFFFFFFF0) 31 16 = fld v 31 16 := fld_ledctl v 31 16 (by omega) (by omega) (by omega)
  have hmargin : fld (v &&& 0xFFFFFFF0) 15 4 = fld v 15 4 := fld_ledctl v 15 4 (by omega) (by omega) (by omega)
  let s1 : State := { s with led := { s.led with ledctl := v &&& 0xFFFFFFF0 } }
  have hpower (f : Feed) : s1.powerOf f = s.powerOf f := by cases f <;> rfl
  have havail : s1.availOf s1.fd.feed = power - fld v 31 16 := by
    by_cases hf : s.fd.feed = .none
    · simp [State.availOf, s1, power, hf]
    · have hr : s1.led.reserve = fld v 31 16 := hreserve
      rw [State.availOf, hpower, hr]
      simp [s1, power, hf]
  have hhard : s1.hardOf s1.fd.feed = power - fld v 15 4 := by
    by_cases hf : s.fd.feed = .none
    · simp [State.hardOf, s1, power, hf]
    · have hr : s1.led.shedMargin = fld v 15 4 := hmargin
      rw [State.hardOf, hpower, hr]
      simp [s1, power, hf]
  have hexec : exec (.ledctlWrite w v) s = done
      { s with led := s.led.limits (v &&& 0xFFFFFFF0) (power - fld v 31 16) (power - fld v 15 4) } := by
    have hact : ledgerRefresh s1 =
        { s with led := s.led.limits (v &&& 0xFFFFFFF0) (power - fld v 31 16) (power - fld v 15 4) } := by
      unfold ledgerRefresh
      rw [havail, hhard]
      exact ledgerAct_of_fits (s := { s1 with led := { s1.led with avail := power - fld v 31 16, hard := power - fld v 15 4 } })
        hfits
    rw [← hact]
    exact if_neg (by simp [ledctlReserved, hres])
  exact answers_quiet hexec hs.2 ⟨rfl, hreserve, hmargin,
    Moves.changesOnly ((moves_led (t := s) (by simp) _).mpr (Moves.refl _ _)) hs.2 hs.2⟩

/-! ## tSHED (R171, R172) -/

/-- The hub as tSHED's expiry begins to shed. -/
abbrev State.shedBegun (s : State) : State := { s with led := { s.led with shedRun := false, cut := true } }

omit hs in
/-- The sum of R171 and the shed order see the ports, the grants and the pool alone. -/
theorem shedding_congr {t u : State} (hp : t.ports = u.ports) (hh : t.led.held = u.led.held) (ht : t.led.tokRes = u.led.tokRes) :
    t.liveSum = u.liveSum ∧ nextShed t = nextShed u := by
  have hport (n : Port) : t.port n = u.port n := same_ports _ _ hp n
  have hbefore : shedBefore t = shedBefore u := by
    funext a b
    simp only [shedBefore, hport]
  exact ⟨by simp only [State.liveSum, hport, hh, ht], by simp only [nextShed, hport, hh, hbefore]⟩

/-- The excursion goes on where the sum still exceeds AVAIL. -/
abbrev State.excursionKept (t : State) : State :=
  { t with led := { t.led with excursion := t.led.excursion && decide (t.led.avail < t.liveSum) } }

theorem answers_shedTimeout (hrun : s.led.shedRun = true) (h : s.led.avail < s.led.grantSum + s.led.tokRes) :
    answers .shedTimeout s fun t =>
      t.led.cut = true ∧ t.led.shedRun = false ∧ t.led.held = s.led.held ∧ t.led.avail = s.led.avail
      ∧ (t.liveSum ≤ s.led.avail ∨ nextShed t = none)
      ∧ t.led.excursion = (s.led.excursion && decide (s.led.avail < t.liveSum))
      ∧ changesOnly [.led, .anyPort, .events] s t := by
  have hexec : exec .shedTimeout s = done (shedLoop s.led.avail 16 s.shedBegun).excursionKept := by
    show execShedTimeout s = _
    unfold execShedTimeout
    rw [if_pos hrun]
    dsimp only
    rw [if_neg (by omega)]
  obtain ⟨c, hled⟩ := shedLoop_led s.led.avail 16 s.shedBegun
  have hends := shedLoop_ends s.led.avail 16 s.shedBegun (sheddable_card_le _)
  have hmoves : Moves [.led, .anyPort, .events] s (shedLoop s.led.avail 16 s.shedBegun) :=
    (moves_shedLoop (by simp) (by simp) (by simp) _ _).mpr ((moves_led (t := s) (by simp) _).mpr (Moves.refl _ _))
  have hgood : memGood (shedLoop s.led.avail 16 s.shedBegun).mem = true := by
    simpa using hs.1
  generalize shedLoop s.led.avail 16 s.shedBegun = u at hexec hled hends hmoves hgood
  obtain ⟨hlive, hnext⟩ : u.excursionKept.flush.liveSum = u.liveSum ∧ nextShed u.excursionKept.flush = nextShed u :=
    shedding_congr (State.flush_ports _) (by rw [State.flush_led]) (by rw [State.flush_led]; rfl)
  refine answers_of hexec ⟨?_, ?_, ?_, ?_, ?_, ?_, Moves.flush ((moves_led (by simp) _).mpr hmoves) (by simp) hs.2 hgood⟩
  · simp [hled]
  · simp [hled]
  · simp [hled]
  · simp [hled]
  · rwa [hlive, hnext]
  · rw [hlive]; simp [hled]

end

/-- Settles O38: the pool by what the books cover, LEDCTL by its limits, tSHED by the loop's end. -/
theorem tokensReserveAndShedding : Obligations.TokensReserveAndShedding := by
  intro s w k v hs
  dsimp only
  refine ⟨fun hk hfits => ⟨fun hw => ?_, fun hw => ?_⟩, fun hk hmore hne hon => ⟨fun hw => ?_, fun hw => ?_⟩,
    fun hk hle hne => answers_tokens_smaller hs hk hle hne, fun hk => ⟨fun hw => ?_, fun hw hon => ?_⟩, fun hres => ?_,
    fun hres hfits => answers_ledctl hs hres hfits, fun hrun hfits => ?_, fun hrun hne => answers_shedTimeout hs hrun hne,
    fun hrun => ?_⟩
  · exact answers_quiet (exec_tokensWrite_other hw hk (opTokens_fits hk hfits)) hs.2 ⟨rfl,
      Moves.changesOnly ((moves_led (t := s) (by simp) _).mpr (Moves.refl _ _)) hs.2 hs.2⟩
  · subst hw
    exact answers_quiet (exec_tokensWrite_core (opTokens_fits hk hfits)) hs.2 ⟨rfl, State.core_updCore_same _ _ _,
      Moves.changesOnly ((moves_updCore (by simp) _).mpr ((moves_led (t := s) (by simp) _).mpr (Moves.refl _ _))) hs.2 hs.2⟩
  · exact answers_tokens_refused_other hs hw hk hon ⟨hmore, hne⟩
  · subst hw; exact answers_tokens_refused hs hon (.inr ⟨hmore, hne⟩)
  · exact refusesWrite_of hs (by decide) ((if_neg hw).trans (if_pos hk))
  · subst hw; exact answers_tokens_refused hs hon (.inl hk)
  · exact refusesWrite_of hs (by decide) (if_pos (by simpa [ledctlReserved] using hres))
  · exact answers_quiet (c := .shedTimeout) ((if_pos hrun).trans (if_pos hfits)) hs.2 ⟨rfl,
      Moves.changesOnly ((moves_led (t := s) (by simp) _).mpr (Moves.refl _ _)) hs.2 hs.2⟩
  · exact idles_of hs (if_neg (by simp [hrun]))

end Sys2Proof.Machine
end

section
/-! What one command does to one port: the port it leaves, the events it fires, and nothing else. Changes compose, and each rule of a
shared operation is stated once as a change. -/

namespace Sys2Proof.Machine

/-! ## The parts that no area names -/

section
variable {l : List Area} {s u : State} (h : Moves l s u)
include h

theorem Moves.cc_eq (hn : Area.clock ∉ l) : u.cc = s.cc := by
  obtain ⟨-, -, hcc, -⟩ := h
  exact hcc.resolve_left hn

theorem Moves.dev_eq (hn : Area.dev ∉ l) : u.dev = s.dev := by
  obtain ⟨-, -, -, hdev, -⟩ := h
  exact hdev.resolve_left hn

theorem Moves.led_eq (hn : Area.led ∉ l) : u.led = s.led := by
  obtain ⟨-, -, -, -, -, -, hled, -⟩ := h
  exact hled.resolve_left hn

theorem Moves.fd_eq (hn : Area.fd ∉ l) : u.fd = s.fd := by
  obtain ⟨-, -, -, -, -, -, -, -, hfd, -⟩ := h
  exact hfd.resolve_left hn

theorem Moves.stone_eq (hn : Area.stone ∉ l) : u.stone = s.stone := by
  obtain ⟨-, -, -, -, -, -, -, -, -, -, hstone, -⟩ := h
  exact hstone.resolve_left hn

theorem Moves.port_eq {m : Port} (hm : Area.port m ∉ l) (ha : Area.anyPort ∉ l) : u.port m = s.port m := by
  obtain ⟨-, -, -, -, -, hport, -⟩ := h
  exact ((hport m).resolve_left hm).resolve_left ha

theorem Moves.core_quiet {c : Core} (hc : Area.core c ∉ l) (ha : Area.anyCore ∉ l) : (u.core c).quiet = (s.core c).quiet := by
  obtain ⟨-, -, -, -, hcore, -⟩ := h
  rcases ((hcore c).resolve_left hc).resolve_left ha with h | ⟨-, h⟩
  · exact congrArg CoreSt.quiet h
  · exact h

theorem Moves.core_run {c : Core} (hc : Area.core c ∉ l) (ha : Area.anyCore ∉ l) :
    (u.core c).run = (s.core c).run ∧ (u.core c).inRom = (s.core c).inRom := by
  have hrun := congrArg CoreSt.run (h.core_quiet hc ha)
  have hrom := congrArg CoreSt.inRom (h.core_quiet hc ha)
  exact ⟨hrun, hrom⟩

end

/-- More areas allow no less. -/
theorem Moves.mono {l l' : List Area} {s u : State} (h : Moves l s u) (hsub : l ⊆ l') : Moves l' s u := by
  obtain ⟨hpend, hevq, hcc, hdev, hcore, hport, hled, htim, hfd, hth, hstone, hbt, hhost, hopen, hmem⟩ := h
  refine ⟨hpend, hevq, hcc.imp_left (@hsub _), hdev.imp_left (@hsub _), fun c => ?_, fun n => ?_, hled.imp_left (@hsub _),
    htim.imp_left (@hsub _), hfd.imp_left (@hsub _), hth.imp_left (@hsub _), hstone.imp_left (@hsub _), hbt.imp_left (@hsub _),
    ?_, hopen.imp_left (@hsub _), fun a ha hr => hmem a (fun lo hi hm => ha lo hi (hsub hm)) fun he => hr (hsub he)⟩
  · rcases hcore c with h | h | h | ⟨h | h, hq⟩
    · exact .inl (hsub h)
    · exact .inr (.inl (hsub h))
    · exact .inr (.inr (.inl h))
    · exact .inr (.inr (.inr ⟨.inl (hsub h), hq⟩))
    · exact .inr (.inr (.inr ⟨.inr (hsub h), hq⟩))
  · rcases hport n with h | h | h
    · exact .inl (hsub h)
    · exact .inr (.inl (hsub h))
    · exact .inr (.inr h)
  · rcases hhost with h | h | ⟨h, hq⟩
    · exact .inl (hsub h)
    · exact .inr (.inl h)
    · exact .inr (.inr ⟨hsub h, hq⟩)

/-- A hub whose device, cores and modes stand holds every port inert as before. -/
theorem portsInert_congr {s u : State} (hd : u.dev = s.dev)
    (hc : ∀ c : Core, (u.core c).run = (s.core c).run ∧ (u.core c).inRom = (s.core c).inRom) : u.portsInert = s.portsInert := by
  have hall : (u.cores.toList.any fun k => (decide (k.run = .run) || decide (k.run = .wait)) && !k.inRom) =
      s.cores.toList.any fun k => (decide (k.run = .run) || decide (k.run = .wait)) && !k.inRom := by
    have hmap : u.cores.map (fun k => (k.run, k.inRom)) = s.cores.map fun k => (k.run, k.inRom) := by
      ext i hi : 1
      simpa using ⟨(hc ⟨i, hi⟩).1, (hc ⟨i, hi⟩).2⟩
    have hlist := congrArg (fun v => v.toList.any fun x : CoreState × Bool => (decide (x.1 = .run) || decide (x.1 = .wait)) && !x.2) hmap
    simpa [Vector.toList_map, List.any_map, Function.comp_def] using hlist
  unfold State.portsInert
  rw [hd, hall]

/-! ## One port changes -/

/-- Port n becomes p, the events q are fired, and nothing changes outside the areas. -/
structure PortChange (l : List Area) (s u : State) (n : Port) (p : PortSt) (q : List (Nat × Nat)) : Prop where
  port : u.port n = p
  evq : u.evq = s.evq ++ q
  mem : u.mem = s.mem
  host : u.host = s.host
  moves : Moves l s u
  listed : Area.port n ∈ l ∨ Area.anyPort ∈ l

namespace PortChange

variable {l : List Area} {s t u : State} {n : Port} {p p' : PortSt} {q q' : List (Nat × Nat)}

theorem refl (hn : Area.port n ∈ l ∨ Area.anyPort ∈ l) (s : State) : PortChange l s s n (s.port n) [] :=
  ⟨rfl, by simp, rfl, rfl, Moves.refl l s, hn⟩

theorem trans (h : PortChange l s t n p q) (k : PortChange l t u n p' q') : PortChange l s u n p' (q ++ q') :=
  ⟨k.port, by rw [k.evq, h.evq, List.append_assoc], k.mem.trans h.mem, k.host.trans h.host, h.moves.trans k.moves, h.listed⟩

/-- A change of the port that fires nothing. -/
theorem upd (h : PortChange l s t n p q) (f : PortSt → PortSt) : PortChange l s (t.updPort n f) n (f p) q :=
  ⟨by rw [State.port_updPort_same, h.port], h.evq, h.mem, h.host, (moves_updPort h.listed _).mpr h.moves, h.listed⟩

theorem pw (h : PortChange l s t n p q) (f : PowerSt → PowerSt) : PortChange l s (t.updPw n f) n { p with pw := f p.pw } q := h.upd _
theorem cf (h : PortChange l s t n p q) (f : CfSt → CfSt) : PortChange l s (t.updCf n f) n { p with cf := f p.cf } q := h.upd _
theorem ln (h : PortChange l s t n p q) (f : LineSt → LineSt) : PortChange l s (t.updLn n f) n { p with ln := f p.ln } q := h.upd _
theorem ct (h : PortChange l s t n p q) (f : ContractSt → ContractSt) :
    PortChange l s (t.updCt n f) n { p with ct := f p.ct } q := h.upd _
theorem st (h : PortChange l s t n p q) (f : StageSt → StageSt) : PortChange l s (t.updSt n f) n { p with st := f p.st } q := h.upd _
theorem wh (h : PortChange l s t n p q) (f : WheelSt → WheelSt) : PortChange l s (t.updWh n f) n { p with wh := f p.wh } q := h.upd _

theorem of_eq (h : PortChange l s t n p q) (hp : p = p') : PortChange l s t n p' q := hp ▸ h

theorem mono {l' : List Area} (h : PortChange l s t n p q) (hsub : l ⊆ l') : PortChange l' s t n p q :=
  ⟨h.port, h.evq, h.mem, h.host, h.moves.mono hsub, h.listed.imp (@hsub _) (@hsub _)⟩

variable (h : PortChange l s u n p q)
include h

theorem eventsOn (hn : Area.dev ∉ l) : u.eventsOn = s.eventsOn := eventsOn_congr (h.moves.dev_eq hn)

theorem has (hd : Area.dev ∉ l) (ht : Area.stone ∉ l) (m : Port) : u.has m = s.has m :=
  has_congr (h.moves.dev_eq hd) (h.moves.stone_eq ht) m

/-- A port event that fires after the change. -/
theorem fires (hd : Area.dev ∉ l) (ht : Area.stone ∉ l) (he : Area.events ∈ l ∨ Area.sources ∈ l) (hon : s.eventsOn = true)
    (hsig : s.signals n = true) (k arg : Nat) : PortChange l s (u.firePort n k arg) n p (q ++ [(8 * n.val + k, arg)]) := by
  have hsig' : s.has n = true ∧ n ≠ portB := by simpa [State.signals] using hsig
  refine ⟨by simp [h.port], ?_, by simp [h.mem], by simp [h.host], (moves_firePort he _ _ _).mpr h.moves, h.listed⟩
  rw [State.firePort_evq u n k arg (by rw [h.eventsOn hd, hon]) (by rw [h.has hd ht, hsig'.1]) hsig'.2, h.evq, List.append_assoc]

end PortChange

/-- The areas of a command about one port: the port and the events, and not what a port event's firing depends on. -/
structure PortAreas (l : List Area) (n : Port) : Prop where
  mine : Area.port n ∈ l
  only : ∀ m, Area.port m ∈ l → m = n
  some : Area.anyPort ∉ l
  events : Area.events ∈ l
  clock : Area.clock ∉ l
  dev : Area.dev ∉ l
  stone : Area.stone ∉ l
  fd : Area.fd ∉ l
  core : ∀ c, Area.core c ∉ l
  cores : Area.anyCore ∉ l

theorem PortAreas.port {l : List Area} {n : Port} (h : PortAreas l n) : Area.port n ∈ l ∨ Area.anyPort ∈ l := .inl h.mine

theorem PortAreas.pair (n : Port) : PortAreas [.port n, .events] n := by constructor <;> simp

section
variable {l : List Area} {s t : State} {n : Port} {p : PortSt} {q : List (Nat × Nat)} (hl : PortAreas l n)
  (h : PortChange l s t n p q)
include hl h

namespace PortChange

theorem others {m : Port} (hm : m ≠ n) : t.port m = s.port m := h.moves.port_eq (fun k => hm (hl.only m k)) hl.some

theorem cc_eq : t.cc = s.cc := h.moves.cc_eq hl.clock
theorem inert : t.portsInert = s.portsInert :=
  portsInert_congr (h.moves.dev_eq hl.dev) fun c => h.moves.core_run (hl.core c) hl.cores

theorem fd_eq : t.fd = s.fd := h.moves.fd_eq hl.fd

variable (hon : s.eventsOn = true) (hsig : s.signals n = true)
include hon hsig

theorem event (k arg : Nat) : PortChange l s (t.firePort n k arg) n p (q ++ [(8 * n.val + k, arg)]) :=
  h.fires hl.dev hl.stone (.inl hl.events) hon hsig k arg

/-- ATTACH reports the state and the cause, which CFSTAT keeps (R108). -/
theorem attachEvent (cause : BitVec 2) : PortChange l s (Machine.attachEvent n cause t) n { p with cf := { p.cf with cause := cause } }
    (q ++ [(8 * n.val, cause.toNat + 16 * p.cf.attach.code)]) := by
  have hfired := (h.cf fun c => { c with cause := cause }).event hl hon hsig 0 (cause.toNat + 16 * p.cf.attach.code)
  have heq : Machine.attachEvent n cause t = (t.updCf n fun c => { c with cause := cause }).firePort n 0
      (cause.toNat + 16 * p.cf.attach.code) := by
    rw [Machine.attachEvent, port_updCf, h.port]
  rw [heq]
  exact hfired

/-- CONTRACT reports a contract that is another (R547). -/
theorem setContract {st : CtrState} {v : BitVec 11} {i : BitVec 9} (src : Bool)
    (hne : p.ct.state ≠ st ∨ p.ct.volt ≠ v ∨ p.ct.icont ≠ i) :
    PortChange l s (Machine.setContract n st v i src t) n { p with ct := { p.ct with state := st, volt := v, icont := i, asSource := src } }
      (q ++ [(8 * n.val + 1, st.code)]) := by
  have hfired := (h.ct fun c => { c with state := st, volt := v, icont := i, asSource := src }).event hl hon hsig 1 st.code
  have heq : Machine.setContract n st v i src t = (t.updCt n fun c =>
      { c with state := st, volt := v, icont := i, asSource := src }).firePort n 1 st.code := if_pos (by rwa [h.port])
  rwa [heq]

end PortChange

omit hl in
/-- A contract that is put in force again reports nothing. -/
theorem setContract_same {st : CtrState} {v : BitVec 11} {i : BitVec 9} (src : Bool)
    (hst : p.ct.state = st) (hv : p.ct.volt = v) (hi : p.ct.icont = i) :
    setContract n st v i src t = t.updCt n fun c => { c with asSource := src } := by
  have heq : setContract n st v i src t = t.updCt n fun c => { c with state := st, volt := v, icont := i, asSource := src } :=
    if_neg (by simp [h.port, hst, hv, hi])
  rw [heq]
  exact updCt_congr (by simp [h.port, ← hst, ← hv, ← hi])

end

/-! ## From a change to a statement -/

section
variable {c : Instr} {s u : State} {n : Port} {p : PortSt} (hs : s.settled)
include hs

theorem setsPort_of_change (h : PortChange [.port n] s u n p []) (hexec : exec c s = done u) : setsPort c s n p :=
  setsPort_of_moves hs hexec (by rw [h.evq, hs.2]; rfl) h.port h.moves

theorem setsPortFires_of_change {e arg : Nat} (h : PortChange [.port n, .events] s u n p [(e, arg)]) (hexec : exec c s = done u) :
    setsPortFires c s n p e arg :=
  setsPortFires_of_moves hs hexec (by rw [h.evq, hs.2]; rfl) h.port h.moves (by rw [h.mem]; exact hs.1) (by rw [h.host])

/-- What a change leaves once its events are written, in ascending number. -/
theorem PortChange.answered {q q' : List (Nat × Nat)} {l : List Area} (h : PortChange l s u n p q) (he : Area.events ∈ l)
    (hq : sortEvents q = q') (hlen : q'.length ≤ 256) : u.flush.port n = p ∧ reports s u.flush q' ∧ changesOnly l s u.flush := by
  have hgood : memGood u.mem = true := by rw [h.mem]; exact hs.1
  exact ⟨by rw [State.port_flush, h.port], reports_flush (by rw [h.evq, hs.2]; exact hq) hlen hgood (by rw [h.host]),
    h.moves.flush he hs.2 hgood⟩

end

end Sys2Proof.Machine
end

section
/-! O20: attach, detach (R94 to R98, R104, R106, R108, R138, R139; DESIGN CHOICE, log entries 13, 60, 93, 94, 95). -/

namespace Sys2Proof.Machine

/-! ## What an attach does to the wires (R106, R109) -/

/-- The wires of a port that attaches. -/
def CfSt.attachedAs (c : CfSt) (source active : Bool) (cc : Nat) (inert : Bool) : CfSt :=
  let c1 := { c with attach := if source then .attachedSrc else .attachedSnk, asSource := source, active := active,
                     attachRun := false, debounced := false, fromLegacy := false, legacyDue := false
                     levelCc := if source && decide (c.level = 1) then cc else c.levelCc }
  let c2 := { c1 with marker := source && decide (c1.otherReading = Reading.mark),
                      csupIn := !source && decide (c1.otherReading = Reading.floatBand) }
  { c2 with csupOn := c2.wantsCsup && !inert }

/-- The default contract of a sink that attaches: it is accepted at once. -/
def ContractSt.sinkDefault (c : ContractSt) (v : BitVec 11) (i : BitVec 9) (w : Window) (getcaps : Bool) : ContractSt :=
  { c with state := .default, volt := v, icont := i, asSource := false, window := w, trans := false, seq := none
           getcapsDue := getcaps }

theorem sortEvents_ascending {a b x y : Nat} (h : a ≤ b) : sortEvents [(a, x), (b, y)] = [(a, x), (b, y)] := by
  simp [sortEvents, insertEvent, h]

theorem sortEvents_descending {a b x y : Nat} (h : b < a) : sortEvents [(a, x), (b, y)] = [(b, y), (a, x)] := by
  simp [sortEvents, insertEvent, h]

section
variable {l : List Area} {s t : State} {n : Port} {p : PortSt} {q : List (Nat × Nat)}

/-- With a feed selected elsewhere nothing follows a change of a contract. -/
theorem contractChanged_elsewhere (h : t.fedElsewhere n) : contractChanged n t = t := by
  obtain ⟨hfed, hfeed, hpre⟩ := h
  rw [contractChanged, hfeed]
  exact feedReview_of_fed hfed hpre

theorem PortChange.contractChanged (hl : PortAreas l n) (h : PortChange l s t n p q) (hfed : s.fedElsewhere n) :
    Machine.contractChanged n t = t := by
  have hfd := h.fd_eq hl
  exact contractChanged_elsewhere (by rw [State.fedElsewhere, isFeed_congr hfd, hfd]; exact hfed)

variable (hl : PortAreas l n) (hon : s.eventsOn = true) (hsig : s.signals n = true)
include hl hon hsig

/-- The wires of an attach, and its event. -/
theorem attachStarted (source a : Bool) :
    PortChange l s (attachEvent n 0 (s.updCf n fun c => c.attachedAs source a s.cc s.portsInert)) n
      { s.port n with cf := { (s.port n).cf.attachedAs source a s.cc s.portsInert with cause := 0 } }
      [(8 * n.val, if source = true then 0x20 else 0x30)] := by
  have h := ((PortChange.refl hl.port s).cf fun c => c.attachedAs source a s.cc s.portsInert).attachEvent hl hon hsig 0
  cases source <;> exact h

/-- A sink attaches under its default contract (R139). -/
theorem attachAs_sink (a : Bool) (hfed : s.fedElsewhere n) (hct : (s.port n).ct.state = .none) :
    let d := (s.port n).ripe.defaultContract
    PortChange l s (attachAs n false a s) n
      { s.port n with
        cf := { (s.port n).cf.attachedAs false a s.cc s.portsInert with cause := 0 }
        ct := (s.port n).ct.sinkDefault d.1 d.2 (windowOf n (s.port n).ripe true d.1) (bitOf (s.port n).ln.linectl 0) }
      [(8 * n.val, 0x30), (8 * n.val + 1, 1)] := by
  intro d
  have h := ((attachStarted hl hon hsig false a).setContract hl hon hsig (st := .default) (v := d.1) (i := d.2) false
    (.inl (by rw [hct]; decide))).ct fun c =>
    { c with window := windowOf n (s.port n).ripe true d.1, trans := false, seq := none, getcapsDue := bitOf (s.port n).ln.linectl 0 }
  have heq := h.contractChanged hl hfed
  rw [← heq] at h
  exact h

/-- A source whose DEFEN is 0 attaches under no contract (R139). -/
theorem attachAs_source_bare (a : Bool) (hfed : s.fedElsewhere n) (hct : (s.port n).ct.state = .none)
    (hdef : (s.port n).ripe.defen = false) (hv : (s.port n).ct.volt = 0) (hi : (s.port n).ct.icont = 0) :
    PortChange l s (attachAs n true a s) n
      { s.port n with
        cf := { (s.port n).cf.attachedAs true a s.cc s.portsInert with cause := 0 }
        ct := { (s.port n).ct with asSource := true } } [(8 * n.val, 0x20)] := by
  have h0 := attachStarted hl hon hsig true a
  have h := h0.ct fun c => { c with asSource := true }
  rw [← setContract_same h0 true hct hv hi] at h
  have heq : attachAs n true a s = contractChanged n (setContract n .none 0 0 true
      (attachEvent n 0 (s.updCf n fun c => c.attachedAs true a s.cc s.portsInert))) := by
    rw [attachAs, if_pos rfl, if_neg (by rw [hdef]; decide)]
    rfl
  rwa [heq, h.contractChanged hl hfed]

end

/-! ## A source's default contract (R139, R166, R167) -/

section
variable {l : List Area} {s t : State} {n : Port} {p : PortSt} {q : List (Nat × Nat)}

/-- A port event or a change of a port lets a posted request be served as before. -/
theorem PortChange.postServed (hl : PortAreas l n) (h : PortChange l s t n p q) (hserved : s.postServed n) : t.postServed n := by
  obtain ⟨hpc1, hslot⟩ := hserved
  have hrun := (h.moves.core_run (hl.core corePC1) hl.cores).1
  refine ⟨?_, ?_⟩
  · rw [State.pc1Serves, hrun]; exact hpc1
  · rw [slotPending, slotCtl, h.mem]; exact hslot

/-- The default contract of a source, its RAISE served. -/
theorem applyDefault_raised (hs : memGood s.mem = true) (hon : s.eventsOn = true) (hsig : s.signals n = true)
    (hserved : s.raiseServed n (powerUp (s.port n).ripe.defaultContract.1 (s.port n).ripe.defaultContract.2))
    (hct : (s.port n).ct.state = .none) :
    let d := (s.port n).ripe.defaultContract
    let new := powerUp d.1 d.2
    ∃ u, PostRaised s u n new 0 ∧ PortChange [.port n, .events] u (applyDefault n s) n
      { u.port n with
        ct := { (u.port n).ct with state := .default, volt := d.1, icont := d.2, asSource := true
                                   window := windowOf n (s.port n).ripe true d.1 } } [(8 * n.val + 1, 1)] := by
  intro d new
  obtain ⟨hserve, hbooks⟩ := hserved
  obtain ⟨hone, hraised⟩ := postRaised hs hserve (powerUp_lt d.1 d.2) (by decide : 0 < 256 ^ 2) hbooks
  have hmoves := hraised.moves [.port n, .led, ledgerArea, .events] (by simp) (by simp) (by simp) (by simp)
  have hl := PortAreas.pair n
  refine ⟨(ledgerPost n 0 new 0 s).2, hraised, ?_⟩
  have heq : applyDefault n s = (setContract n .default d.1 d.2 true (ledgerPost n 0 new 0 s).2).updCt n fun c =>
      { c with window := windowOf n (s.port n).ripe true d.1 } := if_pos hone
  have hdev : (ledgerPost n 0 new 0 s).2.dev = s.dev := hmoves.dev_eq (by simp)
  have hstone : (ledgerPost n 0 new 0 s).2.stone = s.stone := hmoves.stone_eq (by simp)
  have hon' : (ledgerPost n 0 new 0 s).2.eventsOn = true := by rw [eventsOn_congr hdev, hon]
  have hsig' : (ledgerPost n 0 new 0 s).2.signals n = true := by rw [State.signals, has_congr hdev hstone]; exact hsig
  have hnone : ((ledgerPost n 0 new 0 s).2.port n).ct.state = .none := by rw [hraised.port]; exact hct
  rw [heq]
  exact ((PortChange.refl hl.port _).setContract hl hon' hsig' true (.inl (by rw [hnone]; decide))).ct _

end

/-! ## The attach in the words of the statement -/

/-- What an attach as source or sink on active wire a leaves, the default contract in force. -/
def attachShown (n : Port) (source a : Bool) (s t : State) : Prop :=
  let p := s.port n
  let d := p.ripe.defaultContract
  (t.port n).cf.attach = (if source = true then .attachedSrc else .attachedSnk) ∧ (t.port n).cf.asSource = source
  ∧ (t.port n).cf.active = a ∧ (t.port n).cf.cause = 0
  ∧ (t.port n).ct.state = .default ∧ (t.port n).ct.volt = d.1 ∧ (t.port n).ct.icont = d.2 ∧ (t.port n).ct.asSource = source
  ∧ (t.port n).pw = p.pw ∧ (t.port n).ln = p.ln ∧ (t.port n).st = p.st
  ∧ reports s t [(8 * n.val, if source = true then 0x20 else 0x30), (8 * n.val + 1, 1)]
  ∧ (source = true → t.led.held[n] = max s.led.held[n] (powerUp d.1 d.2) ∧ t.led.avail = s.led.avail)
  ∧ changesOnly (if source = true then [.port n, .led, ledgerArea, .events] else [.port n, .events]) s t

section
variable {i : Instr} {s : State} {n : Port} (hs : s.settled) (hon : s.eventsOn = true) (hsig : s.signals n = true)
  (hfed : s.fedElsewhere n)
include hs hon hsig hfed

theorem answers_attach_sink {a : Bool} (hexec : exec i s = done (attachAs n false a s)) (hct : (s.port n).ct.state = .none) :
    answers i s (attachShown n false a s) := by
  have h := attachAs_sink (PortAreas.pair n) hon hsig a hfed hct
  obtain ⟨hport, hreports, hchanges⟩ := h.answered hs (by simp) (sortEvents_ascending (by omega)) (by simp)
  refine answers_of hexec ⟨?_, ?_, ?_, ?_, ?_, ?_, ?_, ?_, ?_, ?_, ?_, hreports, fun h => absurd h (by decide), hchanges⟩ <;> rw [hport] <;> rfl

theorem answers_attach_source {a : Bool} (hexec : exec i s = done (attachAs n true a s)) (hct : (s.port n).ct.state = .none)
    (hdef : (s.port n).ripe.defen = true)
    (hserved : s.raiseServed n (powerUp (s.port n).ripe.defaultContract.1 (s.port n).ripe.defaultContract.2)) :
    answers i s (attachShown n true a s) := by
  have hl := PortAreas.pair n
  have hsub : [Area.port n, .events] ⊆ [Area.port n, .led, ledgerArea, .events] := by simp
  have h := attachStarted hl hon hsig true a
  have heq : attachAs n true a s = contractChanged n (applyDefault n
      (attachEvent n 0 (s.updCf n fun c => c.attachedAs true a s.cc s.portsInert))) := by
    rw [attachAs, if_pos rfl, if_pos hdef]
    rfl
  generalize attachEvent n 0 (s.updCf n fun c => c.attachedAs true a s.cc s.portsInert) = t at h heq
  have hripe : (t.port n).ripe = (s.port n).ripe := by rw [h.port]
  have hled : t.led = s.led := h.moves.led_eq (by simp)
  obtain ⟨hpost, hbooks⟩ := hserved
  have hgood : memGood t.mem = true := by rw [h.mem]; exact hs.1
  obtain ⟨u, hraised, hput⟩ := applyDefault_raised (n := n) (s := t) hgood (by rw [h.eventsOn hl.dev, hon])
    (by rw [State.signals, h.has hl.dev hl.stone]; exact hsig)
    ⟨h.postServed hl hpost, by rw [hled, hripe]; exact hbooks⟩ (by rw [h.port]; exact hct)
  rw [hripe] at hraised hput
  have hmoves : Moves [.port n, .led, ledgerArea, .events] s (applyDefault n t) :=
    ((h.moves.mono hsub).trans (hraised.moves _ (by simp) (by simp) (by simp) (by simp))).trans (hput.moves.mono hsub)
  have hfd : (applyDefault n t).fd = s.fd := hmoves.fd_eq (by simp)
  rw [contractChanged_elsewhere (by rw [State.fedElsewhere, isFeed_congr hfd, hfd]; exact hfed)] at heq
  have hport := hput.port
  rw [hraised.port, h.port] at hport
  have hevq : (applyDefault n t).evq = [(8 * n.val, 0x20), (8 * n.val + 1, 1)] := by
    rw [hput.evq, hraised.evq, h.evq, hs.2]; rfl
  have hagood : memGood (applyDefault n t).mem = true := by rw [hput.mem]; exact hraised.good
  have hhost : (applyDefault n t).host = s.host := by rw [hput.host, hraised.host, h.host]
  have hbook : (applyDefault n t).led = u.led := hput.moves.led_eq (by simp)
  have hreports : reports s (applyDefault n t).flush [(8 * n.val, 0x20), (8 * n.val + 1, 1)] :=
    reports_flush (by rw [hevq]; exact sortEvents_ascending (by omega)) (by simp) hagood (by rw [hhost])
  have hheld : (applyDefault n t).flush.led.held[n] =
        max s.led.held[n] (powerUp (s.port n).ripe.defaultContract.1 (s.port n).ripe.defaultContract.2)
      ∧ (applyDefault n t).flush.led.avail = s.led.avail := by
    rw [State.flush_led, hbook, hraised.led, hled]
    exact ⟨by simp, rfl⟩
  refine answers_of (hexec.trans (congrArg done heq)) ⟨?_, ?_, ?_, ?_, ?_, ?_, ?_, ?_, ?_, ?_, ?_,
    hreports, fun _ => hheld, hmoves.flush (by simp) hs.2 hagood⟩ <;> rw [State.port_flush, hport] <;> rfl

theorem answers_attach_bare {a : Bool} (hexec : exec i s = done (attachAs n true a s)) (hct : (s.port n).ct.state = .none)
    (hdef : (s.port n).ripe.defen = false) (hv : (s.port n).ct.volt = 0) (hi : (s.port n).ct.icont = 0) :
    answers i s fun t => (t.port n).cf.attach = .attachedSrc ∧ (t.port n).ct.state = .none ∧ logs s t (8 * n.val) 0x20
      ∧ changesOnly [.port n, .events] s t := by
  obtain ⟨t, hdone, hport, hlog, hchanges⟩ := setsPortFires_of_change hs
    (attachAs_source_bare (PortAreas.pair n) hon hsig a hfed hct hdef hv hi) hexec
  exact ⟨t, hdone, by rw [hport]; rfl, by rw [hport]; exact hct, hlog, hchanges⟩

end

end Sys2Proof.Machine
end

section
/-! The end of a contract (R138, R391), a detach (R96 to R98, R106, R108), and O20. -/

namespace Sys2Proof.Machine

/-! ## A contract ends (R138, R391) -/

/-- A port whose contract has ended with every sequence, transition and profile of it, its switch as it was. -/
def PortSt.contractEnded (p : PortSt) : PortSt :=
  { p.resumed with
    ct := { p.ct with
      state := .none, volt := 0, icont := 0, asSource := false, trans := false, prof := false, newProf := false, slewing := false
      seq := none, narrowing := false, askNewRun := false, first := false, profGranted := false, ownSwap := none } }

/-- CONTRACT is reported where a contract stood. -/
def PortSt.contractEvents (p : PortSt) (n : Port) : List (Nat × Nat) :=
  if p.ct.state ≠ .none ∨ p.ct.volt ≠ 0 ∨ p.ct.icont ≠ 0 then [(8 * n.val + 1, 0)] else []

theorem resumeDetach_eq (n : Port) (s : State) :
    resumeDetach n s = s.updCf n fun c => { c with suspended := c.suspended && !(s.port n).ct.beforeExchange } := by
  unfold resumeDetach
  cases h : (s.port n).cf.suspended && (s.port n).ct.beforeExchange
  · rw [if_neg (by decide), updCf_of_fixed]
    have hkeep : ((s.port n).cf.suspended && !(s.port n).ct.beforeExchange) = (s.port n).cf.suspended := by
      revert h; cases (s.port n).cf.suspended <;> cases (s.port n).ct.beforeExchange <;> simp
    rw [hkeep]
  · rw [if_pos rfl]
    have hgone : ((s.port n).cf.suspended && !(s.port n).ct.beforeExchange) = false := by
      revert h; cases (s.port n).cf.suspended <;> cases (s.port n).ct.beforeExchange <;> simp
    exact updCf_congr (by simp only [hgone])

section
variable {l : List Area} {s t : State} {n : Port} {p : PortSt} {q : List (Nat × Nat)} (hl : PortAreas l n)
  (h : PortChange l s t n p q)
include hl h

namespace PortChange

omit hl in
theorem resumeDetach : PortChange l s (Machine.resumeDetach n t) n p.resumed q := by
  rw [resumeDetach_eq, h.port]
  exact h.cf _

theorem signals (m : Port) : t.signals m = s.signals m := by rw [State.signals, h.has hl.dev hl.stone]; rfl

omit hl in
/-- PG's fall is reported where it stood (R415). -/
theorem dropPg_low (hpg : p.pw.pg = false) : Machine.dropPg n t = t := dropPg_of_low (by rw [h.port, hpg])

/-- A switch that was closed, or whose start waited, opens (R403). -/
theorem openSwitch (next : SwState) (hsw : p.pw.sw = .wait ∨ p.pw.sw = .prechg ∨ p.pw.sw = .ramp ∨ p.pw.sw = .on)
    (hw : ∀ m, m ≠ n → (s.port m).pw.sw ≠ .wait) (hpg : p.pw.pg = false) :
    PortChange l s (Machine.openSwitch next n t) n { p with pw := p.pw.opened next n } q := by
  rw [openSwitch_eq next (by rw [h.port]; exact hsw) fun m hm => by rw [h.others hl hm]; exact hw m hm,
    (h.pw fun p => p.opened next n).dropPg_low hpg]
  exact h.pw _

omit hl in
theorem openSwitch_open (next : SwState) (hsw : p.pw.sw ≠ .wait ∧ p.pw.sw ≠ .prechg ∧ p.pw.sw ≠ .ramp ∧ p.pw.sw ≠ .on) :
    PortChange l s (Machine.openSwitch next n t) n p q := by
  rw [openSwitch_of_open next (by rw [h.port]; exact hsw)]
  exact h

variable (hon : s.eventsOn = true) (hsig : s.signals n = true) (hb : p.wh.burstOpen = false)
include hon hsig hb

/-- A contract that ends, before the switch opens. -/
theorem contractDropped : PortChange l s ((Machine.forcedClose n (Machine.setContract n .none 0 0 false (Machine.resumeDetach n t))).updCt n
    fun c => { c with
      trans := false, prof := false, newProf := false, slewing := false, seq := none, narrowing := false
      askNewRun := false, first := false, profGranted := false, ownSwap := none }) n p.contractEnded (q ++ p.contractEvents n) := by
  have hres := h.resumeDetach
  by_cases hne : p.ct.state ≠ .none ∨ p.ct.volt ≠ 0 ∨ p.ct.icont ≠ 0
  · have hset := hres.setContract hl hon hsig false hne
    rw [forcedClose_of_closed (by rw [hset.port]; exact hb), PortSt.contractEvents, if_pos hne]
    exact hset.ct _
  · obtain ⟨hst, hv, hi⟩ : p.ct.state = .none ∧ p.ct.volt = 0 ∧ p.ct.icont = 0 := by simpa [not_or] using hne
    have hset := hres.ct fun c => { c with asSource := false }
    rw [← setContract_same hres false hst hv hi] at hset
    rw [forcedClose_of_closed (by rw [hset.port]; exact hb), PortSt.contractEvents, if_neg hne, List.append_nil]
    refine (hset.ct _).of_eq ?_
    simp [PortSt.contractEnded, hst, hv, hi]

/-- The contract of a port whose switch is open ends. -/
theorem endContract_open (hsw : p.pw.sw ≠ .wait ∧ p.pw.sw ≠ .prechg ∧ p.pw.sw ≠ .ramp ∧ p.pw.sw ≠ .on) :
    PortChange l s (endContract n t) n p.contractEnded (q ++ p.contractEvents n) :=
  (h.contractDropped hl hon hsig hb).openSwitch_open .off hsw

/-- The contract of a port ends, and its switch opens with it. -/
theorem endContract_closed (hsw : p.pw.sw = .wait ∨ p.pw.sw = .prechg ∨ p.pw.sw = .ramp ∨ p.pw.sw = .on)
    (hw : ∀ m, m ≠ n → (s.port m).pw.sw ≠ .wait) (hpg : p.pw.pg = false) :
    PortChange l s (endContract n t) n { p.contractEnded with pw := p.pw.opened .off n } (q ++ p.contractEvents n) :=
  (h.contractDropped hl hon hsig hb).openSwitch hl .off hsw hw hpg

end PortChange

omit hl h in
/-- With no grant held, or the output not yet down, the ledger releases nothing at once. -/
theorem finishContract_unreleased {u : State} (hend : endContract n s = u)
    (hu : u.led.held[n] = 0 ∨ ((u.port n).pw.sw ≠ .off ∧ (u.port n).pw.sw ≠ .giveup)) : finishContract n s = u := by
  unfold finishContract
  rw [hend]
  refine if_neg ?_
  rintro ⟨hsw, hheld⟩
  rcases hu with hu | ⟨hoff, hgiveup⟩
  · rw [hu] at hheld; exact absurd hheld (by decide)
  · rcases hsw with hsw | hsw
    · exact hoff hsw
    · exact hgiveup hsw

end

/-! ## The wires of a port that becomes unattached (R102) -/

/-- The wires at an entry to UNATTACHED under a role. -/
def CfSt.unattachedAs (c : CfSt) (role : BitVec 3) : CfSt :=
  { c with attach := .unattached, effMode := role, asSource := decide (2 ≤ role.toNat), active := false
           marker := false, csupOn := false, csupIn := false, csupOc := false, csupTrips := 0, csupSwapped := false
           fromLegacy := false, legacyDue := false, attachRun := false, debounced := false, suspended := false }

theorem enterUnattached_eq (n : Port) (s : State) : enterUnattached n s = s.updCf n fun c => c.unattachedAs (effectiveRole s c) := rfl

theorem level_setLevel (c : CfSt) (cc : Nat) : (c.setLevel cc 0).level = 0 := by
  unfold CfSt.setLevel
  split
  · assumption
  · refine Nat.eq_of_testBit_eq fun i => ?_
    rw [CfSt.level, testBit_fld]
    by_cases hi : i < 2
    · rw [getLsbD_setFld c.cfctl 11 10 0 (10 + i) (by omega), if_pos (by omega)]
      simp
    · simp [hi]

theorem rolemode_setLevel (c : CfSt) (cc v : Nat) : (c.setLevel cc v).rolemode = c.rolemode := by
  unfold CfSt.setLevel
  split
  · rfl
  · refine BitVec.eq_of_getLsbD_eq fun i hi => ?_
    simp only [CfSt.rolemode, BitVec.getLsbD_extractLsb']
    rw [getLsbD_setFld _ _ _ _ _ (by omega), if_neg (by omega)]

/-- A port whose wires show nobody seeks nobody. -/
theorem seekPartner_alone {s : State} {n : Port} (h1 : readsSource (s.port n).cf.cf1 = false)
    (h2 : readsSource (s.port n).cf.cf2 = false) : seekPartner n s = s := by
  have hsource : (s.port n).cf.sourceSeen = false := by rw [CfSt.sourceSeen, h1, h2]; rfl
  have hwire (r : Reading) (hr : readsSource r = false) : (s.port n).cf.isSink s.cc r = false := by
    simp only [readsSource, Bool.or_eq_false_iff, decide_eq_false_iff_not] at hr
    simp [CfSt.isSink, hr.1, hr.2]
  have hsink : (s.port n).cf.sinkSeen s.cc = false := by rw [CfSt.sinkSeen, hwire _ h1, hwire _ h2]; rfl
  unfold seekPartner
  simp only [hsource, hsink, Bool.false_eq_true, if_false, ite_self]

theorem flushTx_empty {s : State} {n : Port} (r : Nat) (h : (s.port n).ln.tx = []) : flushTx n r s = s := by
  simp [flushTx, pendingTx, h]

/-! ## A detach (R96 to R98, R106, R108) -/

/-- A port that detaches, its contract having ended. -/
def PortSt.detached (p : PortSt) (cc : Nat) (role : BitVec 3) (cause : BitVec 2) : PortSt :=
  { p with
    pw := { p.pw with
      failed := false, startHeld := false, after := .off
      sw := if p.pw.sw = .offtime ∨ (p.pw.sw = .giveup ∧ p.pw.failed = true) then .off else p.pw.sw }
    ln := p.ln.closed
    cf := { (p.cf.setLevel cc 0).unattachedAs role with cause := cause }
    ct := { p.ct with caps := [], capsSent := 0, capsNodded := false, seq := none, waiting := [], getcapsDue := false } }

section
variable {l : List Area} {s t : State} {n : Port} {p : PortSt} {q : List (Nat × Nat)} (hl : PortAreas l n)
  (h : PortChange l s t n p q)
include hl h

namespace PortChange

omit hl in
theorem closeLine (htx : p.ln.tx = []) : PortChange l s (Machine.closeLine n t) n { p with ln := p.ln.closed } q := by
  rw [Machine.closeLine, flushTx_empty 3 (by rw [h.port]; exact htx)]
  exact h.ln _

theorem enterUnattached :
    PortChange l s (Machine.enterUnattached n t) n { p with cf := p.cf.unattachedAs (effectiveRole s p.cf) } q := by
  have hun := h.cf fun c => c.unattachedAs (effectiveRole t c)
  rwa [effectiveRole, h.inert hl] at hun

omit hl in
theorem seekPartner_alone (h1 : readsSource p.cf.cf1 = false) (h2 : readsSource p.cf.cf2 = false) :
    PortChange l s (Machine.seekPartner n t) n p q := by
  rw [Machine.seekPartner_alone (by rw [h.port]; exact h1) (by rw [h.port]; exact h2)]
  exact h

/-- A detach of a port that is no feed, whose TX ring is empty and whose wires show nobody, its contract having ended. -/
theorem detach (hend : finishContract n s = t) (hf : s.isFeed n = false) (hon : s.eventsOn = true) (hsig : s.signals n = true)
    (htx : p.ln.tx = []) (h1 : readsSource p.cf.cf1 = false) (h2 : readsSource p.cf.cf2 = false) (cause : BitVec 2)
    (feedCause : BitVec 4) : PortChange l s (Machine.detach n cause feedCause s) n
      (p.detached s.cc (effectiveRole s (p.cf.setLevel s.cc 0)) cause) (q ++ [(8 * n.val, cause.toNat)]) := by
  have hread (c : CfSt) : (c.setLevel s.cc 0).cf1 = c.cf1 ∧ (c.setLevel s.cc 0).cf2 = c.cf2 := by
    unfold CfSt.setLevel
    split <;> exact ⟨rfl, rfl⟩
  have hclosed := ((h.pw fun p => { p with
    failed := false, startHeld := false, after := .off
    sw := if p.sw = .offtime ∨ (p.sw = .giveup ∧ p.failed = true) then .off else p.sw }).closeLine htx).cf
      fun c => c.setLevel s.cc 0
  have hsought := ((hclosed.enterUnattached hl).ct fun c => { c with
    caps := [], capsSent := 0, capsNodded := false, seq := none, waiting := [], getcapsDue := false }).seekPartner_alone
      (by simpa [CfSt.unattachedAs, hread] using h1) (by simpa [CfSt.unattachedAs, hread] using h2)
  have hfired := hsought.attachEvent hl hon hsig cause
  unfold Machine.detach
  rw [hend]
  simp only [hf, Bool.false_eq_true, if_false]
  exact hfired

end PortChange

end

/-! ## The detach in the words of the statement -/

section
variable {i : Instr} {s : State} {n : Port} (hs : s.settled) (hexec : exec i s = done (detach n 1 0xB s)) (hsig : s.signals n = true)
  (hon : s.eventsOn = true) (hf : s.isFeed n = false) (hw : s.noneWaits) (h1 : readsSource (s.port n).cf.cf1 = false)
  (h2 : readsSource (s.port n).cf.cf2 = false) (hb : (s.port n).wh.burstOpen = false) (htx : (s.port n).ln.txCount = 0)
  (hheld : s.led.held[n] = 0) (hpg : (s.port n).pw.pg = false)
include hs hexec hsig hon hf h1 h2 hb htx hheld

theorem answers_detach_bare (hst : (s.port n).ct.state = .none) (hv : (s.port n).ct.volt = 0) (hi : (s.port n).ct.icont = 0)
    (hsw : (s.port n).pw.sw = .off) : answers i s fun t =>
      (t.port n).cf.attach = .unattached ∧ (t.port n).cf.effMode = effectiveRole s (s.port n).cf ∧ (t.port n).cf.level = 0
      ∧ (t.port n).cf.csupOn = false ∧ (t.port n).cf.suspended = false ∧ (t.port n).cf.cause = 1
      ∧ (t.port n).ln.ctxs = .replicate 12 .reset ∧ (t.port n).ln.phase = .idle ∧ (t.port n).ln.own = []
      ∧ (t.port n).ct.state = .none ∧ (t.port n).ct.caps = [] ∧ (t.port n).pw.sw = .off ∧ (t.port n).st = (s.port n).st
      ∧ logs s t (8 * n.val) 1 ∧ changesOnly [.port n, .events] s t := by
  have hl := PortAreas.pair n
  have hended := (PortChange.refl hl.port s).endContract_open hl hon hsig hb (by simp [hsw])
  have hnone : (s.port n).contractEvents n = [] := by simp [PortSt.contractEvents, hst, hv, hi]
  rw [hnone] at hended
  have hled : (endContract n s).led.held[n] = 0 := by rw [hended.moves.led_eq (by simp)]; exact hheld
  have h := hended.detach hl (finishContract_unreleased rfl (.inl hled)) hf hon hsig (List.length_eq_zero_iff.mp htx) h1 h2 1 0xB
  obtain ⟨t, hdone, hport, hlog, hchanges⟩ := setsPortFires_of_change hs h hexec
  have hrole : effectiveRole s ((s.port n).contractEnded.cf.setLevel s.cc 0) = effectiveRole s (s.port n).cf := by
    rw [effectiveRole, rolemode_setLevel]; rfl
  refine ⟨t, hdone, ?_⟩
  dsimp only
  rw [hport, hrole]
  exact ⟨rfl, rfl, level_setLevel _ _, rfl, rfl, rfl, rfl, rfl, rfl, rfl, rfl, by simp [PortSt.detached, PortSt.contractEnded, hsw],
    rfl, hlog, hchanges⟩

include hw hpg

theorem answers_detach_contract (hst : (s.port n).ct.state ≠ .none) (hsw : (s.port n).pw.sw = .on) : answers i s fun t =>
      (t.port n).cf.attach = .unattached ∧ (t.port n).ct.state = .none ∧ (t.port n).ct.volt = 0 ∧ (t.port n).ct.icont = 0
      ∧ (t.port n).pw.sw = .disch ∧ (t.port n).pw.after = .off ∧ (t.port n).st = (s.port n).st
      ∧ reports s t [(8 * n.val, 1), (8 * n.val + 1, 0)] ∧ changesOnly [.port n, .events] s t := by
  have hl := PortAreas.pair n
  have hended := (PortChange.refl hl.port s).endContract_closed hl hon hsig hb (by simp [hsw]) (fun m _ => hw m) hpg
  have hnone : (s.port n).contractEvents n = [(8 * n.val + 1, 0)] := if_pos (.inl hst)
  rw [hnone] at hended
  have hled : (endContract n s).led.held[n] = 0 := by rw [hended.moves.led_eq (by simp)]; exact hheld
  have h := hended.detach hl (finishContract_unreleased rfl (.inl hled)) hf hon hsig (List.length_eq_zero_iff.mp htx) h1 h2 1 0xB
  obtain ⟨hport, hreports, hchanges⟩ := h.answered hs (by simp) (sortEvents_descending (by omega)) (by simp)
  refine answers_of hexec ⟨?_, ?_, ?_, ?_, ?_, ?_, ?_, hreports, hchanges⟩ <;> rw [hport] <;> rfl

end

/-! ## The debounces (R94, R95, R106) -/

section
variable {s : State} {n : Port}

theorem exec_cfAttachDone (hsig : s.signals n = true) (ha : (s.port n).cf.attach = .attachWait)
    (hrun : (s.port n).cf.attachRun = true) : exec (.cfAttachDone n) s = done (debounceDone n s) :=
  if_pos (by simp [hsig, ha, hrun])

theorem debounceDone_source {a : Bool} (hsrc : (s.port n).cf.asSource = true) (hrow : (s.port n).cf.sourceRow s.cc = some a)
    (hmode : (s.port n).cf.effMode ≠ 5) : debounceDone n s = attachAs n true a s := by
  simp only [debounceDone, hsrc, hrow, if_true, if_neg hmode]

theorem debounceDone_sink {a : Bool} (hsrc : (s.port n).cf.asSource = false) (hrow : (s.port n).cf.sinkRow = some a)
    (hmode : (s.port n).cf.effMode ≠ 4) : debounceDone n s = attachAs n false a s := by
  simp only [debounceDone, hsrc, hrow, Bool.false_eq_true, if_false, if_neg hmode]

theorem debounceDone_trySource {a : Bool} (hsrc : (s.port n).cf.asSource = false) (hrow : (s.port n).cf.sinkRow = some a)
    (hmode : (s.port n).cf.effMode = 4) : debounceDone n s = enterTry n .trySrc true s := by
  simp only [debounceDone, hsrc, hrow, Bool.false_eq_true, if_false, if_pos hmode]

theorem exec_tryDebounce_source (ha : (s.port n).cf.attach = .trySrc ∨ (s.port n).cf.attach = .tryWaitSrc)
    (hseen : (s.port n).cf.sinkSeen s.cc = true) : exec (.tryDebounceDone n) s =
      done (attachAs n true (((s.port n).cf.sourceRow s.cc).getD !(s.port n).cf.isSink s.cc (s.port n).cf.cf1) s) := by
  show execTryDebounceDone n s = _
  rcases ha with ha | ha <;> simp only [execTryDebounceDone, ha, hseen, if_true]

theorem exec_tryDebounce_sink (ha : (s.port n).cf.attach = .trySnk ∨ (s.port n).cf.attach = .tryWaitSnk)
    (hseen : (s.port n).cf.sourceSeen = true) : exec (.tryDebounceDone n) s =
      done (attachAs n false ((s.port n).cf.sinkRow.getD !readsSource (s.port n).cf.cf1) s) := by
  show execTryDebounceDone n s = _
  rcases ha with ha | ha <;> simp only [execTryDebounceDone, ha, hseen, if_true]

/-- The three commands by which a port detaches. -/
theorem exec_detach {i : Instr} (h : (i = .cfDetachTimeout n ∧ (s.port n).cf.detachRun = true)
    ∨ (i = .cfUndecidedTimeout n ∧ (s.port n).cf.undecRun s.cc = true)
    ∨ (i = .swapPresentationTimeout n ∧ (s.port n).cf.suspended = true)) : exec i s = done (detach n 1 0xB s) := by
  rcases h with ⟨rfl, h⟩ | ⟨rfl, h⟩ | ⟨rfl, h⟩ <;> exact if_pos h

end

/-- Settles O20: the debounce or the try attaches, and each of the three timers detaches. -/
theorem attachAndDetach : Obligations.AttachAndDetach := by
  refine ⟨fun s n hs hsig hon hfed => ?_, fun s n i hs hsig hon hf hw => ?_⟩ <;> dsimp only
  · refine fun hct => ⟨fun a ha hrun hsrc hrow hmode hdef hserved => ?_, fun a ha hrun hsrc hrow hmode => ?_,
      fun ha hseen hdef hserved => ?_, fun ha hseen => ?_, fun a ha hrun hsrc hrow hmode hdef hv hi => ?_,
      fun a ha hrun hsrc hrow hmode => ?_⟩
    · exact answers_attach_source hs hon hsig hfed ((exec_cfAttachDone hsig ha hrun).trans
        (congrArg done (debounceDone_source hsrc hrow hmode))) hct hdef hserved
    · exact answers_attach_sink hs hon hsig hfed ((exec_cfAttachDone hsig ha hrun).trans
        (congrArg done (debounceDone_sink hsrc hrow hmode))) hct
    · exact answers_attach_source hs hon hsig hfed (exec_tryDebounce_source ha hseen) hct hdef hserved
    · exact answers_attach_sink hs hon hsig hfed (exec_tryDebounce_sink ha hseen) hct
    · exact answers_attach_bare hs hon hsig hfed ((exec_cfAttachDone hsig ha hrun).trans
        (congrArg done (debounceDone_source hsrc hrow hmode))) hct hdef hv hi
    · exact setsPort_updCf hs ((exec_cfAttachDone hsig ha hrun).trans (congrArg done (debounceDone_trySource hsrc hrow hmode)))
  · intro h h1 h2 hb htx hheld hpg
    have hexec := exec_detach h
    exact ⟨fun hst hv hi hsw => answers_detach_bare hs hexec hsig hon hf h1 h2 hb htx hheld hst hv hi hsw,
      fun hst hsw => answers_detach_contract hs hexec hsig hon hf hw h1 h2 hb htx hheld hpg hst hsw⟩

end Sys2Proof.Machine
end

section
/-! O21: the other timers of the attach machine (R100, R103, R105, R106; DESIGN CHOICE, log entries 60, 92, 95). -/

namespace Sys2Proof.Machine

section
variable {i : Instr} {s : State} {n : Port}

theorem readsSource_of_unseen {c : CfSt} (h : c.sourceSeen = false) : readsSource c.cf1 = false ∧ readsSource c.cf2 = false :=
  Bool.or_eq_false_iff.mp h

/-- Back to UNATTACHED with no source in sight: nobody is sought. -/
theorem setsPort_unattached (hs : s.settled) (hexec : exec i s = done (seekPartner n (enterUnattached n s)))
    (hseen : (s.port n).cf.sourceSeen = false) :
    setsPort i s n { s.port n with cf := (s.port n).cf.unattachedAs (effectiveRole s (s.port n).cf) } := by
  obtain ⟨h1, h2⟩ := readsSource_of_unseen hseen
  rw [seekPartner_alone (by rw [enterUnattached_eq, port_updCf]; exact h1) (by rw [enterUnattached_eq, port_updCf]; exact h2)] at hexec
  exact setsPort_updCf hs hexec

theorem attach_seeking {c : CfSt} {cc : Nat} (h : (if c.asSource then c.sinkSeen cc else c.sourceSeen) = true) :
    (c.seeking cc).attach = .attachWait := by
  unfold CfSt.seeking
  by_cases hsrc : c.asSource = true
  · rw [if_pos hsrc] at h
    rw [if_pos hsrc, if_pos h]
  · rw [if_neg hsrc] at h
    rw [if_neg hsrc, if_pos h]

/-- Back to UNATTACHED with a partner still seen in the role that holds then: it is sought anew. -/
theorem answers_soughtAnew (hs : s.settled) (hsig : s.signals n = true)
    (hexec : exec i s = done (seekPartner n (enterUnattached n s)))
    (hseen : (if ((s.port n).cf.unattachedAs (effectiveRole s (s.port n).cf)).asSource
      then ((s.port n).cf.unattachedAs (effectiveRole s (s.port n).cf)).sinkSeen s.cc else (s.port n).cf.sourceSeen) = true)
    (hp : ((s.port n).cf.unattachedAs (effectiveRole s (s.port n).cf)).presents n = true) (hm : s.muted n = false) :
    answers i s fun t => (t.port n).cf.attach = .attachWait ∧ changesOnly [.port n] s t := by
  rw [enterUnattached_eq, seekPartner_updCf (fun c => c.unattachedAs (effectiveRole s c)) rfl hsig hp hm] at hexec
  refine answers_quiet hexec hs.2 ⟨?_, Moves.changesOnly (by simp) hs.2 hs.2⟩
  rw [port_updCf]
  exact attach_seeking hseen

theorem enterLegacy_change (hl : PortAreas [.port portKU, .events] portKU) (hon : s.eventsOn = true) (hsig : s.signals portKU = true)
    (hfed : s.fedElsewhere portKU) (hct : (s.port portKU).ct.state = .none) :
    PortChange [.port portKU, .events] s (enterLegacy s) portKU
      { s.port portKU with
        cf := { (s.port portKU).cf with
          attach := .legacy, asSource := false, active := false, fromLegacy := false, legacyDue := false, attachRun := false
          debounced := false, cause := 2 }
        ct := { (s.port portKU).ct with state := .legacy, volt := 0, icont := 0, asSource := false } }
      [(8 * portKU.val, 0x82), (8 * portKU.val + 1, 3)] := by
  have h := (((PortChange.refl hl.port s).cf fun c => { c with
    attach := .legacy, asSource := false, active := false, fromLegacy := false, legacyDue := false, attachRun := false
    debounced := false }).attachEvent hl hon hsig 2).setContract hl hon hsig (st := .legacy) (v := 0) (i := 0) false
      (.inl (by rw [hct]; decide))
  have heq := h.contractChanged hl hfed
  rw [← heq] at h
  exact h

end

/-- Settles O21: each timer by the state it finds the machine in. -/
theorem attachTimersMoveTheMachine : Obligations.AttachTimersMoveTheMachine := by
  intro s n hs hsig
  dsimp only
  refine ⟨fun hku ha hm => ?_, fun ha => idles_of hs (if_neg (by simp [ha])), fun ha => ?_, fun ha => ?_, fun ha => ?_,
    fun ha hleg hgone => ?_, fun hsus hbefore hread => ?_, fun h => ?_, fun hku ha hcond hsrc => ?_,
    fun hku ha hcond hsrc hon hfed hct => ?_, fun hcond => idles_of hs (if_neg (by simp [hcond]))⟩
  · refine setsPort_updCf hs (c := .drpToggle n) (f := fun c => { c with asSource := !c.asSource })
      ((if_pos ⟨ha, hm, hsig⟩).trans (if_neg ?_))
    rintro ⟨rfl, hdue, -⟩
    rcases hku with hku | hku
    · exact hku rfl
    · rw [hku] at hdue; cases hdue
  · have hexec : exec (.tryTimeout n) s = done (enterTry n .tryWaitSnk false s) := by
      show execTryTimeout n s = _
      simp only [execTryTimeout, ha]
    exact setsPort_updCf hs hexec
  · have hexec : exec (.tryTimeout n) s = done (enterTry n .tryWaitSrc true s) := by
      show execTryTimeout n s = _
      simp only [execTryTimeout, ha]
    exact setsPort_updCf hs hexec
  · have hexec : exec (.tryWaitTimeout n) s = done (seekPartner n (enterUnattached n s)) := by
      show execTryWaitTimeout n s = _
      rcases ha with ha | ha <;> simp only [execTryWaitTimeout, ha]
    exact ⟨setsPort_unattached hs hexec, answers_soughtAnew hs hsig hexec⟩
  · have hexec : exec (.cfDetachTimeout n) s = done (seekPartner n (enterUnattached n s)) := by
      refine (if_neg (by simp [CfSt.detachRun, ha])).trans ((if_pos ha).trans ((if_neg ?_).trans (if_neg ?_)))
      · rw [hgone]; decide
      · rw [hleg]; decide
    exact ⟨setsPort_unattached hs hexec, answers_soughtAnew hs hsig hexec⟩
  · exact setsPort_updCf hs (c := .swapPresentationRead n) (if_pos (by simp [hsus, hbefore, hread]))
  · exact idles_of hs (if_neg (by rcases h with h | h <;> simp [h]))
  · exact setsPort_updCf hs (c := .legacyTimeout n) ((if_pos ⟨hku, ha, hcond⟩).trans (if_pos hsrc))
  · subst hku
    have h := enterLegacy_change (PortAreas.pair portKU) hon hsig hfed hct
    have hexec : exec (.legacyTimeout portKU) s = done (enterLegacy s) :=
      (if_pos ⟨rfl, ha, hcond⟩).trans (if_neg (by rw [hsrc]; decide))
    obtain ⟨hport, hreports, hchanges⟩ := h.answered hs (by simp) (sortEvents_ascending (by omega)) (by simp)
    refine answers_of hexec ⟨?_, ?_, ?_, ?_, ?_, hreports, hchanges⟩ <;> rw [hport]

end Sys2Proof.Machine
end

section
/-! O22: CFCTL writes (R101, R102, R127, R137; DESIGN CHOICE, log entries 11 and 93). -/

namespace Sys2Proof.Machine

/-! ## The fields of a write -/

theorem csup_cfctlFields (v : Word) : fld (cfctlFields v) 9 8 = fld v 9 8 := by
  have hmask : ∀ j : Fin 32, 8 ≤ j.val → j.val ≤ 9 → (0x000F0F07 : Word).getLsbD j.val = true := by decide
  exact fld_and _ _ (by omega) fun j h1 h2 => hmask ⟨j, by omega⟩ h1 h2

theorem rolemode_cfctlFields (v : Word) : (cfctlFields v).extractLsb' 0 3 = v.extractLsb' 0 3 := by
  have hmask : ∀ j : Fin 3, (0x000F0F07 : Word).getLsbD j.val = true := by decide
  refine BitVec.eq_of_getLsbD_eq fun i hi => ?_
  have hbit : (0x000F0F07 : Word).getLsbD i = true := hmask ⟨i, hi⟩
  simp only [cfctlFields, BitVec.getLsbD_extractLsb', BitVec.getLsbD_and, Nat.zero_add]
  rw [hbit, Bool.and_true]

section
variable {s : State} {n : Port} {w : Writer} {v : Word}

/-- The wires with the fields of a write that keeps CSUP. -/
def CfSt.cfctlWritten (c : CfSt) (cc : Nat) (v : Word) : CfSt := { c.setLevel cc (fld v 11 10) with cfctl := cfctlFields v }

theorem cfctlWritten_same_level {c : CfSt} {cc : Nat} (h : fld v 11 10 = c.level) :
    c.cfctlWritten cc v = { c with cfctl := cfctlFields v } := by
  rw [CfSt.cfctlWritten, CfSt.setLevel, if_pos h.symm]

theorem cfctlWritten_new_level {c : CfSt} {cc : Nat} (h : fld v 11 10 ≠ c.level) : c.cfctlWritten cc v =
    { c with cfctl := cfctlFields v, levelCc := if c.attach = .attachedSrc then cc else c.levelCc } := by
  rw [CfSt.cfctlWritten, CfSt.setLevel, if_neg (Ne.symm h)]

theorem updCf_cfctl (hcsup : fld v 9 8 = (s.port n).cf.csup) :
    (s.updCf n fun c =>
      let c1 := { c.setLevel s.cc (fld v 11 10) with cfctl := cfctlFields v }
      { c1 with csupOn := if c1.csup = (s.port n).cf.csup then c1.csupOn else c1.wantsCsup && !s.portsInert }) =
    s.updCf n fun c => c.cfctlWritten s.cc v := by
  refine updCf_congr ?_
  have hsame : ((s.port n).cf.cfctlWritten s.cc v).csup = (s.port n).cf.csup := (csup_cfctlFields v).trans hcsup
  exact congrArg (fun b => { (s.port n).cf.cfctlWritten s.cc v with csupOn := b }) (if_pos hsame)

/-- What a write does once the fields are set: a new LEVEL ends what stood of tHOLD, a new ROLEMODE acts or waits. -/
def cfctlActed (n : Port) (v : Word) (c : CfSt) (t : State) : State :=
  let s2 := if fld v 11 10 = c.level then t else t.updLn n fun l =>
    { l with holdStood := false, startOut := l.startOut && decide (fld v 11 10 = 0), holdWait := l.holdWait && decide (fld v 11 10 = 0) }
  if c.rolemode = v.extractLsb' 0 3 then s2
  else if v.extractLsb' 0 3 = (0 : BitVec 3) then
    if c.attached then detach n 1 0xB s2
    else if c.attach = .legacy then s2.updCf n fun c => { c with effMode := 0 }
    else if c.fromLegacy then endLegacy s2
    else seekPartner n (enterUnattached n s2)
  else if c.attach = .unattached then seekPartner n (enterUnattached n s2)
  else s2

theorem cfctlApply_eq (hcsup : fld v 9 8 = (s.port n).cf.csup) :
    cfctlApply n v s = cfctlActed n v (s.port n).cf (s.updCf n fun c => c.cfctlWritten s.cc v) :=
  congrArg (cfctlActed n v (s.port n).cf) (updCf_cfctl hcsup)

/-- A changed ROLEMODE other than OFF, nothing else being written. -/
theorem cfctlApply_role (hrole : (s.port n).cf.rolemode ≠ v.extractLsb' 0 3) (hoff : v.extractLsb' 0 3 ≠ (0 : BitVec 3))
    (hlevel : fld v 11 10 = (s.port n).cf.level) (hcsup : fld v 9 8 = (s.port n).cf.csup) :
    cfctlApply n v s =
      let s1 := s.updCf n fun c => { c with cfctl := cfctlFields v }
      if (s.port n).cf.attach = .unattached then seekPartner n (enterUnattached n s1) else s1 := by
  rw [cfctlApply_eq hcsup, cfctlActed, if_pos hlevel, if_neg hrole, if_neg hoff,
    updCf_congr (g := fun c => { c with cfctl := cfctlFields v }) (cfctlWritten_same_level hlevel)]

/-- A changed LEVEL under the same ROLEMODE. -/
theorem cfctlApply_level (hrole : (s.port n).cf.rolemode = v.extractLsb' 0 3) (hlevel : fld v 11 10 ≠ (s.port n).cf.level)
    (hcsup : fld v 9 8 = (s.port n).cf.csup) :
    cfctlApply n v s = (s.updCf n fun c =>
        { c with cfctl := cfctlFields v, levelCc := if c.attach = .attachedSrc then s.cc else c.levelCc }).updLn n fun l =>
      { l with holdStood := false, startOut := l.startOut && decide (fld v 11 10 = 0)
               holdWait := l.holdWait && decide (fld v 11 10 = 0) } := by
  rw [cfctlApply_eq hcsup, cfctlActed, if_neg hlevel, if_pos hrole,
    updCf_congr (g := fun c => { c with cfctl := cfctlFields v, levelCc := if c.attach = .attachedSrc then s.cc else c.levelCc })
      (cfctlWritten_new_level hlevel)]

end

/-- Settles O22: refused, held until UNATTACHED, or at once. -/
theorem cfctlWritesAct : Obligations.CfctlWritesAct := by
  intro s n w v hs
  dsimp only
  refine ⟨fun hres => ⟨refusesWrite_of hs (by decide) (if_pos hres), refusesWrite_of hs (by decide) (if_pos hres)⟩,
    fun hres hrole hoff hlevel hcsup => ⟨fun hatt => ?_, fun hun h1 h2 => ?_⟩, fun hres hrole hlevel hcsup => ?_⟩
  · have hne : (s.port n).cf.attach ≠ .unattached := fun h => by simp [CfSt.attached, h] at hatt
    have hexec : exec (.rolemodeWrite n w v) s = done (cfctlApply n v s) := if_neg (by rw [hres]; decide)
    rw [cfctlApply_role hrole hoff hlevel hcsup] at hexec
    exact setsPort_updCf hs (hexec.trans (congrArg done (if_neg hne)))
  · have hexec : exec (.rolemodeWrite n w v) s = done (cfctlApply n v s) := if_neg (by rw [hres]; decide)
    rw [cfctlApply_role hrole hoff hlevel hcsup] at hexec
    have hgone := hexec.trans (congrArg done (if_pos hun))
    rw [enterUnattached_eq, updCf_updCf, seekPartner_alone (by rw [port_updCf]; exact h1) (by rw [port_updCf]; exact h2)] at hgone
    obtain ⟨t, hdone, hport, hchanges⟩ := setsPort_updCf hs hgone
    refine ⟨t, hdone, ?_⟩
    dsimp only
    rw [hport]
    refine ⟨rfl, rfl, ?_, rfl, rfl, rfl, hchanges⟩
    exact congrArg (fun r => if s.portsInert = true then (0 : BitVec 3) else r) (rolemode_cfctlFields v)
  · have hexec : exec (.cfctlLevelWrite n w v) s = done (cfctlApply n v s) := if_neg (by rw [hres]; decide)
    rw [cfctlApply_level hrole hlevel hcsup] at hexec
    exact setsPort_of_moves hs hexec hs.2 (by simp) (by simp)

end Sys2Proof.Machine
end

section
/-! A waiting start that may go into pre-charge (R398 to R401), and O23: SEAT, B's supply and CSUP (R97, R109, R110, R185, R397 to
R399; DESIGN CHOICE, log entries 22, 60, 83). -/

namespace Sys2Proof.Machine

/-! ## A waiting start begins (R400, R401) -/

/-- The pre-charge of one port of the list of waiting ports. -/
def promoteOne (t : State) (n : Port) : State :=
  if mayPrecharge t n then t.updPw n fun p => { p with sw := .prechg, preStart := t.cc } else t

theorem promoteWaiting_fold (s : State) : promoteWaiting s = allPorts.foldl promoteOne s := rfl

theorem foldl_promoteOne_of_none {s : State} (l : List Port) (h : ∀ m ∈ l, mayPrecharge s m = false) : l.foldl promoteOne s = s := by
  induction l with
  | nil => rfl
  | cons m l ih =>
    have hm : promoteOne s m = s := if_neg (by rw [h m List.mem_cons_self]; decide)
    rw [List.foldl_cons, hm]
    exact ih fun k hk => h k (List.mem_cons_of_mem m hk)

theorem mayPrecharge_of_unwaiting {s : State} {m : Port} (h : (s.port m).pw.sw ≠ .wait) : mayPrecharge s m = false := by
  simp [mayPrecharge, h]

/-- A port that waits for its seat goes on waiting. -/
theorem promoteWaiting_unseated {s : State} {n : Port} (hset : (s.port n).pw.settled = false)
    (ho : ∀ m, m ≠ n → (s.port m).pw.sw ≠ .wait) : promoteWaiting s = s := by
  refine foldl_promoteOne_of_none allPorts fun m _ => ?_
  by_cases hm : m = n
  · subst hm; simp [mayPrecharge, hset]
  · exact mayPrecharge_of_unwaiting (ho m hm)

/-- The one port that waits, seated and with nobody of its group starting, begins its pre-charge. -/
theorem promoteWaiting_one {s : State} {n : Port} (hw : (s.port n).pw.sw = .wait) (hset : (s.port n).pw.settled = true)
    (ho : ∀ m, m ≠ n → (s.port m).pw.sw ≠ .wait) (hgroup : ∀ m, m ≠ n → sameGroup m n = true → (s.port m).pw.starting = false) :
    promoteWaiting s = s.updPw n fun p => { p with sw := .prechg, preStart := s.cc } := by
  have hidle (m : Port) (hm : sameGroup m n = true) : (s.port m).pw.starting = false := by
    by_cases hmn : m = n
    · subst hmn; simp [PowerSt.starting, hw]
    · exact hgroup m hmn hm
  have hmay : mayPrecharge s n = true := by
    have hnone : (allPorts.filter fun m => sameGroup m n && (s.port m).pw.starting) = [] :=
      List.filter_eq_nil_iff.mpr fun m _ => by
        rw [Bool.and_eq_true]
        rintro ⟨hm, hstart⟩
        rw [hidle m hm] at hstart
        cases hstart
    simp [mayPrecharge, hw, hset, hnone]
  obtain ⟨l, r, hsplit⟩ := List.append_of_mem (mem_allPorts n)
  have hnodup : allPorts.Nodup := List.nodup_finRange 16
  rw [hsplit, List.nodup_middle, List.nodup_cons, List.mem_append, not_or] at hnodup
  obtain ⟨⟨hl, hr⟩, -⟩ := hnodup
  have hne (k : List Port) (hk : n ∉ k) (m : Port) (hm : m ∈ k) : m ≠ n := fun h => hk (h ▸ hm)
  have hone : promoteOne s n = s.updPw n fun p => { p with sw := .prechg, preStart := s.cc } := if_pos hmay
  rw [promoteWaiting_fold, hsplit, List.foldl_append,
    foldl_promoteOne_of_none l fun m hm => mayPrecharge_of_unwaiting (ho m (hne l hl m hm)), List.foldl_cons, hone]
  refine foldl_promoteOne_of_none r fun m hm => mayPrecharge_of_unwaiting ?_
  rw [State.port_updPw_ne _ _ _ _ (hne r hr m hm)]
  exact ho m (hne r hr m hm)

/-! ## Changes: FAULT, force-off, burst windows -/

section
variable {l : List Area} {s t : State} {n : Port} {p : PortSt} {q : List (Nat × Nat)} (hl : PortAreas l n)
  (h : PortChange l s t n p q)
include hl h

namespace PortChange

/-- FAULT fires on every port the hub has, B included (R11, R408). -/
theorem fault (hon : s.eventsOn = true) (hp : s.has n = true) (cause : BitVec 4) :
    PortChange l s (Machine.fault n cause t) n { p with pw := { p.pw with cause := cause } } (q ++ [(8 * n.val + 2, cause.toNat)]) := by
  have hpw := h.pw fun p => { p with cause := cause }
  refine ⟨?_, ?_, ?_, ?_, (moves_fault hl.port (.inl hl.events) _).mpr h.moves, h.listed⟩
  · rw [port_fault]; exact hpw.port
  · rw [fault_evq cause (by rw [h.eventsOn hl.dev, hon]) (by rw [h.has hl.dev hl.stone, hp]), h.evq, List.append_assoc]
  · simp [h.mem]
  · simp [h.host]

theorem forceOff (x : ForceSource) (hb : p.wh.burstOpen = false) :
    PortChange l s (Machine.forceOff x n t) n { p with st := p.st.forcedOff x } q := by
  rw [forceOff_of_closed x (by rw [h.port]; exact hb)]
  have hst := h.st fun t => t.forcedOff x
  exact ⟨by simpa using hst.port, hst.evq, hst.mem, hst.host, (moves_fireSrc (.inl hl.events) _ _).mpr hst.moves, h.listed⟩

end PortChange

end

/-! ## SEAT and B's supply (R97, R398, R399) -/

section
variable {s : State} {n : Port}

theorem signals_of_has (hp : s.has n = true) (hn : n ≠ portB) : s.signals n = true := by simp [State.signals, hp, hn]

theorem exec_seatSettled (hp : s.has n = true) (hn : n ≠ portB) (hseat : (s.port n).pw.seat = ⟨true, true⟩)
    (hfed : s.fedElsewhere n) : exec (.seatSettled n) s = done (promoteWaiting (s.updPw n fun p => { p with settled := true })) := by
  have hseek : feedSeek (promoteWaiting (s.updPw n fun p => { p with settled := true })) =
      promoteWaiting (s.updPw n fun p => { p with settled := true }) := feedSeek_of_fed (by simpa using hfed.1)
  rw [← hseek]
  show execSeatSettled n s = _
  simp [execSeatSettled, hn, signals_of_has hp hn, hseat]

/-- A break on a port under the legacy limits (R183, R185). -/
theorem seatBroken_legacy (h : (s.port n).ct.state = .legacy) :
    seatBroken n s = closeLine n (s.updPw n fun p => { p with settled := false, seat := { valid := true, out := false } }) := if_pos h

/-- A break on a port that is neither attached nor a feed: its stage is forced off, its line closes. -/
theorem seatBroken_unattached (hfed : s.fedElsewhere n) (hatt : (s.port n).cf.attached = false)
    (hct : (s.port n).ct.state ≠ .legacy) (hsw : (s.port n).pw.sw = .off) (hpg : (s.port n).pw.pg = false)
    (hb : (s.port n).wh.burstOpen = false) (htx : (s.port n).ln.tx = []) :
    PortChange [.port n, .events] s (seatBroken n s) n { s.port n with
      pw := { (s.port n).pw with settled := false, seat := ⟨true, false⟩, after := .off, startHeld := false }
      st := (s.port n).st.forcedOff .seatBreak, ln := (s.port n).ln.closed } [] := by
  have hl := PortAreas.pair n
  have hforced := ((PortChange.refl hl.port s).pw fun p => { p with settled := false, seat := { valid := true, out := false } }).forceOff hl
    .seatBreak hb
  have hopen := hforced.openSwitch_open .off (by simp [hsw])
  rw [← hforced.dropPg_low hpg] at hopen
  have hset := hopen.pw fun p => { p with after := .off, startHeld := false, sw := if p.sw = .offtime then .off else p.sw }
  have hclosed := hset.closeLine htx
  have hfd := hclosed.fd_eq hl
  have hreview := feedReview_of_fed (s := closeLine n _) (by rw [hfd]; exact hfed.1) (by rw [hfd]; exact hfed.2.2)
  have hatt' := congrArg (fun p => p.cf.attached) hset.port
  dsimp only at hatt'
  unfold seatBroken
  simp only [if_neg hct, hatt', hatt, hfed.2.1, Bool.false_eq_true, if_false]
  rw [hreview]
  exact hclosed.of_eq (by simp [hsw])

/-- B's supply leaves its range while B's output is on. -/
theorem bBroken_on (hfed : s.fedElsewhere portB) (hsw : (s.port portB).pw.sw = .on) (hw : s.noneWaits)
    (hpg : (s.port portB).pw.pg = false) (hb : (s.port portB).wh.burstOpen = false) :
    PortChange [.port portB, .events] s (bBroken s) portB { s.port portB with
      pw := { (s.port portB).pw with settled := false, startHeld := false, sw := .disch, after := .off, discharging := false }
      st := (s.port portB).st.forcedOff .seatBreak } [] := by
  have hl := PortAreas.pair portB
  have hforced := ((PortChange.refl hl.port s).pw fun p => { p with settled := false, startHeld := false }).forceOff hl .seatBreak hb
  have hopen := hforced.openSwitch hl .off (.inr (.inr (.inr hsw))) (fun m _ => hw m) hpg
  rw [← hforced.dropPg_low hpg] at hopen
  have hset := hopen.pw fun p => { p with after := .off, sw := if p.sw = .offtime then .off else p.sw }
  unfold bBroken
  simp only [hfed.2.1, hsw, Bool.false_or, decide_eq_true_eq, reduceCtorEq, if_false]
  exact hset.of_eq (by simp [PowerSt.opened])

end

/-- Settles O23: the seat, B's supply, and CSUP by their commands. -/
theorem seatAndCsupFollow : Obligations.SeatAndCsupFollow := by
  intro s n hs hp hon hfed
  dsimp only
  refine ⟨fun hn => ?_, fun hn hseat hw => ?_, fun hn hseat hsw ho => ?_, fun hn hct htx => ?_,
    fun hn hatt hct hsw hpg hb hforce htx => ?_, fun hn hsw hw hpg hb hforce => ?_, fun hn hcsup => ?_,
    fun hoff htrips hwants => setsPort_updCf hs (c := .csupRetry n) (if_pos ⟨htrips, hoff, hwants⟩),
    fun hoff htrips => idles_of hs (if_neg (by rintro ⟨h, -⟩; omega))⟩
  · exact setsPort_of_moves hs (c := .seatSeated n) (if_pos (signals_of_has hp hn)) hs.2 (by simp [liftForce]) (by simp)
  · refine setsPort_updPw hs ((exec_seatSettled hp hn hseat hfed).trans (congrArg done (promoteWaiting_of_noneWaits fun m => ?_)))
    by_cases hm : m = n
    · subst hm; simpa using hw m
    · simpa [State.port_updPw_ne, hm] using hw m
  · have hone := promoteWaiting_one (s := s.updPw n fun p => { p with settled := true }) (n := n) (by simpa using hsw) (by simp)
      (fun m hm => by simpa [State.port_updPw_ne, hm] using (ho m hm).1)
      (fun m hm _ => by simpa [State.port_updPw_ne, hm] using (ho m hm).2)
    rw [updPw_updPw] at hone
    exact setsPort_updPw hs ((exec_seatSettled hp hn hseat hfed).trans (congrArg done hone))
  · have hexec : exec (.seatBreak n) s = done (seatBroken n s) := if_pos (signals_of_has hp hn)
    rw [seatBroken_legacy hct, closeLine, flushTx_empty 3 (by simpa using htx)] at hexec
    exact setsPort_of_moves hs hexec hs.2 (by simp) (by simp)
  · have h := seatBroken_unattached hfed hatt hct hsw hpg hb htx
    obtain ⟨hport, -, hchanges⟩ := h.answered (q' := []) hs (by simp) rfl (by simp)
    refine answers_of (c := .seatBreak n) (if_pos (signals_of_has hp hn)) ⟨?_, ?_, ?_, ?_, hchanges⟩ <;> rw [hport]
    rw [StageSt.forcedOff, hforce]
    rfl
  · subst hn
    obtain ⟨hport, -, hchanges⟩ := (bBroken_on hfed hsw hw hpg hb).answered (q' := []) hs (by simp) rfl (by simp)
    refine answers_of (c := .bSupplyBreak) rfl ⟨?_, ?_, hchanges⟩ <;> rw [hport]
    rw [StageSt.forcedOff, hforce]
    rfl
  · have hl := PortAreas.pair n
    have h := ((PortChange.refl hl.port s).cf fun c =>
      { c with csupOn := false, csupTrips := c.csupTrips + 1, csupOc := decide (1 ≤ c.csupTrips) }).fault hl hon hp 8
    exact setsPortFires_of_change hs h (if_pos hcsup)

end Sys2Proof.Machine
end

section
/-! A message pushed into a TX ring (R133, R135, R136, R146, R322): the entry reads back as it was written, the ring holds one more,
and nothing else changes. -/

namespace Sys2Proof.Machine

/-! ## The TX ring in memory -/

theorem txTail_lt (l : LineSt) : l.txTail < 16 := by
  unfold LineSt.txTail
  rcases h : (List.range 16).find? fun i => !l.tx.contains ((l.txNext + i) % 16) with _ | i
  · exact Nat.mod_lt _ (by decide)
  · exact Nat.mod_lt _ (by decide)

theorem ringAddr_bounds {r e : Nat} (hr : r < 32) (he : e < 16) : 0x30000000 ≤ ringAddr r e ∧ ringAddr r e + 80 ≤ 0x3000A000 := by
  unfold ringAddr
  omega

/-- What lies below the event rings is read from a flushed state as before. -/
theorem readMem_flush_below {s : State} {a k : Nat} (h : memGood s.mem = true) (ha : a + k ≤ 0x3000A000) :
    s.flush.readMem a k = s.readMem a k := by
  unfold State.readMem
  induction k generalizing a with
  | zero => rfl
  | succ k ih =>
    rw [memReadN, memReadN, ih (by omega), s.flush_read a (of_decide_eq_true h) (.inl (by omega))]

theorem length_bytesLE (w : Word) : (bytesLE w).length = 4 := rfl

theorem length_flatMap_bytesLE (l : List Word) : (l.flatMap bytesLE).length = 4 * l.length := by
  induction l with
  | nil => rfl
  | cons w l ih => rw [List.flatMap_cons, List.length_append, ih, length_bytesLE, List.length_cons]; omega

/-- An entry image after its CTL. -/
def entryRest (ctx : Nat) (a : Byte) (h : BitVec 16) (time : Nat) (objs : List Word) (crc : Word) : List Byte :=
  [BitVec.ofNat 8 ctx, a] ++ toBytesLE 2 h.toNat ++ [0, 0] ++ toBytesLE 4 time
    ++ ((objs.take 15) ++ List.replicate (15 - objs.length) 0).flatMap bytesLE ++ bytesLE crc ++ [0, 0, 0, 0]

theorem entryImage_eq (ctl : BitVec 16) (ctx : Nat) (a : Byte) (h : BitVec 16) (time : Nat) (objs : List Word) (crc : Word) :
    entryImage ctl ctx a h time objs crc = toBytesLE 2 ctl.toNat ++ entryRest ctx a h time objs crc := by
  simp only [entryImage, entryRest, List.append_assoc]

theorem length_entryRest (ctx : Nat) (a : Byte) (h : BitVec 16) (time : Nat) (objs : List Word) (crc : Word) :
    (entryRest ctx a h time objs crc).length = 78 := by
  simp only [entryRest, List.length_append, length_flatMap_bytesLE, length_toBytesLE, length_bytesLE, List.length_cons, List.length_nil,
    List.length_take, List.length_replicate]
  omega

theorem length_entryImage (ctl : BitVec 16) (ctx : Nat) (a : Byte) (h : BitVec 16) (time : Nat) (objs : List Word) (crc : Word) :
    (entryImage ctl ctx a h time objs crc).length = 80 := by
  rw [entryImage_eq, List.length_append, length_entryRest, length_toBytesLE]

theorem memReadN_append (m : Memory) (i j a : Nat) : memReadN m a (i + j) = memReadN m a i ++ memReadN m (a + i) j := by
  induction i generalizing a with
  | zero => rw [Nat.zero_add]; rfl
  | succ i ih => rw [Nat.succ_add, memReadN, memReadN, ih, Nat.add_assoc a 1 i, Nat.add_comm 1 i]; rfl

/-- A block whose head is written anew. -/
theorem readMem_writeMem_head {s : State} {a : Nat} (hm : memGood s.mem = true) (xs ys zs : List Byte) (hl : ys.length = xs.length)
    (k : Nat) (hk : k = xs.length + zs.length) : ((s.writeMem a (xs ++ zs)).writeMem a ys).readMem a k = ys ++ zs := by
  subst hk
  have hm1 : memGood (s.writeMem a (xs ++ zs)).mem = true := memGood_memWriteN _ _ _ hm
  have hhead := readMem_writeMem_start (k := ys.length) (a := a) (bs := ys) hm1 le_rfl
  have htail := readMem_writeMem_out (x := a + xs.length) (k := zs.length) (a := a) (bs := ys) hm1 (.inr (by omega))
  have hrest := memReadN_memWriteN_part xs zs [] s.mem a (of_decide_eq_true hm)
  rw [List.append_nil] at hrest
  rw [List.take_length, hl] at hhead
  exact (memReadN_append _ _ _ a).trans (congrArg₂ (· ++ ·) hhead (htail.trans hrest))

/-! ## Pushing an entry (R322) -/

/-- CTL of an entry as the push leaves it: PEND set, RESULT and TRIES clear. -/
def ctlPushed (ctl : BitVec 16) : BitVec 16 := setFld (setFld (setFld ctl 15 15 1) 11 8 0) 7 4 0

section
variable {s : State} {n : Port} (hm : memGood s.mem = true)
include hm

theorem entryCtl_writeMem_entryImage (b : Nat) (ctl : BitVec 16) (ctx : Nat) (a : Byte) (h : BitVec 16) (time : Nat) (objs : List Word)
    (crc : Word) : entryCtl (s.writeMem b (entryImage ctl ctx a h time objs crc)) b = ctl := by
  have hr := memNat_memWriteN_part [] (entryRest ctx a h time objs crc) 2 ctl.toNat s.mem b (of_decide_eq_true hm) ctl.isLt
  rw [entryImage_eq, entryCtl, State.writeMem]
  simp only [List.nil_append, List.length_nil, Nat.add_zero] at hr
  rw [hr, BitVec.ofNat_toNat, BitVec.setWidth_eq]

theorem pushEntry_eq (ctl : BitVec 16) (ctx : Nat) (a : Byte) (h : BitVec 16) (time : Nat) (objs : List Word) (crc : Word) :
    pushEntry n (entryImage ctl ctx a h time objs crc) s =
      ((s.writeMem (txSlot s n) (entryImage ctl ctx a h time objs crc)).writeMem (txSlot s n)
        (toBytesLE 2 (ctlPushed ctl).toNat)).updLn n LineSt.pushed := by
  unfold pushEntry
  dsimp only
  rw [← txSlot, entryCtl_writeMem_entryImage hm]
  rfl

omit hm in
theorem txSlot_bounds (s : State) (n : Port) : 0x30000000 ≤ txSlot s n ∧ txSlot s n + 80 ≤ 0x3000A000 :=
  ringAddr_bounds (by omega) (txTail_lt _)

/-- The entry as it reads back. -/
theorem readMem_pushEntry (ctl : BitVec 16) (ctx : Nat) (a : Byte) (h : BitVec 16) (time : Nat) (objs : List Word) (crc : Word) :
    (pushEntry n (entryImage ctl ctx a h time objs crc) s).readMem (txSlot s n) 80 =
      entryImage (ctlPushed ctl) ctx a h time objs crc := by
  rw [pushEntry_eq hm, entryImage_eq, entryImage_eq]
  exact readMem_writeMem_head hm _ _ _ (by rw [length_toBytesLE, length_toBytesLE]) 80 (by rw [length_toBytesLE, length_entryRest])

theorem moves_pushEntry {l : List Area} {s0 : State} (hn : Area.port n ∈ l ∨ Area.anyPort ∈ l)
    (hslot : covers l (txSlot s n) (txSlot s n + 80)) (ctl : BitVec 16) (ctx : Nat) (a : Byte) (h : BitVec 16) (time : Nat)
    (objs : List Word) (crc : Word) : Moves l s0 (pushEntry n (entryImage ctl ctx a h time objs crc) s) ↔ Moves l s0 s := by
  have hm1 : memGood (s.writeMem (txSlot s n) (entryImage ctl ctx a h time objs crc)).mem = true := memGood_memWriteN _ _ _ hm
  rw [pushEntry_eq hm, moves_updLn hn, moves_writeMem_covered hm1 hslot (by rw [length_toBytesLE]; omega),
    moves_writeMem_covered hm hslot (by rw [length_entryImage])]

end

/-! ## A message of context PART (R146) -/

/-- From s to u port n has pushed a message and become p, the events q are fired, and nothing changes outside the areas. -/
structure MsgQueued (l : List Area) (s u : State) (n : Port) (start : Bool) (type : BitVec 5) (objs : List Word) (p : PortSt)
    (q : List (Nat × Nat)) : Prop where
  port : u.port n = p
  evq : u.evq = s.evq ++ q
  host : u.host = s.host
  good : memGood u.mem = true
  read : u.readMem (txSlot s n) 80 = entryImage (if start = true then 0xC000 else 0x8000) 0 (addrOf 0)
    (BitVec.ofNat 16 (type.toNat * 2048 + objs.length)) 0 objs 0
  moves : Moves l s u
  listed : Area.port n ∈ l ∨ Area.anyPort ∈ l

/-- The areas of a message that port n pushes. -/
abbrev sendAreas (s : State) (n : Port) : List Area := [.port n, .mem (txSlot s n) (txSlot s n + 80)]

section
variable {l : List Area} {s t u : State} {n : Port} {p p' : PortSt} {q q' : List (Nat × Nat)} {start : Bool} {type : BitVec 5}
  {objs : List Word}

/-- The program's push, with room in the ring. -/
theorem PortChange.pushMsg (h : PortChange l s t n p q) (hm : memGood s.mem = true) (hslot : covers l (txSlot s n) (txSlot s n + 80))
    (hln : p.ln = (s.port n).ln) (hroom : (s.port n).ln.txCount < 16) (hlen : objs.length ≤ 15) :
    MsgQueued l s (Machine.pushMsg n start type objs t) n start type objs { p with ln := (s.port n).ln.pushed } q := by
  have hm' : memGood t.mem = true := by rw [h.mem]; exact hm
  have hsame : (t.port n).ln = (s.port n).ln := by rw [h.port]; exact hln
  have hat : txSlot t n = txSlot s n := by rw [txSlot, txSlot, hsame]
  have heq : Machine.pushMsg n start type objs t = pushEntry n (entryImage (if start then 0x4000 else 0) 0 (addrOf 0)
      (BitVec.ofNat 16 (type.toNat * 2048 + objs.length % 16)) 0 objs 0) t := if_neg (by rw [hsame]; omega)
  have hctl : ctlPushed (if start then 0x4000 else 0) = if start = true then 0xC000 else 0x8000 := by cases start <;> decide
  have hcount : objs.length % 16 = objs.length := Nat.mod_eq_of_lt (by omega)
  have hread := readMem_pushEntry (n := n) hm' (if start then 0x4000 else 0) 0 (addrOf 0)
    (BitVec.ofNat 16 (type.toNat * 2048 + objs.length % 16)) 0 objs 0
  have hmoves := moves_pushEntry (n := n) (l := l) (s0 := s) hm' h.listed (by rw [hat]; exact hslot) (if start then 0x4000 else 0) 0
    (addrOf 0) (BitVec.ofNat 16 (type.toNat * 2048 + objs.length % 16)) 0 objs 0
  have hshape := pushEntry_eq (n := n) hm' (if start then 0x4000 else 0) 0 (addrOf 0)
    (BitVec.ofNat 16 (type.toNat * 2048 + objs.length % 16)) 0 objs 0
  rw [heq]
  refine ⟨?_, ?_, ?_, ?_, ?_, hmoves.mpr h.moves, h.listed⟩
  · rw [hshape, port_updLn, ← hln, ← h.port]; rfl
  · rw [hshape]; exact h.evq
  · rw [(pushEntry_frame n _ t).2.2.2.2.2.2.2.2.2.1]; exact h.host
  · exact pushEntry_memGood n _ t hm'
  · rw [← hat, hread, hctl, hcount]

namespace MsgQueued

variable (h : MsgQueued l s t n start type objs p q)
include h

/-- A change of the port after the push. -/
theorem andThen (k : PortChange l t u n p' q') : MsgQueued l s u n start type objs p' (q ++ q') :=
  ⟨k.port, by rw [k.evq, h.evq, List.append_assoc], k.host.trans h.host, by rw [k.mem]; exact h.good,
    by rw [readMem_congr k.mem]; exact h.read, h.moves.trans k.moves, h.listed⟩

theorem after : PortChange l t t n p [] := (PortChange.refl h.listed t).of_eq h.port

theorem ct (f : ContractSt → ContractSt) : MsgQueued l s (t.updCt n f) n start type objs { p with ct := f p.ct } q := by
  simpa using h.andThen (h.after.ct f)

theorem pw (f : PowerSt → PowerSt) : MsgQueued l s (t.updPw n f) n start type objs { p with pw := f p.pw } q := by
  simpa using h.andThen (h.after.pw f)

theorem cf (f : CfSt → CfSt) : MsgQueued l s (t.updCf n f) n start type objs { p with cf := f p.cf } q := by
  simpa using h.andThen (h.after.cf f)

/-- The message as the statements say it, once the events are written. -/
theorem queued (hln : p.ln = (s.port n).ln.pushed) : queued s t.flush n start type objs := by
  have hb := txSlot_bounds s n
  exact ⟨by rw [State.port_flush, h.port, hln], by rw [readMem_flush_below h.good hb.2]; exact h.read⟩

end MsgQueued

/-- A message queued and nothing else but the port changed. -/
theorem sendsAs_of_queued {c : Instr} {r : PortSt} (hs : s.settled)
    (h : (s.port n).ln.txCount < 16 → objs.length ≤ 15 → ∃ u, exec c s = done u
      ∧ MsgQueued (sendAreas s n) s u n start type objs { r with ln := (s.port n).ln.pushed } []) :
    sendsAs c s n start type objs r := by
  intro hroom hlen
  obtain ⟨u, hexec, hq⟩ := h hroom hlen
  have hevq : u.evq = [] := by rw [hq.evq, hs.2]; rfl
  have hqueued := hq.queued rfl
  rw [u.flush_nil hevq] at hqueued
  exact answers_quiet hexec hevq ⟨hqueued, hq.port, hq.moves.changesOnly hs.2 hevq⟩

end

end Sys2Proof.Machine
end

section
/-! O24: TX_START and the frame that a third failed try ends (R117 to R120, R126 to R128, R135, R136; DESIGN CHOICE, log entries 14 and
116). -/

namespace Sys2Proof.Machine

/-! ## The fields of an entry in memory (R135) -/

section
variable {s : State} (hm : memGood s.mem = true)
include hm

theorem memNat_writeMem (a : Nat) (v : BitVec 16) : memNat (s.writeMem a (toBytesLE 2 v.toNat)).mem a 2 = v.toNat := by
  have hr := memNat_memWriteN_part [] [] 2 v.toNat s.mem a (of_decide_eq_true hm) v.isLt
  rwa [List.nil_append, List.append_nil, List.length_nil, Nat.add_zero] at hr

theorem entryCtl_writeMem (a : Nat) (v : BitVec 16) : entryCtl (s.writeMem a (toBytesLE 2 v.toNat)) a = v := by
  rw [entryCtl, memNat_writeMem hm, BitVec.ofNat_toNat, BitVec.setWidth_eq]

theorem entryHdr_writeMem (a : Nat) (v : BitVec 16) : entryHdr (s.writeMem (a + 4) (toBytesLE 2 v.toNat)) a = v := by
  rw [entryHdr, memNat_writeMem hm, BitVec.ofNat_toNat, BitVec.setWidth_eq]

end

/-- CTL below the event rings is read from a flushed state as before. -/
theorem entryCtl_flush {s : State} {a : Nat} (hm : memGood s.mem = true) (ha : a + 2 ≤ 0x3000A000) : entryCtl s.flush a = entryCtl s a := by
  have hr := readMem_flush_below hm ha
  rw [entryCtl, entryCtl, memNat, memNat]
  exact congrArg (fun bs => BitVec.ofNat 16 (natLE bs)) hr

/-- The fields of an entry that reads as an image. -/
theorem entry_of_image {s : State} {a : Nat} {ctl : BitVec 16} {ctx : Nat} {ad : Byte} {h : BitVec 16} {time : Nat} {objs : List Word}
    {crc : Word} (hr : s.readMem a 80 = entryImage ctl ctx ad h time objs crc) :
    entryCtl s a = ctl ∧ memRead s.mem (a + 2) = BitVec.ofNat 8 ctx ∧ memRead s.mem (a + 3) = ad := by
  have hsplit : s.readMem a 80 = memReadN s.mem a 2 ++ (memReadN s.mem (a + 2) 1 ++ (memReadN s.mem (a + 3) 1 ++ memReadN s.mem (a + 4) 76)) := by
    rw [State.readMem, memReadN_append s.mem 2 78 a, memReadN_append s.mem 1 77 (a + 2), memReadN_append s.mem 1 76 (a + 3)]
  rw [hsplit, entryImage_eq] at hr
  obtain ⟨hctl, hrest⟩ := List.append_inj hr (by rw [length_toBytesLE]; rfl)
  have hone (x : Nat) : memReadN s.mem x 1 = [memRead s.mem x] := rfl
  rw [hone, hone] at hrest
  generalize memReadN s.mem (a + 4) 76 = rest at hrest
  simp only [entryRest, List.cons_append, List.nil_append] at hrest
  injection hrest with hctx hrest
  injection hrest with hadr hrest
  have hlt : ctl.toNat < 256 ^ 2 := ctl.isLt
  refine ⟨?_, hctx, hadr⟩
  rw [entryCtl, memNat, hctl, natLE_toBytesLE, Nat.mod_eq_of_lt hlt, BitVec.ofNat_toNat, BitVec.setWidth_eq]

theorem entryCtl_congr {s u : State} (h : u.mem = s.mem) (a : Nat) : entryCtl u a = entryCtl s a := by rw [entryCtl, entryCtl, h]
theorem entryHdr_congr {s u : State} (h : u.mem = s.mem) (a : Nat) : entryHdr u a = entryHdr s a := by rw [entryHdr, entryHdr, h]

/-! ## A frame of the PHY's own (R117, R120, R126) -/

section
variable {s : State} {n : Port}

theorem exec_txStart_own {f : PhyFrame} {fs : List PhyFrame} (hidle : (s.port n).lineIdle = true) (hown : (s.port n).ln.own = f :: fs) :
    exec (.txStart n) s = done (beginOwn n f fs s) := by
  show execTxStart n s = _
  simp only [execTxStart, hidle, if_true, hown]

theorem takeId_eq {c : Nat} (h : c < 12) : takeId n c s = (((s.port n).ln.ctxs[c]).txId,
    s.updLn n fun l => { l with ctxs := l.ctxs.set c { l.ctxs[c] with txId := l.ctxs[c].txId + 1 } }) := dif_pos h

theorem beginOwn_new {f : PhyFrame} {fs : List PhyFrame} (hheld : heldOff n f.objs.length s = false) (hid : f.id = none)
    (h : f.ctx < 12) : beginOwn n f fs s = s.updLn n fun l => { l with
      own := fs, phase := .sending, cur := some (.own { f with id := some ((s.port n).ln.ctxs[f.ctx]).txId })
      curId := ((s.port n).ln.ctxs[f.ctx]).txId, tries := 0
      ctxs := l.ctxs.set f.ctx { l.ctxs[f.ctx] with txId := l.ctxs[f.ctx].txId + 1 }
      notsup := if f.type = 0x11 then satInc l.notsup else l.notsup } := by
  simp only [beginOwn, hheld, Bool.false_eq_true, if_false, hid, takeId_eq h, and_true, updLn_updLn]

theorem beginOwn_again {f : PhyFrame} {fs : List PhyFrame} {i : BitVec 3} (hheld : heldOff n f.objs.length s = false)
    (hid : f.id = some i) : beginOwn n f fs s = s.updLn n fun l => { l with
      own := fs, phase := .sending, cur := some (.own f), curId := i, tries := 0 } := by
  have hf : ({ f with id := some i } : PhyFrame) = f := by rw [← hid]
  simp only [beginOwn, hheld, Bool.false_eq_true, if_false, hid, hf, reduceCtorEq, and_false]

end

/-! ## A ring entry (R120, R135, R136) -/

section
variable {s : State} {n : Port}

theorem exec_txStart_ring {e : Nat} {es : List Nat} (hidle : (s.port n).lineIdle = true) (hown : (s.port n).ln.own = [])
    (hdue : (s.port n).ct.getcapsDue = false) (hpend : pendingTx n s = e :: es) (hgo : txVerdict n e s = .go) :
    exec (.txStart n) s = done (beginEntry n e s) := by
  have hpush : pushGetcaps n s = s := if_neg (by simp [hdue])
  show execTxStart n s = _
  simp only [execTxStart, hidle, if_true, hown, hpush, hpend, txScan, hgo, Bool.false_eq_true, false_and, if_false]

/-- An answer that goes out opens nothing. -/
theorem requestSent_answer {t : BitVec 5} (h : t ∈ [tGrant, tDeny, tWait, tReady, tAbort, tBye]) (id : BitVec 3) (objs : List Word) :
    requestSent n t id objs s = s := by
  simp only [List.mem_cons, List.not_mem_nil, or_false] at h
  rcases h with rfl | rfl | rfl | rfl | rfl | rfl <;> rfl

theorem convertFeed_of_unfed (h : s.isFeed n = false) (v : BitVec 11) : convertFeed n v s = s := if_neg (by simp [h])

/-- A request that goes out, with none open, opens its sequence. -/
theorem requestSent_opens {x : SeqKind × BitVec 5} (hx : x ∈ [(SeqKind.askOut, tAsk), (.profileOut, tProfile), (.sswapOut, tSswap),
      (.getcapsOut, tGetcaps)]) (hseq : (s.port n).ct.seq = none) (hf : s.isFeed n = false) (id : BitVec 3) (objs : List Word) :
    requestSent n x.2 id objs s = s.updCt n fun c => { c with
      seq := some { kind := x.1, rtype := x.2, rid := id, phase := .requested, nodded := false }, lastReq := objs, lastType := x.2 } := by
  simp only [List.mem_cons, List.not_mem_nil, or_false] at hx
  rcases hx with rfl | rfl | rfl | rfl <;>
    simp [requestSent, hseq, convertFeed_of_unfed hf, tAsk, tCaps, tPswap, tSswap, tProfile, tGetcaps, tInfo, tStatus]

/-- The line with entry e on its way. -/
def LineSt.trying (l : LineSt) (e : Nat) (id : BitVec 3) (ctl : BitVec 16) (source : Bool) : LineSt :=
  { l with phase := .sending, cur := some (.ring e), curId := id, tries := fld ctl 7 4
           startOut := l.startOut || (bitOf ctl 14 && source), sinkStart := l.sinkStart && !bitOf ctl 14 }

/-- The next try of a message whose first has begun: it keeps its ID. -/
theorem beginEntry_again {e : Nat} (h : (s.port n).ln.begun.contains e = true) :
    beginEntry n e s = s.updLn n fun l => l.trying e (hdrId (entryHdr s (ringAddr (2 * n.val) e)))
      (entryCtl s (ringAddr (2 * n.val) e)) (s.port n).isSource := by
  simp only [beginEntry, h, Bool.not_true, Bool.false_eq_true, if_false, false_and]
  rfl

/-- The line of a message at its first try: it takes the next ID of its context. -/
def LineSt.begunAs (l : LineSt) (e c : Nat) (hc : c < 12) (ctl : BitVec 16) (source : Bool) : LineSt :=
  { l.trying e (l.ctxs[c]).txId ctl source with
    begun := e :: l.begun, ctxs := l.ctxs.set c { l.ctxs[c] with txId := (l.ctxs[c]).txId + 1 } }

theorem updLn_writeMem (f : LineSt → LineSt) (a : Nat) (bs : List Byte) :
    (s.writeMem a bs).updLn n f = (s.updLn n f).writeMem a bs := rfl

/-- The first try of an entry: its header is filled in, and a request opens its sequence. -/
theorem beginEntry_first {e c : Nat} {ct : ContractSt} (h : (s.port n).ln.begun.contains e = false)
    (hctx : (memRead s.mem (ringAddr (2 * n.val) e + 2)).toNat = c) (hc : c < 12)
    (hct : ∀ t, (t.port n).ct = (s.port n).ct → t.fd = s.fd → c = 0 →
      requestSent n (hdrType (entryHdr s (ringAddr (2 * n.val) e))) ((s.port n).ln.ctxs[c]).txId
        (entryObjs s (ringAddr (2 * n.val) e)) t = t.updCt n fun _ => ct)
    (hkeep : c ≠ 0 → ct = (s.port n).ct) :
    beginEntry n e s = (((s.updLn n fun l => l.begunAs e c hc (entryCtl s (ringAddr (2 * n.val) e)) (s.port n).isSource).writeMem
      (ringAddr (2 * n.val) e + 4) (toBytesLE 2 (mkHdr (hdrType (entryHdr s (ringAddr (2 * n.val) e))) ((s.port n).ln.ctxs[c]).txId
        (s.port n).isSource (s.port n).cf.csupOn (hdrCount (entryHdr s (ringAddr (2 * n.val) e)))).toNat)).updCt n fun _ => ct) := by
  have hline : beginEntry n e s = (fun t => if c = 0 then requestSent n (hdrType (entryHdr s (ringAddr (2 * n.val) e)))
      ((s.port n).ln.ctxs[c]).txId (entryObjs s (ringAddr (2 * n.val) e)) t else t)
      ((s.updLn n fun l => l.begunAs e c hc (entryCtl s (ringAddr (2 * n.val) e)) (s.port n).isSource).writeMem
      (ringAddr (2 * n.val) e + 4) (toBytesLE 2 (mkHdr (hdrType (entryHdr s (ringAddr (2 * n.val) e))) ((s.port n).ln.ctxs[c]).txId
        (s.port n).isSource (s.port n).cf.csupOn (hdrCount (entryHdr s (ringAddr (2 * n.val) e)))).toNat)) := by
    unfold beginEntry
    simp only [h, hctx, Bool.not_false, if_true, takeId_eq hc, true_and]
    refine congrArg (fun t : State => if c = 0 then requestSent n (hdrType (entryHdr s (ringAddr (2 * n.val) e)))
      ((s.port n).ln.ctxs[c]).txId (entryObjs s (ringAddr (2 * n.val) e)) t else t) ?_
    rw [updLn_writeMem, updLn_updLn]
    exact congrArg (fun t : State => t.writeMem _ _) (updLn_congr rfl)
  rw [hline]
  dsimp only
  by_cases h0 : c = 0
  · rw [if_pos h0]
    exact hct _ (by rw [State.port_writeMem]; simp) rfl h0
  · rw [if_neg h0]
    refine (updCt_of_fixed (f := fun _ => ct) ?_).symm
    rw [hkeep h0, State.port_writeMem]
    simp

end

section
variable {s : State} {n : Port}

/-- The first try of an entry: an answer leaves the contract's state, a request opens its sequence. -/
theorem answers_firstTry {i : Instr} {e : Nat} {ct : ContractSt} (hs : s.settled)
    (hc : (memRead s.mem (ringAddr (2 * n.val) e + 2)).toNat < 12) (hexec : exec i s = done (beginEntry n e s))
    (hbegun : (s.port n).ln.begun.contains e = false) :
    let a := ringAddr (2 * n.val) e
    let c := (memRead s.mem (a + 2)).toNat
    let h := entryHdr s a
    let l := (s.port n).ln
    ct = (s.port n).ct ∧ (c = 0 → hdrType h ∈ [tGrant, tDeny, tWait, tReady, tAbort, tBye])
      ∨ c = 0 ∧ (s.port n).ct.seq = none ∧ s.isFeed n = false
        ∧ (∃ x ∈ [(SeqKind.askOut, tAsk), (.profileOut, tProfile), (.sswapOut, tSswap), (.getcapsOut, tGetcaps)],
            x.2 = hdrType h ∧ ct = { (s.port n).ct with
              seq := some { kind := x.1, rtype := x.2, rid := (l.ctxs[c]).txId, phase := .requested, nodded := false }
              lastReq := entryObjs s a, lastType := x.2 }) →
    answers i s fun t => t.port n = { s.port n with ct := ct, ln := l.begunAs e c hc (entryCtl s a) (s.port n).isSource }
      ∧ entryHdr t a = mkHdr (hdrType h) (l.ctxs[c]).txId (s.port n).isSource (s.port n).cf.csupOn (hdrCount h)
      ∧ changesOnly [.port n, .mem (a + 4) (a + 6)] s t := by
  intro a c h l hct
  have hbegin := beginEntry_first (ct := ct) hbegun rfl hc (fun t hsame hfd h0 => ?_) (fun h0 => ?_)
  · rw [hbegin] at hexec
    refine answers_quiet hexec hs.2 ⟨?_, ?_, ?_⟩
    · rw [port_updCt, State.port_writeMem, port_updLn]
    · exact entryHdr_writeMem (s := s.updLn n _) hs.1 a _
    · refine Moves.changesOnly ((moves_updCt (by simp) _).mpr ?_) hs.2 hs.2
      exact (moves_writeMem (t := s.updLn n _) hs.1 (lo := a + 4) (hi := a + 6) (by simp) le_rfl (by rw [length_toBytesLE])).mpr (by simp)
  · rcases hct with ⟨hkeep, hanswer⟩ | ⟨-, hseq, hf, x, hx, htype, hopen⟩
    · rw [requestSent_answer (hanswer h0), updCt_of_fixed]
      rw [hsame, hkeep]
    · rw [← htype, requestSent_opens hx (by rw [hsame]; exact hseq) (by rw [isFeed_congr hfd]; exact hf)]
      exact updCt_congr (by rw [hsame, hopen])
  · rcases hct with ⟨hkeep, -⟩ | ⟨hzero, -⟩
    · exact hkeep
    · exact absurd hzero h0

end

/-! ## A sink's GETCAPS (R151, R181) -/

section
variable {s : State} {n : Port}

/-- A START entry of a sink that may not start stays in the ring. -/
theorem txScan_waits {e : Nat} (hctx : memRead s.mem (ringAddr (2 * n.val) e + 2) = 0)
    (hadr : memRead s.mem (ringAddr (2 * n.val) e + 3) = addrOf 0) (hstart : bitOf (entryCtl s (ringAddr (2 * n.val) e)) 14 = true)
    (hatt : (s.port n).cf.attached = true) (hsnk : (s.port n).isSource = false) (hmay : (s.port n).mayStart = false) :
    txScan n false [e] s = s := by
  have hopen : (s.port n).ctxOpen 0 = true := by simp [PortSt.ctxOpen, hatt]
  have hnow : startsNow n s = false := by simp [startsNow, hmay]
  have hraise : raiseHold n s = s := if_neg (by simp [hsnk])
  by_cases hheld : heldOff n (hdrCount (entryHdr s (ringAddr (2 * n.val) e))) s = true
  · have hv : txVerdict n e s = .waitPip := by simp [txVerdict, hctx, hadr, hopen, hheld]
    simp [txScan, hv]
  · have hv : txVerdict n e s = .waitLevel := by simp [txVerdict, hctx, hadr, hopen, hheld, hstart, hnow]
    simp [txScan, hv, hraise]

/-- The GETCAPS that a sink owes joins an empty ring. -/
theorem sendsMsg_getcaps (hs : s.settled) (hidle : (s.port n).lineIdle = true) (hown : (s.port n).ln.own = [])
    (hdue : (s.port n).ct.getcapsDue = true) (htx : (s.port n).ln.tx = []) (hsnk : (s.port n).isSource = false)
    (hmay : (s.port n).mayStart = false) :
    sendsMsg (.txStart n) s n true tGetcaps [0x10000000] { (s.port n).ct with getcapsDue := false } := by
  refine sendsAs_of_queued hs fun hroom hlen => ?_
  have hq := ((PortChange.refl (l := sendAreas s n) (n := n) (by simp) s).pushMsg (start := true) (type := tGetcaps)
    (objs := [0x10000000]) hs.1 (covers_of_mem (by simp)) rfl hroom hlen).ct fun c => { c with getcapsDue := false }
  have hpush : pushGetcaps n s = (pushMsg n true tGetcaps [0x10000000] s).updCt n fun c => { c with getcapsDue := false } :=
    if_pos ⟨hdue, hroom⟩
  rw [← hpush] at hq
  refine ⟨_, ?_, hq⟩
  show execTxStart n s = _
  simp only [execTxStart, hidle, if_true, hown]
  refine congrArg done ?_
  obtain ⟨hctl, hctx, hadr⟩ := entry_of_image hq.read
  have hatt : (s.port n).cf.attached = true := by
    simp only [PortSt.lineIdle, PortSt.phyOn, Bool.and_eq_true] at hidle
    exact hidle.1.1.1.1.1.2
  have hscan : txScan n false [(s.port n).ln.txTail] (pushGetcaps n s) = pushGetcaps n s :=
    txScan_waits hctx hadr (by rw [← txSlot, hctl]; decide) (by rw [hq.port]; exact hatt) (by rw [hq.port]; exact hsnk)
      (by rw [hq.port]; exact hmay)
  have hpend : pendingTx n (pushGetcaps n s) = [] ∨ pendingTx n (pushGetcaps n s) = [(s.port n).ln.txTail] := by
    have hring : ((pushGetcaps n s).port n).ln.tx = [(s.port n).ln.txTail] := by rw [hq.port]; simp [LineSt.pushed, htx]
    rw [pendingTx, hring]
    cases hbit : bitOf (entryCtl (pushGetcaps n s) (ringAddr (2 * n.val) (s.port n).ln.txTail)) 15
    · exact .inl (by simp [hbit])
    · exact .inr (by simp [hbit])
  rcases hpend with hpend | hpend <;> rw [hpend]
  · rfl
  · exact hscan

end

/-! ## The third try fails (R119, R135, R136) -/

section
variable {s : State} {n : Port}

/-- A ring entry, of a context other than PART, that its third try fails. -/
theorem answers_thirdTry (e : Fin 16) (hs : s.settled) (hsig : s.signals n = true) (hon : s.eventsOn = true)
    (hph : (s.port n).ln.phase = .awaitNod) (htries : (s.port n).ln.tries = 3) (hcur : (s.port n).ln.cur = some (.ring e.val))
    (hctx : memRead s.mem (ringAddr (2 * n.val) e + 2) ≠ 0) :
    let a := ringAddr (2 * n.val) e
    answers (.nodTimeout n) s fun t =>
      t.port n = { s.port n with ln := { (s.port n).ln with
        phase := .idle, cur := none, txfail := satInc (s.port n).ln.txfail, tx := (s.port n).ln.tx.erase e.val
        begun := (s.port n).ln.begun.erase e.val } }
      ∧ entryCtl t a = setFld (setFld (setFld (entryCtl s a) 11 8 2) 7 4 3) 15 15 0
      ∧ logs s t (8 * n.val + 6) (2 + 16 * (memRead s.mem (a + 2)).toNat)
      ∧ changesOnly [.port n, .events, .mem a (a + 2)] s t := by
  intro a
  let ctl := setFld (setFld (setFld (entryCtl s a) 11 8 2) 7 4 3) 15 15 0
  let s1 := (s.updLn n fun l => { l with phase := .idle, cur := none, txfail := satInc l.txfail }).writeMem a (toBytesLE 2 ctl.toNat)
  let u := (s1.firePort n 6 (2 + 16 * (memRead s.mem (a + 2)).toNat)).updLn n fun l => l.without e
  have hb := ringAddr_bounds (r := 2 * n.val) (by omega) e.isLt
  have hexec : exec (.nodTimeout n) s = done u := by
    have hfail : exec (.nodTimeout n) s = done (tryFailed n s) := if_pos hph
    have hfinish : tryFailed n s = finishFrame n 2 s := if_pos (by omega)
    rw [hfail, hfinish]
    simp only [finishFrame, hcur, htries, hctx, decide_false, Bool.false_eq_true, if_false, if_true]
    rfl
  have hsig' : s.has n = true ∧ n ≠ portB := by simpa [State.signals] using hsig
  have hgood1 : memGood s1.mem = true := memGood_memWriteN _ _ _ hs.1
  have hgood : memGood u.mem = true := by simpa [u] using hgood1
  have hevq : u.evq = [(8 * n.val + 6, 2 + 16 * (memRead s.mem (a + 2)).toNat)] := by
    have hfired := State.firePort_evq s1 n 6 (2 + 16 * (memRead s.mem (a + 2)).toNat) hon hsig'.1 hsig'.2
    exact hfired.trans (by rw [show s1.evq = [] from hs.2]; rfl)
  have hmoves : Moves [.port n, .events, .mem a (a + 2)] s u := by
    refine (moves_updLn (by simp) _).mpr ((moves_firePort (by simp) _ _ _).mpr ?_)
    exact (moves_writeMem (t := s.updLn n _) hs.1 (lo := a) (hi := a + 2) (by simp) le_rfl (by rw [length_toBytesLE])).mpr (by simp)
  refine answers_of hexec ⟨?_, ?_, logs_flush hevq hgood ?_, hmoves.flush (by simp) hs.2 hgood⟩
  · rw [State.port_flush]
    simp [u, s1, State.port_writeMem, LineSt.without]
  · rw [entryCtl_flush hgood (by omega)]
    have hmem : u.mem = s1.mem := by simp [u]
    rw [entryCtl_congr hmem]
    exact entryCtl_writeMem (s := s.updLn n _) hs.1 a ctl
  · simp [u, s1]

end

/-- Settles O24: what goes out next, by the line and the entry; and how a third try ends. -/
theorem framesGoOutAndEnd : Obligations.FramesGoOutAndEnd := by
  refine ⟨fun s n hs => ?_, fun s n e hs hsig hon => fun hph htries hcur hctx => answers_thirdTry e hs hsig hon hph htries hcur hctx⟩
  dsimp only
  refine ⟨fun f fs hidle hown => ⟨fun hheld hid hc => ?_, fun i hheld hid => ?_, fun hheld => ?_⟩,
    fun e es hidle hown hdue hpend hgo => ⟨fun hbegun => ?_, fun hbegun hc ct hct => ?_⟩,
    fun hidle hown hdue htx hsnk hmay => sendsMsg_getcaps hs hidle hown hdue htx hsnk hmay, fun hidle => idles_of hs (if_neg (by simp [hidle]))⟩
  · exact setsPort_updLn hs ((exec_txStart_own hidle hown).trans (congrArg done (beginOwn_new hheld hid hc)))
  · exact setsPort_updLn hs ((exec_txStart_own hidle hown).trans (congrArg done (beginOwn_again hheld hid)))
  · exact idles_of hs ((exec_txStart_own hidle hown).trans (congrArg done (if_pos hheld)))
  · exact setsPort_updLn hs ((exec_txStart_ring hidle hown hdue hpend hgo).trans (congrArg done (beginEntry_again hbegun)))
  · exact answers_firstTry hs hc (exec_txStart_ring hidle hown hdue hpend hgo) hbegun hct

end Sys2Proof.Machine
end

section
/-! O25: tries, NODs, HOLD and marks (R117 to R119, R122 to R124, R126, R127, R389; DESIGN CHOICE, log entries 66, 82, 99). -/

namespace Sys2Proof.Machine

section
variable {s : State} {n : Port}

/-! ## The end bit (R118, R135) -/

theorem exec_frameSent_own {g : PhyFrame} (hph : (s.port n).ln.phase = .sending) (hcur : (s.port n).ln.cur = some (.own g)) :
    exec (.frameSent n) s = done (s.updLn n fun l => { l with phase := .awaitNod, tries := l.tries + 1 }) := by
  show execFrameSent n s = _
  simp only [execFrameSent, hph, hcur, if_true]

theorem exec_frameSent_ring {e : Nat} (hph : (s.port n).ln.phase = .sending) (hcur : (s.port n).ln.cur = some (.ring e)) :
    exec (.frameSent n) s = done (((s.updLn n fun l => { l with phase := .awaitNod, tries := l.tries + 1 }).writeMem
      (ringAddr (2 * n.val) e + 8) (toBytesLE 4 s.timeUs)).writeMem (ringAddr (2 * n.val) e + 72)
        (bytesLE (frameCrc (memRead s.mem (ringAddr (2 * n.val) e + 3)) (entryHdr s (ringAddr (2 * n.val) e))
          (entryObjs s (ringAddr (2 * n.val) e))))) := by
  show execFrameSent n s = _
  simp only [execFrameSent, hph, hcur, if_true]

/-- A ring entry takes its TIME and CRC. -/
theorem answers_frameSent_ring {e : Nat} (hs : s.settled) (hph : (s.port n).ln.phase = .sending)
    (hcur : (s.port n).ln.cur = some (.ring e)) :
    let a := ringAddr (2 * n.val) e
    answers (.frameSent n) s fun t =>
      t.port n = { s.port n with ln := { (s.port n).ln with phase := .awaitNod, tries := (s.port n).ln.tries + 1 } }
      ∧ t.readMem (a + 8) 4 = toBytesLE 4 s.timeUs
      ∧ t.readMem (a + 72) 4 = bytesLE (frameCrc (memRead s.mem (a + 3)) (entryHdr s a) (entryObjs s a))
      ∧ changesOnly [.port n, .mem (a + 8) (a + 12), .mem (a + 72) (a + 76)] s t := by
  intro a
  have hexec := exec_frameSent_ring hph hcur
  have hm : memGood (s.updLn n fun l => { l with phase := .awaitNod, tries := l.tries + 1 }).mem = true := hs.1
  have hm1 : memGood ((s.updLn n fun l => { l with phase := .awaitNod, tries := l.tries + 1 }).writeMem (a + 8)
      (toBytesLE 4 s.timeUs)).mem = true := memGood_memWriteN _ _ _ hm
  refine answers_quiet hexec hs.2 ⟨?_, ?_, ?_, Moves.changesOnly ?_ hs.2 hs.2⟩
  · rw [State.port_writeMem, State.port_writeMem, port_updLn]
  · rw [readMem_writeMem_out hm1 (.inl (by omega)), readMem_writeMem_start hm (by rw [length_toBytesLE])]
    exact List.take_of_length_le (by rw [length_toBytesLE])
  · rw [readMem_writeMem_start hm1 (by rw [length_bytesLE])]
    rfl
  · refine (moves_writeMem hm1 (lo := a + 72) (hi := a + 76) (by simp) le_rfl (by rw [length_bytesLE])).mpr ?_
    exact (moves_writeMem hm (lo := a + 8) (hi := a + 12) (by simp) le_rfl (by rw [length_toBytesLE])).mpr (by simp)

/-! ## Tries (R119) -/

theorem finishFrame_own {r : Nat} {g : PhyFrame} (hcur : (s.port n).ln.cur = some (.own g)) : finishFrame n r s =
    s.updLn n fun l => { l with phase := .idle, cur := none, txfail := if r = 2 then satInc l.txfail else l.txfail } := by
  simp only [finishFrame, hcur]

theorem exec_nod_matching {f : FrameRx} {g : PhyFrame} (hph : (s.port n).ln.phase = .awaitNod)
    (hcur : (s.port n).ln.cur = some (.own g))
    (hv : rxVerdict { s.port n with ln := { (s.port n).ln with receiving := false } } s.cc f = .pass g.ctx)
    (htype : hdrType f.hdr = 1) (hobjs : f.objs = []) (hrev : hdrRev f.hdr = 1) (hid : hdrId f.hdr = (s.port n).ln.curId) :
    exec (.nod n f) s = done (s.updLn n fun l => { l with receiving := false, phase := .idle, cur := none }) := by
  have hmatch : nodMatches (s.updLn n fun l => { l with receiving := false }) n f g.ctx = true := by
    simp [nodMatches, hcur, htype, hobjs, hrev, hid]
  have hfinish := finishFrame_own (s := s.updLn n fun l => { l with receiving := false }) (n := n) (r := 1) (g := g) (by simpa using hcur)
  rw [updLn_updLn] at hfinish
  have hv0 : rxVerdict ((s.updLn n fun l => { l with receiving := false }).port n) s.cc f = .pass g.ctx := by rw [port_updLn]; exact hv
  have hph0 : ((s.updLn n fun l => { l with receiving := false }).port n).ln.phase = .awaitNod := by rw [port_updLn]; exact hph
  show execNod n f s = _
  unfold execNod
  dsimp only
  rw [if_pos hph0, State.updLn_cc, hv0]
  dsimp only
  rw [if_pos hmatch, hfinish]
  rfl

theorem exec_txRetry_own {g : PhyFrame} (hphy : (s.port n).phyOn = true) (hph : (s.port n).ln.phase = .retryWait)
    (hrx : (s.port n).ln.receiving = false) (hnod : (s.port n).ln.nodOwed = none) (hmark : (s.port n).ln.mark = none)
    (hcur : (s.port n).ln.cur = some (.own g)) : exec (.txRetry n) s =
      if heldOff n g.objs.length s then done s else done (s.updLn n fun l => { l with phase := .sending }) := by
  have hobjs : curObjects n s = g.objs.length := by simp only [curObjects, hcur]
  show execTxRetry n s = _
  unfold execTxRetry
  cases hheld : heldOff n g.objs.length s <;> simp [hphy, hph, hrx, hnod, hmark, hobjs, hheld, hcur]

/-! ## NODs and marks (R117, R118, R123, R124) -/

/-- The line with the NOD on its way. -/
def LineSt.nodSent (l : LineSt) : LineSt :=
  { l with nodOwed := none, notsupDue := none, own := l.notsupDue.toList ++ l.own
           phase := if l.phase = .idle ∨ l.phase = .retryWait then .sendingNod else l.phase }

theorem exec_nodSend (hnod : (s.port n).ln.nodOwed ≠ none)
    (hfree : (s.port n).ln.mark = none ∨ (s.port n).phyOn = false ∨ (s.port n).ln.freeForMark = false) :
    exec (.nodSend n) s = done (s.updLn n LineSt.nodSent) := by
  have hsome : (s.port n).ln.nodOwed.isSome = true := Option.isSome_iff_ne_none.mpr hnod
  show execNodSend n s = _
  unfold execNodSend
  simp only [hsome, if_true]
  cases hmark : (s.port n).ln.mark with
  | none => rfl
  | some m =>
    have hbusy : ((s.port n).phyOn && (s.port n).ln.freeForMark) = false := by
      rcases hfree with h | h | h
      · rw [hmark] at h; cases h
      · rw [h, Bool.false_and]
      · rw [h, Bool.and_false]
    simp only [hbusy, Bool.false_eq_true, if_false]
    rfl

theorem exec_markStart {m : MarkReq} (hmark : (s.port n).ln.mark = some m) (hphy : (s.port n).phyOn = true)
    (hfree : (s.port n).ln.freeForMark = true) : exec (.markStart n) s = done (startMark n m s) := by
  show execMarkStart n s = _
  simp only [execMarkStart, hmark, hphy, hfree, Bool.and_self, if_true]

theorem exec_nodSend_mark {m : MarkReq} (hnod : (s.port n).ln.nodOwed ≠ none) (hmark : (s.port n).ln.mark = some m)
    (hphy : (s.port n).phyOn = true) (hfree : (s.port n).ln.freeForMark = true) :
    exec (.nodSend n) s = done (startMark n m s) := by
  have hsome : (s.port n).ln.nodOwed.isSome = true := Option.isSome_iff_ne_none.mpr hnod
  show execNodSend n s = _
  simp only [execNodSend, hsome, hmark, hphy, hfree, Bool.and_self, if_true]

theorem setsPort_startMark {i : Instr} {m : MarkReq} (hs : s.settled) (hexec : exec i s = done (startMark n m s)) :
    setsPort i s n { s.port n with
      ln := { (s.port n).ln with mark := none, markOnLine := some (markCode m), phase := .sendingMark, nodOwed := none
                                 notsupDue := none, own := (s.port n).ln.notsupDue.toList ++ (s.port n).ln.own }
      wh := { (s.port n).wh with markPend := (s.port n).wh.markPend && !m.isOpen } } :=
  setsPort_of_moves hs hexec hs.2 (by simp [startMark]) (by simp [startMark])

end

/-- Settles O25: each end, try, NOD and mark by the phase of the line. -/
theorem triesNodsAndMarks : Obligations.TriesNodsAndMarks := by
  refine ⟨fun s n f hs => ?_, fun s n hs => ?_⟩ <;> dsimp only
  · refine ⟨fun g hph hcur => setsPort_updLn hs (exec_frameSent_own hph hcur), fun e hph hcur => answers_frameSent_ring hs hph hcur,
      fun hph => ?_, fun hph htries => ?_, fun g hph htries hcur => ?_, fun g hph hcur hv htype hobjs hrev hid =>
        setsPort_updLn hs (exec_nod_matching hph hcur hv htype hobjs hrev hid), fun g hphy hph hrx hnod hmark hcur => ?_,
      fun hsrc hlevel => setsPort_updLn hs (c := .holdDone n) (if_pos (by simp [hsrc, hlevel])),
      fun hnod hfree => setsPort_updLn hs (exec_nodSend hnod hfree), fun hph => idles_of hs (if_neg hph),
      fun hsend hnod => idles_of hs ((if_neg hsend).trans (if_neg hnod)), fun hnod => idles_of hs (if_neg (by simp [hnod]))⟩
    · exact setsPort_updLn hs (c := .frameSent n) (f := fun l => { l with phase := l.afterBrief })
        ((if_neg (by rw [hph]; decide)).trans (if_pos hph))
    · have hexec : exec (.nodTimeout n) s = done (tryFailed n s) := if_pos hph
      exact setsPort_updLn hs (hexec.trans (congrArg done (if_neg (by omega))))
    · have hexec : exec (.nodTimeout n) s = done (tryFailed n s) := if_pos hph
      have hfinish : tryFailed n s = finishFrame n 2 s := if_pos htries
      rw [hfinish, finishFrame_own hcur] at hexec
      exact setsPort_updLn hs hexec
    · have hexec := exec_txRetry_own hphy hph hrx hnod hmark hcur
      refine ⟨fun hheld => setsPort_updLn hs (hexec.trans (if_neg (by rw [hheld]; decide))),
        fun hheld => idles_of hs (hexec.trans (if_pos hheld))⟩
  · refine ⟨fun m hmark hphy hfree => ⟨setsPort_startMark hs (exec_markStart hmark hphy hfree),
        fun hnod => setsPort_startMark hs (exec_nodSend_mark hnod hmark hphy hfree)⟩,
      fun hmark => idles_of hs ?_, fun hph => setsPort_updLn hs (c := .markEnd n) (if_pos hph), fun hph => idles_of hs (if_neg hph),
      fun hphy => setsPort_updLn hs (c := .grantMarkReceived n) (if_pos hphy),
      fun hphy => ⟨idles_of hs (if_neg (by simp [hphy])), idles_of hs (if_neg (by simp [hphy]))⟩,
      fun hphy hph => setsPort_updLn hs (c := .frameSyncDetected n) (if_pos ?_)⟩
    · show execMarkStart n s = _
      simp only [execMarkStart, hmark]
    · simp only [List.mem_cons, List.not_mem_nil, or_false, not_or] at hph
      simp [hphy, hph]

end Sys2Proof.Machine
end

section
/-! O26 and O27: frames received, refused with NOTSUP, and relayed (R115 to R121, R127 to R132; DESIGN CHOICE, log entries 64 and
84). -/

namespace Sys2Proof.Machine

/-! ## The end of a frame (R115) -/

section
variable {s : State} {n : Port} {f : FrameRx} {at_ : Nat}

/-- The hub as a frame ends at a cc. -/
abbrev rxEnded (s : State) (n : Port) (at_ : Nat) : State :=
  ({ s with cc := at_ } : State).updLn n fun l => { l with receiving := false }

/-- The port as a frame ends. -/
abbrev PortSt.quietLine (p : PortSt) : PortSt := { p with ln := { p.ln with receiving := false } }

theorem port_rxEnded : (rxEnded s n at_).port n = (s.port n).quietLine := port_updLn _ _ _

theorem rxEnded_eq (h : s.cc ≤ at_) : ((s.at at_).updLn n fun l => { l with receiving := false }) = rxEnded s n at_ := by
  rw [State.at_eq h]

theorem exec_frameReceived_fails {v : RxVerdict} (h : s.cc ≤ at_) (hv : rxVerdict (s.port n).quietLine at_ f = v)
    (hpass : ∀ c, v ≠ .pass c) : exec (.frameReceived n f at_) s = done (rxCount n v (rxEnded s n at_)) := by
  have hv0 : rxVerdict ((rxEnded s n at_).port n) (rxEnded s n at_).cc f = v := by rw [port_rxEnded]; exact hv
  show execFrameReceived n f at_ s = _
  unfold execFrameReceived
  rw [rxEnded_eq h]
  dsimp only
  rw [hv0]
  cases v with
  | pass c => exact absurd rfl (hpass c)
  | _ => rfl

theorem exec_frameReceived_stands {c : Nat} (h : s.cc ≤ at_) (hv : rxVerdict (s.port n).quietLine at_ f = .pass c)
    (htype : hdrType f.hdr ≠ 1) : exec (.frameReceived n f at_) s = done (acceptFrame n c f (rxEnded s n at_)) := by
  have hv0 : rxVerdict ((rxEnded s n at_).port n) (rxEnded s n at_).cc f = .pass c := by rw [port_rxEnded]; exact hv
  show execFrameReceived n f at_ s = _
  unfold execFrameReceived
  rw [rxEnded_eq h]
  dsimp only
  rw [hv0]
  exact if_neg htype

/-- A frame that leaves a count, or nothing, on the line. -/
theorem answers_rxLine {g : LineSt → LineSt} (hs : s.settled)
    (hexec : exec (.frameReceived n f at_) s = done ((rxEnded s n at_).updLn n g)) : answers (.frameReceived n f at_) s fun t =>
      t.cc = at_ ∧ t.port n = { s.port n with ln := g { (s.port n).ln with receiving := false } }
      ∧ changesOnly [.clock, .port n] s t := by
  refine answers_quiet hexec hs.2 ⟨rfl, ?_, Moves.changesOnly ?_ hs.2 hs.2⟩
  · rw [port_updLn, port_rxEnded]
  · refine (moves_updLn (by simp) _).mpr ((moves_updLn (by simp) _).mpr ?_)
    exact (moves_cc (t := s) (by simp) _).mpr (Moves.refl _ _)

/-! ## The checks down to the detach debounce -/

theorem rxVerdict_nothing {p : PortSt} {cc : Nat} (h : p.phyOn = false ∨ f.sync = false) : rxVerdict p cc f = .nothing := if_pos h

section
variable {p : PortSt} {cc : Nat} (hphy : p.phyOn = true) (hsync : f.sync = true)
include hphy hsync

theorem rxVerdict_broken (h : ¬(f.framing = true ∧ f.objs.length = hdrCount f.hdr)) : rxVerdict p cc f = .drop := by
  refine (if_neg (by simp [hphy, hsync])).trans (if_pos ?_)
  by_cases hf : f.framing = true
  · exact .inr fun hc => h ⟨hf, hc⟩
  · exact .inl (Bool.eq_false_iff.mpr hf)

theorem rxVerdict_crc (h : f.framing = true ∧ f.objs.length = hdrCount f.hdr) (hcrc : f.crc ≠ frameCrc f.addr f.hdr f.objs) :
    rxVerdict p cc f = .crcErr :=
  (if_neg (by simp [hphy, hsync])).trans ((if_neg (by simp [h])).trans (if_pos hcrc))

theorem rxVerdict_addressee (h : f.framing = true ∧ f.objs.length = hdrCount f.hdr) (hcrc : f.crc = frameCrc f.addr f.hdr f.objs)
    (hadr : contextOf f.addr = none) : rxVerdict p cc f = .drop := by
  refine (if_neg (by simp [hphy, hsync])).trans ((if_neg (by simp [h])).trans ((if_neg (by simp [hcrc])).trans ?_))
  rw [hadr]

end

/-! ## A frame that stands (R115 to R121) -/

section
variable {c : Nat} (hroom : (s.port n).ln.rxCount < 16)
include hroom

/-- The NOTSUP of a refused frame, with its reason, in the order of the checks. -/
theorem acceptFrame_refused {reason : Nat} (h : (reason = 3 ∧ hdrRev f.hdr ≠ 1)
      ∨ (reason = 2 ∧ hdrRev f.hdr = 1 ∧ (s.port n).ctxOpen c = false)
      ∨ (reason = 1 ∧ hdrRev f.hdr = 1 ∧ (s.port n).ctxOpen c = true ∧ typeDefined (hdrType f.hdr) = false)
      ∨ (reason = 5 ∧ hdrRev f.hdr = 1 ∧ (s.port n).ctxOpen c = true ∧ hdrType f.hdr = 0x0F ∧ (isW n = true ∨ n = portG))) :
    acceptFrame n c f s = refuseFrame n c f reason s := by
  have hfull : ¬ 16 ≤ (s.port n).ln.rxCount := by omega
  unfold acceptFrame
  rcases h with ⟨rfl, hrev⟩ | ⟨rfl, hrev, hopen⟩ | ⟨rfl, hrev, hopen, hdef⟩ | ⟨rfl, hrev, hopen, htype, hport⟩
  · simp only [hfull, if_false, hrev, ne_eq, not_false_eq_true, if_true]
  · simp only [hfull, if_false, hrev, ne_eq, not_true_eq_false, hopen, if_true]
  · simp only [hfull, if_false, hrev, ne_eq, not_true_eq_false, hopen, Bool.true_eq_false, hdef, if_true]
  · have hdef : typeDefined 0x0F = true := by decide
    simp only [hfull, if_false, hrev, ne_eq, not_true_eq_false, hopen, Bool.true_eq_false, htype, hdef, hport, and_self, if_true]

variable (hrev : hdrRev f.hdr = 1) (hopen : (s.port n).ctxOpen c = true) (hdef : typeDefined (hdrType f.hdr) = true)
include hrev hopen hdef

theorem acceptFrame_duplicate (hdup : isDuplicate (s.port n).ln c (hdrId f.hdr) s.cc = true)
    (hrelay : ¬(hdrType f.hdr = 0x0F ∧ (isW n = true ∨ n = portG))) : acceptFrame n c f s =
      s.updLn n fun l => { l with dup := satInc l.dup, nodOwed := some (BitVec.ofNat 4 c, hdrId f.hdr), notsupDue := none } := by
  have hfull : ¬ 16 ≤ (s.port n).ln.rxCount := by omega
  unfold acceptFrame
  simp only [hfull, if_false, hrev, ne_eq, not_true_eq_false, hopen, Bool.true_eq_false, hdef, hrelay, hdup, if_true]
  exact updLn_updLn _ _ _ _

/-- The line once a frame has been accepted that no answer of the PHY's own follows. -/
def LineSt.accepted (l : LineSt) (c : Nat) (hc : c < 12) (id : BitVec 3) (cc : Nat) (start : Bool) : LineSt :=
  { l with nodOwed := some (BitVec.ofNat 4 c, id), notsupDue := none
           ctxs := l.ctxs.set c { l.ctxs[c] with lastRx := some (id, cc) }, sinkStart := l.sinkStart || (l.holdWait && start) }

/-- Whether a received frame opens a sequence, in its context. -/
def PortSt.startIn (p : PortSt) (c : Nat) (t : BitVec 5) : Bool := if c = 0 then p.startFrame t else startType t

theorem acceptFrame_laid (hc : c < 12) (hdup : isDuplicate (s.port n).ln c (hdrId f.hdr) s.cc = false)
    (hrelay : hdrType f.hdr ≠ 0x0F) (hswap : isSwap (hdrType f.hdr) = false) : acceptFrame n c f s =
      deliver n c f ((s.port n).isSource && decide ((s.port n).cf.level = 0) && (s.port n).ln.startOut
          && (s.port n).startIn c (hdrType f.hdr)) false
        (s.updLn n fun l => l.accepted c hc (hdrId f.hdr) s.cc ((s.port n).startIn c (hdrType f.hdr))) := by
  have hfull : ¬ 16 ≤ (s.port n).ln.rxCount := by omega
  unfold acceptFrame
  simp only [hfull, if_false, hrev, ne_eq, not_true_eq_false, hopen, Bool.true_eq_false, hdef, hrelay, false_and, hdup,
    Bool.false_eq_true, decide_false, Bool.false_and, hswap, Bool.and_false, oweNod, recordRx, updLn_updLn]
  refine congrArg (deliver n c f _ false) (updLn_congr ?_)
  rw [dif_pos hc]
  rfl

end

end

/-! ## The RX ring (R135, R136) -/

section
variable {s : State} {n : Port} {f : FrameRx}

/-- The CTL of a received entry. -/
def rxCtl (viol : Bool) : BitVec 16 := BitVec.ofNat 16 (32768 + b2n viol * 16384)

/-- The place of the next received entry. -/
def rxSlot (s : State) (n : Port) : Nat := ringAddr (2 * n.val + 1) (((s.port n).ln.rxHead + (s.port n).ln.rxCount) % 16)

theorem deliver_eq (c : Nat) (viol : Bool) (t : State) : deliver n c f viol false t =
    (((t.writeMem (rxSlot t n) (entryImage (rxCtl viol) c f.addr f.hdr t.timeUs f.objs f.crc)).updLn n fun l =>
      { l with rxCount := l.rxCount + 1, holdviol := if viol then satInc l.holdviol else l.holdviol }).firePort n 5 c) := by
  have hctl : BitVec.ofNat 16 (32768 + b2n viol * 16384 + b2n false * 8192) = rxCtl viol := by simp [rxCtl, b2n]
  unfold deliver
  dsimp only
  rw [hctl]
  rfl

theorem rxSlot_below (s : State) (n : Port) : rxSlot s n + 80 ≤ 0x3000A000 :=
  (ringAddr_bounds (by omega) (Nat.mod_lt _ (by decide))).2

/-- What a frame that is laid in the RX ring leaves. -/
structure Laid (v u : State) (n : Port) (f : FrameRx) (c : Nat) (viol : Bool) : Prop where
  cc : u.cc = v.cc
  port : u.port n = { v.port n with ln := { (v.port n).ln with
    rxCount := (v.port n).ln.rxCount + 1, holdviol := if viol then satInc (v.port n).ln.holdviol else (v.port n).ln.holdviol } }
  evq : u.evq = v.evq ++ [(8 * n.val + 5, c)]
  host : u.host = v.host
  good : memGood u.mem = true
  read : u.readMem (rxSlot v n) 80 = entryImage (rxCtl viol) c f.addr f.hdr v.timeUs f.objs f.crc
  moves : ∀ l, .port n ∈ l → .events ∈ l → .mem (rxSlot v n) (rxSlot v n + 80) ∈ l → Moves l v u

theorem deliver_laid {v : State} {c : Nat} {viol : Bool} (hm : memGood v.mem = true) (hon : v.eventsOn = true)
    (hsig : v.signals n = true) : Laid v (deliver n c f viol false v) n f c viol := by
  have hsig' : v.has n = true ∧ n ≠ portB := by simpa [State.signals] using hsig
  rw [deliver_eq]
  have hread := readMem_writeMem_start (k := 80) (a := rxSlot v n)
    (bs := entryImage (rxCtl viol) c f.addr f.hdr v.timeUs f.objs f.crc) hm (by rw [length_entryImage])
  rw [List.take_of_length_le (by rw [length_entryImage])] at hread
  have hgood : memGood (v.writeMem (rxSlot v n) (entryImage (rxCtl viol) c f.addr f.hdr v.timeUs f.objs f.crc)).mem = true :=
    memGood_memWriteN _ _ _ hm
  have hmoves (l : List Area) (hl : .mem (rxSlot v n) (rxSlot v n + 80) ∈ l) :
      Moves l v (v.writeMem (rxSlot v n) (entryImage (rxCtl viol) c f.addr f.hdr v.timeUs f.objs f.crc)) :=
    (moves_writeMem hm hl le_rfl (by rw [length_entryImage])).mpr (Moves.refl l v)
  generalize hw : entryImage (rxCtl viol) c f.addr f.hdr v.timeUs f.objs f.crc = img at *
  refine ⟨by simp, ?_, ?_, by simp, by simpa using hgood, ?_, fun l hp he hl => ?_⟩
  · rw [State.port_firePort, port_updLn, State.port_writeMem]
  · exact State.firePort_evq ((v.writeMem (rxSlot v n) img).updLn n _) n 5 c hon hsig'.1 hsig'.2
  · rw [readMem_congr (u := State.firePort _ n 5 c) (s := v.writeMem (rxSlot v n) img) (by simp)]
    exact hread.trans hw.symm
  · exact (moves_firePort (.inl he) _ _ _).mpr ((moves_updLn (.inl hp) _).mpr (hmoves l hl))

/-- A frame laid in the RX ring as it came. -/
theorem answers_laid {i : Instr} {c : Nat} {viol : Bool} {at_ : Nat} {g : LineSt → LineSt} (hs : s.settled) (hsig : s.signals n = true)
    (hon : s.eventsOn = true) (hring : rxSlot ((rxEnded s n at_).updLn n g) n = rxSlot s n)
    (hexec : exec i s = done (deliver n c f viol false ((rxEnded s n at_).updLn n g))) {l2 : LineSt}
    (hl2 : g { (s.port n).ln with receiving := false } = l2) :
    answers i s fun t => t.cc = at_
      ∧ t.port n = { s.port n with ln := { l2 with
          rxCount := l2.rxCount + 1, holdviol := if viol then satInc l2.holdviol else l2.holdviol } }
      ∧ t.readMem (rxSlot s n) 80 = entryImage (rxCtl viol) c f.addr f.hdr t.timeUs f.objs f.crc
      ∧ logs s t (8 * n.val + 5) c ∧ changesOnly [.clock, .port n, .events, .mem (rxSlot s n) (rxSlot s n + 80)] s t := by
  have hport : ((rxEnded s n at_).updLn n g).port n = { s.port n with ln := l2 } := by rw [port_updLn, port_rxEnded, hl2]
  have hmoves : Moves [.clock, .port n, .events, .mem (rxSlot s n) (rxSlot s n + 80)] s ((rxEnded s n at_).updLn n g) := by
    refine (moves_updLn (by simp) _).mpr ((moves_updLn (by simp) _).mpr ?_)
    exact (moves_cc (t := s) (by simp) _).mpr (Moves.refl _ _)
  have h := deliver_laid (v := (rxEnded s n at_).updLn n g) (n := n) (f := f) (c := c) (viol := viol) hs.1 hon hsig
  have hevq := h.evq
  have hcc := h.cc
  have hhost := h.host
  have hread := h.read
  have hlaid := h.moves [.clock, .port n, .events, .mem (rxSlot s n) (rxSlot s n + 80)] (by simp) (by simp) (by rw [hring]; simp)
  have hport' := h.port
  rw [hport] at hport'
  rw [hring] at hread
  have htime : (deliver n c f viol false ((rxEnded s n at_).updLn n g)).timeUs = ((rxEnded s n at_).updLn n g).timeUs := by
    rw [State.timeUs, hcc]; rfl
  refine answers_of hexec ⟨?_, ?_, ?_, logs_flush (by rw [hevq, show ((rxEnded s n at_).updLn n g).evq = [] from hs.2]; rfl) h.good
    (by rw [hhost]; rfl), (hmoves.trans hlaid).flush (by simp) hs.2 h.good⟩
  · rw [State.flush_cc, hcc]; rfl
  · rw [State.port_flush, hport']
  · rw [flush_timeUs, htime, readMem_flush_below h.good (rxSlot_below s n), hread]

end

/-- Settles O26: each check of R115 in its order, then the duplicate, then the RX ring. -/
theorem receivedFramesAreChecked : Obligations.ReceivedFramesAreChecked := by
  intro s n f at_ hs hsig hon hat
  dsimp only
  intro htype
  have hfails {v : RxVerdict} (hv : rxVerdict (s.port n).quietLine at_ f = v) (hpass : ∀ c, v ≠ .pass c) :=
    exec_frameReceived_fails hat hv hpass
  refine ⟨fun h => ?_, fun hphy hsync hwhole => ?_, fun hphy hsync hwhole hcrc => ?_, fun hphy hsync hwhole hcrc hadr => ?_,
    fun c hv hfull => ?_, fun c hv hroom hrev hopen hdef => ⟨fun hdup hrelay => ?_, fun hdup hrelay hswap => ?_⟩⟩
  · have hexec := hfails (rxVerdict_nothing (p := (s.port n).quietLine) h) (by simp)
    have hsame : rxCount n .nothing (rxEnded s n at_) = (rxEnded s n at_).updLn n id := (updLn_of_fixed rfl).symm
    exact answers_rxLine (g := id) hs (by rw [hexec, hsame])
  · exact answers_rxLine hs (hfails (rxVerdict_broken (p := (s.port n).quietLine) hphy hsync hwhole) (by simp))
  · exact answers_rxLine hs (hfails (rxVerdict_crc (p := (s.port n).quietLine) hphy hsync hwhole hcrc) (by simp))
  · exact answers_rxLine hs (hfails (rxVerdict_addressee (p := (s.port n).quietLine) hphy hsync hwhole hcrc hadr) (by simp))
  · refine answers_rxLine hs ((exec_frameReceived_stands hat hv htype).trans (congrArg done (if_pos ?_)))
    rw [port_rxEnded]
    exact hfull.ge
  · have hlaid := acceptFrame_duplicate (s := rxEnded s n at_) (n := n) (f := f) (c := c.val) (by rw [port_rxEnded]; exact hroom) hrev
      (by rw [port_rxEnded]; exact hopen) hdef (by rw [port_rxEnded]; exact hdup) hrelay
    exact answers_rxLine hs ((exec_frameReceived_stands hat hv htype).trans (congrArg done hlaid))
  · have hlaid := acceptFrame_laid (s := rxEnded s n at_) (n := n) (f := f) (c := c.val) (by rw [port_rxEnded]; exact hroom) hrev
      (by rw [port_rxEnded]; exact hopen) hdef c.isLt (by rw [port_rxEnded]; exact hdup) hrelay hswap
    rw [port_rxEnded] at hlaid
    exact answers_laid hs hsig hon (by rw [rxSlot, rxSlot, port_updLn, port_rxEnded]; rfl)
      ((exec_frameReceived_stands hat hv htype).trans (congrArg done hlaid)) rfl

/-! ## RELAY (R131, R132) -/

section
variable {s : State} {n : Port} {m : Msg} {k : Fin 8}

theorem exec_relay_forwards (hn : n = portKU ∨ n = portKD) (hphy : (s.port n).phyOn = true) (hk : 1 ≤ k.val)
    (hfwd : relayForwards s n k = true) (hroom : (s.port (relayOther n)).ln.txCount < 16) : exec (.relay n m k) s =
      done (pushEntry (relayOther n) (entryImage 0 (k.val + 3) (addrOf (k.val + 3))
        (BitVec.ofNat 16 (0x0F * 2048 + m.objs.length % 16)) 0 (relayHop (m.objs.headD 0) :: m.objs.tail) 0) s) :=
  (if_pos ⟨hn, hphy, hk⟩).trans ((if_pos hfwd).trans (if_neg (by omega)))

theorem answers_relay (hs : s.settled) (hn : n = portKU ∨ n = portKD) (hphy : (s.port n).phyOn = true) (hk : 1 ≤ k.val)
    (hfwd : relayForwards s n k = true) (hroom : (s.port (relayOther n)).ln.txCount < 16) (hlen : m.objs.length ≤ 15) :
    let o := relayOther n
    answers (.relay n m k) s fun t =>
      t.port o = { s.port o with ln := (s.port o).ln.pushed }
      ∧ t.readMem (txSlot s o) 80 = entryImage 0x8000 (k.val + 3) (addrOf (k.val + 3)) (BitVec.ofNat 16 (0x7800 + m.objs.length)) 0
          (relayHop (m.objs.headD 0) :: m.objs.tail) 0
      ∧ changesOnly [.port o, .mem (txSlot s o) (txSlot s o + 80)] s t := by
  intro o
  have hexec := exec_relay_forwards (m := m) hn hphy hk hfwd hroom
  have hcount : m.objs.length % 16 = m.objs.length := Nat.mod_eq_of_lt (by omega)
  have hctl : ctlPushed 0 = 0x8000 := by decide
  have hread := readMem_pushEntry (n := o) hs.1 0 (k.val + 3) (addrOf (k.val + 3)) (BitVec.ofNat 16 (0x0F * 2048 + m.objs.length)) 0
    (relayHop (m.objs.headD 0) :: m.objs.tail) 0
  have hmoves := moves_pushEntry (n := o) (l := sendAreas s o) (s0 := s) hs.1 (by simp) (covers_of_mem (by simp)) 0 (k.val + 3)
    (addrOf (k.val + 3)) (BitVec.ofNat 16 (0x0F * 2048 + m.objs.length)) 0 (relayHop (m.objs.headD 0) :: m.objs.tail) 0
  have hshape := pushEntry_eq (n := o) hs.1 0 (k.val + 3) (addrOf (k.val + 3)) (BitVec.ofNat 16 (0x0F * 2048 + m.objs.length)) 0
    (relayHop (m.objs.headD 0) :: m.objs.tail) 0
  rw [hcount] at hexec
  have hevq : (pushEntry o (entryImage 0 (k.val + 3) (addrOf (k.val + 3)) (BitVec.ofNat 16 (0x0F * 2048 + m.objs.length)) 0
      (relayHop (m.objs.headD 0) :: m.objs.tail) 0) s).evq = [] := by rw [hshape]; exact hs.2
  refine answers_quiet hexec hevq ⟨?_, ?_, (hmoves.mpr (Moves.refl _ s)).changesOnly hs.2 hevq⟩
  · rw [hshape, port_updLn]; rfl
  · rw [hread, hctl]

end

/-- The line that owes a NOD and a NOTSUP. -/
theorem refuseFrame_eq (s : State) (n : Port) (c : Nat) (f : FrameRx) (reason : Nat) :
    refuseFrame n c f reason s = s.updLn n fun l => { l with
      nodOwed := some (BitVec.ofNat 4 c, hdrId f.hdr)
      notsupDue := some { ctx := c, type := 0x11, objs :=
        [place (hdrType f.hdr).toNat 27 ||| place (hdrId f.hdr).toNat 24 ||| place reason 20] } } := rfl

/-- Settles O27: the reasons of NOTSUP in their order, and RELAY by its class and the way on. -/
theorem notsupAndRelay : Obligations.NotsupAndRelay := by
  refine ⟨fun s n f at_ c reason hs hat => ?_, fun s n m k hs => ?_⟩ <;> dsimp only
  · intro htype hv hroom hreason
    have hrefused := acceptFrame_refused (s := rxEnded s n at_) (n := n) (f := f) (c := c.val) (by rw [port_rxEnded]; exact hroom)
      (by rw [port_rxEnded]; exact hreason)
    rw [refuseFrame_eq] at hrefused
    exact answers_rxLine hs ((exec_frameReceived_stands hat hv htype).trans (congrArg done hrefused))
  · exact ⟨fun hn hphy hk hfwd hroom _ hlen => answers_relay hs hn hphy hk hfwd hroom hlen,
      fun hn hphy hk hfwd => setsPort_updLn hs (c := .relay n m k) (f := fun l => { l with own := l.own ++ [nodownFrame (m.objs.headD 0)] })
        ((if_pos ⟨hn, hphy, hk⟩).trans (if_neg (by simp [hfwd]))),
      fun hk => idles_of hs (if_neg (by omega)), idles_of hs rfl⟩

end Sys2Proof.Machine
end

section
/-! Messages that a command of the contract pushes, and O28: the requests denied on their face (R142 to R147, R153, R158, R174 to R179;
DESIGN CHOICE, log entry 14). -/

namespace Sys2Proof.Machine

/-! ## A command that pushes one message -/

section
variable {c : Instr} {s t : State} {n : Port} {start : Bool} {type : BitVec 5} {objs : List Word} {ct : ContractSt} (hs : s.settled)
  (h : PortChange (sendAreas s n) s t n { s.port n with ct := ct } [])
include hs h

/-- The contract changes, and then the message is pushed. -/
theorem sendsMsg_of_push (hexec : exec c s = done (pushMsg n start type objs t)) : sendsMsg c s n start type objs ct :=
  sendsAs_of_queued hs fun hroom hlen => ⟨_, hexec, h.pushMsg hs.1 (covers_of_mem (by simp)) rfl hroom hlen⟩

/-- The contract changes before and after the push. -/
theorem sendsMsg_of_push_then {f : ContractSt → ContractSt} (hexec : exec c s = done ((pushMsg n start type objs t).updCt n f)) :
    sendsMsg c s n start type objs (f ct) :=
  sendsAs_of_queued hs fun hroom hlen => ⟨_, hexec, (h.pushMsg hs.1 (covers_of_mem (by simp)) rfl hroom hlen).ct f⟩

end

/-- The changes of a port that a message will follow. -/
theorem PortChange.sending (s : State) (n : Port) : PortChange (sendAreas s n) s s n { s.port n with ct := (s.port n).ct } [] :=
  PortChange.refl (by simp) s

/-! ## A sequence that closes (R147) -/

theorem beforeExchange_of_none {c : ContractSt} (h : c.seq = none) : c.beforeExchange = false := by
  simp [ContractSt.beforeExchange, h]

section
variable {s : State} {n : Port}

theorem resumeDetach_of_none (h : (s.port n).ct.seq = none) : resumeDetach n s = s :=
  if_neg (by simp [beforeExchange_of_none h])

/-- With none open nothing closes. -/
theorem closeSeq_of_none (h : (s.port n).ct.seq = none) : closeSeq n s = s := by
  rw [closeSeq, resumeDetach_of_none h]
  exact updCt_of_fixed (by rw [← h])

/-- A message pushed, and a sequence closed that was none. -/
theorem sendsMsg_of_push_close {c : Instr} {t : State} {start : Bool} {type : BitVec 5} {objs : List Word} {ct : ContractSt}
    (hs : s.settled) (h : PortChange (sendAreas s n) s t n { s.port n with ct := ct } []) (hseq : ct.seq = none)
    (hexec : exec c s = done (closeSeq n (pushMsg n start type objs t))) : sendsMsg c s n start type objs ct := by
  refine sendsAs_of_queued hs fun hroom hlen => ?_
  have hq := h.pushMsg (start := start) (type := type) (objs := objs) hs.1 (covers_of_mem (by simp)) rfl hroom hlen
  exact ⟨_, hexec.trans (congrArg done (closeSeq_of_none (by rw [hq.port]; exact hseq))), hq⟩

/-! ## What a denial answers -/

theorem denyWith_eq (n : Port) (rtype : BitVec 5) (m : Msg) (code : Nat) (s : State) :
    denyWith n rtype m code s = pushMsg n false tDeny [refObj rtype m.id code 0] s := rfl

theorem sendsMsg_deny {c : Instr} {t : BitVec 5} {m : Msg} {code : Nat} (hs : s.settled)
    (hexec : exec c s = done (denyWith n t m code s)) : sendsMsg c s n false tDeny [refObj t m.id code 0] (s.port n).ct :=
  sendsMsg_of_push hs (PortChange.sending s n) hexec

variable {m : Msg}

/-! ## ASK (R142, R150, R153, R157) -/

/-- The contract of a source that has been asked. -/
abbrev ContractSt.asked (c : ContractSt) : ContractSt := { c with askNewRun := false, capsNodded := c.capsNodded || c.isSeq .capsOut }

theorem port_noteAsk : (noteAsk n s).port n = { s.port n with ct := (s.port n).ct.asked } := port_updCt _ _ _

theorem noteAsk_change : PortChange (sendAreas s n) s (noteAsk n s) n { s.port n with ct := (s.port n).ct.asked } [] :=
  (PortChange.sending s n).ct _

theorem exec_ask (hpol : s.policyOpen n = true) : exec (.ask n m) s = done (onAsk n m s) := if_pos hpol

theorem onAsk_role (h : (s.port n).isSource = false ∨ m.role = true) : onAsk n m s = denyWith n tAsk m 0x05 s :=
  if_pos (by rw [port_noteAsk]; exact h)

section
variable (hsrc : (s.port n).isSource = true) (hrole : m.role = false)
include hsrc hrole

theorem not_askRole : ¬(((noteAsk n s).port n).isSource = false ∨ m.role = true) := by
  rw [port_noteAsk, hrole]
  rintro (h | h)
  · have hsrc' : ({ s.port n with ct := (s.port n).ct.asked } : PortSt).isSource = true := hsrc
    rw [hsrc'] at h
    cases h
  · cases h

theorem onAsk_busy (htrans : (s.port n).ct.trans = true) : onAsk n m s = denyWith n tAsk m 0x04 (noteAsk n s) :=
  (if_neg (not_askRole hsrc hrole)).trans (if_pos (.inr (by rw [port_noteAsk]; exact htrans)))

variable (hseq : (s.port n).ct.seq = none) (htrans : (s.port n).ct.trans = false)
include hseq htrans

omit hsrc hrole in
theorem not_askBusy : ¬((((noteAsk n s).port n).ct.seq.isSome ∧ ((noteAsk n s).port n).ct.isSeq .capsOut = false)
    ∨ ((noteAsk n s).port n).ct.trans = true) := by
  rw [port_noteAsk]
  simp [hseq, htrans]

theorem onAsk_pos (hpos : posKnown (s.port n).ct.capsOut (askPos (m.objs.headD 0)) = false) :
    onAsk n m s = closeSeq n (denyWith n tAsk m 0x03 (noteAsk n s)) :=
  (if_neg (not_askRole hsrc hrole)).trans ((if_neg (not_askBusy hseq htrans)).trans
    (if_pos (by rw [port_noteAsk]; exact hpos)))

variable (hpos : posKnown (s.port n).ct.capsOut (askPos (m.objs.headD 0)) = true)
include hpos

theorem onAsk_range (hval : askValid n (s.port n).ct.capsOut m.objs = false) :
    onAsk n m s = closeSeq n (denyWith n tAsk m 0x02 (noteAsk n s)) :=
  (if_neg (not_askRole hsrc hrole)).trans ((if_neg (not_askBusy hseq htrans)).trans
    ((if_neg (by rw [port_noteAsk]; exact Bool.not_eq_false _ ▸ hpos)).trans (if_pos (by rw [port_noteAsk]; exact hval))))

theorem onAsk_wet (hval : askValid n (s.port n).ct.capsOut m.objs = true) (hwet : (s.port n).mo.wet = true)
    (hmv : aboveMvlim (s.port n).ripe (askVolt (m.objs.headD 0)) = true) :
    onAsk n m s = closeSeq n (denyWith n tAsk m 0x08 (noteAsk n s)) :=
  (if_neg (not_askRole hsrc hrole)).trans ((if_neg (not_askBusy hseq htrans)).trans
    ((if_neg (by rw [port_noteAsk]; exact Bool.not_eq_false _ ▸ hpos)).trans ((if_neg (by rw [port_noteAsk]; exact Bool.not_eq_false _ ▸ hval)).trans
      (if_pos (by rw [port_noteAsk]; exact ⟨hwet, hmv⟩)))))

end

/-- A denied ASK of which nothing is open. -/
theorem sendsMsg_ask_denied {code : Nat} (hs : s.settled) (hpol : s.policyOpen n = true) (hseq : (s.port n).ct.seq = none)
    (h : onAsk n m s = closeSeq n (denyWith n tAsk m code (noteAsk n s))) :
    sendsMsg (.ask n m) s n false tDeny [refObj tAsk m.id code 0] (s.port n).ct.asked :=
  sendsMsg_of_push_close hs noteAsk_change hseq ((exec_ask hpol).trans (congrArg done h))

/-! ## CAPS, GETCAPS, PROFILE and the swaps -/

theorem exec_caps {ch : CapsChoice} (hpol : s.policyOpen n = true) : exec (.caps n m ch) s = done (onCaps n m ch s) := if_pos hpol

theorem exec_profile (hpol : s.policyOpen n = true) : exec (.profile n m) s = done (onProfile n m s) := if_pos hpol

/-- A CAPS that no sink without an open sequence may take is denied. -/
theorem onCaps_busy {ch : CapsChoice} (hsrc : (s.port n).isSource = false) (hrole : m.role = true) (hseq : (s.port n).ct.seq ≠ none)
    (hget : ((s.port n).ct.isSeq .getcapsOut && decide ((s.port n).ct.lastReq.headD 0 >>> 28 = 1)) = false) :
    onCaps n m ch s = denyWith n tCaps m 0x04 s :=
  (if_neg (by simp [hsrc, hrole])).trans (if_pos ⟨Option.isSome_iff_ne_none.mpr hseq, hget⟩)

section
variable {ans : List Word} (hpol : s.policyOpen n = true)
include hpol

theorem exec_getcaps_role (hwhat : fld (m.objs.headD 0) 31 28 = 1) (hsrc : (s.port n).isSource = false) :
    exec (.getcaps n m ans) s = done (denyWith n tGetcaps m 0x05 s) :=
  (if_neg (by simp [hpol])).trans (if_pos ⟨hwhat, hsrc⟩)

variable (hwhat : ¬(fld (m.objs.headD 0) 31 28 = 1 ∧ (s.port n).isSource = false))
include hwhat

theorem exec_getcaps_busy (hseq : (s.port n).ct.seq ≠ none) : exec (.getcaps n m ans) s = done (denyWith n tGetcaps m 0x04 s) :=
  (if_neg (by simp [hpol])).trans ((if_neg hwhat).trans (if_pos (Option.isSome_iff_ne_none.mpr hseq)))

theorem exec_getcaps_range (hseq : (s.port n).ct.seq = none)
    (h : fld (m.objs.headD 0) 31 28 = 0 ∨ 3 < fld (m.objs.headD 0) 31 28 ∨ m.objs.length ≠ 1) :
    exec (.getcaps n m ans) s = done (denyWith n tGetcaps m 0x02 s) :=
  (if_neg (by simp [hpol])).trans ((if_neg hwhat).trans ((if_neg (by simp [hseq])).trans
    (if_pos (h.imp id (.imp id fun h => decide_eq_false h)))))

end

theorem onProfile_busy (hsrc : (s.port n).isSource = true) (hrole : m.role = false) (htrans : (s.port n).ct.trans = true) :
    onProfile n m s = denyWith n tProfile m 0x04 s := (if_neg (by simp [hsrc, hrole])).trans (if_pos (.inr htrans))

theorem onProfile_range (hsrc : (s.port n).isSource = true) (hrole : m.role = false) (hseq : (s.port n).ct.seq = none)
    (htrans : (s.port n).ct.trans = false) (h : isW n = false ∨ (s.port n).ct.state = .none) :
    onProfile n m s = denyWith n tProfile m 0x02 s :=
  (if_neg (by simp [hsrc, hrole])).trans ((if_neg (by simp [hseq, htrans])).trans (if_pos (h.imp id .inl)))

section
variable {ch : SwapChoice} (hpol : s.policyOpen n = true)
include hpol

theorem exec_pswap_variant (hv : s.isDmh16 = false) : exec (.pswap n m ch) s = done (denyWith n tPswap m 0x06 s) :=
  (if_neg (by simp [hpol])).trans (if_pos (by simp [hv]))

theorem exec_pswap_role (hv : s.isDmh16 = true) (h : (s.port n).ct.state = .none ∨ (s.port n).ct.state = .swap) :
    exec (.pswap n m ch) s = done (denyWith n tPswap m 0x05 s) :=
  (if_neg (by simp [hpol])).trans ((if_neg (by simp [hv])).trans (if_pos h))

variable (hv : s.isDmh16 = true) (hstate : ¬((s.port n).ct.state = .none ∨ (s.port n).ct.state = .swap))
include hv hstate

theorem exec_pswap_policy (h : (s.port n).ripe.pswapen = false) : exec (.pswap n m ch) s = done (denyWith n tPswap m 0x0A s) :=
  (if_neg (by simp [hpol])).trans ((if_neg (by simp [hv])).trans ((if_neg hstate).trans (if_pos (by simp [h]))))

variable (hen : (s.port n).ripe.pswapen = true)
include hen

theorem exec_pswap_busy (h : swapBusy n s = true) : exec (.pswap n m ch) s = done (denyWith n tPswap m 0x04 s) :=
  (if_neg (by simp [hpol])).trans ((if_neg (by simp [hv])).trans ((if_neg hstate).trans ((if_neg (by simp [hen])).trans (if_pos h))))

theorem exec_pswap_feed (hbusy : swapBusy n s = false) (hfeed : s.isFeed n = true) (hgap : s.fd.gap = false)
    (hcarry : otherFeedCarries s = false) : exec (.pswap n m ch) s = done (denyWith n tPswap m 0x07 s) :=
  (if_neg (by simp [hpol])).trans ((if_neg (by simp [hv])).trans ((if_neg hstate).trans ((if_neg (by simp [hen])).trans
    ((if_neg (by simp [hbusy])).trans ((if_neg (by simp [hgap])).trans ((if_pos hfeed).trans (if_neg (by simp [hcarry]))))))))

end

section
variable {ch : SwapChoice} (hpol : s.policyOpen n = true)
include hpol

theorem exec_sswap_policy (h : (s.port n).ripe.sswapen = false ∨ (s.port n).cf.csup ≠ 0) :
    exec (.sswap n m ch) s = done (denyWith n tSswap m 0x0A s) :=
  (if_neg (by simp [hpol])).trans (if_pos (by rcases h with h | h <;> simp [h]))

theorem exec_sswap_busy (hen : (s.port n).ripe.sswapen = true) (hcsup : (s.port n).cf.csup = 0) (h : swapBusy n s = true) :
    exec (.sswap n m ch) s = done (denyWith n tSswap m 0x04 s) :=
  (if_neg (by simp [hpol])).trans ((if_neg (by simp [hen, hcsup])).trans (if_pos h))

end

end

/-- Settles O28: each request by the first check it fails. -/
theorem requestsAreDeniedByRule : Obligations.RequestsAreDeniedByRule := by
  intro s n m hs hpol
  dsimp only
  refine ⟨fun ch h => sendsMsg_deny hs ((exec_caps hpol).trans (congrArg done (if_pos h))),
    fun ch hsrc hrole hseq hget => sendsMsg_deny hs ((exec_caps hpol).trans (congrArg done (onCaps_busy hsrc hrole hseq hget))),
    fun ans hwhat hsrc => sendsMsg_deny hs (exec_getcaps_role hpol hwhat hsrc),
    fun ans hwhat => ⟨fun hseq => sendsMsg_deny hs (exec_getcaps_busy hpol hwhat hseq),
      fun hseq h => sendsMsg_deny hs (exec_getcaps_range hpol hwhat hseq h)⟩,
    fun h => ⟨sendsMsg_deny hs ((exec_ask hpol).trans (congrArg done (onAsk_role h))),
      sendsMsg_deny hs ((exec_profile hpol).trans (congrArg done (if_pos h)))⟩,
    fun hsrc hrole htrans => ⟨sendsMsg_of_push hs noteAsk_change ((exec_ask hpol).trans (congrArg done (onAsk_busy hsrc hrole htrans))),
      sendsMsg_deny hs ((exec_profile hpol).trans (congrArg done (onProfile_busy hsrc hrole htrans)))⟩,
    fun hsrc hrole htrans hseq => ⟨fun hpos => sendsMsg_ask_denied hs hpol hseq (onAsk_pos hsrc hrole hseq htrans hpos),
      fun hpos hval => sendsMsg_ask_denied hs hpol hseq (onAsk_range hsrc hrole hseq htrans hpos hval),
      fun hpos hval hwet hmv => sendsMsg_ask_denied hs hpol hseq (onAsk_wet hsrc hrole hseq htrans hpos hval hwet hmv),
      fun h => sendsMsg_deny hs ((exec_profile hpol).trans (congrArg done (onProfile_range hsrc hrole hseq htrans h)))⟩,
    fun ch hv => sendsMsg_deny hs (exec_pswap_variant hpol hv),
    fun ch hv h => sendsMsg_deny hs (exec_pswap_role hpol hv h),
    fun ch hv hnone hswap => ⟨fun h => ?_, fun hen hbusy => ?_, fun hen hbusy hfeed hgap hcarry => ?_⟩,
    fun ch h => sendsMsg_deny hs (exec_sswap_policy hpol h),
    fun ch hen hcsup hbusy => sendsMsg_deny hs (exec_sswap_busy hpol hen hcsup hbusy)⟩
  · exact sendsMsg_deny hs (exec_pswap_policy hpol hv (not_or.mpr ⟨hnone, hswap⟩) h)
  · exact sendsMsg_deny hs (exec_pswap_busy hpol hv (not_or.mpr ⟨hnone, hswap⟩) hen hbusy)
  · exact sendsMsg_deny hs (exec_pswap_feed hpol hv (not_or.mpr ⟨hnone, hswap⟩) hen hbusy hfeed hgap hcarry)

end Sys2Proof.Machine
end

section
/-! A sequence that closes, and O29: CAPS kept, asked after and repeated, GETCAPS answered, requests sent again (R141, R145 to R147,
R151, R158; DESIGN CHOICE, log entry 14). -/

namespace Sys2Proof.Machine

/-! ## A sequence that closes outside the exchange of a PSWAP (R100, R147) -/

section
variable {s t u : State} {n : Port} {p : PortSt} {l : List Area} {q : List (Nat × Nat)}

theorem closeSeq_of_settledRole (h : (s.port n).ct.beforeExchange = false) : closeSeq n s = s.updCt n fun c => { c with seq := none } := by
  rw [closeSeq, resumeDetach, if_neg (by simp [h])]

theorem PortChange.closeSeq_kept (h : PortChange l s t n p q) (hb : p.ct.beforeExchange = false) :
    PortChange l s (closeSeq n t) n { p with ct := { p.ct with seq := none } } q := by
  rw [closeSeq_of_settledRole (by rw [h.port]; exact hb)]
  exact h.ct _

/-- A message pushed, and then its sequence closed. -/
theorem sendsMsg_of_push_closed {c : Instr} {start : Bool} {type : BitVec 5} {objs : List Word} {ct : ContractSt} (hs : s.settled)
    (h : PortChange (sendAreas s n) s t n { s.port n with ct := ct } []) (hb : ct.beforeExchange = false)
    (hexec : exec c s = done (closeSeq n (pushMsg n start type objs t))) :
    sendsMsg c s n start type objs { ct with seq := none } := by
  refine sendsAs_of_queued hs fun hroom hlen => ?_
  have hq := h.pushMsg (start := start) (type := type) (objs := objs) hs.1 (covers_of_mem (by simp)) rfl hroom hlen
  exact ⟨_, hexec.trans (congrArg done (closeSeq_of_settledRole (by rw [hq.port]; exact hb))), hq.ct fun c => { c with seq := none }⟩

end

/-- The sequence of a request that the port has received. -/
abbrev Seq.received (k : SeqKind) (t : BitVec 5) (id : BitVec 3) : Seq :=
  { kind := k, rtype := t, rid := id, phase := .requested, nodded := true }

section
variable {s t : State} {n : Port} {m : Msg} {l : List Area} {p : PortSt} {q : List (Nat × Nat)}

theorem PortChange.openSeq (h : PortChange l s t n p q) (k : SeqKind) (ty : BitVec 5) (id : BitVec 3) :
    PortChange l s (openSeq n k ty id t) n { p with ct := { p.ct with seq := some (.received k ty id) } } q := h.ct _

/-! ## CAPS at a sink (R141, R147, R151) -/

/-- The contract of a sink that keeps the CAPS it is sent. -/
abbrev ContractSt.keeps (c : ContractSt) (m : Msg) : ContractSt :=
  { c with caps := m.objs, seq := some (.received .capsIn tCaps m.id), waiting := [], getcapsDue := false }

/-- The state in which a sink has kept the CAPS it is sent. -/
abbrev capsKept (n : Port) (m : Msg) (s : State) : State :=
  openSeq n .capsIn tCaps m.id (s.updCt n fun c => { c with caps := m.objs, waiting := [], getcapsDue := false })

theorem capsKept_change (hn : Area.port n ∈ l) :
    PortChange l s (capsKept n m s) n { s.port n with ct := (s.port n).ct.keeps m } [] :=
  ((PortChange.refl (.inl hn) s).ct _).openSeq .capsIn tCaps m.id

section
variable (hsrc : (s.port n).isSource = false) (hrole : m.role = true) (hseq : (s.port n).ct.seq = none) (hobjs : m.objs ≠ [])
include hsrc hrole hseq hobjs

theorem onCaps_nothing : onCaps n m .nothing s = closeSeq n (capsKept n m s) :=
  (if_neg (by simp [hsrc, hrole])).trans ((if_neg (by simp [hseq])).trans (if_neg hobjs))

theorem onCaps_deny (code : Byte) : onCaps n m (.deny code) s = closeSeq n (denyWith n tCaps m code.toNat (capsKept n m s)) :=
  (if_neg (by simp [hsrc, hrole])).trans ((if_neg (by simp [hseq])).trans (if_neg hobjs))

theorem onCaps_ask (pos : BitVec 4) (v : BitVec 11) (i : BitVec 9) (prof : Option (Word × Word)) :
    onCaps n m (.ask pos v i prof) s = pushMsg n false tAsk
      ((place pos.toNat 28 ||| place v.toNat 17 ||| place i.toNat 8 ||| placeB prof.isSome 7) :: (match prof with
        | some ab => [ab.1, ab.2]
        | none => [])) (capsKept n m s) :=
  (if_neg (by simp [hsrc, hrole])).trans ((if_neg (by simp [hseq])).trans (if_neg hobjs))

end

/-! ## GETCAPS (R145, R147) -/

/-- What a GETCAPS names, 1 to 3, goes out, and its sequence stays open until it has. -/
theorem exec_getcaps_answer {ans : List Word} {what : Nat} (hpol : s.policyOpen n = true) (hseq : (s.port n).ct.seq = none)
    (hlen : m.objs.length = 1) (hwhat : fld (m.objs.headD 0) 31 28 = what) (hsrc : what = 1 → (s.port n).isSource = true)
    (h0 : what ≠ 0) (h3 : what ≤ 3) :
    exec (.getcaps n m ans) s = done (pushMsg n false (if what = 1 then tCaps else if what = 2 then tStatus else tInfo) ans
      (openSeq n .getcapsIn tGetcaps m.id s)) := by
  subst hwhat
  refine (if_neg (by simp [hpol])).trans ((if_neg ?_).trans ((if_neg (by simp [hseq])).trans (if_neg ?_)))
  · rintro ⟨hw, hf⟩
    rw [hsrc hw] at hf
    cases hf
  · rintro (h | h | h)
    · exact h0 h
    · omega
    · rw [refOnly, decide_eq_true hlen] at h
      cases h

/-! ## What a port that answers nothing does -/

theorem exec_capsRepeat_idle (h : ¬(s.policyOpen n && (s.port n).isSource && !(s.port n).ct.capsNodded
    && decide ((s.port n).ct.capsSent < 10)) = true) : exec (.capsRepeat n) s = done s := if_neg h

theorem exec_retryWaitDone_none (h : ((s.port n).ct.waiting.find? fun w => w.due) = none) :
    exec (.retryWaitDone n) s = done s := by
  have hexec : exec (.retryWaitDone n) s = execRetryWaitDone n s := rfl
  rw [hexec, execRetryWaitDone, h]

theorem exec_retryWaitDone_due {w : WaitingReq} (hpol : s.policyOpen n = true) (hseq : (s.port n).ct.seq = none)
    (h : ((s.port n).ct.waiting.find? fun w => w.due) = some w) :
    exec (.retryWaitDone n) s = done (pushMsg n true w.type w.objs (s.updCt n fun c =>
      { c with waiting := c.waiting.map fun x => if x = w then { x with due := false } else x })) := by
  have hexec : exec (.retryWaitDone n) s = execRetryWaitDone n s := rfl
  rw [hexec, execRetryWaitDone, h]
  exact if_pos (by simp [hpol, hseq])

end

/-- Settles O29. -/
theorem capsAndAsksAreSent : Obligations.CapsAndAsksAreSent := by
  intro s n m hs
  dsimp only
  have hopen := (PortChange.sending s n).openSeq .getcapsIn tGetcaps m.id
  refine ⟨fun hpol hsrc hrole hseq hobjs => ⟨?_, fun pos v i => ?_, fun pos v i a b => ?_, fun code => ?_⟩,
    fun ans hpol hseq hlen => ⟨fun hwhat hsrc => ?_, fun hwhat => ?_, fun hwhat => ?_⟩, fun hpol hsrc hnod hsent => ?_, fun h => ?_,
    fun w hpol hseq hfind => ?_, fun h => idles_of hs (exec_retryWaitDone_none h), fun hpol => ?_, fun hpart => ?_⟩
  · have hexec : exec (.caps n m .nothing) s = done (closeSeq n (capsKept n m s)) :=
      (exec_caps hpol).trans (congrArg done (onCaps_nothing hsrc hrole hseq hobjs))
    exact setsPort_of_change hs ((capsKept_change (by simp)).closeSeq_kept rfl) hexec
  · exact sendsMsg_of_push hs (capsKept_change (by simp))
      ((exec_caps hpol).trans (congrArg done (onCaps_ask hsrc hrole hseq hobjs pos v i none)))
  · exact sendsMsg_of_push hs (capsKept_change (by simp))
      ((exec_caps hpol).trans (congrArg done (onCaps_ask hsrc hrole hseq hobjs pos v i (some (a, b)))))
  · exact sendsMsg_of_push_closed hs (capsKept_change (by simp)) rfl
      ((exec_caps hpol).trans (congrArg done (onCaps_deny hsrc hrole hseq hobjs code)))
  · exact sendsMsg_of_push hs hopen (exec_getcaps_answer (what := 1) hpol hseq hlen hwhat (fun _ => hsrc) (by decide) (by decide))
  · exact sendsMsg_of_push hs hopen (exec_getcaps_answer (what := 2) hpol hseq hlen hwhat (fun h => absurd h (by decide)) (by decide)
      (by decide))
  · exact sendsMsg_of_push hs hopen (exec_getcaps_answer (what := 3) hpol hseq hlen hwhat (fun h => absurd h (by decide)) (by decide)
      (by decide))
  · exact sendsMsg_of_push hs (PortChange.sending s n) (if_pos (by simp [hpol, hsrc, hnod, hsent]))
  · exact idles_of hs (exec_capsRepeat_idle (by simp [Nat.not_lt.mpr h]))
  · exact sendsMsg_of_push hs ((PortChange.sending s n).ct _) (exec_retryWaitDone_due hpol hseq hfind)
  · have hno : ¬ s.policyOpen n = true := by simp [hpol]
    exact ⟨fun _ => idles_of hs (if_neg hno), fun _ => idles_of hs (if_pos (by simp [hpol])), idles_of hs (if_neg hno),
      idles_of hs (if_neg hno), fun _ => ⟨idles_of hs (if_pos (by simp [hpol])), idles_of hs (if_pos (by simp [hpol]))⟩,
      idles_of hs (exec_capsRepeat_idle (by simp [hpol]))⟩
  · have hno : ¬ (s.port n).partOpen = true := by simp [hpart]
    exact ⟨idles_of hs (if_neg hno), idles_of hs (if_pos (by simp [hpart])), idles_of hs (if_pos (by simp [hpart])),
      idles_of hs (if_neg hno), fun _ => idles_of hs (if_neg hno), fun _ => idles_of hs (if_neg hno)⟩

end Sys2Proof.Machine
end

section
/-! Requests that the ledger judges, and O30: a valid ASK granted, denied LEDGER or put off, and PROFILE without objects (R143 to R145,
R152, R158, R166, R168). -/

namespace Sys2Proof.Machine

/-! ## A RAISE that is posted and refused (R166) -/

section
variable {l : List Area} {s t u : State} {n : Port}

/-- The books after a refused RAISE. -/
abbrev LedgerSt.refused (x : LedgerSt) (n : Port) : LedgerSt :=
  { x with refuse := satInc x.refuse, jhead := (x.jhead + 1) % 32, lastServed := n.val }

/-- What a RAISE leaves that is posted and that the books do not cover: the refusal is counted, journalled and reported. -/
structure PostRefused (s u : State) (n : Port) : Prop where
  led : u.led = s.led.refused n
  evq : u.evq = s.evq ++ [(140, n.val + 0x10)]
  host : u.host = s.host
  port : ∀ m, u.port m = s.port m
  good : memGood u.mem = true
  moves : ∀ l, .led ∈ l → ledgerArea ∈ l → .events ∈ l → Moves l s u

theorem postRefused {new tok : Nat} (hm : memGood s.mem = true) (hp : s.postServed n) (hon : s.eventsOn = true)
    (hn : new < 256 ^ 2) (ht : tok < 256 ^ 2) (hr : raiseRefused s.led n new tok = true) :
    (ledgerPost n 0 new tok s).1 = 2 ∧ PostRefused s (ledgerPost n 0 new tok s).2 n := by
  have hwf := of_decide_eq_true hm
  have hserve := serveSlot_op0 (slotOp_posted hwf n new tok (op := 0) (by decide))
  rw [slotNew_posted hwf n 0 tok hn, slotTok_posted hwf n 0 new ht] at hserve
  let w : State := { posted n 0 new tok s with led := { s.led with refuse := satInc s.led.refuse } }
  have hop : opRaise n new tok (posted n 0 new tok s) = (2, (journal n 0 2 w).fire 140 (n.val + 0x10)) := if_pos hr
  rw [hop] at hserve
  rw [ledgerPost_of_postServed hp, hserve]
  have hw : memGood w.mem = true := posted_good hm n 0 new tok
  have hj : memGood ((journal n 0 2 w).fire 140 (n.val + 0x10)).mem = true := by rw [State.fire_mem]; exact memGood_memWriteN _ _ _ hw
  have hevents : (journal n 0 2 w).eventsOn = true := hon
  refine ⟨rfl, ?_, ?_, ?_, fun m => ?_, slotShown_good n _ 2 hj, fun l hl ha he => ?_⟩
  · rw [slotShown_led, State.fire_led]; rfl
  · rw [(slotShown_rest _ _ _ _).1, State.fire_evq _ _ _ hevents]; rfl
  · rw [(slotShown_rest _ _ _ _).2.1, State.fire_host]; rfl
  · rw [port_slotShown, State.port_fire]; rfl
  · have hb := slotAddr_bounds n
    have hlt : w.led.jhead % 32 < 32 := Nat.mod_lt _ (by decide)
    have hcov : ∀ lo hi, 0x3000C000 ≤ lo → hi ≤ 0x3000C400 → covers l lo hi := fun lo hi h1 h2 => ⟨_, _, ha, h1, h2⟩
    refine (moves_slotShown n _ 2 hj hl (.inl he) (hcov _ _ hb.1 (by omega))).mpr ((moves_fire (.inl he) _ _).mpr ?_)
    exact (moves_led hl _).mpr ((moves_writeMem_covered hw (hcov _ _ (by omega) (by omega : 0x3000C210 + 16 * (w.led.jhead % 32) ≤ _))
      (by rw [List.length_append]; simp [length_toBytesLE]; omega)).mpr ((moves_led hl _).mpr (posted_moves hm ha (.inl he) n 0 new tok)))

/-! ## A message that follows other changes -/

section
variable {start : Bool} {type : BitVec 5} {objs : List Word} {p : PortSt} {q q0 : List (Nat × Nat)}
  (hq : MsgQueued (sendAreas t n) t u n start type objs p q)
include hq

/-- A message pushed after a change that left the ring alone, seen from before it. -/
theorem MsgQueued.since (hln : (t.port n).ln = (s.port n).ln) (hevq : t.evq = s.evq ++ q0) (hhost : t.host = s.host) (hm : Moves l s t)
    (hn : .port n ∈ l) (hring : .mem (txSlot s n) (txSlot s n + 80) ∈ l) : MsgQueued l s u n start type objs p (q0 ++ q) := by
  have hat : txSlot t n = txSlot s n := by rw [txSlot, txSlot, hln]
  refine ⟨hq.port, by rw [hq.evq, hevq, List.append_assoc], hq.host.trans hhost, hq.good, by rw [← hat]; exact hq.read,
    hm.trans (hq.moves.mono fun a ha => ?_), .inl hn⟩
  rcases List.mem_pair.mp ha with rfl | rfl
  · exact hn
  · rw [hat]; exact hring

/-- The push reaches no byte above the rings. -/
theorem MsgQueued.reads {a k : Nat} (ha : 0x3000A000 ≤ a) : u.readMem a k = t.readMem a k := by
  obtain ⟨-, -, -, -, -, -, -, -, -, -, -, -, -, -, hmem⟩ := hq.moves
  have hb := txSlot_bounds t n
  have hsame (x : Nat) (hx : 0x3000A000 ≤ x) : memRead u.mem x = memRead t.mem x := by
    refine hmem x (fun lo hi hmem => ?_) (fun h => by simp at h)
    obtain ⟨rfl, rfl⟩ : lo = txSlot t n ∧ hi = txSlot t n + 80 := by simpa using hmem
    omega
  show memReadN u.mem a k = memReadN t.mem a k
  induction k generalizing a with
  | zero => rfl
  | succ k ih => rw [memReadN, memReadN, hsame a ha, ih (by omega)]

end

/-! ## ASK judged by the ledger (R152, R158, R166) -/

/-- What the hub does with a request that the ledger has not covered: WAIT where power may yet come free, and else DENY LEDGER. -/
def refusedAnswer (n : Port) (rtype : BitVec 5) (m : Msg) (may : Bool) (s : State) : State :=
  if may then answerWait n rtype m none s else denyWith n rtype m 0x01 s

/-- What the hub does with an ASK that passes its checks. -/
def judgeAsk (n : Port) (m : Msg) (s : State) : State :=
  let r := m.objs.headD 0
  let tok := askTok m.objs
  let res := ledgerPost n 0 (powerUp (askVolt r) (askCur r)) tok s
  if res.1 = 0 then closeSeq n res.2
  else if res.1 = 2 then closeSeq n (refusedAnswer n tAsk m (powerMayFree n s) res.2)
  else
    (answer n tGrant tAsk m.id 0 (s.port n).ripe.slew m.objs res.2).updCt n fun c =>
      { c with seq := some (.received .askIn tAsk m.id),
               newVolt := askVolt r, newIcont := askCur r, newProf := askProf r, newTok := tok,
               oldTok := s.led.tokpwr[n], slew := BitVec.ofNat 16 (s.port n).ripe.slew }

section
variable {m : Msg}

theorem onAsk_judged (hsrc : (s.port n).isSource = true) (hrole : m.role = false) (hseq : (s.port n).ct.seq = none)
    (htrans : (s.port n).ct.trans = false) (hpos : posKnown (s.port n).ct.capsOut (askPos (m.objs.headD 0)) = true)
    (hval : askValid n (s.port n).ct.capsOut m.objs = true)
    (hdry : ((s.port n).mo.wet && aboveMvlim (s.port n).ripe (askVolt (m.objs.headD 0))) = false) :
    onAsk n m s = judgeAsk n m (noteAsk n s) := by
  refine (if_neg (not_askRole hsrc hrole)).trans ((if_neg (not_askBusy hseq htrans)).trans ((if_neg ?_).trans ((if_neg ?_).trans (if_neg ?_))))
  · rw [port_noteAsk]; exact Bool.not_eq_false _ ▸ hpos
  · rw [port_noteAsk]; exact Bool.not_eq_false _ ▸ hval
  · rw [port_noteAsk]
    rintro ⟨h1, h2⟩
    rw [h1] at hdry
    exact Bool.noConfusion (hdry.symm.trans h2)

theorem judgeAsk_granted (h : (ledgerPost n 0 (powerUp (askVolt (m.objs.headD 0)) (askCur (m.objs.headD 0))) (askTok m.objs) s).1 = 1) :
    judgeAsk n m s = (answer n tGrant tAsk m.id 0 (s.port n).ripe.slew m.objs
      (ledgerPost n 0 (powerUp (askVolt (m.objs.headD 0)) (askCur (m.objs.headD 0))) (askTok m.objs) s).2).updCt n fun c =>
        { c with seq := some (.received .askIn tAsk m.id),
                 newVolt := askVolt (m.objs.headD 0), newIcont := askCur (m.objs.headD 0), newProf := askProf (m.objs.headD 0),
                 newTok := askTok m.objs, oldTok := s.led.tokpwr[n], slew := BitVec.ofNat 16 (s.port n).ripe.slew } :=
  (if_neg (by rw [h]; decide)).trans (if_neg (by rw [h]; decide))

theorem judgeAsk_refused (h : (ledgerPost n 0 (powerUp (askVolt (m.objs.headD 0)) (askCur (m.objs.headD 0))) (askTok m.objs) s).1 = 2) :
    judgeAsk n m s = closeSeq n (refusedAnswer n tAsk m (powerMayFree n s)
      (ledgerPost n 0 (powerUp (askVolt (m.objs.headD 0)) (askCur (m.objs.headD 0))) (askTok m.objs) s).2) :=
  (if_neg (by rw [h]; decide)).trans (if_pos h)

theorem powerMayFree_noteAsk : powerMayFree n (noteAsk n s) = powerMayFree n s := by
  unfold powerMayFree
  congr 1
  refine List.any_congr rfl fun k => ?_
  by_cases hk : k = n
  · subst hk; rw [port_noteAsk]; rfl
  · rw [noteAsk, State.port_updCt_ne _ _ _ _ hk]; rfl

/-! ## WAIT with a free ARG (R144, R176; DESIGN CHOICE, log entry 103) -/

/-- The free ARG of a WAIT. -/
abbrev State.freeArg (s : State) : Nat := 256 * s.free.1.toNat + s.free.2.free.1.toNat

theorem freeArg_lt (s : State) : s.freeArg < 65536 := by
  have h1 := s.free.1.isLt
  have h2 := s.free.2.free.1.isLt
  unfold State.freeArg
  omega

theorem free_rest (s : State) : s.free.2.free.2.evq = s.evq ∧ s.free.2.free.2.host = s.host ∧ s.free.2.free.2.ports = s.ports
    ∧ s.free.2.free.2.mem = s.mem ∧ s.free.2.free.2.led = s.led := ⟨rfl, rfl, rfl, rfl, rfl⟩

theorem free_moves (h : .open_ ∈ l) (s : State) : Moves l s s.free.2.free.2 :=
  (moves_freeCtr h _).mpr ((moves_freeCtr h _).mpr (Moves.refl _ _))

theorem refusedAnswer_wait (n : Port) (rtype : BitVec 5) (m : Msg) (s : State) :
    refusedAnswer n rtype m true s = pushMsg n false tWait [refObj rtype m.id 0 s.freeArg] s.free.2.free.2 := rfl

theorem refusedAnswer_deny (n : Port) (rtype : BitVec 5) (m : Msg) (s : State) :
    refusedAnswer n rtype m false s = pushMsg n false tDeny [refObj rtype m.id 1 0] s := rfl

/-! ## The ASK in the words of the statement -/

/-- The areas of an answer to an ASK that the ledger has judged. -/
abbrev judgedAreas (s : State) (n : Port) (more : List Area) : List Area :=
  .port n :: .led :: more ++ [ledgerArea, .mem (txSlot s n) (txSlot s n + 80)]

/-- A refused ASK: the answer pushed after the refusal was reported, and its sequence closed. -/
theorem answers_ask_refused {type : BitVec 5} {obj : Word} {w : State} {more : List Area} (hs : s.settled)
    (hexec : exec (.ask n m) s = done (closeSeq n (pushMsg n false type [obj] w))) (hseq : (s.port n).ct.seq = none)
    (hroom : (s.port n).ln.txCount < 16) (hr : PostRefused (noteAsk n s) t n)
    (hw : w.evq = t.evq ∧ w.host = t.host ∧ w.ports = t.ports ∧ w.mem = t.mem ∧ w.led = t.led)
    (he : .events ∈ more) (hmoves : Moves (judgedAreas s n more) t w) :
    answers (.ask n m) s fun u =>
      u.led = s.led.refused n ∧ (u.port n).ct = { (s.port n).ct with seq := none, askNewRun := false }
      ∧ queued s u n false type [obj] ∧ logs s u 140 (n.val + 0x10) ∧ changesOnly (judgedAreas s n more) s u := by
  obtain ⟨hevq, hhost, hports, hmem, hled⟩ := hw
  have hport : w.port n = { s.port n with ct := (s.port n).ct.asked } := by
    rw [same_ports _ _ hports n, hr.port n, port_noteAsk]
  have hln : (w.port n).ln = (s.port n).ln := by rw [hport]
  have hgood : memGood w.mem = true := by rw [hmem]; exact hr.good
  have hq := (PortChange.refl (l := sendAreas w n) (n := n) (.inl (by simp)) w).pushMsg (start := false) (type := type) (objs := [obj]) hgood
    (covers_of_mem (by simp)) rfl (by rw [hln]; exact hroom) (by simp)
  have hevents : w.evq = s.evq ++ [(140, n.val + 0x10)] := by rw [hevq, hr.evq]; rfl
  have hsent := hq.since hln hevents (hhost.trans hr.host)
    (((noteAsk_change.mono (l' := judgedAreas s n more) (by simp [judgedAreas])).moves.trans
      (hr.moves (judgedAreas s n more) (by simp) (by simp) (by simp [he]))).trans hmoves) (by simp) (by simp)
  have hcloses : closeSeq n (pushMsg n false type [obj] w) = pushMsg n false type [obj] w :=
    closeSeq_of_none (by rw [hq.port, hport]; exact hseq)
  rw [hcloses] at hexec
  refine answers_of hexec ⟨?_, ?_, hsent.queued (by rw [hln]), logs_flush (by rw [hsent.evq, hs.2]; rfl) hsent.good (by rw [hsent.host]),
    hsent.moves.flush (by simp [he]) hs.2 hsent.good⟩
  · rw [State.flush_led, hq.moves.led_eq (by simp), hled, hr.led]
    rfl
  · rw [State.port_flush, hsent.port, hport]
    simp [ContractSt.isSeq, hseq]

/-- A granted ASK: the grant raised, GRANT pushed, and the sequence open. -/
theorem answers_ask_granted (hs : s.settled) (hroom : (s.port n).ln.txCount < 16) (hlen : m.objs.length ≤ 14)
    (hseq : (s.port n).ct.seq = none) (hfree : (s.port n).wh.token = false) {new tok : Nat} (hr : PostRaised (noteAsk n s) t n new tok)
    {f : ContractSt → ContractSt}
    (hexec : exec (.ask n m) s = done ((pushMsg n false tGrant (refObj tAsk m.id 0 (s.port n).ripe.slew :: m.objs) t).updCt n f)) :
    answers (.ask n m) s fun u =>
      u.led = (s.led.holding n (max s.led.held[n] new) (max s.led.tokpwr[n] tok)).served n
      ∧ (u.port n).ct = f { (s.port n).ct with askNewRun := false, tokAfter := none }
      ∧ queued s u n false tGrant (refObj tAsk m.id 0 (s.port n).ripe.slew :: m.objs)
      ∧ u.readMem (0x3000C100 + 16 * n.val) 8 =
          toBytesLE 2 (max s.led.held[n] new) ++ toBytesLE 2 s.led.held[n] ++ toBytesLE 2 new ++ toBytesLE 2 (max s.led.tokpwr[n] tok)
      ∧ changesOnly (judgedAreas s n [.sources]) s u := by
  have hport : t.port n = { s.port n with ct := { (s.port n).ct with askNewRun := false, tokAfter := none } } := by
    rw [hr.port, port_noteAsk]
    simp [hfree, ContractSt.isSeq, hseq]
  have hln : (t.port n).ln = (s.port n).ln := by rw [hport]
  have hq := ((PortChange.refl (l := sendAreas t n) (n := n) (.inl (by simp)) t).pushMsg (start := false) (type := tGrant)
    (objs := refObj tAsk m.id 0 (s.port n).ripe.slew :: m.objs) hr.good (covers_of_mem (by simp)) rfl (by rw [hln]; exact hroom)
    (Nat.succ_le_succ hlen)).ct f
  have hmoves := (noteAsk_change.mono (l' := judgedAreas s n [.sources]) (by simp [judgedAreas])).moves.trans
      (hr.moves (judgedAreas s n [.sources]) (by simp) (by simp) (by simp) (by simp))
  have hsent := hq.since (q0 := []) hln (by rw [hr.evq]; exact (List.append_nil _).symm) hr.host hmoves (by simp) (by simp)
  have hevq := hsent.evq.trans (by rw [hs.2, List.append_nil, List.append_nil])
  have hqueued := hsent.queued (by rw [hln])
  rw [State.flush_nil _ hevq] at hqueued
  refine answers_quiet hexec hevq ⟨?_, ?_, hqueued, ?_, hsent.moves.changesOnly hs.2 hevq⟩
  · rw [hq.moves.led_eq (by simp), hr.led]
    rfl
  · rw [hsent.port, hport]
  · rw [hq.reads (by omega), hr.grant]
    rfl

/-- A PROFILE without objects is granted without the ledger (R143). -/
theorem onProfile_back (hsrc : (s.port n).isSource = true) (hrole : m.role = false) (hobjs : m.objs = [])
    (hseq : (s.port n).ct.seq = none) (htrans : (s.port n).ct.trans = false) (hw : isW n = true) (hct : (s.port n).ct.state ≠ .none) :
    onProfile n m s = (pushMsg n false tGrant [refObj tProfile m.id 0 0] s).updCt n fun c =>
      { c with seq := some (.received .profileIn tProfile m.id), newTok := 0, oldTok := s.led.tokpwr[n], newProf := false } := by
  refine (if_neg (by simp [hsrc, hrole])).trans ((if_neg (by simp [hseq, htrans])).trans ((if_neg (by simp [hw, hct, hobjs])).trans ?_))
  rw [hobjs]
  rfl

end

end

/-- Settles O30: what the ledger answers decides between GRANT, DENY LEDGER and WAIT. -/
theorem asksAndProfilesAreAnswered : Obligations.AsksAndProfilesAreAnswered := by
  refine ⟨fun s n m hs hon hpol => ?_, fun s n m hs hpol => ?_⟩
  · dsimp only
    intro hsrc hrole hseq htrans hpos hval hdry hroom hlen hserve
    have hjudged : exec (.ask n m) s = done (judgeAsk n m (noteAsk n s)) :=
      (exec_ask hpol).trans (congrArg done (onAsk_judged hsrc hrole hseq htrans hpos hval hdry))
    have hserve' : (noteAsk n s).postServed n := hserve
    refine ⟨fun hr hfree => ?_, fun hr hmay => ?_, fun hr hmay => ?_⟩
    · obtain ⟨hone, hraised⟩ := postRaised (s := noteAsk n s) hs.1 hserve' (powerUp_lt _ _) (askTok_lt m.objs) hr
      rw [judgeAsk_granted hone, port_noteAsk] at hjudged
      exact answers_ask_granted hs hroom hlen hseq hfree hraised hjudged
    · obtain ⟨htwo, hrefused⟩ := postRefused (s := noteAsk n s) hs.1 hserve' hon (powerUp_lt _ _) (askTok_lt m.objs) hr
      rw [judgeAsk_refused htwo, powerMayFree_noteAsk, hmay, refusedAnswer_deny] at hjudged
      exact answers_ask_refused hs hjudged hseq hroom hrefused ⟨rfl, rfl, rfl, rfl, rfl⟩ (by simp) (more := [.events]) (Moves.refl _ _)
    · obtain ⟨htwo, hrefused⟩ := postRefused (s := noteAsk n s) hs.1 hserve' hon (powerUp_lt _ _) (askTok_lt m.objs) hr
      rw [judgeAsk_refused htwo, powerMayFree_noteAsk, hmay, refusedAnswer_wait] at hjudged
      obtain ⟨u, hexec, hled, hct, hqueued, hlogs, honly⟩ := answers_ask_refused hs hjudged hseq hroom hrefused (free_rest _)
        (by simp) (more := [.events, .open_]) (free_moves (by simp) _)
      exact ⟨u, hexec, hled, hct, ⟨_, freeArg_lt _, hqueued⟩, hlogs, honly⟩
  · dsimp only
    intro hsrc hrole hobjs hseq htrans hw hct
    exact sendsMsg_of_push_then hs (PortChange.sending s n)
      ((exec_profile hpol).trans (congrArg done (onProfile_back hsrc hrole hobjs hseq htrans hw hct)))

end Sys2Proof.Machine
end

section
/-! O31: GRANT to the hub's open request, and to nothing of the hub's (R100, R149, R152, R154 to R156). -/

namespace Sys2Proof.Machine

section
variable {l : List Area} {s t : State} {n : Port} {p : PortSt} {q : List (Nat × Nat)} {m : Msg}

/-! ## The moves of a sequence -/

/-- The open sequence in a later phase. -/
abbrev ContractSt.phased (c : ContractSt) (f : SeqPhase) : Option Seq := c.seq.map fun q => { q with phase := f }

theorem PortChange.setPhase (h : PortChange l s t n p q) (f : SeqPhase) :
    PortChange l s (setPhase n f t) n { p with ct := { p.ct with seq := p.ct.phased f } } q := h.ct _

theorem PortChange.clearWait (h : PortChange l s t n p q) :
    PortChange l s (clearWait n t) n { p with ct := { p.ct with waiting := p.ct.others } } q := h.ct _

theorem PortChange.countStale (h : PortChange l s t n p q) :
    PortChange l s (countStale n t) n { p with ct := { p.ct with stale := satInc p.ct.stale } } q := h.ct _

theorem PortChange.suspendDetach (h : PortChange l s t n p q) :
    PortChange l s (suspendDetach n t) n { p with cf := { p.cf with suspended := true } } q := h.cf _

/-- With a feed selected elsewhere nothing follows a change of the contract. -/
theorem contractChanged_of_fed (hl : .fd ∉ l) (h : PortChange l s t n p q) (hfed : s.fedElsewhere n) : contractChanged n t = t := by
  have hfd := h.moves.fd_eq hl
  exact contractChanged_elsewhere (by rw [State.fedElsewhere, isFeed_congr hfd, hfd]; exact hfed)

/-- A contract from the GRANT on, with its window (R152, R154). -/
abbrev PortSt.transit (p : PortSt) (n : Port) (v : BitVec 11) (i : BitVec 9) (prof : Bool) : ContractSt :=
  { p.ct with
    trans := true, newVolt := v, newIcont := i, newProf := prof, slewing := false, first := false
    window := if p.ct.state = .none then windowOf n p.ripe false v else Window.span (inForceWindow n p) (windowOf n p.ripe false v)
    seq := p.ct.phased .granted }

/-- A transition begins that is no first contract of a source. -/
theorem PortChange.beginTransition (hl : .fd ∉ l) (h : PortChange l s t n p q) (hfed : s.fedElsewhere n)
    (hlater : ¬(p.isSource = true ∧ p.ct.state = .none)) (v : BitVec 11) (i : BitVec 9) (prof : Bool) :
    PortChange l s (beginTransition n v i prof t) n { p with ct := p.transit n v i prof } q := by
  have hfirst : (p.isSource && decide (p.ct.state = .none)) = false := by simpa using hlater
  have hgranted := fun f => (h.ct f).setPhase .granted
  have hsame := fun f => contractChanged_of_fed hl (hgranted f) hfed
  rw [Machine.beginTransition, h.port, if_neg hlater, hsame]
  exact (hgranted _).of_eq (by simp only [hfirst])

/-! ## Whose answer it is (R149) -/

theorem awaits_of {c : ContractSt} {x : Seq} {ty : BitVec 5} {id : BitVec 3} (h : c.seq = some x) (hhub : x.kind.byHub = true)
    (hty : ty = x.rtype) (hid : id = x.rid) : c.awaits ty id = true := by
  simp [ContractSt.awaits, h, hhub, hty, hid]

theorem isSeq_some {c : ContractSt} {x : Seq} (h : c.seq = some x) (k : SeqKind) : c.isSeq k = decide (x.kind = k) := by
  simp [ContractSt.isSeq, h]

section
variable (hopen : (s.port n).partOpen = true)
include hopen

theorem exec_grant : exec (.grant n m) s = done (onGrant n m s) := if_pos hopen

section
variable (hmine : (s.port n).ct.awaits (refType m.objs) (refId m.objs) = true)
include hmine

theorem exec_grant_other (h : m.objs.tail ≠ (s.port n).ct.lastReq) : exec (.grant n m) s = done (countStale n s) :=
  (exec_grant hopen).trans (congrArg done ((if_neg (by rw [hmine]; decide)).trans (if_pos h)))

section
variable (hreq : m.objs.tail = (s.port n).ct.lastReq)
include hreq

theorem exec_grant_ask (h : (s.port n).ct.isSeq .askOut = true) (hfed : s.isFeed n = false) :
    let r := (s.port n).ct.lastReq.headD 0
    exec (.grant n m) s = done (beginTransition n (askVolt r) (askCur r) (askProf r) (clearWait n s)) := by
  refine (exec_grant hopen).trans (congrArg done ((if_neg (by rw [hmine]; decide)).trans ((if_neg (not_not.mpr hreq)).trans
    ((if_pos h).trans ?_))))
  rw [convertFeed_of_unfed (s := clearWait n s) hfed]

theorem exec_grant_profile (h : (s.port n).ct.isSeq .askOut = false) (h1 : (s.port n).ct.isSeq .profileOut = true) :
    exec (.grant n m) s = done (closeSeq n (clearWait n s)) :=
  (exec_grant hopen).trans (congrArg done ((if_neg (by rw [hmine]; decide)).trans ((if_neg (not_not.mpr hreq)).trans
    ((if_neg (by rw [h]; decide)).trans (if_pos h1)))))

theorem exec_grant_pswap (h : (s.port n).ct.isSeq .askOut = false) (h1 : (s.port n).ct.isSeq .profileOut = false)
    (h2 : (s.port n).ct.isSeq .pswapOut = true) :
    exec (.grant n m) s = done (setPhase n .granted (suspendDetach n (clearWait n s))) :=
  (exec_grant hopen).trans (congrArg done ((if_neg (by rw [hmine]; decide)).trans ((if_neg (not_not.mpr hreq)).trans
    ((if_neg (by rw [h]; decide)).trans ((if_neg (by rw [h1]; decide)).trans (if_pos h2))))))

theorem exec_grant_sswap (h : (s.port n).ct.isSeq .askOut = false) (h1 : (s.port n).ct.isSeq .profileOut = false)
    (h2 : (s.port n).ct.isSeq .pswapOut = false) (h3 : (s.port n).ct.isSeq .sswapOut = true) :
    exec (.grant n m) s = done (setPhase n .granted (clearWait n s)) :=
  (exec_grant hopen).trans (congrArg done ((if_neg (by rw [hmine]; decide)).trans ((if_neg (not_not.mpr hreq)).trans
    ((if_neg (by rw [h]; decide)).trans ((if_neg (by rw [h1]; decide)).trans ((if_neg (by rw [h2]; decide)).trans (if_pos h3)))))))

end

end

variable (hmine : (s.port n).ct.awaits (refType m.objs) (refId m.objs) = false)
include hmine

theorem exec_grant_stale_answered (h : refType m.objs = tAsk ∨ refType m.objs = tProfile) :
    exec (.grant n m) s = done (pushMsg n false tAbort [refObj (refType m.objs) (refId m.objs) 0x03 0] (countStale n s)) :=
  (exec_grant hopen).trans (congrArg done ((if_pos hmine).trans (if_pos h)))

theorem exec_grant_stale (h : ¬(refType m.objs = tAsk ∨ refType m.objs = tProfile)) :
    exec (.grant n m) s = done (countStale n s) :=
  (exec_grant hopen).trans (congrArg done ((if_pos hmine).trans (if_neg h)))

end

end

/-- Settles O31: by whether the GRANT answers the hub's open request, and by what was asked. -/
theorem grantBeginsTheTransition : Obligations.GrantBeginsTheTransition := by
  intro s n m hs hfed hopen
  dsimp only
  have hstart : PortChange [.port n] s (clearWait n s) n { s.port n with ct := { (s.port n).ct with waiting := (s.port n).ct.others } } [] :=
    (PortChange.refl (by simp) s).clearWait
  refine ⟨?_, ?_, ?_, ?_, fun hmine h => ?_, fun hmine h h1 => ?_, fun hmine h => ?_⟩
  · rintro x ⟨hseq, hty, hid, hreq⟩ hkind hlater
    have hexec := exec_grant_ask hopen (awaits_of hseq (by rw [hkind]; rfl) hty hid) hreq (by simp [isSeq_some hseq, hkind]) hfed.2.1
    have hc := hstart.beginTransition (by simp) hfed (fun h => hlater.elim (fun k => k h.2) fun k => Bool.noConfusion (k.symm.trans h.1))
      (askVolt ((s.port n).ct.lastReq.headD 0)) (askCur ((s.port n).ct.lastReq.headD 0)) (askProf ((s.port n).ct.lastReq.headD 0))
    exact setsPort_of_change hs (hc.of_eq (by simp [hseq, inForceWindow])) hexec
  · rintro x ⟨hseq, hty, hid, hreq⟩ hkind
    have hexec := exec_grant_profile hopen (awaits_of hseq (by rw [hkind]; rfl) hty hid) hreq (by simp [isSeq_some hseq, hkind])
      (by simp [isSeq_some hseq, hkind])
    exact setsPort_of_change hs (hstart.closeSeq_kept (by simp [ContractSt.beforeExchange, hseq, hkind])) hexec
  · rintro x ⟨hseq, hty, hid, hreq⟩ hkind
    have hexec := exec_grant_pswap hopen (awaits_of hseq (by rw [hkind]; rfl) hty hid) hreq (by simp [isSeq_some hseq, hkind])
      (by simp [isSeq_some hseq, hkind]) (by simp [isSeq_some hseq, hkind])
    exact setsPort_of_change hs ((hstart.suspendDetach.setPhase .granted).of_eq (by simp [hseq])) hexec
  · rintro x ⟨hseq, hty, hid, hreq⟩ hkind
    have hexec := exec_grant_sswap hopen (awaits_of hseq (by rw [hkind]; rfl) hty hid) hreq (by simp [isSeq_some hseq, hkind])
      (by simp [isSeq_some hseq, hkind]) (by simp [isSeq_some hseq, hkind]) (by simp [isSeq_some hseq, hkind])
    exact setsPort_of_change hs ((hstart.setPhase .granted).of_eq (by simp [hseq])) hexec
  · exact sendsMsg_of_push hs (PortChange.sending s n).countStale (exec_grant_stale_answered hopen hmine h)
  · exact setsPort_of_change hs (PortChange.refl (by simp) s).countStale (exec_grant_stale hopen hmine (not_or.mpr ⟨h, h1⟩))
  · exact setsPort_of_change hs (PortChange.refl (by simp) s).countStale (exec_grant_other hopen hmine h)

end Sys2Proof.Machine
end

section
/-! O32: DENY, WAIT, INFO, STATUS and a missing answer (R145 to R150, R158, R160, R179). -/

namespace Sys2Proof.Machine

section
variable {l : List Area} {s t : State} {n : Port} {p : PortSt} {q : List (Nat × Nat)} {m : Msg}

/-! ## A sequence closes (R147) -/

theorem PortChange.closeSeq (h : PortChange l s t n p q) :
    PortChange l s (closeSeq n t) n { p.resumed with ct := { p.ct with seq := none } } q := h.resumeDetach.ct _

theorem rebypass_of_unfed (h : s.isFeed n = false) : rebypass n s = s := if_neg (by simp [h])

/-- A sequence closed on a port that is no feed. -/
theorem PortChange.closesUnfed (hl : .fd ∉ l) (h : PortChange l s t n p q) (hfed : s.isFeed n = false) :
    PortChange l s (rebypass n (Machine.closeSeq n t)) n { p.resumed with ct := { p.ct with seq := none } } q := by
  have hc := h.closeSeq
  rw [rebypass_of_unfed (by rw [isFeed_congr (hc.moves.fd_eq hl)]; exact hfed)]
  exact hc

/-- The contract that has heard an answer to its CAPS. -/
abbrev ContractSt.heard (c : ContractSt) : ContractSt := { c with capsNodded := c.capsNodded || c.isSeq .capsOut }

theorem PortChange.noteCapsAnswer (h : PortChange l s t n p q) :
    PortChange l s (noteCapsAnswer n t) n { p with ct := p.ct.heard } q := h.ct _

/-- The request of the hub that a WAIT puts off. -/
abbrev ContractSt.delayed (c : ContractSt) : ContractSt :=
  { c with waiting := c.others ++ [{ type := c.lastType, objs := c.lastReq, count := c.waits + 1, due := true }] }

theorem PortChange.putOff (h : PortChange l s t n p q) : PortChange l s (putOff n t) n { p with ct := p.ct.delayed } q := by
  have hput := h.clearWait.ct fun c => { c with
    waiting := c.waiting ++ [{ type := c.lastType, objs := c.lastReq, count := p.ct.waits + 1, due := true }] }
  rw [Machine.putOff, h.port]
  exact hput

/-! ## DENY and WAIT by what they answer (R149, R158, R160, R179) -/

section
variable (hopen : (s.port n).partOpen = true)
include hopen

section
variable (hmine : (s.port n).ct.awaits (refType m.objs) (refId m.objs) = true) (hlen : m.objs.length = 1)
include hmine hlen

theorem exec_deny_mine : exec (.deny n m) s = done (rebypass n (closeSeq n (clearWait n (noteCapsAnswer n s)))) :=
  (if_neg (by simp [hopen])).trans (if_pos (by simp [refOnly, hlen, hmine]))

theorem exec_wait_last (h : (s.port n).ripe.nwait ≤ (s.port n).ct.waits + 1) : exec (.waitMessage n m) s =
    done (rebypass n (closeSeq n ((clearWait n (noteCapsAnswer n s)).updCt n fun c => { c with waitout := satInc c.waitout }))) := by
  refine (if_neg (by simp [hopen])).trans ((if_pos (by simp [refOnly, hlen, hmine])).trans ?_)
  dsimp only
  rw [if_pos h]

theorem exec_wait_again (h : (s.port n).ct.waits + 1 < (s.port n).ripe.nwait) : exec (.waitMessage n m) s =
    done (rebypass n (closeSeq n (putOff n (noteCapsAnswer n s)))) := by
  refine (if_neg (by simp [hopen])).trans ((if_pos (by simp [refOnly, hlen, hmine])).trans ?_)
  dsimp only
  rw [if_neg (Nat.not_le.mpr h)]

end

section
variable (hmine : (refOnly m.objs && (s.port n).ct.awaits (refType m.objs) (refId m.objs)) = false)
include hmine

theorem exec_deny_crossed (h : (refOnly m.objs && (s.port n).ct.overtook (refType m.objs) (refId m.objs)) = true) :
    exec (.deny n m) s = done (s.updCt n fun c => { c with ownSwap := none }) :=
  (if_neg (by simp [hopen])).trans ((if_neg (by simp [hmine])).trans (if_pos h))

theorem exec_wait_crossed (h : (refOnly m.objs && (s.port n).ct.overtook (refType m.objs) (refId m.objs)) = true) :
    exec (.waitMessage n m) s = done (s.updCt n fun c => { c with ownSwap := none }) :=
  (if_neg (by simp [hopen])).trans ((if_neg (by simp [hmine])).trans (if_pos h))

theorem exec_deny_stale (h : (refOnly m.objs && (s.port n).ct.overtook (refType m.objs) (refId m.objs)) = false) :
    exec (.deny n m) s = done (countStale n s) :=
  (if_neg (by simp [hopen])).trans ((if_neg (by simp [hmine])).trans (if_neg (by simp [h])))

theorem exec_wait_stale (h : (refOnly m.objs && (s.port n).ct.overtook (refType m.objs) (refId m.objs)) = false) :
    exec (.waitMessage n m) s = done (countStale n s) :=
  (if_neg (by simp [hopen])).trans ((if_neg (by simp [hmine])).trans (if_neg (by simp [h])))

end

/-! ## INFO and STATUS (R145, R146) -/

omit hopen in
theorem answersGetcaps_other {what : Nat} (h : (s.port n).ct.isSeq .getcapsOut = false) : answersGetcaps n what m s = s :=
  if_neg (by simp [h])

section
variable {what : Nat} (hseq : (s.port n).ct.isSeq .getcapsOut = true) (hwhat : fld ((s.port n).ct.lastReq.headD 0) 31 28 = what)
include hseq hwhat

omit hopen in
theorem answersGetcaps_mine (hobjs : m.objs ≠ []) : answersGetcaps n what m s = closeSeq n (clearWait n s) :=
  (if_pos (by rw [hseq, hwhat]; simp)).trans (if_neg hobjs)

omit hopen in
theorem answersGetcaps_stale (hobjs : m.objs = []) : answersGetcaps n what m s = countStale n s :=
  (if_pos (by rw [hseq, hwhat]; simp)).trans (if_pos hobjs)

end

theorem exec_info : exec (.info n m) s = done (answersGetcaps n 3 m s) := if_pos hopen

theorem exec_status : exec (.statusMessage n m) s = done (answersGetcaps n 2 m s) := if_pos hopen

end

/-! ## No answer in time (R150) -/

theorem exec_answerTimeout_none (h : (s.port n).ct.seq = none) : exec (.answerTimeout n) s = done s := by
  have hexec : exec (.answerTimeout n) s = execAnswerTimeout n s := rfl
  rw [hexec, execAnswerTimeout, h]

/-- What a missing answer does to the sequence of kind k. -/
def timedOut (n : Port) (k : SeqKind) (nodded : Bool) (s : State) : State :=
  match k with
  | .capsOut => closeSeq n (if nodded then s else s.updCt n fun c => { c with timeout := satInc c.timeout })
  | .capsIn | .getcapsIn => closeSeq n s
  | .getcapsOut | .askOut | .profileOut | .pswapOut | .sswapOut =>
    rebypass n (closeSeq n (s.updCt n fun c => { c with timeout := satInc c.timeout }))
  | .askIn | .profileIn | .pswapIn | .sswapIn => s

section
variable {x : Seq} (hseq : (s.port n).ct.seq = some x)
include hseq

theorem exec_answerTimeout_answered (h : x.phase ≠ .requested) : exec (.answerTimeout n) s = done s := by
  have hexec : exec (.answerTimeout n) s = execAnswerTimeout n s := rfl
  rw [hexec, execAnswerTimeout, hseq]
  exact if_pos h

theorem exec_answerTimeout (h : x.phase = .requested) : exec (.answerTimeout n) s = done (timedOut n x.kind x.nodded s) := by
  have hexec : exec (.answerTimeout n) s = execAnswerTimeout n s := rfl
  rw [hexec, execAnswerTimeout, hseq]
  refine (if_neg (not_not.mpr h)).trans ?_
  cases x.kind <;> rfl

end

end

/-- Settles O32: what is answered, and the phase and the kind of a sequence that is not. -/
theorem answersCloseTheRequest : Obligations.AnswersCloseTheRequest := by
  intro s n m hs hfed
  dsimp only
  have hstart : PortChange [.port n] s s n (s.port n) [] := PortChange.refl (by simp) s
  have hcounted := hstart.ct fun c => { c with timeout := satInc c.timeout }
  have hcloses {t : State} {c : ContractSt} (h : PortChange [.port n] s t n { s.port n with ct := c } [])
      (hsame : c.beforeExchange = (s.port n).ct.beforeExchange) {i : Instr} (hexec : exec i s = done (rebypass n (closeSeq n t))) :
      setsPort i s n { (s.port n).resumed with ct := { c with seq := none } } :=
    setsPort_of_change hs ((h.closesUnfed (by simp) hfed).of_eq (by simp [hsame])) hexec
  have hplain {t : State} {c : ContractSt} (h : PortChange [.port n] s t n { s.port n with ct := c } [])
      (hsame : c.beforeExchange = (s.port n).ct.beforeExchange) {i : Instr} (hexec : exec i s = done (closeSeq n t)) :
      setsPort i s n { (s.port n).resumed with ct := { c with seq := none } } :=
    setsPort_of_change hs (h.closeSeq.of_eq (by simp [hsame])) hexec
  have hstale {i : Instr} (hexec : exec i s = done (countStale n s)) :
      setsPort i s n { s.port n with ct := { (s.port n).ct with stale := satInc (s.port n).ct.stale } } :=
    setsPort_of_change hs hstart.countStale hexec
  refine ⟨fun hopen hmine hlen => ⟨?_, fun hlast => ?_, fun hagain => ?_⟩, fun hopen hmine hcross hlen => ?_, fun hopen h => ?_,
    fun x hseq => ⟨fun hph => ?_, fun hph hkind => ?_, fun hph hkind => ?_, fun hph hkind => ?_, fun hph hkind => ?_⟩, fun hseq => ?_,
    fun hopen hseq => ⟨fun hwhat hobjs => ?_, fun hwhat hobjs => ?_, fun hwhat hobjs => ?_, fun hwhat hobjs => ?_⟩⟩
  · exact hcloses hstart.noteCapsAnswer.clearWait rfl (exec_deny_mine hopen hmine hlen)
  · exact hcloses (hstart.noteCapsAnswer.clearWait.ct _) rfl (exec_wait_last hopen hmine hlen hlast)
  · exact hcloses hstart.noteCapsAnswer.putOff rfl (exec_wait_again hopen hmine hlen hagain)
  · have hno : (refOnly m.objs && (s.port n).ct.awaits (refType m.objs) (refId m.objs)) = false := by simp [hmine]
    have hyes : (refOnly m.objs && (s.port n).ct.overtook (refType m.objs) (refId m.objs)) = true := by simp [refOnly, hlen, hcross]
    exact ⟨setsPort_of_change hs (hstart.ct _) (exec_deny_crossed hopen hno hyes),
      setsPort_of_change hs (hstart.ct _) (exec_wait_crossed hopen hno hyes)⟩
  · have hno : (refOnly m.objs && (s.port n).ct.awaits (refType m.objs) (refId m.objs)) = false := by
      rcases h with ⟨hmine, -⟩ | hlen <;> simp [refOnly, *]
    have hno' : (refOnly m.objs && (s.port n).ct.overtook (refType m.objs) (refId m.objs)) = false := by
      rcases h with ⟨-, hcross⟩ | hlen <;> simp [refOnly, *]
    exact ⟨hstale (exec_deny_stale hopen hno hno'), hstale (exec_wait_stale hopen hno hno')⟩
  · exact idles_of hs (exec_answerTimeout_answered hseq hph)
  · have hexec := exec_answerTimeout hseq hph
    rw [hkind] at hexec
    cases hn : x.nodded with
    | true => rw [hn] at hexec; exact hplain hstart rfl hexec
    | false => rw [hn] at hexec; exact hplain hcounted rfl hexec
  · have hexec := exec_answerTimeout hseq hph
    rcases List.mem_pair.mp hkind with hkind | hkind <;> rw [hkind] at hexec <;> exact hplain hstart rfl hexec
  · have hexec := exec_answerTimeout hseq hph
    simp only [List.mem_cons, List.not_mem_nil, or_false] at hkind
    rcases hkind with hkind | hkind | hkind | hkind | hkind <;> rw [hkind] at hexec <;> exact hcloses hcounted rfl hexec
  · have hexec := exec_answerTimeout hseq hph
    simp only [List.mem_cons, List.not_mem_nil, or_false] at hkind
    rcases hkind with hkind | hkind | hkind | hkind <;> rw [hkind] at hexec <;> exact idles_of hs hexec
  · have hnone : (s.port n).ct.isSeq .getcapsOut = false := by simp [ContractSt.isSeq, hseq]
    cases hopen : (s.port n).partOpen with
    | true =>
      exact ⟨idles_of hs (exec_answerTimeout_none hseq),
        idles_of hs ((exec_info hopen).trans (congrArg done (answersGetcaps_other hnone))),
        idles_of hs ((exec_status hopen).trans (congrArg done (answersGetcaps_other hnone)))⟩
    | false =>
      exact ⟨idles_of hs (exec_answerTimeout_none hseq), idles_of hs (if_neg (by simp [hopen])), idles_of hs (if_neg (by simp [hopen]))⟩
  · exact hplain hstart.clearWait rfl ((exec_info hopen).trans (congrArg done (answersGetcaps_mine hseq hwhat hobjs)))
  · exact hstale ((exec_info hopen).trans (congrArg done (answersGetcaps_stale hseq hwhat hobjs)))
  · exact hplain hstart.clearWait rfl ((exec_status hopen).trans (congrArg done (answersGetcaps_mine hseq hwhat hobjs)))
  · exact hstale ((exec_status hopen).trans (congrArg done (answersGetcaps_stale hseq hwhat hobjs)))

end Sys2Proof.Machine
end

section
/-! Operations that the hub posts while it changes a contract, and O33: READY puts the new contract in force (R138, R146, R152, R153, R166,
R168). -/

namespace Sys2Proof.Machine

/-! ## Words of two bytes -/

theorem toBytesLE_two_mod (v : Nat) : toBytesLE 2 (v % 65536) = toBytesLE 2 v := by
  have h0 : BitVec.ofNat 8 (v % 65536) = BitVec.ofNat 8 v := BitVec.eq_of_toNat_eq (by rw [BitVec.toNat_ofNat, BitVec.toNat_ofNat]; omega)
  have h1 : BitVec.ofNat 8 (v % 65536 / 256) = BitVec.ofNat 8 (v / 256) :=
    BitVec.eq_of_toNat_eq (by rw [BitVec.toNat_ofNat, BitVec.toNat_ofNat]; omega)
  rw [toBytesLE, toBytesLE, toBytesLE, toBytesLE, toBytesLE, toBytesLE, h0, h1]

/-- The slot holds the low 16 bits of a token power (R167). -/
theorem ledgerPost_tok_mod (n : Port) (op new tok : Nat) (s : State) : ledgerPost n op new (tok % 65536) s = ledgerPost n op new tok s := by
  rw [ledgerPost, ledgerPost, toBytesLE_two_mod]

section
variable {l : List Area} {s t : State} {n : Port} {p : PortSt} {q : List (Nat × Nat)} {m : Msg}

/-! ## The new contract in force (R152 step 7) -/

theorem PortChange.stopSlew (h : PortChange l s t n p q) : PortChange l s (stopSlew n t) n p.unslewed q := by
  by_cases hd : p.pw.discharging = true ∧ p.pw.sw ≠ .disch
  · rw [Machine.stopSlew, h.port, if_pos hd]
    exact (h.pw _).of_eq (by simp [PortSt.unslewed, hd.2])
  · rw [Machine.stopSlew, h.port, if_neg hd]
    refine h.of_eq ?_
    have hsame : (p.pw.discharging && decide (p.pw.sw = .disch)) = p.pw.discharging := by
      by_cases hw : p.pw.sw = .disch
      · simp [hw]
      · have hoff : p.pw.discharging = false := by simpa [hw] using hd
        simp [hoff]
    rw [PortSt.unslewed, hsame]

/-- A contract whose transition ends in the new one. -/
abbrev ContractSt.completed (c : ContractSt) (src : Bool) (w : Window) : ContractSt :=
  { c with
    state := .negotiated, volt := c.newVolt, icont := c.newIcont, asSource := src, trans := false, slewing := false
    narrowing := false, prof := false, seq := none, first := false, profGranted := c.newProf, window := w }

/-- The state with the new contract in force, the ledger not yet settled. -/
def inForce (n : Port) (src : Bool) (s : State) : State :=
  setContract n .negotiated (s.port n).ct.newVolt (s.port n).ct.newIcont src ((stopSlew n s).updCt n fun c =>
    { c with trans := false, slewing := false, narrowing := false, prof := false, seq := none, first := false,
             profGranted := c.newProf
             window := windowOf n (s.port n).ripe false c.newVolt })

theorem inForce_change (hl : PortAreas l n) (hon : s.eventsOn = true) (hsig : s.signals n = true)
    (hv : (s.port n).ct.volt ≠ (s.port n).ct.newVolt) (src : Bool) :
    PortChange l s (inForce n src s) n { (s.port n).unslewed with
      ct := (s.port n).ct.completed src (windowOf n (s.port n).ripe false (s.port n).ct.newVolt) } [(8 * n.val + 1, 2)] :=
  ((PortChange.refl hl.port s).stopSlew.ct _).setContract hl hon hsig src (.inr (.inl hv))

section
variable (hfed : s.fedElsewhere n)
include hfed

theorem fedElsewhere_of (hl : .fd ∉ l) (h : Moves l s t) : t.fedElsewhere n := by
  have hfd := h.fd_eq hl
  rw [State.fedElsewhere, isFeed_congr hfd, hfd]
  exact hfed

omit hfed in
/-- With a feed elsewhere nothing follows a transition. -/
theorem rebypass_changed (h : t.fedElsewhere n) : rebypass n (contractChanged n t) = t := by
  rw [contractChanged_elsewhere h, rebypass_of_unfed h.2.1]

theorem completeTransition_sink (hsrc : (s.port n).isSource = false) (h : PortChange l s (inForce n false s) n p q) (hl : .fd ∉ l) :
    completeTransition n s = inForce n false s := by
  rw [completeTransition, hsrc]
  exact rebypass_changed (fedElsewhere_of hfed hl h.moves)

end

theorem completeTransition_source (hsrc : (s.port n).isSource = true) :
    completeTransition n s = rebypass n (contractChanged n (ledgerPost n 1
      (powerUp (s.port n).ct.newVolt (s.port n).ct.newIcont) (s.port n).ct.newTok (inForce n true s)).2) := by
  rw [completeTransition, hsrc]
  rfl

/-! ## READY by what it answers (R146, R152) -/

section
variable {x : Seq} (hopen : (s.port n).partOpen = true) (hseq : (s.port n).ct.seq = some x) (hty : refType m.objs = x.rtype)
  (hid : refId m.objs = x.rid) (hlen : m.objs.length = 1)
include hopen hseq hty hid hlen

omit hopen in
theorem answers_of_seq : ¬((s.port n).ct.answers (refType m.objs) (refId m.objs) = false ∨ refOnly m.objs = false) := by
  simp [ContractSt.answers, hseq, hty, hid, refOnly, hlen]

variable (htrans : (s.port n).ct.trans = true)
include htrans

theorem exec_ready_sink (hkind : x.kind = .askOut) : exec (.ready n m false) s = done (completeTransition n s) := by
  refine (if_pos hopen).trans (congrArg done ?_)
  rw [onReady]
  simp only [hseq]
  rw [if_neg (answers_of_seq hseq hty hid hlen), if_neg (by simp [hkind]), if_pos ⟨hkind, trivial, htrans⟩]

theorem exec_ready_source (hkind : x.kind = .askIn) : exec (.ready n m true) s = done (completeTransition n s) := by
  refine (if_pos hopen).trans (congrArg done ?_)
  rw [onReady]
  simp only [hseq]
  rw [if_neg (answers_of_seq hseq hty hid hlen), if_pos ⟨hkind, trivial, htrans⟩]

end

/-- A posted operation that is booked, seen from before the change of the port that came first. -/
theorem PostBooked.since {u : State} {asked h tok : Nat} (hb : PostBooked t u n asked h tok) (hc : PortChange l s t n p q)
    (hfree : p.wh.token = false) (hled : .led ∈ l) (hn : .port n ∈ l) (ha : ledgerArea ∈ l) (he : .events ∈ l ∨ .sources ∈ l) :
    u.port n = { p with ct := { p.ct with tokAfter := none } } ∧ u.evq = s.evq ++ q ∧ u.host = s.host ∧ Moves l s u := by
  refine ⟨?_, by rw [hb.evq, hc.evq], hb.host.trans hc.host, hc.moves.trans (hb.moves l hn hled ha he)⟩
  rw [hb.port, hc.port]
  simp [hfree]

end

/-- Settles O33: the sink's side is the new contract alone; the source settles its grant as well. -/
theorem readyPutsTheContractInForce : Obligations.ReadyPutsTheContractInForce := by
  intro s n m hs hsig hon hfed
  dsimp only
  intro hopen htrans hv x hseq hty hid hlen
  refine ⟨fun hkind hsrc => ?_, fun hkind hsrc hfree hserve hfits => ?_⟩
  · have hc := inForce_change (PortAreas.pair n) hon hsig hv false
    have hexec := exec_ready_sink hopen hseq hty hid hlen htrans hkind
    rw [completeTransition_sink hfed hsrc hc (by simp)] at hexec
    exact setsPortFires_of_change hs hc hexec
  · have hc := (inForce_change (PortAreas.pair n) hon hsig hv true).mono (l' := [.port n, .led, .events, ledgerArea]) (by simp)
    have hled : (inForce n true s).led = s.led := (inForce_change (PortAreas.pair n) hon hsig hv true).moves.led_eq (by simp)
    have hexec := exec_ready_source hopen hseq hty hid hlen htrans hkind
    have hserve' := (inForce_change (PortAreas.pair n) hon hsig hv true).postServed (PortAreas.pair n) hserve
    have hgood : memGood (inForce n true s).mem = true := by rw [hc.mem]; exact hs.1
    have hbook := postSettled (new := powerUp (s.port n).ct.newVolt (s.port n).ct.newIcont) (tok := (s.port n).ct.newTok % 65536) hgood
      hserve' (powerUp_lt _ _) (Nat.mod_lt _ (by decide)) (by rw [hc.port]; exact hfree) (by rw [hled]; exact hfits)
    rw [ledgerPost_tok_mod] at hbook
    obtain ⟨hport, hevq, hhost, hmoves⟩ := hbook.since hc hfree (by simp) (by simp) (by simp) (by simp)
    rw [completeTransition_source hsrc, rebypass_changed (fedElsewhere_of hfed (by simp) hmoves)] at hexec
    refine answers_of hexec ⟨by rw [State.port_flush, hport], ?_, logs_flush (by rw [hevq, hs.2]; rfl) hbook.good (by rw [hhost]),
      hmoves.flush (by simp) hs.2 hbook.good⟩
    rw [State.flush_led, hbook.led, hled]

end Sys2Proof.Machine
end

section
/-! O34: the steps between GRANT and READY, their time limits, and the fall to the default contract (R152, R153, R161, R162, R175,
R178). -/

namespace Sys2Proof.Machine

section
variable {l : List Area} {s t : State} {n : Port} {p : PortSt} {q : List (Nat × Nat)}

/-! ## Moves of the power stage in a transition -/

theorem PortChange.startSlew (h : PortChange l s t n p q) (falling : Bool) : PortChange l s (startSlew n falling t) n
    { p with pw := { p.pw with discharging := p.pw.discharging || (falling && decide (p.pw.sw ≠ .disch)) } } q := by
  by_cases hd : falling = true ∧ p.pw.sw ≠ .disch
  · rw [Machine.startSlew, h.port, if_pos hd]
    exact (h.pw _).of_eq (by simp [hd.1, hd.2])
  · rw [Machine.startSlew, h.port, if_neg hd]
    have hno : (falling && decide (p.pw.sw ≠ .disch)) = false := by simpa using hd
    exact h.of_eq (by rw [hno, Bool.or_false])

/-- A switch that was closed, or whose start waited, opens, with no other port waiting for its pre-charge (R403). -/
theorem PortChange.opensSwitch (h : PortChange l s t n p q) (next : SwState)
    (hsw : p.pw.sw = .wait ∨ p.pw.sw = .prechg ∨ p.pw.sw = .ramp ∨ p.pw.sw = .on) (hothers : ∀ m, m ≠ n → (t.port m).pw.sw ≠ .wait) (hpg : p.pw.pg = false) :
    PortChange l s (Machine.openSwitch next n t) n { p with pw := p.pw.opened next n } q := by
  rw [openSwitch_eq next (by rw [h.port]; exact hsw) hothers, (h.pw fun p => p.opened next n).dropPg_low hpg]
  exact h.pw _

/-- A message pushed after a change of the port. -/
theorem sendsAs_of_push {c : Instr} {start : Bool} {type : BitVec 5} {objs : List Word} (hs : s.settled)
    (h : PortChange (sendAreas s n) s t n p []) (hln : p.ln = (s.port n).ln)
    (hexec : exec c s = done (pushMsg n start type objs t)) : sendsAs c s n start type objs p :=
  sendsAs_of_queued hs fun hroom hlen => ⟨_, hexec, h.pushMsg hs.1 (covers_of_mem (by simp)) hln hroom hlen⟩

/-! ## SLEW_START (R152, R153, R175, R178) -/

section
variable {x : Seq} (hseq : (s.port n).ct.seq = some x) (hph : x.phase = .granted)
include hseq hph

omit hph in
theorem atPhase_some (f : SeqPhase) : (s.port n).ct.atPhase f = decide (x.phase = f) := by
  simp [ContractSt.atPhase, hseq]

theorem exec_slewStart_ask (hkind : x.kind = .askIn) : exec (.slewStart n) s =
    done (setPhase n .acting (startSlew n (!(s.port n).ct.firstContract && decide ((s.port n).ct.newVolt.toNat < (s.port n).ct.volt.toNat))
      (s.updCt n fun c => { c with slewing := !c.firstContract }))) :=
  (if_pos (by rw [atPhase_some hseq, hph]; rfl)).trans (if_pos (by rw [isSeq_some hseq, hkind]; rfl))

theorem exec_slewStart_sswap (hkind : x.kind = .sswapIn ∨ x.kind = .sswapOut) (hcsup : (s.port n).cf.csupOn = true) :
    exec (.slewStart n) s = done (pushMsg n false tReady [refObj tSswap x.rid 0 0]
      (setPhase n .acting (s.updCf n fun c => { c with csupOn := false }))) := by
  have hid : ((s.port n).ct.seq.map fun q => q.rid).getD 0 = x.rid := by rw [hseq]; rfl
  rw [← hid]
  refine (if_pos (by rw [atPhase_some hseq, hph]; rfl)).trans ((if_neg ?_).trans ((if_neg ?_).trans (if_pos ?_)))
  · rcases hkind with h | h <;> simp [isSeq_some hseq, h]
  · rcases hkind with h | h <;> simp [isSeq_some hseq, h]
  · rcases hkind with h | h <;> simp [isSeq_some hseq, h, hcsup]

theorem exec_slewStart_pswap (hkind : x.kind = .pswapIn ∨ x.kind = .pswapOut) (hsrc : (s.port n).isSource = true) :
    exec (.slewStart n) s = done (if ((setPhase n .acting (openSwitch .off n s)).port n).pw.sw = .disch
      then setPhase n .acting (openSwitch .off n s) else oldSourceOff n (setPhase n .acting (openSwitch .off n s))) := by
  refine (if_pos (by rw [atPhase_some hseq, hph]; rfl)).trans ((if_neg ?_).trans (if_pos ?_))
  · rcases hkind with h | h <;> simp [isSeq_some hseq, h]
  · rcases hkind with h | h <;> simp [isSeq_some hseq, h, hsrc]

omit hph in
/-- The old source, its output down and its grant gone, answers with READY at once. -/
theorem oldSourceOff_ready (hkind : x.kind = .pswapIn ∨ x.kind = .pswapOut) (hsrc : (s.port n).isSource = true)
    (hact : x.phase = .acting) (hheld : s.led.held[n] = 0) :
    oldSourceOff n s = pushMsg n false tReady [refObj tPswap x.rid 0 ((s.port n).pw.vPort / 10)] s := by
  rw [oldSourceOff]
  simp only [hseq]
  rw [if_pos (by rcases hkind with h | h <;> simp [isSeq_some hseq, h, hsrc, hact]), if_neg (by rw [hheld]; decide)]
  rfl

end

theorem exec_slewStart_idle (h : (s.port n).ct.seq = none) : exec (.slewStart n) s = done s :=
  if_neg (by simp [ContractSt.atPhase, h])

/-! ## READY_HOLD_DONE (R148, R152, R175) -/

theorem exec_readyHold_idle {mv : Nat} (h : (s.port n).ct.seq = none) : exec (.readyHoldDone n mv) s = done s := by
  have hexec : exec (.readyHoldDone n mv) s = execReadyHoldDone n mv s := rfl
  rw [hexec, execReadyHoldDone]
  simp only [h]

section
variable {x : Seq} {mv : Nat} (hseq : (s.port n).ct.seq = some x)
include hseq

theorem exec_readyHold_ask (hkind : x.kind = .askIn) (hph : x.phase = .acting) (hmv : within3 mv (s.port n).ct.newVolt = true) :
    exec (.readyHoldDone n mv) s = done (pushMsg n false tReady [refObj tAsk x.rid 0 (mv / 10)] s) := by
  have hexec : exec (.readyHoldDone n mv) s = execReadyHoldDone n mv s := rfl
  rw [hexec, execReadyHoldDone]
  simp only [hseq]
  exact if_pos (by simp [isSeq_some hseq, hkind, hph, hmv])

theorem exec_readyHold_pswap (hkind : x.kind = .pswapIn ∨ x.kind = .pswapOut) (hph : x.phase = .ready1)
    (hsrc : (s.port n).isSource = true) (hmv : within3 mv (s.port n).ripe.defaultContract.1 = true) :
    exec (.readyHoldDone n mv) s = done (pushMsg n false tReady [refObj tPswap x.rid 0 (mv / 10)] s) := by
  have hexec : exec (.readyHoldDone n mv) s = execReadyHoldDone n mv s := rfl
  rw [hexec, execReadyHoldDone]
  simp only [hseq]
  rw [if_neg (by rcases hkind with h | h <;> simp [isSeq_some hseq, h])]
  exact if_pos (by rcases hkind with h | h <;> simp [isSeq_some hseq, h, hph, hsrc, hmv])

/-! ## TRANS_TIMEOUT (R152) -/

variable (htrans : (s.port n).ct.trans = true)
include htrans

theorem exec_transTimeout_sink (hkind : x.kind = .askOut) : exec (.transTimeout n) s =
    done (rebypass n (dropTransition n (s.port n).ct.firstContract (s.updCt n fun c => { c with transfail := satInc c.transfail }))) :=
  (if_neg (by simp [isSeq_some hseq, hkind])).trans (if_pos (by simp [isSeq_some hseq, hkind, htrans]))

theorem exec_transTimeout_source (hkind : x.kind = .askIn) : exec (.transTimeout n) s =
    done (openSwitch .off n (pushMsg n false tBye [refObj 0 0 0x10 0] (stopSlew n (s.updCt n fun c =>
      { c with transfail := satInc c.transfail, seq := none, slewing := false, trans := false })))) :=
  if_pos (by simp [isSeq_some hseq, hkind, htrans])

end

/-- A transition given up, the old contract standing. -/
theorem PortChange.dropTransition (hl : .fd ∉ l) (h : PortChange l s t n p q) (hfed : s.fedElsewhere n) :
    PortChange l s (dropTransition n false t) n { p.unslewed with ct := { p.ct with
      trans := false, slewing := false, newProf := false, seq := none, first := false, window := inForceWindow n p } } q := by
  have hd := (h.ct fun c => { c with trans := false, slewing := false, newProf := false, seq := none, first := false }).stopSlew
  have hw := hd.ct fun c => { c with window := inForceWindow n p }
  rw [Machine.dropTransition]
  refine cast ?_ hw
  congr 1
  refine (contractChanged_of_fed hl hw hfed).symm.trans (congrArg (Machine.contractChanged n) (updCt_congr ?_))
  rw [hd.port]
  rfl

/-! ## The other time limits (R157, R162) -/

theorem exec_narrow (h : (s.port n).ct.narrowing = true) : exec (.defaultWindowNarrow n) s = done (stopSlew n (s.updCt n fun c =>
    { c with narrowing := false, slewing := false, window := windowOf n (s.port n).ripe true c.volt })) := if_pos h

theorem exec_askNew (h : (s.port n).ct.askNewRun = true) (hsrc : (s.port n).isSource = true) (hopen : (s.port n).partOpen = true) :
    exec (.askNewTimeout n) s = done (pushMsg n false tBye [refObj 0 0 0x17 1] (s.updCt n fun c => { c with askNewRun := false })) :=
  if_pos (by simp [h, hsrc, hopen])

end

/-- Settles O34: each step and each limit in its phase. -/
theorem transitionsRunAndFail : Obligations.TransitionsRunAndFail := by
  intro s n hs hfed
  dsimp only
  have hstart : PortChange [.port n] s s n (s.port n) [] := PortChange.refl (by simp) s
  have hsend := PortChange.refl (l := sendAreas s n) (n := n) (.inl (by simp)) s
  refine ⟨fun x hseq hph => ⟨fun hkind => ?_, fun hkind hcsup => ?_, fun hkind hsrc hsw hheld => ?_, fun hkind hsrc hsw hpg hw hB => ?_⟩,
    fun hseq => ⟨idles_of hs (exec_slewStart_idle hseq), fun mv => idles_of hs (exec_readyHold_idle hseq)⟩,
    fun x mv hseq hkind hph hmv => ?_, fun x mv hseq hkind hph hsrc hmv => ?_, fun x htrans hseq hkind hfirst => ?_,
    fun x htrans hseq hkind hsw hpg hw hB => ?_, fun htrans => ?_, fun h => ?_, fun h => ?_, fun h hsrc hopen => ?_, fun h => ?_⟩
  · have hc := ((hstart.ct fun c => { c with slewing := !c.firstContract }).startSlew (!(s.port n).ct.firstContract
      && decide ((s.port n).ct.newVolt.toNat < (s.port n).ct.volt.toNat))).setPhase .acting
    exact setsPort_of_change hs (hc.of_eq (by simp [hseq])) (exec_slewStart_ask hseq hph hkind)
  · have hc := (hsend.cf fun c => { c with csupOn := false }).setPhase .acting
    exact sendsAs_of_push hs (hc.of_eq (by simp [hseq])) rfl (exec_slewStart_sswap hseq hph hkind hcsup)
  · have hexec := exec_slewStart_pswap hseq hph hkind hsrc
    have hc := hsend.setPhase .acting
    rw [openSwitch_of_open .off (by simp [hsw]), if_neg (by rw [hc.port, hsw]; decide)] at hexec
    have hseq' : ((setPhase n .acting s).port n).ct.seq = some { x with phase := .acting } := by rw [hc.port]; simp [hseq]
    rw [oldSourceOff_ready hseq' hkind (by rw [hc.port]; exact hsrc) rfl hheld, hc.port] at hexec
    exact sendsMsg_of_push hs (hc.of_eq (by simp [hseq])) hexec
  · have hexec := exec_slewStart_pswap hseq hph hkind hsrc
    have hc := (hstart.opensSwitch .off (.inr (.inr (.inr hsw))) (fun m _ => hw m) hpg).setPhase .acting
    rw [if_pos (by rw [hc.port]; rfl)] at hexec
    exact setsPort_of_change hs (hc.of_eq (by simp [hseq, PowerSt.opened, hB])) hexec
  · exact sendsMsg_of_push hs (PortChange.sending s n) (exec_readyHold_ask hseq hkind hph hmv)
  · exact sendsMsg_of_push hs (PortChange.sending s n) (exec_readyHold_pswap hseq hkind hph hsrc hmv)
  · have hexec := exec_transTimeout_sink hseq htrans hkind
    have hc := (hstart.ct fun c => { c with transfail := satInc c.transfail }).dropTransition (by simp) hfed
    rw [hfirst, rebypass_of_unfed (fedElsewhere_of hfed (by simp) hc.moves).2.1] at hexec
    exact setsPort_of_change hs hc hexec
  · refine sendsAs_of_queued hs fun hroom hlen => ?_
    have hc := (hsend.ct fun c => { c with transfail := satInc c.transfail, seq := none, slewing := false, trans := false }).stopSlew
    have hq := hc.pushMsg (start := false) (type := tBye) (objs := [refObj 0 0 0x10 0]) hs.1 (covers_of_mem (by simp)) rfl hroom hlen
    refine ⟨_, exec_transTimeout_source hseq htrans hkind, ?_⟩
    have ho := hq.andThen (hq.after.opensSwitch .off (.inr (.inr (.inr hsw))) (fun m hm => ?_) hpg)
    · simpa [PowerSt.opened, hB] using ho
    · rw [hq.moves.port_eq (by simpa using hm) (by simp)]
      exact hw m
  · exact idles_of hs ((if_neg (by simp [htrans])).trans (if_neg (by simp [htrans])))
  · exact setsPort_of_change hs (hstart.ct _).stopSlew (exec_narrow h)
  · exact idles_of hs (if_neg (by simp [h]))
  · exact sendsMsg_of_push hs ((PortChange.sending s n).ct _) (exec_askNew h hsrc hopen)
  · exact idles_of hs (if_neg (by simp [h]))

end Sys2Proof.Machine
end

section
/-! O35: BYE and ABORT (R138, R146, R149, R153, R156, R158, R161, R162, R166, R391). -/

namespace Sys2Proof.Machine

section
variable {l : List Area} {s t : State} {n : Port} {p : PortSt} {q : List (Nat × Nat)} {m : Msg}

/-! ## BYE with DEFAULT clear (R138) -/

section
variable {b : Bool} (hopen : (s.port n).partOpen = true) (hneg : (s.port n).ct.state = .negotiated)
include hopen hneg

theorem exec_bye_ends (harg : refArg m.objs % 2 = 0) (hfed : s.isFeed n = false) :
    exec (.bye n m b) s = done (finishContract n s) :=
  (if_pos hopen).trans (congrArg done ((if_neg (by simp [hneg])).trans ((if_neg (by omega)).trans (if_neg (by simp [hfed])))))

theorem exec_bye_default (harg : refArg m.objs % 2 = 1) : exec (.bye n m b) s = done (fallToDefault n s) :=
  (if_pos hopen).trans (congrArg done ((if_neg (by simp [hneg])).trans (if_pos ⟨harg, by simp [hneg]⟩)))

end

/-! ## The fall to the default contract (R153, R162) -/

/-- A contract that has fallen to the default one. -/
abbrev PortSt.fallen (p : PortSt) (n : Port) (src : Bool) : ContractSt :=
  { p.ct with
    state := .default, volt := p.ripe.defaultContract.1, icont := p.ripe.defaultContract.2, asSource := src, trans := false
    prof := false, newProf := false, slewing := src, slew := BitVec.ofNat 16 p.ripe.slew, seq := none, narrowing := true
    first := false, profGranted := false, ownSwap := none
    window := Window.span p.ct.window (windowOf n p.ripe true p.ripe.defaultContract.1) }

/-- The state with the default contract in force, the ledger not yet settled. -/
def defaultInForce (n : Port) (s : State) : State :=
  let p := s.port n
  let d := p.ripe.defaultContract
  let w := Window.span p.ct.window (windowOf n p.ripe true d.1)
  startSlew n (p.isSource && decide (d.1.toNat < p.ct.volt.toNat))
    ((forcedClose n (setContract n .default d.1 d.2 p.isSource (resumeDetach n s))).updCt n fun c =>
      { c with trans := false, prof := false, newProf := false, slewing := p.isSource, slew := BitVec.ofNat 16 p.ripe.slew,
               seq := none, narrowing := true, window := w, first := false, profGranted := false, ownSwap := none })

theorem fallToDefault_eq (n : Port) (s : State) : fallToDefault n s = rebypass n (contractChanged n (if (s.port n).isSource then
    (ledgerPost n 1 (powerUp (s.port n).ripe.defaultContract.1 (s.port n).ripe.defaultContract.2) 0 (defaultInForce n s)).2
      else defaultInForce n s)) := rfl

theorem defaultInForce_change (hl : PortAreas l n) (hon : s.eventsOn = true) (hsig : s.signals n = true)
    (hneg : (s.port n).ct.state = .negotiated) (hb : (s.port n).wh.burstOpen = false) :
    PortChange l s (defaultInForce n s) n { (s.port n).resumed with
      ct := (s.port n).fallen n (s.port n).isSource
      pw := { (s.port n).pw with discharging := (s.port n).pw.discharging ||
        (((s.port n).isSource && decide ((s.port n).ripe.defaultContract.1.toNat < (s.port n).ct.volt.toNat))
          && decide ((s.port n).pw.sw ≠ .disch)) } } [(8 * n.val + 1, 1)] := by
  have hset := (PortChange.refl hl.port s).resumeDetach.setContract (st := .default) (v := (s.port n).ripe.defaultContract.1)
    (i := (s.port n).ripe.defaultContract.2) hl hon hsig (s.port n).isSource (.inl (by simp [hneg]))
  rw [defaultInForce]
  dsimp only
  rw [forcedClose_of_closed (by rw [hset.port]; exact hb)]
  exact (hset.ct _).startSlew _

/-! ## ABORT (R149, R161) -/

theorem exec_abort_stale (hopen : (s.port n).partOpen = true)
    (h : (s.port n).ct.answers (refType m.objs) (refId m.objs) = false ∨ m.objs.length ≠ 1) :
    exec (.abort n m) s = done (countStale n s) := by
  refine (if_pos hopen).trans (congrArg done ?_)
  rw [onAbort]
  cases hseq : (s.port n).ct.seq with
  | none => rfl
  | some x => exact if_pos (h.imp id fun h => decide_eq_false h)

section
variable {x : Seq} (hopen : (s.port n).partOpen = true) (hseq : (s.port n).ct.seq = some x) (hty : x.rtype = refType m.objs)
  (hid : x.rid = refId m.objs) (hlen : m.objs.length = 1) (hph : x.phase = .requested ∨ x.phase = .granted)
include hopen hseq hty hid hlen hph

theorem exec_abort : exec (.abort n m) s = done (rebypass n (abortSeq n (if x.kind.byHub then clearWait n s else s))) := by
  refine (if_pos hopen).trans (congrArg done ?_)
  rw [onAbort]
  simp only [hseq]
  rw [if_neg (answers_of_seq hseq hty.symm hid.symm hlen), if_neg (by rcases hph with h | h <;> simp [h])]

end

section
variable {x : Seq} (hseq : (t.port n).ct.seq = some x)
include hseq

theorem abortSeq_transit (hkind : x.kind = .askOut) (htrans : (t.port n).ct.trans = true) :
    abortSeq n t = dropTransition n (t.port n).ct.firstContract t :=
  (if_neg (by simp [isSeq_some hseq, hkind])).trans ((if_neg (by simp [isSeq_some hseq, hkind])).trans
    (if_pos ⟨by simp [isSeq_some hseq, hkind], htrans⟩))

theorem abortSeq_closes (h1 : x.kind ≠ .askIn) (h2 : x.kind ≠ .profileIn) (h3 : ¬(x.kind = .askOut ∧ (t.port n).ct.trans = true)) :
    abortSeq n t = closeSeq n t :=
  (if_neg (by simp [isSeq_some hseq, h1])).trans ((if_neg (by simp [isSeq_some hseq, h2])).trans
    (if_neg (by simpa [isSeq_some hseq] using h3)))

end

end

/-- Settles O35: BYE by its DEFAULT and the role of the hub, ABORT by what it belongs to. -/
theorem byeAndAbortUndo : Obligations.ByeAndAbortUndo := by
  intro s n m b hs hsig hon hfed
  dsimp only
  intro hopen hb
  have hstart : PortChange [.port n] s s n (s.port n) [] := PortChange.refl (by simp) s
  refine ⟨fun hneg harg hsw hpg hw => ?_, fun hneg harg hsrc => ?_, fun hneg harg hsrc hfree hserve hfits => ?_, fun hst => ?_,
    fun x hseq hty hid hlen hph => ⟨fun hkind htrans hfirst => ?_, fun h => ?_, fun hkind => ?_⟩, fun h => ?_⟩
  · have hB : n ≠ portB := fun h => by rw [State.signals, h] at hsig; simp at hsig
    have hc := (PortChange.refl (PortAreas.pair n).port s).endContract_closed (PortAreas.pair n) hon hsig hb (.inr (.inr (.inr hsw)))
      (fun m _ => hw m) hpg
    have hexec := exec_bye_ends (b := b) hopen hneg harg hfed.2.1
    have hev : (s.port n).contractEvents n = [(8 * n.val + 1, 0)] := if_pos (.inl (by simp [hneg]))
    rw [hev] at hc
    rw [finishContract_unreleased rfl (.inr (by rw [hc.port]; simp [PowerSt.opened]))] at hexec
    have hgood : memGood (endContract n s).mem = true := by rw [hc.mem]; exact hs.1
    refine answers_of hexec ⟨by rw [State.port_flush, hc.port]; rfl, ?_, logs_flush (by rw [hc.evq, hs.2]; rfl) hgood (by rw [hc.host]),
      hc.moves.flush (by simp) hs.2 hgood⟩
    rw [State.port_flush, hc.port]
    simp [PowerSt.opened, hB]
  · have hc := defaultInForce_change (PortAreas.pair n) hon hsig hneg hb
    have hexec := exec_bye_default (b := b) hopen hneg harg
    rw [fallToDefault_eq, hsrc, if_neg (by decide), rebypass_changed (fedElsewhere_of hfed (by simp) hc.moves)] at hexec
    exact setsPortFires_of_change hs (hc.of_eq (by simp [hsrc])) hexec
  · have hc0 := defaultInForce_change (PortAreas.pair n) hon hsig hneg hb
    have hc := hc0.mono (l' := [.port n, .led, .events, ledgerArea]) (by simp)
    have hled : (defaultInForce n s).led = s.led := hc0.moves.led_eq (by simp)
    have hexec := exec_bye_default (b := b) hopen hneg harg
    have hgood : memGood (defaultInForce n s).mem = true := by rw [hc.mem]; exact hs.1
    have hbook := postSettled (tok := 0) hgood (hc0.postServed (PortAreas.pair n) hserve)
      (powerUp_lt (s.port n).ripe.defaultContract.1 (s.port n).ripe.defaultContract.2) (by decide) (by rw [hc.port]; exact hfree)
      (by rw [hled]; exact hfits)
    obtain ⟨hport, hevq, hhost, hmoves⟩ := hbook.since hc hfree (by simp) (by simp) (by simp) (by simp)
    rw [fallToDefault_eq, if_pos hsrc, rebypass_changed (fedElsewhere_of hfed (by simp) hmoves)] at hexec
    refine answers_of hexec ⟨by rw [State.port_flush, hport]; simp [hsrc], ?_, logs_flush (by rw [hevq, hs.2]; rfl) hbook.good
      (by rw [hhost]), hmoves.flush (by simp) hs.2 hbook.good⟩
    rw [State.flush_led, hbook.led, hled]
  · exact setsPort_of_change hs hstart.closeSeq ((if_pos hopen).trans (congrArg done (if_pos hst)))
  · have hexec := exec_abort hopen hseq hty hid hlen hph
    have hwait := hstart.clearWait
    have hc := hwait.dropTransition (by simp) hfed
    have hfirst' : ((clearWait n s).port n).ct.firstContract = false := by rw [hwait.port]; exact hfirst
    rw [if_pos (by rw [hkind]; rfl), abortSeq_transit (by rw [hwait.port]; exact hseq) hkind (by rw [hwait.port]; exact htrans), hfirst',
      rebypass_of_unfed (fedElsewhere_of hfed (by simp) hc.moves).2.1] at hexec
    exact setsPort_of_change hs hc hexec
  · have hexec := exec_abort hopen hseq hty hid hlen hph
    have hwait := hstart.clearWait
    have hhub : x.kind.byHub = true ∧ x.kind ≠ .askIn ∧ x.kind ≠ .profileIn ∧ ¬(x.kind = .askOut ∧ (s.port n).ct.trans = true) := by
      rcases h with ⟨hkind, htrans⟩ | hkind
      · simp [hkind, htrans, SeqKind.byHub]
      · simp only [List.mem_cons, List.not_mem_nil, or_false] at hkind
        rcases hkind with h | h | h | h | h <;> simp [h, SeqKind.byHub]
    obtain ⟨hhub, h1, h2, h3⟩ := hhub
    rw [if_pos hhub, abortSeq_closes (by rw [hwait.port]; exact hseq) h1 h2 (by rw [hwait.port]; exact h3)] at hexec
    exact setsPort_of_change hs (hwait.closesUnfed (by simp) hfed.2.1) hexec
  · have hexec := exec_abort hopen hseq hty hid hlen hph
    have hin : x.kind.byHub = false ∧ x.kind ≠ .askIn ∧ x.kind ≠ .profileIn ∧ x.kind ≠ .askOut := by
      simp only [List.mem_cons, List.not_mem_nil, or_false] at hkind
      rcases hkind with h | h | h | h <;> simp [h, SeqKind.byHub]
    obtain ⟨hin, h1, h2, h3⟩ := hin
    rw [if_neg (by simp [hin]), abortSeq_closes hseq h1 h2 (fun h => h3 h.1)] at hexec
    exact setsPort_of_change hs (hstart.closesUnfed (by simp) hfed.2.1) hexec
  · exact setsPort_of_change hs hstart.countStale (exec_abort_stale hopen h)

end Sys2Proof.Machine
end

section
/-! O36: role swaps and cable-supply swaps (R100, R127, R138, R166, R174 to R180). -/

namespace Sys2Proof.Machine

section
variable {l : List Area} {s t : State} {n : Port} {p : PortSt} {q : List (Nat × Nat)} {m : Msg}

/-! ## A swap request that the rules allow (R158, R174, R178; DESIGN CHOICE, log entry 14) -/

/-- The contract once a swap request is granted (R179). -/
abbrev PortSt.swapGranted (p : PortSt) (k : SeqKind) (ty : BitVec 5) (id : BitVec 3) : ContractSt :=
  { p.ct with ownSwap := if p.swapOpen = true then p.ct.seq else p.ct.ownSwap, seq := some (.received k ty id) }

theorem sendsMsg_grantSwap {c : Instr} {k : SeqKind} {ty : BitVec 5} (hs : s.settled) (hexec : exec c s = done (grantSwap n k ty m s)) :
    sendsMsg c s n false tGrant [refObj ty m.id 0 0] ((s.port n).swapGranted k ty m.id) :=
  sendsMsg_of_push_then hs (PortChange.sending s n) (f := fun c => { c with
    ownSwap := if (s.port n).swapOpen then c.seq else c.ownSwap, seq := some (.received k ty m.id) }) hexec

/-- What the program's choice makes of a PSWAP or SSWAP that no rule stands against. -/
def swapAnswer (n : Port) (k : SeqKind) (ty : BitVec 5) (m : Msg) (ch : SwapChoice) (s : State) : State :=
  match ch with
  | .grant | .wait _ => grantSwap n k ty m s
  | .deny => denyWith n ty m 0x0A s

theorem exec_pswap_allowed {ch : SwapChoice} (hpol : s.policyOpen n = true) (hv : s.isDmh16 = true)
    (hnone : (s.port n).ct.state ≠ .none) (hswap : (s.port n).ct.state ≠ .swap) (hen : (s.port n).ripe.pswapen = true)
    (hbusy : swapBusy n s = false) (hplan : s.fd.planned = false) (hfed : s.isFeed n = false) :
    exec (.pswap n m ch) s = done (swapAnswer n .pswapIn tPswap m ch s) := by
  refine (if_neg (by simp [hpol])).trans ((if_neg (by simp [hv])).trans ((if_neg (not_or.mpr ⟨hnone, hswap⟩)).trans
    ((if_neg (by simp [hen])).trans ((if_neg (by simp [hbusy])).trans ((if_neg (by simp [hplan])).trans ((if_neg (by simp [hfed])).trans ?_))))))
  cases ch <;> rfl

theorem exec_sswap_allowed {ch : SwapChoice} (hpol : s.policyOpen n = true) (hen : (s.port n).ripe.sswapen = true)
    (hcsup : (s.port n).cf.csup = 0) (hbusy : swapBusy n s = false) :
    exec (.sswap n m ch) s = done (swapAnswer n .sswapIn tSswap m ch s) := by
  refine (if_neg (by simp [hpol])).trans ((if_neg (by simp [hen, hcsup])).trans ((if_neg (by simp [hbusy])).trans ?_))
  cases ch <;> rfl

/-- The three choices in the words of the statement. -/
theorem swapChoices {k : SeqKind} {ty : BitVec 5} {c : SwapChoice → Instr} (hs : s.settled)
    (hexec : ∀ ch, exec (c ch) s = done (swapAnswer n k ty m ch s)) :
    sendsMsg (c .grant) s n false tGrant [refObj ty m.id 0 0] ((s.port n).swapGranted k ty m.id)
    ∧ (∀ ms, sendsMsg (c (.wait ms)) s n false tGrant [refObj ty m.id 0 0] ((s.port n).swapGranted k ty m.id))
    ∧ sendsMsg (c .deny) s n false tDeny [refObj ty m.id 0x0A 0] (s.port n).ct :=
  ⟨sendsMsg_grantSwap hs (hexec .grant), fun ms => sendsMsg_grantSwap hs (hexec (.wait ms)), sendsMsg_deny hs (hexec .deny)⟩

/-! ## READY of a swap (R175, R178) -/

section
variable {x : Seq} {b : Bool} (hopen : (s.port n).partOpen = true) (hseq : (s.port n).ct.seq = some x)
  (hans : (s.port n).ct.answers (refType m.objs) (refId m.objs) = true) (hlen : m.objs.length = 1)
include hopen hseq hans hlen

theorem exec_ready_pswap (hkind : x.kind = .pswapIn ∨ x.kind = .pswapOut) : exec (.ready n m b) s = done
    (if x.phase = (if b then .acting else .granted) ∧ b = (s.port n).isSource then exchangeRoles n s
      else if x.phase = .ready1 ∧ b = (s.port n).isSource then completeSwap n s else s) := by
  refine (if_pos hopen).trans (congrArg done ?_)
  rw [onReady]
  simp only [hseq]
  rw [if_neg (by simp [hans, refOnly, hlen]), if_neg (by rcases hkind with h | h <;> simp [h]),
    if_neg (by rcases hkind with h | h <;> simp [h]), if_pos hkind]

theorem exec_ready_sswap (hkind : x.kind = .sswapIn ∨ x.kind = .sswapOut) : exec (.ready n m b) s = done
    (if x.phase = (if b then .acting else .granted) ∧ (b = true ∨ (s.port n).cf.csupOn = false) then cedeCsup n x b s
      else if x.phase = (if b then .ready1 else .gaveReady) then completeSswap n b s else s) := by
  refine (if_pos hopen).trans (congrArg done ?_)
  rw [onReady]
  simp only [hseq]
  rw [if_neg (by simp [hans, refOnly, hlen]), if_neg (by rcases hkind with h | h <;> simp [h]),
    if_neg (by rcases hkind with h | h <;> simp [h]), if_neg (by rcases hkind with h | h <;> simp [h]), if_pos hkind]

end

/-! ## The role exchange of a new source (R175 steps 5 and 6) -/

/-- The contract of a port whose roles have changed places, before the RAISE of a new source. -/
def PortSt.exchangedCt (p : PortSt) (n : Port) (src : Bool) : ContractSt :=
  { p.ct with
    state := .swap, volt := 0, icont := 0, asSource := src, prof := false, profGranted := false, ownSwap := none, caps := []
    capsSent := 0, capsNodded := false, askNewRun := false, getcapsDue := false
    window := windowOf n p.ripe true p.ripe.defaultContract.1, seq := p.ct.phased .ready1 }

/-- The port whose roles have changed places. -/
def PortSt.exchanged (p : PortSt) (n : Port) (cc : Nat) (src : Bool) : PortSt :=
  { p with
    cf := { p.cf.setLevel cc 0 with attach := if src then .attachedSrc else .attachedSnk, asSource := src }
    ln := { p.ln with holdStood := false, holdWait := false, startOut := false, sinkStart := false }
    ct := p.exchangedCt n src }

/-- The state after the role exchange, before the RAISE of a new source. -/
def exchangedState (n : Port) (src : Bool) (s : State) : State :=
  let p := s.port n
  (setPhase n .ready1 ((((setContract n .swap 0 0 src s).updCf n fun c =>
    { c.setLevel s.cc 0 with attach := if src then .attachedSrc else .attachedSnk, asSource := src }).updLn n fun l =>
      { l with holdStood := false, holdWait := false, startOut := false, sinkStart := false }).updCt n fun c =>
        { c with prof := false, profGranted := false, ownSwap := none, caps := [], capsSent := 0, capsNodded := false,
                 askNewRun := false, getcapsDue := false, window := windowOf n p.ripe true p.ripe.defaultContract.1 })).firePort n 7 0

theorem exchangedState_change (hl : PortAreas l n) (hon : s.eventsOn = true) (hsig : s.signals n = true)
    (hneg : (s.port n).ct.state = .negotiated) (src : Bool) :
    PortChange l s (exchangedState n src s) n ((s.port n).exchanged n s.cc src) [(8 * n.val + 1, 4), (8 * n.val + 7, 0)] :=
  ((((((PortChange.refl hl.port s).setContract (st := .swap) (v := 0) (i := 0) hl hon hsig src (.inl (by rw [hneg]; decide))).cf _).ln
    _).ct _).setPhase .ready1).event hl hon hsig 7 0

/-- A new source whose output is off and that holds no grant changes over at once. -/
theorem exchangeRoles_newSource (hsrc : (s.port n).isSource = false) (hsw : (s.port n).pw.sw = .off) (hheld : s.led.held[n] = 0)
    (hb : (s.port n).wh.burstOpen = false) (hfed : s.isFeed n = false) :
    exchangeRoles n s = raiseDefault n (exchangedState n true s) := by
  have hrel : releaseIfOff n s = s := if_neg (by rw [hheld]; simp)
  rw [exchangeRoles, openSwitch_of_open .off (by simp [hsw]), hrel, forcedClose_of_closed hb, hsrc, hfed]
  rfl

/-! ## The time limits of a swap (R175, R178) -/

section
variable {x : Seq} (hseq : (s.port n).ct.seq = some x)
include hseq

theorem exec_swapOff (hkind : x.kind = .pswapIn ∨ x.kind = .pswapOut) (hph : x.phase = .acting) (hsrc : (s.port n).isSource = true)
    (hsw : (s.port n).pw.sw = .disch) :
    exec (.swapOffTimeout n) s = done (pushMsg n false tBye [refObj 0 0 0x15 0] (closeSeq n s)) :=
  if_pos (by rcases hkind with h | h <;> simp [isSeq_some hseq, atPhase_some hseq, h, hph, hsrc, hsw])

theorem exec_swapOn (hkind : x.kind = .pswapIn ∨ x.kind = .pswapOut) (hph : x.phase = .ready1) (hsrc : (s.port n).isSource = false) :
    exec (.swapOnTimeout n) s =
      done (pushMsg n false tBye [refObj 0 0 0x10 0] (contractChanged n (setContract n .none 0 0 false (closeSeq n s)))) :=
  if_pos (by rcases hkind with h | h <;> simp [isSeq_some hseq, atPhase_some hseq, h, hph, hsrc])

theorem exec_sswapTimeout (hkind : x.kind = .sswapIn ∨ x.kind = .sswapOut) (hph : x.phase ≠ .requested) :
    exec (.sswapTimeout n) s = done ((closeSeq n s).updCf n fun c => { c with csupOn := false, csupTrips := 2 }) :=
  if_pos (by rcases hkind with h | h <;> simp [isSeq_some hseq, atPhase_some hseq, h, hph])

/-- Only a PSWAP before its role exchange holds detach detection. -/
theorem beforeExchange_some : (s.port n).ct.beforeExchange =
    ((decide (x.kind = .pswapIn) || decide (x.kind = .pswapOut)) && decide (x.phase ≠ .ready1)) := by
  rw [ContractSt.beforeExchange, hseq]

end

theorem isSeq_none (h : (s.port n).ct.seq = none) (k : SeqKind) : (s.port n).ct.isSeq k = false := by simp [ContractSt.isSeq, h]

end

/-- Settles O36: the requests, the READYs of either swap, and the sides that miss their time. -/
theorem swapsExchangeRoles : Obligations.SwapsExchangeRoles := by
  intro s n m hs hsig hon hfed
  dsimp only
  intro hopen
  have hl := PortAreas.pair n
  have hstart := PortChange.refl hl.port s
  have hplain : PortChange [.port n] s s n (s.port n) [] := PortChange.refl (by simp) s
  refine ⟨fun hpol hv hnone hswap hen hbusy hplan => ?_, fun hpol hen hcsup hbusy => ?_,
    fun x hseq hby hkind hsrc => ⟨fun hph hneg hb hfree hsw hheld hraise => ?_, fun hph hswap => ?_⟩,
    fun x hseq hby hkind => ⟨fun hph => ?_, fun hph => ?_, fun hph => ?_, fun hph hcsup => ?_⟩,
    fun x hseq hkind => ⟨fun hph hsrc hsw => ?_, fun hph hsrc hswap hroom => ?_⟩, fun x hseq hkind hph => ?_, fun hseq => ?_⟩
  · exact swapChoices (c := fun ch => .pswap n m ch) hs fun ch => exec_pswap_allowed hpol hv hnone hswap hen hbusy hplan hfed.2.1
  · exact swapChoices (c := fun ch => .sswap n m ch) hs fun ch => exec_sswap_allowed hpol hen hcsup hbusy
  · have hexec := exec_ready_pswap (b := false) hopen hseq hby.1 hby.2 hkind
    rw [if_pos ⟨hph, hsrc.symm⟩, exchangeRoles_newSource hsrc hsw hheld hb hfed.2.1] at hexec
    have hc0 := exchangedState_change hl hon hsig hneg true
    have hc := hc0.mono (l' := [.port n, .led, .events, ledgerArea]) (by simp)
    have hled : (exchangedState n true s).led = s.led := hc0.moves.led_eq (by simp)
    have hgood : memGood (exchangedState n true s).mem = true := by rw [hc.mem]; exact hs.1
    obtain ⟨hone, hbook⟩ := postRaised hgood (hc0.postServed hl hraise.1) (powerUp_lt (s.port n).ripe.defaultContract.1
      (s.port n).ripe.defaultContract.2) (by decide : 0 < 256 ^ 2) (by rw [hled]; exact hraise.2)
    have hripe : ((exchangedState n true s).port n).ripe = (s.port n).ripe := by rw [hc.port]; rfl
    have hres : raiseDefault n (exchangedState n true s) = (ledgerPost n 0 (powerUp (s.port n).ripe.defaultContract.1
        (s.port n).ripe.defaultContract.2) 0 (exchangedState n true s)).2 := by
      rw [raiseDefault, hripe]
      exact if_pos hone
    rw [hres] at hexec
    obtain ⟨hport, hevq, hhost, hmoves⟩ := hbook.since hc hfree (by simp) (by simp) (by simp) (by simp)
    have hreports := reports_flush (s := s) (l := [(8 * n.val + 1, 4), (8 * n.val + 7, 0)])
      (by rw [hevq, hs.2]; exact sortEvents_ascending (by omega)) (by simp) hbook.good (by rw [hhost])
    refine answers_of hexec ?_
    rw [State.port_flush, hport, State.flush_led, hbook.led, hled, hheld]
    refine ⟨rfl, rfl, ?_, level_setLevel _ _, rfl, rfl, rfl, rfl, ?_, rfl, rfl, ?_, hreports, hmoves.flush (by simp) hs.2 hbook.good⟩
    · show ((s.port n).cf.setLevel s.cc 0).suspended = _
      unfold CfSt.setLevel
      split <;> rfl
    · show (s.port n).ct.phased .ready1 = _
      rw [ContractSt.phased, hseq]
      rfl
    · simp
  · have hexec := exec_ready_pswap (b := false) hopen hseq hby.1 hby.2 hkind
    rw [if_neg (by simp [hph]), if_pos ⟨hph, hsrc.symm⟩] at hexec
    have hc := (hstart.closeSeq_kept (by simp [beforeExchange_some hseq, hph])).setContract (st := .default)
      (v := (s.port n).ripe.defaultContract.1) (i := (s.port n).ripe.defaultContract.2) hl hon hsig false (.inl (by simp [hswap]))
    have heq : completeSwap n s = setContract n .default (s.port n).ripe.defaultContract.1 (s.port n).ripe.defaultContract.2 false
        (closeSeq n s) := by
      rw [completeSwap, hsrc]
      exact contractChanged_of_fed (by simp) hc hfed
    rw [heq] at hexec
    exact setsPortFires_of_change hs hc hexec
  · have hexec := (exec_ready_sswap (b := true) hopen hseq hby.1 hby.2 hkind).trans
      (congrArg done ((if_neg (by simp [hph])).trans (if_pos hph)))
    have hc := ((hstart.closeSeq_kept (by rcases hkind with h | h <;> simp [beforeExchange_some hseq, h])).cf fun c =>
      { c with csupOn := true, csupIn := false, csupSwapped := !c.csupSwapped }).event hl hon hsig 7 1
    exact setsPortFires_of_change hs hc hexec
  · have hexec := (exec_ready_sswap (b := false) hopen hseq hby.1 hby.2 hkind).trans
      (congrArg done ((if_neg (by simp [hph])).trans (if_pos hph)))
    have hc := ((hstart.closeSeq_kept (by rcases hkind with h | h <;> simp [beforeExchange_some hseq, h])).cf fun c =>
      { c with csupOn := false, csupIn := true, csupSwapped := !c.csupSwapped }).event hl hon hsig 7 1
    exact setsPortFires_of_change hs hc hexec
  · have hexec := exec_ready_sswap (b := true) hopen hseq hby.1 hby.2 hkind
    rw [if_pos ⟨hph, .inl rfl⟩] at hexec
    exact setsPort_of_change hs ((hplain.setPhase .gaveReady).of_eq (by simp [hseq])) hexec
  · have hexec := exec_ready_sswap (b := false) hopen hseq hby.1 hby.2 hkind
    rw [if_pos ⟨hph, .inr hcsup⟩] at hexec
    have hsent := sendsMsg_of_push_then hs (PortChange.sending s n) (f := fun c => { c with seq := c.phased .ready1 }) hexec
    have hphase : (s.port n).ct.phased .ready1 = some { x with phase := .ready1 } := by rw [ContractSt.phased, hseq]; rfl
    rwa [hphase] at hsent
  · exact sendsAs_of_push hs (PortChange.refl (l := sendAreas s n) (.inl (by simp)) s).closeSeq rfl (exec_swapOff hseq hkind hph hsrc hsw)
  · have hl' : PortAreas [.port n, .events, .mem (txSlot s n) (txSlot s n + 80)] n := by constructor <;> simp
    have hc := ((PortChange.refl hl'.port s).closeSeq_kept (by simp [beforeExchange_some hseq, hph])).setContract (st := .none)
      (v := 0) (i := 0) hl' hon hsig false (.inl (by simp [hswap]))
    have hexec := exec_swapOn hseq hkind hph hsrc
    rw [contractChanged_of_fed (by simp) hc hfed] at hexec
    have hq := hc.pushMsg (start := false) (type := tBye) (objs := [refObj 0 0 0x10 0]) hs.1 (covers_of_mem (by simp)) rfl hroom (by simp)
    exact answers_of hexec ⟨by rw [State.port_flush, hq.port], hq.queued rfl, logs_flush (by rw [hq.evq, hs.2]; rfl) hq.good
      (by rw [hq.host]), hq.moves.flush (by simp) hs.2 hq.good⟩
  · have hc := (hplain.closeSeq_kept (by rcases hkind with h | h <;> simp [beforeExchange_some hseq, h])).cf fun c =>
      { c with csupOn := false, csupTrips := 2 }
    exact setsPort_of_change hs hc (exec_sswapTimeout hseq hkind hph)
  · exact ⟨idles_of hs (if_neg (by simp [isSeq_none hseq])), idles_of hs (if_neg (by simp [isSeq_none hseq])),
      idles_of hs (if_neg (by simp [isSeq_none hseq]))⟩

end Sys2Proof.Machine
end

section
/-! O40: START, STOP and READMIT (R397, R401, R403, R405, R411, R412, R425). -/

namespace Sys2Proof.Machine

section
variable {s : State} {n : Port} {w : Writer}

theorem PortChange.liftForce {l : List Area} {t : State} {p : PortSt} {q : List (Nat × Nat)} (h : PortChange l s t n p q)
    (xs : List ForceSource) :
    PortChange l s (liftForce xs n t) n { p with st := { p.st with force := p.st.force.filter fun y => !xs.contains y } } q := h.st _

/-! ## Who may (R397) -/

section
variable (hp : s.has n = true) (hw : writerPolicy w n = true)
include hp hw

theorem exec_start : exec (.swctlStart n w) s = done (startCmd n s) := if_pos (by simp [hp, hw])

theorem exec_stop : exec (.swctlStop n w) s = done (stopCmd n s) := if_pos (by simp [hp, hw])

theorem exec_readmit : exec (.readmit n w) s = done (readmitCmd n s) := if_pos (by simp [hp, hw])

end

theorem exec_switch_refused (hw : writerPolicy w n = false) : exec (.swctlStart n w) s = done (s.refuseWrite w 2)
    ∧ exec (.swctlStop n w) s = done (s.refuseWrite w 2) ∧ exec (.readmit n w) s = done (s.refuseWrite w 2) :=
  ⟨if_neg (by simp [hw]), if_neg (by simp [hw]), if_neg (by simp [hw])⟩

/-! ## START by the state of the switch (R397, R401 step 1, R405) -/

theorem startCmd_running (h : (s.port n).pw.sw = .on ∨ (s.port n).pw.sw = .wait ∨ (s.port n).pw.sw = .prechg ∨ (s.port n).pw.sw = .ramp) :
    startCmd n s = s := by
  rcases h with h | h | h | h <;> simp only [startCmd, h]

theorem startCmd_held (h : (s.port n).pw.sw = .offtime ∨ ((s.port n).pw.sw = .disch ∧ (s.port n).pw.stuck = false)) :
    startCmd n s = s.updPw n fun p => { p with startHeld := true } := by
  rcases h with h | ⟨h, hstuck⟩
  · simp only [startCmd, h]
  · simp [startCmd, h, hstuck]

theorem startCmd_stuck (h : (s.port n).pw.sw = .disch) (hstuck : (s.port n).pw.stuck = true) : startCmd n s = refuseStart n 1 s := by
  simp [startCmd, h, hstuck]

theorem startCmd_off (h : (s.port n).pw.sw = .off ∨ (s.port n).pw.sw = .giveup) : startCmd n s = checkStart n s := by
  rcases h with h | h <;> simp only [startCmd, h]

theorem checkStart_refused {r : BitVec 3} (h : startReason s n = some r) : checkStart n s = refuseStart n r s := by
  simp only [checkStart, h]

/-- The port in which a START has begun. -/
abbrev PortSt.starts (p : PortSt) (cc : Nat) : PortSt :=
  { p with
    st := { p.st with hs := false }
    pw := { p.pw with
      sw := if p.pw.settled = true then .prechg else .wait
      preStart := if p.pw.settled = true then cc else p.pw.preStart
      startHeld := false, retryLeft := p.ripe.retry, retrying := false, onReached := false } }

/-- A START that nothing stands against: pre-charge on a seated port, and else the seat is waited for. -/
theorem checkStart_begins (h : startReason s n = none) (hw : s.noneWaits)
    (hgroup : ∀ m, sameGroup m n = true → (s.port m).pw.starting = false) :
    PortChange [.port n] s (checkStart n s) n ((s.port n).starts s.cc) [] := by
  have hc := ((PortChange.refl (l := [.port n]) (n := n) (by simp) s).pw fun p =>
    { p with sw := .wait, startHeld := false, retryLeft := (s.port n).ripe.retry, retrying := false, onReached := false }).st
      fun t => { t with hs := false }
  have heq : checkStart n s = promoteWaiting ((s.updPw n fun p =>
      { p with sw := .wait, startHeld := false, retryLeft := (s.port n).ripe.retry, retrying := false, onReached := false }).updSt n
        fun t => { t with hs := false }) := by simp only [checkStart, h]
  rw [heq]
  have ho (m : Port) (hm : m ≠ n) := hc.moves.port_eq (m := m) (by simpa using hm) (by simp)
  cases hset : (s.port n).pw.settled with
  | true =>
    rw [promoteWaiting_one (n := n) (by rw [hc.port]) (by rw [hc.port]; exact hset) (fun m hm => by rw [ho m hm]; exact hw m)
      (fun m hm hg => by rw [ho m hm]; exact hgroup m hg)]
    exact (hc.pw _).of_eq (by simp [PortSt.starts, hset])
  | false =>
    rw [promoteWaiting_unseated (n := n) (by rw [hc.port]; exact hset) (fun m hm => by rw [ho m hm]; exact hw m)]
    exact hc.of_eq (by simp [PortSt.starts, hset])

/-! ## STOP (R403, R411, R412) -/

theorem stopCmd_closed (h : (s.port n).pw.starting = true ∨ (s.port n).pw.sw = .wait ∨ (s.port n).pw.sw = .on) :
    stopCmd n s = openSwitch .off n s := by
  have hsw : (s.port n).pw.sw = .prechg ∨ (s.port n).pw.sw = .ramp ∨ (s.port n).pw.sw = .wait ∨ (s.port n).pw.sw = .on := by
    simpa [PowerSt.starting, or_assoc] using h
  rcases hsw with h | h | h | h <;> simp only [stopCmd, h]

theorem stopCmd_offtime (h : (s.port n).pw.sw = .offtime) :
    stopCmd n s = s.updPw n fun p => { p with sw := .off, startHeld := false } := by simp only [stopCmd, h]

theorem stopCmd_disch (h : (s.port n).pw.sw = .disch) :
    stopCmd n s = s.updPw n fun p => { p with after := .off, startHeld := false } := by simp only [stopCmd, h]

theorem stopCmd_off (h : (s.port n).pw.sw = .off ∨ (s.port n).pw.sw = .giveup) : stopCmd n s = s := by
  have hopen := openSwitch_of_open (s := s) (n := n) .off (by rcases h with h | h <;> simp [h])
  rcases h with h | h <;> simpa only [stopCmd, h] using hopen

/-! ## READMIT (R425) -/

/-- With a feed selected the candidate that is taken back is not sought. -/
theorem readmitCmd_fed (h : (s.port n).pw.failed = true) (hfed : s.fd.feed ≠ .none) :
    readmitCmd n s = liftForce [.trip, .hardShort] n ((s.updPw n fun p =>
      { p with failed := false, sw := if p.sw = .giveup then .off else p.sw }).updSt n fun t => { t with hs := false }) :=
  (if_pos h).trans (feedSeek_of_fed hfed)

end

/-- Settles O40: START and STOP by the state of the switch, READMIT by FAILED. -/
theorem startStopAndReadmit : Obligations.StartStopAndReadmit := by
  intro s n w hs hp
  dsimp only
  have hstart : PortChange [.port n] s s n (s.port n) [] := PortChange.refl (by simp) s
  refine ⟨fun hw => ⟨fun h => ?_, fun h => ?_, fun h hstuck => ?_, fun r h hr => ?_, fun h hr hnone hgroup => ?_, fun h ho hpg => ?_,
    fun h => ?_, fun h => ?_, fun h => ?_, fun h hfed => ?_, fun h => ?_⟩, fun hw => ?_⟩
  · exact idles_of hs ((exec_start hp hw).trans (congrArg done (startCmd_running h)))
  · exact setsPort_updPw hs ((exec_start hp hw).trans (congrArg done (startCmd_held h)))
  · exact setsPort_updPw hs ((exec_start hp hw).trans (congrArg done (startCmd_stuck h hstuck)))
  · exact setsPort_updPw hs ((exec_start hp hw).trans (congrArg done ((startCmd_off h).trans (checkStart_refused hr))))
  · exact setsPort_of_change hs (checkStart_begins hr hnone hgroup) ((exec_start hp hw).trans (congrArg done (startCmd_off h)))
  · have hc : PortChange [.port n] s (openSwitch .off n s) n { s.port n with pw := (s.port n).pw.opened .off n } [] := by
      have hsw : (s.port n).pw.sw = .wait ∨ (s.port n).pw.sw = .prechg ∨ (s.port n).pw.sw = .ramp ∨ (s.port n).pw.sw = .on := by
        simp only [PowerSt.starting, Bool.or_eq_true, decide_eq_true_eq] at h
        tauto
      exact hstart.opensSwitch .off hsw (fun m hm => ho m hm) hpg
    exact setsPort_of_change hs hc ((exec_stop hp hw).trans (congrArg done (stopCmd_closed h)))
  · exact setsPort_updPw hs ((exec_stop hp hw).trans (congrArg done (stopCmd_offtime h)))
  · exact setsPort_updPw hs ((exec_stop hp hw).trans (congrArg done (stopCmd_disch h)))
  · exact idles_of hs ((exec_stop hp hw).trans (congrArg done (stopCmd_off h)))
  · have hc := ((hstart.pw fun p => { p with failed := false, sw := if p.sw = .giveup then .off else p.sw }).st
      fun t => { t with hs := false }).liftForce [.trip, .hardShort]
    refine setsPort_of_change hs (hc.of_eq ?_) ((exec_readmit hp hw).trans (congrArg done (readmitCmd_fed h hfed)))
    have hfilter : (fun x : ForceSource => !List.contains [.trip, .hardShort] x) = fun x => x != .trip && x != .hardShort := by
      funext x
      cases x <;> rfl
    rw [hfilter]
  · exact idles_of hs ((exec_readmit hp hw).trans (congrArg done (if_neg (by simp [h]))))
  · obtain ⟨h1, h2, h3⟩ := exec_switch_refused (s := s) hw
    exact ⟨refusesWrite_of hs (by decide) h1, refusesWrite_of hs (by decide) h2, refusesWrite_of hs (by decide) h3⟩

end Sys2Proof.Machine
end

section
/-! O41: a start ends ON or trips, and the breaker (R400, R401, R406 to R411; DESIGN CHOICE, log entry 91). -/

namespace Sys2Proof.Machine

section
variable {s : State} {n : Port}

/-! ## A trip of a running or starting port (R408, R410) -/

/-- The port that has tripped. -/
abbrev PortSt.tripped (p : PortSt) (n : Port) (cause : BitVec 4) (us cc : Nat) (next : SwState) : PortSt :=
  let q := p.tripRecorded cause us cc
  { q with
    pw := { q.pw.opened next n with pg := false }
    ln := { p.ln with own := p.ln.own ++ [{ ctx := 0, type := 0x10, objs := [refObj 0 0 (tripBye p.firstStart cause) 0] }] } }

/-- A trip of a port whose PHY can send its BYE. -/
theorem answers_trip {c : Instr} (cause : BitVec 4) (hs : s.settled) (hp : s.has n = true) (hon : s.eventsOn = true)
    (hexec : exec c s = done (trip n cause s)) (hfed : s.isFeed n = false) (hseat : (s.port n).st.force.contains .seatBreak = false)
    (hb : (s.port n).wh.burstOpen = false) (hphy : (s.port n).phyOn = true) (hw : s.noneWaits)
    (hsw : (s.port n).pw.sw = .prechg ∨ (s.port n).pw.sw = .ramp ∨ (s.port n).pw.sw = .on) :
    answers c s fun t =>
      t.port n = (s.port n).tripped n cause (offTimeUs (onAttemptUs s n) (s.port n).ripe.duty) s.cc
        (if s.retries n = true then .offtime else .giveup)
      ∧ reports s t (if (s.port n).pw.pg = true then [(8 * n.val + 2, cause.toNat), (8 * n.val + 3, 0)] else [(8 * n.val + 2, cause.toNat)])
      ∧ changesOnly [.port n, .events] s t := by
  obtain ⟨hoport, hoevq, ⟨homem, hohost⟩, homoves⟩ := tripOpened cause hon hp hb (.inr ⟨hsw, hw⟩)
  rw [trip_eq cause hseat hfed, sendBye_of_phyOn _ _ (by rw [hoport]; exact hphy)] at hexec
  have hsort : sortEvents ([(8 * n.val + 2, cause.toNat)] ++ if (s.port n).pw.pg = true then [(8 * n.val + 3, 0)] else [])
      = if (s.port n).pw.pg = true then [(8 * n.val + 2, cause.toNat), (8 * n.val + 3, 0)] else [(8 * n.val + 2, cause.toNat)] := by
    split
    · exact sortEvents_ascending (by omega)
    · rfl
  have hgood := homem.symm ▸ hs.1
  refine answers_of hexec ⟨?_, reports_flush (by rw [State.updLn_evq, hoevq, hs.2]; exact hsort) (by split <;> simp) (by simpa using hgood)
    (by rw [State.updLn_host, hohost]), ((moves_updLn (by simp) _).mpr homoves).flush (by simp) hs.2 (by simpa using hgood)⟩
  rw [State.port_flush, port_updLn, hoport]
  rfl

/-- The on-attempt of a start that never came to ON counts from the pre-charge. -/
theorem onAttemptUs_starting (h : (s.port n).pw.sw = .prechg) (hr : (s.port n).pw.onReached = false) :
    onAttemptUs s n = (s.cc - (s.port n).pw.preStart) / 300 := by
  simp [onAttemptUs, h, hr]

/-- The on-attempt of a port that has been ON counts from the fault timer's start. -/
theorem onAttemptUs_on (h : (s.port n).pw.sw = .on) (hr : (s.port n).pw.onReached = true) (hft : 0 < (s.port n).pw.ftCount) :
    onAttemptUs s n = (s.cc - (s.port n).pw.ftStart) / 300 := by
  simp [onAttemptUs, h, hr, hft]

/-! ## ON at the end of the ramp (R400, R401 step 4, R411) -/

/-- The switch of a port that has come to ON. -/
abbrev PowerSt.ramped (p : PowerSt) : PowerSt := { p with sw := .on, onReached := true, retrying := false }

section
variable {l : List Area} {t : State} {p : PortSt} {q : List (Nat × Nat)}

/-- With no port waiting none is promoted after a change that leaves none waiting. -/
theorem promoteWaiting_of_change (hl : ∀ m, Area.port m ∈ l → m = n) (hany : .anyPort ∉ l) (h : PortChange l s t n p q) (hw : s.noneWaits)
    (hp : p.pw.sw ≠ .wait) : promoteWaiting t = t := by
  refine promoteWaiting_of_noneWaits fun m => ?_
  by_cases hm : m = n
  · subst hm; rw [h.port]; exact hp
  · rw [h.moves.port_eq (fun hmem => hm (hl m hmem)) hany]; exact hw m

end

theorem exec_rampDone (h : (s.port n).pw.sw = .ramp) :
    exec (.rampDone n) s = done (promoteWaiting (if (s.port n).pw.retrying then
      contractChanged n ((setContract n .default (s.port n).ripe.defaultContract.1 (s.port n).ripe.defaultContract.2 true
        (s.updPw n PowerSt.ramped)).updCt n fun c =>
          { c with window := windowOf n (s.port n).ripe true (s.port n).ripe.defaultContract.1, trans := false, seq := none,
                   capsSent := 0, capsNodded := false })
      else s.updPw n PowerSt.ramped)) := if_pos h

end

/-- Settles O41: the two trips by their timers, and the end of a ramp. -/
theorem startsEndOnOrTrip : Obligations.StartsEndOnOrTrip := by
  intro s n hs hp hon
  dsimp only
  refine ⟨fun h hr hfed hseat hb hphy hw => ?_, fun h => idles_of hs (if_neg h), fun h hmode hft hpos hr hfed hseat hb hphy hw => ?_,
    fun h => ?_, fun h hw hr => ?_, fun h hw hr hfed hB hct => ?_, fun h => idles_of hs (if_neg h)⟩
  · have htrip := answers_trip (c := .pretimeExpiry n) 5 hs hp hon (if_pos h) hfed hseat hb hphy hw (.inl h)
    rw [onAttemptUs_starting h hr] at htrip
    exact htrip
  · have hexec : exec (.faultTimerExpiry n) s = done (trip n 1 s) := if_pos (by simp [State.hsArmed, hmode, hft])
    have htrip := answers_trip 1 hs hp hon hexec hfed hseat hb hphy hw (.inr (.inr h))
    rw [onAttemptUs_on h hr hpos] at htrip
    exact htrip
  · exact idles_of hs (if_neg (by simp [Nat.not_le.mpr h]))
  · have hc := (PortChange.refl (l := [.port n]) (n := n) (by simp) s).pw PowerSt.ramped
    have hexec := exec_rampDone h
    rw [hr, if_neg (by decide), promoteWaiting_of_change (by simp) (by simp) hc hw (by simp)] at hexec
    exact setsPort_of_change hs (hc.of_eq (by rw [PowerSt.ramped, ← hr])) hexec
  · have hl := PortAreas.pair n
    have hc := (((PortChange.refl hl.port s).pw PowerSt.ramped).setContract (st := .default) (v := (s.port n).ripe.defaultContract.1)
      (i := (s.port n).ripe.defaultContract.2) hl hon (signals_of_has hp hB) true (.inl (by rw [hct]; decide))).ct fun c =>
        { c with window := windowOf n (s.port n).ripe true (s.port n).ripe.defaultContract.1, trans := false, seq := none,
                 capsSent := 0, capsNodded := false }
    have hexec := exec_rampDone h
    rw [hr, if_pos rfl, contractChanged_of_fed (by simp) hc hfed, promoteWaiting_of_change (by simp) (by simp) hc hw (by simp)] at hexec
    exact setsPortFires_of_change hs hc hexec

end Sys2Proof.Machine
end

section
/-! What shedding leaves of a port that has no grant (R171 to R173). -/

namespace Sys2Proof.Machine

section
variable {s : State} {n m : Port} (hw : (s.port n).pw.sw ≠ .wait)
include hw

/-- A port that does not wait is not promoted, nor changed in any other way. -/
theorem port_promoteWaiting : (promoteWaiting s).port n = s.port n := by
  rw [promoteWaiting_fold]
  generalize allPorts = l
  induction l generalizing s with
  | nil => rfl
  | cons k l ih =>
    have hkeep : (promoteOne s k).port n = s.port n := by
      unfold promoteOne
      split
      · next hmay =>
        have hne : n ≠ k := by
          rintro rfl
          rw [mayPrecharge_of_unwaiting hw] at hmay
          cases hmay
        exact State.port_updPw_ne _ _ _ _ hne
      · rfl
    rw [List.foldl_cons, ih (by rw [hkeep]; exact hw), hkeep]

/-- A change of another port, and then the promotion of those that wait. -/
theorem port_promoted {t : State} (ht : Moves [.port m, .events] s t) (hne : n ≠ m) : (promoteWaiting t).port n = s.port n := by
  have hkeep : t.port n = s.port n := ht.port_eq (by simpa using hne) (by simp)
  rw [port_promoteWaiting (by rw [hkeep]; exact hw), hkeep]

variable (hne : n ≠ m)
include hne

theorem port_openSwitch_ne (next : SwState) : (openSwitch next m s).port n = s.port n := by
  unfold openSwitch
  dsimp only
  split
  · exact port_promoted hw (by simp) hne
  · rfl

theorem port_sendBye_ne (code : Nat) (dflt : Bool) : (sendBye m code dflt s).port n = s.port n := by
  unfold sendBye
  dsimp only
  split
  · exact State.port_updLn_ne _ _ _ _ hne
  · split
    · rfl
    · have hended : Moves [.port m, .events] s ((forcedClose m (setContract m .none 0 0 false (resumeDetach m s))).updCt m fun c =>
          { c with trans := false, prof := false, newProf := false, slewing := false, seq := none, narrowing := false,
                   askNewRun := false, first := false, profGranted := false, ownSwap := none }) := by simp
      have hkeep := hended.port_eq (m := n) (by simpa using hne) (by simp)
      exact (port_openSwitch_ne (by rw [hkeep]; exact hw) hne .off).trans hkeep

theorem port_shedPort_ne : (shedPort m s).port n = s.port n := by
  have hopen : (shedOpened m s).port n = s.port n := port_promoted hw (by simp) hne
  have hfault : (fault m 7 { shedOpened m s with
      led := { (shedOpened m s).led with shedCnt := satInc (shedOpened m s).led.shedCnt } }).port n = s.port n := by
    rw [port_fault, State.port_updPw_ne _ _ _ _ hne]
    exact (same_ports _ _ (by with_reducible rfl) n).trans hopen
  rw [shedPort_eq]
  generalize fault m 7 _ = u at hfault ⊢
  exact (port_sendBye_ne (by rw [hfault]; exact hw) hne _ _).trans hfault

end

section
variable {n : Port} {s : State} (hw : (s.port n).pw.sw ≠ .wait) (hheld : s.led.held[n] = 0)
include hw hheld

/-- Only ports with a grant are shed. -/
theorem port_shedLoop (limit k : Nat) : (shedLoop limit k s).port n = s.port n := by
  induction k generalizing s with
  | zero => rfl
  | succ k ih =>
    unfold shedLoop
    split
    · rfl
    · split
      · rfl
      · next m hm =>
        have hne : n ≠ m := by
          rintro rfl
          have hmem := nextShed_mem hm
          rw [sheddable, Finset.mem_filter] at hmem
          exact absurd hheld (Nat.ne_of_gt hmem.2.1)
        have hkeep := port_shedPort_ne hw hne
        rw [ih (by rw [hkeep]; exact hw) (by rw [shedPort_led]; exact hheld), hkeep]

theorem port_ledgerAct : (ledgerAct s).port n = s.port n := by
  by_cases h : s.led.grantSum + s.led.tokRes ≤ s.led.avail
  · rw [ledgerAct_of_fits h]
    rfl
  · have hhard : (hardShed s).port n = s.port n := by
      unfold hardShed
      split
      · exact port_shedLoop (s := { s with led := { s.led with cut := true } }) hw hheld _ _
      · rfl
    rw [ledgerAct_exceeds h, excursionNoted]
    split
    · exact hhard
    · simpa using hhard

end

/-! ## A RELEASE that R171 judges -/

/-- A RELEASE takes the grant whatever R171 then does, and leaves its port as it is. -/
theorem opRelease_keeps {n : Port} {s : State} (hw : (s.port n).pw.sw ≠ .wait) : (opRelease n s).led.held = s.led.held.set n 0
    ∧ (opRelease n s).port n = (setHeld n 0 0 s).port n := by
  have heq : opRelease n s = ledgerAct (bookWritten n 2 0 0 0 s) := rfl
  have hheld : (bookWritten n 2 0 0 0 s).led.held = s.led.held.set n 0 := setHeld_held n 0 0 s
  have hport := port_bookWritten (s := s) (n := n) 2 0 0 (tok := 0) n
  rw [heq]
  refine ⟨(ledgerAct_keeps _).2.1.trans hheld, ?_⟩
  rw [port_ledgerAct (by rw [hport, port_setHeld]; exact hw) (by rw [hheld]; simp), hport]

end Sys2Proof.Machine
end

section
/-! O42: the end of a discharge and of an off-time, retries, and power-good (R39, R397, R403, R405, R409 to R415). -/

namespace Sys2Proof.Machine

section
variable {l : List Area} {s t : State} {n : Port} {p : PortSt} {q : List (Nat × Nat)}

/-! ## The end of DISCH (R403, R405) -/

/-- The port once its discharge has ended. -/
abbrev PortSt.discharged (p : PortSt) : PortSt :=
  { p with
    st := { p.st with force := p.st.force.filter fun x => x != .trip && x != .hardShort && x != .pcTrap && x != .stuck }
    pw := { p.pw with sw := p.pw.after, discharging := false, stuck := false } }

/-- The state once a discharge has ended, the grant not yet released. -/
def dischEnded (n : Port) (s : State) : State :=
  liftForce [.trip, .hardShort, .pcTrap, .stuck] n (s.updPw n fun p => { p with sw := p.after, discharging := false, stuck := false })

theorem PortChange.dischEnded (h : PortChange l s t n p q) : PortChange l s (dischEnded n t) n p.discharged q := by
  refine ((h.pw fun p => { p with sw := p.after, discharging := false, stuck := false }).liftForce
    [.trip, .hardShort, .pcTrap, .stuck]).of_eq ?_
  have hfilter : (fun x : ForceSource => !List.contains [.trip, .hardShort, .pcTrap, .stuck] x)
      = fun x => x != .trip && x != .hardShort && x != .pcTrap && x != .stuck := by
    funext x
    cases x <;> rfl
  rw [hfilter]

theorem oldSourceOff_of_none (h : (s.port n).ct.seq = none) : oldSourceOff n s = s := by
  rw [oldSourceOff]
  simp only [h]

section
variable (hseq : (s.port n).ct.seq = none) (hstart : (s.port n).pw.startHeld = false)
include hseq

/-- Without a grant nothing is released. -/
theorem endDisch_giveup (hheld : s.led.held[n] = 0) (hafter : (s.port n).pw.after = .giveup) :
    endDisch n s = fault n 0xB ((dischEnded n s).updPw n fun p => { p with startHeld := false }) := by
  have hc := (PortChange.refl (l := [.port n]) (n := n) (by simp) s).dischEnded
  have hnone : ((dischEnded n s).port n).ct.seq = none := by rw [hc.port]; exact hseq
  have hled : ¬ 0 < (dischEnded n s).led.held[n] := by
    have : (dischEnded n s).led.held[n] = 0 := hheld
    omega
  have hbody : endDisch n s = fault n 0xB ((oldSourceOff n (if 0 < (dischEnded n s).led.held[n] then opRelease n (dischEnded n s)
      else dischEnded n s)).updPw n fun p => { p with startHeld := false }) := by
    simp only [endDisch, hafter]
    rfl
  rw [hbody, if_neg hled, oldSourceOff_of_none hnone]

include hstart

omit hseq in
/-- With no START held the port stays in the state that follows. -/
theorem endDisch_rests (hafter : (s.port n).pw.after ≠ .giveup) :
    endDisch n s = oldSourceOff n (if 0 < (dischEnded n s).led.held[n] then opRelease n (dischEnded n s) else dischEnded n s) := by
  rw [endDisch]
  split
  · next h => exact absurd h hafter
  · rfl
  · exact if_neg (by rw [hstart]; decide)

theorem endDisch_bare (hafter : (s.port n).pw.after ≠ .giveup) (hheld : s.led.held[n] = 0) : endDisch n s = dischEnded n s := by
  have hc := (PortChange.refl (l := [.port n]) (n := n) (by simp) s).dischEnded
  have hled : ¬ 0 < (dischEnded n s).led.held[n] := by
    have : (dischEnded n s).led.held[n] = 0 := hheld
    omega
  rw [endDisch_rests hstart hafter, if_neg hled, oldSourceOff_of_none (by rw [hc.port]; exact hseq)]

/-- A grant is released with the discharge. -/
theorem endDisch_releases (hafter : (s.port n).pw.after = .off ∨ (s.port n).pw.after = .offtime) (hheld : 0 < s.led.held[n]) :
    endDisch n s = opRelease n (dischEnded n s) := by
  have hc := (PortChange.refl (l := [.port n]) (n := n) (by simp) s).dischEnded
  have hsw : ((dischEnded n s).port n).pw.sw ≠ .wait := by
    rw [hc.port]
    rcases hafter with h | h <;> simp [h]
  have hled : 0 < (dischEnded n s).led.held[n] := hheld
  have hnone : ((opRelease n (dischEnded n s)).port n).ct.seq = none := by
    rw [(opRelease_keeps hsw).2, port_setHeld, hc.port]
    exact hseq
  rw [endDisch_rests hstart (by rcases hafter with h | h <;> simp [h]), if_pos hled, oldSourceOff_of_none hnone]

end

theorem exec_dischargeDone (h : (s.port n).pw.sw = .disch) (hB : n ≠ portB) : exec (.dischargeDone n) s = done (endDisch n s) :=
  if_pos ⟨h, hB⟩

/-- A RELEASE that fits, on a port that has no token out. -/
theorem released (hm : memGood s.mem = true) (hfree : (s.port n).wh.token = false)
    (hfits : (s.led.holding n 0 0).grantSum + (s.led.holding n 0 0).tokRes ≤ s.led.avail) :
    (opRelease n s).led = { (s.led.holding n 0 0).settled with jhead := (s.led.jhead + 1) % 32 } ∧ (opRelease n s).evq = s.evq
    ∧ (opRelease n s).port n = { s.port n with ct := { (s.port n).ct with tokAfter := none } }
    ∧ (∀ l, .port n ∈ l → .led ∈ l → ledgerArea ∈ l → Moves l s (opRelease n s)) := by
  have hb := booked 2 0 0 (keepsTok_of_free 0 hfree) hfits
  rw [← opRelease_eq] at hb
  have hn := n.isLt
  have hj : s.led.jhead % 32 < 32 := Nat.mod_lt _ (by decide)
  refine ⟨hb.led, hb.evq, ?_, fun l hp hl ha => hb.moves hm l hp hl ⟨_, _, ha, by omega, by omega⟩ ⟨_, _, ha, by omega, by omega⟩⟩
  rw [hb.port, hfree]
  simp

/-! ## BACKFED_CHECK (R405) -/

section
variable {ma : Int} (h : (s.port n).pw.sw = .disch) (hd : (s.port n).pw.discharging = false)
include h hd

theorem exec_backfed_stuck (hma : backfedLevel n ≤ ma.natAbs) (hstuck : (s.port n).pw.stuck = false) :
    exec (.backfedCheck n ma) s = done (fault n 0xD (forceOff .stuck n (s.updPw n fun p => { p with stuck := true }))) :=
  (if_pos ⟨h, hd⟩).trans ((if_neg (Nat.not_lt.mpr hma)).trans (if_neg (by simp [hstuck])))

theorem exec_backfed_held (hma : ma.natAbs < backfedLevel n) (hB : n ≠ portB) :
    exec (.backfedCheck n ma) s = done (endDisch n (fault n 0xC s)) :=
  (if_pos ⟨h, hd⟩).trans ((if_pos hma).trans (congrArg (fun u => done (endDisch n u)) (if_neg hB)))

end

/-! ## The end of an off-time (R397, R409 to R412) -/

section
variable (h : (s.port n).pw.sw = .offtime)
include h

theorem endOffTime_sink (hatt : (s.port n).cf.attach ≠ .attachedSrc) :
    endOffTime n s = s.updPw n fun q => { q with sw := .off, startHeld := false } :=
  (if_neg (not_not.mpr h)).trans (if_pos hatt)

variable (hatt : (s.port n).cf.attach = .attachedSrc)
include hatt

theorem endOffTime_waits (hr : (s.port n).pw.ripenedSinceTrip = false) :
    endOffTime n s = s.updPw n fun q => { q with offElapsed := true } :=
  (if_neg (not_not.mpr h)).trans ((if_neg (not_not.mpr hatt)).trans (if_pos (by simp [hr])))

variable (hr : (s.port n).pw.ripenedSinceTrip = true) (hth : (s.port n).pw.thermHold = false)
  (htrap : (s.port n).st.force.contains .leTrap = false) (hstart : (s.port n).pw.startHeld = false)
include hr hth htrap hstart

theorem endOffTime_givesUp (hret : s.retries n = false) : endOffTime n s = giveUp n s :=
  (if_neg (not_not.mpr h)).trans ((if_neg (not_not.mpr hatt)).trans ((if_neg (by rw [hr, hth, htrap]; decide)).trans
    (if_pos (by simp [hstart, hret]))))

omit h hatt hr hth htrap hstart in
/-- The port with its next retry counted (R411). -/
def retryCounted (n : Port) (s : State) : State := s.updPw n fun q =>
  { q with retryLeft := if (s.port n).pw.startHeld then (s.port n).ripe.retry else if (s.port n).ripe.retry = 255 then 255
             else (s.port n).pw.retryLeft - 1
           startHeld := false }

/-- The retry of a port: its default contract raised, its mode back, the seat waited for (R411). -/
def retriedState (n : Port) (u s : State) : State :=
  (u.updPw n fun q => { q with sw := .wait, onReached := false, retrying := true, offElapsed := false }).updSt n fun t =>
    { t with hs := false, pendMode := if t.lastMode = .off then none else some t.lastMode, prevMode := none, pendCc := s.cc }

omit hstart in
theorem endOffTime_retries {new : Nat} (hnew : new = powerUp (s.port n).ripe.defaultContract.1 (s.port n).ripe.defaultContract.2)
    (hret : s.retries n = true) (hbooks : raiseRefused s.led n new 0 = false) :
    endOffTime n s = promoteWaiting (retriedState n
      (bookOp n 0 new (max (retryCounted n s).led.held[n] new) (max (retryCounted n s).led.tokpwr[n] 0) (retryCounted n s)) s) := by
  have hraise : opRaise n new 0 (retryCounted n s) =
      (1, bookOp n 0 new (max (retryCounted n s).led.held[n] new) (max (retryCounted n s).led.tokpwr[n] 0) (retryCounted n s)) := opRaise_covered_eq hbooks
  subst hnew
  rw [endOffTime, if_neg (not_not.mpr h), if_neg (not_not.mpr hatt), if_neg (by rw [hr, hth, htrap]; decide), if_neg (by simp [hret])]
  unfold retryCounted at hraise ⊢
  dsimp only
  rw [hraise, if_pos rfl]
  rfl

end

end

theorem port_retriedState (n : Port) (u s : State) : (retriedState n u s).port n = { u.port n with
    pw := { (u.port n).pw with sw := .wait, onReached := false, retrying := true, offElapsed := false }
    st := { (u.port n).st with
      hs := false, pendMode := if (u.port n).st.lastMode = .off then none else some (u.port n).st.lastMode
      prevMode := none, pendCc := s.cc } } := by
  rw [retriedState, port_updSt, port_updPw]

/-! ## PG_DEGLITCH_DONE (R413, R414) -/

section
variable {s : State} {n : Port}

theorem exec_pg_idle (h : pgHolds s n = false ∨ (s.port n).pw.pg = true) : exec (.pgDeglitchDone n) s = done s :=
  if_neg (by rcases h with h | h <;> simp [h])

theorem exec_pg (hp : s.has n = true) (h : pgHolds s n = true) (hpg : (s.port n).pw.pg = false) :
    exec (.pgDeglitchDone n) s = done ((s.updPw n fun p => { p with pg := true }).firePort n 3 1) :=
  if_pos (by simp [hp, h, hpg])

/-- PGOOD fires on every port the hub has, B included (R11, R413). -/
theorem PortChange.pgood {l : List Area} {t : State} {p : PortSt} {q : List (Nat × Nat)} (hl : PortAreas l n) (h : PortChange l s t n p q)
    (hon : s.eventsOn = true) (hp : s.has n = true) (arg : Nat) :
    PortChange l s (t.firePort n 3 arg) n p (q ++ [(8 * n.val + 3, arg)]) := by
  have hon' : t.eventsOn = true := by rw [h.eventsOn hl.dev, hon]
  have hp' : t.has n = true := by rw [h.has hl.dev hl.stone, hp]
  refine ⟨?_, ?_, ?_, ?_, (moves_firePort (.inl hl.events) _ _ _).mpr h.moves, h.listed⟩
  · rw [State.port_firePort, h.port]
  · rw [← List.append_assoc, ← h.evq, State.firePort, if_pos (by simp [hon', hp'])]
    rfl
  · rw [State.firePort_mem, h.mem]
  · rw [State.firePort_host, h.host]

end

/-- Settles O42: the discharge and its checks, the off-time and its retries, and power-good. -/
theorem dischargesAndRetries : Obligations.DischargesAndRetries := by
  intro s n ma hs hp hon
  dsimp only
  have hl := PortAreas.pair n
  have hstart := PortChange.refl hl.port s
  have hplain : PortChange [.port n] s s n (s.port n) [] := PortChange.refl (by simp) s
  refine ⟨fun h hB hheldStart hseq => ⟨fun hheld hafter => ?_, fun hheld hafter => ?_, fun hheld hafter => ⟨?_, fun hfree hfits => ?_⟩⟩,
    fun h => setsPort_updPw (c := .dischargeTimeout n) hs (if_pos h), fun h => ⟨idles_of hs (if_neg fun k => h k.1), idles_of hs (if_neg h), idles_of hs (if_neg fun k => h k.1)⟩,
    fun h hd hstuck hma hb => ?_, fun h hd hafter hheldStart hma hB hheld hseq => ?_, fun h hatt => ?_, fun h hatt hr => ?_,
    fun h hatt hr hth htrap hheldStart => ⟨fun hret => ?_, fun hret hbooks hfree hw hset => ?_⟩,
    fun h => idles_of hs (congrArg done (if_pos h)), fun h hpg => ?_, fun h => idles_of hs (exec_pg_idle h)⟩
  · have hexec := (exec_dischargeDone h hB).trans (congrArg done (endDisch_bare hseq hheldStart hafter hheld))
    exact setsPort_of_change hs hplain.dischEnded hexec
  · have hexec := (exec_dischargeDone h hB).trans (congrArg done (endDisch_giveup hseq hheld hafter))
    have hc := ((hstart.dischEnded).pw fun p => { p with startHeld := false }).fault hl hon hp 0xB
    exact setsPortFires_of_change hs (hc.of_eq (by simp [hafter, hheldStart])) hexec
  · have hexec := (exec_dischargeDone h hB).trans (congrArg done (endDisch_releases hseq hheldStart hafter hheld))
    have hsw : ((dischEnded n s).port n).pw.sw ≠ .wait := by
      rw [hplain.dischEnded.port]
      rcases hafter with h | h <;> simp [h]
    obtain ⟨hgone, hport⟩ := opRelease_keeps hsw
    refine answers_of hexec ⟨?_, ?_⟩
    · rw [State.flush_led, hgone]
      rfl
    · rw [State.port_flush, hport, port_setHeld, hplain.dischEnded.port]
  · have hexec := (exec_dischargeDone h hB).trans (congrArg done (endDisch_releases hseq hheldStart hafter hheld))
    have hc := hplain.dischEnded
    obtain ⟨hled, hevq, hport, hmoves⟩ := released (s := dischEnded n s) (n := n) (by rw [hc.mem]; exact hs.1) (by rw [hc.port]; exact hfree) hfits
    have hquiet : (opRelease n (dischEnded n s)).evq = [] := by rw [hevq, hc.evq, hs.2]; rfl
    refine answers_quiet hexec hquiet ⟨by rw [hport, hc.port], hled, ?_⟩
    exact ((hc.mono (by simp)).moves.trans (hmoves _ (by simp) (by simp) (by simp))).changesOnly hs.2 hquiet
  · have hc := ((hstart.pw fun p => { p with stuck := true }).forceOff hl .stuck hb).fault hl hon hp 0xD
    exact setsPortFires_of_change hs hc (exec_backfed_stuck h hd hma hstuck)
  · have hexec := exec_backfed_held h hd hma hB
    have hf := hstart.fault hl hon hp 0xC
    have hheld' : (fault n 0xC s).led.held[n] = 0 := by simpa using hheld
    have hbare := endDisch_bare (s := fault n 0xC s) (by rw [hf.port]; exact hseq) (by rw [hf.port]; exact hheldStart)
      (by rw [hf.port]; simp [hafter]) hheld'
    rw [hbare] at hexec
    exact setsPortFires_of_change hs (hf.dischEnded.of_eq (by simp [hafter, hd])) hexec
  · exact setsPort_updPw (c := .offtimeEnd n) hs (congrArg done (endOffTime_sink h hatt))
  · exact setsPort_updPw (c := .offtimeEnd n) hs (congrArg done (endOffTime_waits h hatt hr))
  · have hc := (hstart.pw fun p => { p with sw := .giveup, startHeld := false }).fault hl hon hp 0xB
    exact setsPortFires_of_change hs (hc.of_eq (by simp [hheldStart])) (congrArg done (endOffTime_givesUp h hatt hr hth htrap hheldStart hret))
  · have hexec : exec (.offtimeEnd n) s = done _ := congrArg done (endOffTime_retries h hatt hr hth htrap rfl hret hbooks)
    have hport0 : (retryCounted n s).port n = { s.port n with pw := { (s.port n).pw with
        retryLeft := if (s.port n).ripe.retry = 255 then 255 else (s.port n).pw.retryLeft - 1, startHeld := false } } := by
      rw [retryCounted, port_updPw, hheldStart]
      rfl
    have hb := booked (s := retryCounted n s) 0 (powerUp (s.port n).ripe.defaultContract.1 (s.port n).ripe.defaultContract.2)
      (max (retryCounted n s).led.held[n] (powerUp (s.port n).ripe.defaultContract.1 (s.port n).ripe.defaultContract.2))
      (keepsTok_raise (retryCounted n s) n 0) (raise_fits hbooks)
    generalize bookOp n 0 _ _ _ (retryCounted n s) = u at hexec hb
    have hportu := hb.port
    rw [hport0] at hportu
    have hport := port_retriedState n u s
    rw [hportu] at hport
    have hunseated : promoteWaiting (retriedState n u s) = retriedState n u s := by
      refine promoteWaiting_unseated (n := n) (by rw [hport]; exact hset) fun m hm => ?_
      rw [retriedState, State.port_updSt_ne _ _ _ _ hm, State.port_updPw_ne _ _ _ _ hm, hb.others m hm, retryCounted,
        State.port_updPw_ne _ _ _ _ hm]
      exact hw m
    rw [hunseated] at hexec
    have hquiet : (retriedState n u s).evq = [] := hb.evq.trans hs.2
    refine answers_quiet hexec hquiet ⟨?_, ?_⟩
    · rw [hport]
      simp [hfree, hheldStart]
    · exact congrArg LedgerSt.held hb.led
  · exact setsPortFires_of_change hs ((hstart.pw fun p => { p with pg := true }).pgood hl hon hp 1) (exec_pg hp h hpg)

end Sys2Proof.Machine
end

section
/-! A microsecond of telemetry on every port (R401, R402, R406, R416, R417, R422). -/

namespace Sys2Proof.Machine

/-! ## What a microsecond leaves of a port -/

/-- The meter after a microsecond (R416, R417). -/
def PortSt.metered (p : PortSt) (n : Port) : MeterSt :=
  let pw : Int := p.pw.vPort * p.pw.iPort
  let units := (openQuot (pw.natAbs * 1024) 1000000).toNat
  let m := { p.me with sumV := p.me.sumV + p.pw.vPort, sumI := p.me.sumI + p.pw.iPort, sumP := p.me.sumP + pw, count := p.me.count + 1 }
  if 0 ≤ pw then { m with eexp := (addEnergy p.me.eexp p.me.remExp units).1, remExp := (addEnergy p.me.eexp p.me.remExp units).2.1 }
  else if isW n then m
  else { m with eimp := (addEnergy p.me.eimp p.me.remImp units).1, remImp := (addEnergy p.me.eimp p.me.remImp units).2.1 }

/-- The fault timer after a microsecond (R406). -/
def PortSt.faultTicked (p : PortSt) (cc : Nat) : PowerSt :=
  if p.faultInput then
    { p.pw with ftStart := if p.pw.ftCount = 0 then cc else p.pw.ftStart, ftCount := min (8000 * p.ripe.ftime) (p.pw.ftCount + 8) }
  else { p.pw with ftCount := p.pw.ftCount - 1 }

/-- Across the main switch, in mV. -/
abbrev PowerSt.across (q : PowerSt) : Nat := ((q.vStage : Int) - q.vPort).natAbs

/-- The start after a microsecond that trips nothing (R401, R402). -/
def PowerSt.startTicked (q : PowerSt) : PowerSt :=
  if q.sw = .prechg then (if q.across < 1500 then { q with sw := .ramp, rampPj := 0 } else q)
  else if q.sw = .ramp then { q with rampPj := q.rampPj + q.across * q.iPort.natAbs }
  else q

/-- A port whose ramp, if it is in one, stays below its energy limit in this microsecond. -/
def PortSt.rampsOn (p : PortSt) : Prop :=
  p.pw.sw = .ramp → p.pw.rampPj + p.pw.across * p.pw.iPort.natAbs < 1000000000 * p.ripe.rampe

/-- The port after a microsecond. -/
def PortSt.ticked (p : PortSt) (n : Port) (cc : Nat) : PortSt :=
  { p with me := p.metered n, pw := (p.faultTicked cc).startTicked }

/-! ## What a microsecond leaves of the hub -/

/-- From s to u port n becomes p, no other port changes, and neither does the feed that is selected. -/
structure Ticks (s u : State) (n : Port) (p : PortSt) : Prop where
  port : u.port n = p
  others : ∀ m, m ≠ n → u.port m = s.port m
  feed : u.fd.feed = s.fd.feed ∧ u.fd.pre = s.fd.pre
  mem : u.mem = s.mem
  moves : Moves [.anyPort, .fd, .events] s u

section
variable {s t u : State} {n : Port} {p p' : PortSt}

theorem Ticks.refl (n : Port) (s : State) : Ticks s s n (s.port n) := ⟨rfl, fun _ _ => rfl, ⟨rfl, rfl⟩, rfl, Moves.refl _ s⟩

theorem Ticks.trans (h : Ticks s t n p) (k : Ticks t u n p') : Ticks s u n p' :=
  ⟨k.port, fun m hm => (k.others m hm).trans (h.others m hm), ⟨k.feed.1.trans h.feed.1, k.feed.2.trans h.feed.2⟩, k.mem.trans h.mem,
    h.moves.trans k.moves⟩

theorem Ticks.of_eq (h : Ticks s t n p) (hp : p = p') : Ticks s t n p' := hp ▸ h

theorem Ticks.upd (h : Ticks s t n p) (f : PortSt → PortSt) : Ticks s (t.updPort n f) n (f p) :=
  h.trans ⟨by rw [State.port_updPort_same, h.port], fun m hm => State.port_updPort_ne _ _ _ _ hm, ⟨rfl, rfl⟩, rfl, by simp⟩

theorem Ticks.pw (h : Ticks s t n p) (f : PowerSt → PowerSt) : Ticks s (t.updPw n f) n { p with pw := f p.pw } := h.upd _

theorem Ticks.me (h : Ticks s t n p) (f : MeterSt → MeterSt) : Ticks s (t.updMe n f) n { p with me := f p.me } := h.upd _

theorem Ticks.wrap (h : Ticks s t n p) (imp : Bool) : Ticks s (energyWrap n imp t) n p := by
  refine h.trans ⟨?_, fun m _ => ?_, ⟨?_, ?_⟩, ?_, ?_⟩
  · rw [energyWrap, State.port_fire]; exact h.port
  · rw [energyWrap, State.port_fire]; rfl
  · rw [energyWrap, State.fire_fd]
  · rw [energyWrap, State.fire_fd]
  · rw [energyWrap, State.fire_mem]
  · exact (moves_fire (by simp) _ _).mpr ((moves_fd (by simp) _).mpr (Moves.refl _ t))

theorem tickMeter_ticks (n : Port) (s : State) : Ticks s (tickMeter n s) n { s.port n with me := (s.port n).metered n } := by
  have hsums := (Ticks.refl n s).me fun m => { m with
    sumV := m.sumV + (s.port n).pw.vPort, sumI := m.sumI + (s.port n).pw.iPort
    sumP := m.sumP + (s.port n).pw.vPort * (s.port n).pw.iPort, count := m.count + 1 }
  unfold tickMeter PortSt.metered
  dsimp only
  split
  · split
    · exact (hsums.me _).wrap false
    · exact hsums.me _
  · split
    · exact hsums
    · split
      · exact (hsums.me _).wrap true
      · exact hsums.me _

theorem tickFault_ticks (h : Ticks s t n p) : Ticks s (tickFault n t) n { p with pw := p.faultTicked t.cc } := by
  unfold tickFault PortSt.faultTicked
  dsimp only
  rw [h.port]
  split
  · exact h.pw _
  · exact h.pw _

theorem tickStart_ticks (h : Ticks s t n p) (hr : p.rampsOn) : Ticks s (tickStart n t) n { p with pw := p.pw.startTicked } := by
  unfold tickStart PowerSt.startTicked
  dsimp only
  rw [h.port]
  split
  · split
    · exact h.pw _
    · exact h
  · split
    · next hramp =>
      rw [if_neg (Nat.not_le.mpr (hr hramp))]
      exact h.pw _
    · exact h

/-- The fault timer moves neither the switch nor the readings. -/
theorem rampsOn_faultTicked (cc : Nat) (hr : p.rampsOn) (m : MeterSt) : ({ p with me := m, pw := p.faultTicked cc } : PortSt).rampsOn := by
  unfold PortSt.rampsOn PortSt.faultTicked
  split <;> exact hr

theorem tickPort_ticks (hp : s.has n = true) (hr : (s.port n).rampsOn) : Ticks s (tickPort n s) n ((s.port n).ticked n s.cc) := by
  have hcc : (tickMeter n s).cc = s.cc := (tickMeter_ticks n s).moves.cc_eq (by simp)
  have hfault := tickFault_ticks (tickMeter_ticks n s)
  rw [hcc] at hfault
  have hstart := tickStart_ticks hfault (rampsOn_faultTicked s.cc hr _)
  rw [tickPort, if_pos hp]
  exact hstart

/-! ## Every port -/

/-- From s to u the ports of a list have had their microsecond. -/
structure TickedAll (s u : State) (l : List Port) : Prop where
  others : ∀ m, m ∉ l → u.port m = s.port m
  feed : u.fd.feed = s.fd.feed ∧ u.fd.pre = s.fd.pre
  mem : u.mem = s.mem
  moves : Moves [.anyPort, .fd, .events] s u

theorem tickedAll (l : List Port) (hnd : l.Nodup) (s : State) (hr : ∀ k ∈ l, (s.port k).rampsOn) :
    TickedAll s (l.foldl (fun t k => tickPort k t) s) l := by
  induction l generalizing s with
  | nil => exact ⟨fun _ _ => rfl, ⟨rfl, rfl⟩, rfl, Moves.refl _ s⟩
  | cons k l ih =>
    obtain ⟨hk, hnd⟩ := List.nodup_cons.mp hnd
    have htick : ∃ p, Ticks s (tickPort k s) k p := by
      cases hp : s.has k with
      | true => exact ⟨_, tickPort_ticks hp (hr k List.mem_cons_self)⟩
      | false => exact ⟨_, by rw [tickPort, hp]; exact Ticks.refl k s⟩
    obtain ⟨p, htick⟩ := htick
    have hne (m : Port) (hm : m ∈ l) : m ≠ k := fun h => hk (h ▸ hm)
    have hall := ih hnd (tickPort k s) fun m hm => by rw [htick.others m (hne m hm)]; exact hr m (List.mem_cons_of_mem k hm)
    refine ⟨fun m hm => ?_, ⟨hall.feed.1.trans htick.feed.1, hall.feed.2.trans htick.feed.2⟩, hall.mem.trans htick.mem,
      htick.moves.trans hall.moves⟩
    rw [List.mem_cons, not_or] at hm
    exact (hall.others m hm.2).trans (htick.others m hm.1)

/-- A port in the microsecond of all of them. -/
theorem port_tickAll (hp : s.has n = true) (hr : ∀ k, (s.port k).rampsOn) :
    (allPorts.foldl (fun t k => tickPort k t) s).port n = (s.port n).ticked n s.cc := by
  obtain ⟨a, b, hsplit⟩ := List.append_of_mem (mem_allPorts n)
  have hnodup : allPorts.Nodup := List.nodup_finRange 16
  rw [hsplit, List.nodup_append] at hnodup
  obtain ⟨hna, hnb, hab⟩ := hnodup
  obtain ⟨hb, hnb⟩ := List.nodup_cons.mp hnb
  have ha : n ∉ a := fun h => hab n h n List.mem_cons_self rfl
  have hfirst := tickedAll a hna s fun k _ => hr k
  rw [hsplit, List.foldl_append, List.foldl_cons]
  generalize a.foldl (fun t k => tickPort k t) s = u at hfirst
  have hport : u.port n = s.port n := hfirst.others n ha
  have hpu : u.has n = true := by rw [has_congr (hfirst.moves.dev_eq (by simp)) (hfirst.moves.stone_eq (by simp))]; exact hp
  have htick := tickPort_ticks hpu (by rw [hport]; exact hr n)
  have hrest := tickedAll b hnb (tickPort n u) fun k hk => by
    have hkn : k ≠ n := fun h => hb (h ▸ hk)
    have hka : k ∉ a := fun h => hab k h k (List.mem_cons_of_mem n hk) rfl
    rw [htick.others k hkn, hfirst.others k hka]
    exact hr k
  rw [hrest.others n hb, htick.port, hport, hfirst.moves.cc_eq (by simp)]

end

end Sys2Proof.Machine
end

section
/-! The records of a millisecond, and O43 (R401, R402, R406, R416 to R419, R422). -/

namespace Sys2Proof.Machine

/-! ## Energy (R417; rounding is log entry 24's choice) -/

/-- An accumulator that does not wrap counts every unit. -/
theorem addEnergy_counts {acc : BitVec 48} {rem units : Nat} (h : acc.toNat * 1024 + rem + units < 2 ^ 58) :
    (addEnergy acc rem units).1.toNat * 1024 + (addEnergy acc rem units).2.1 = acc.toNat * 1024 + rem + units := by
  unfold addEnergy
  dsimp only
  rw [BitVec.toNat_ofNat, Nat.mod_eq_of_lt (by omega)]
  omega

section
variable {p : PortSt} {n : Port}

theorem metered_sums : (p.metered n).sumV = p.me.sumV + p.pw.vPort ∧ (p.metered n).sumI = p.me.sumI + p.pw.iPort
    ∧ (p.metered n).sumP = p.me.sumP + p.pw.vPort * p.pw.iPort ∧ (p.metered n).count = p.me.count + 1 := by
  unfold PortSt.metered
  dsimp only
  split
  · exact ⟨rfl, rfl, rfl, rfl⟩
  · split <;> exact ⟨rfl, rfl, rfl, rfl⟩

theorem metered_exports (h : 0 ≤ (p.pw.vPort : Int) * p.pw.iPort) : p.metered n = { p.metered n with
    eexp := (addEnergy p.me.eexp p.me.remExp (openQuot (((p.pw.vPort : Int) * p.pw.iPort).natAbs * 1024) 1000000).toNat).1
    remExp := (addEnergy p.me.eexp p.me.remExp (openQuot (((p.pw.vPort : Int) * p.pw.iPort).natAbs * 1024) 1000000).toNat).2.1
    eimp := p.me.eimp, remImp := p.me.remImp } := by
  unfold PortSt.metered
  dsimp only
  rw [if_pos h]

theorem metered_imports (h : (p.pw.vPort : Int) * p.pw.iPort < 0) (hw : isW n = false) : p.metered n = { p.metered n with
    eimp := (addEnergy p.me.eimp p.me.remImp (openQuot (((p.pw.vPort : Int) * p.pw.iPort).natAbs * 1024) 1000000).toNat).1
    remImp := (addEnergy p.me.eimp p.me.remImp (openQuot (((p.pw.vPort : Int) * p.pw.iPort).natAbs * 1024) 1000000).toNat).2.1
    eexp := p.me.eexp, remExp := p.me.remExp } := by
  unfold PortSt.metered
  dsimp only
  rw [if_neg (Int.not_le.mpr h), if_neg (by simp [hw])]

theorem startTicked_eq (q : PowerSt) : q.startTicked = { q with
    sw := if q.sw = .prechg ∧ q.across < 1500 then .ramp else q.sw
    rampPj := if q.sw = .prechg ∧ q.across < 1500 then 0
      else if q.sw = .ramp then q.rampPj + q.across * q.iPort.natAbs else q.rampPj } := by
  unfold PowerSt.startTicked
  by_cases hpre : q.sw = .prechg
  · by_cases hnear : q.across < 1500
    · simp only [hpre, hnear, and_self, if_true]
    · rw [if_pos hpre, if_neg hnear, if_neg fun h => hnear h.2, if_neg fun h => hnear h.2, if_neg (by simp [hpre])]
  · by_cases hramp : q.sw = .ramp
    · simp [hramp]
    · simp [hpre, hramp]

theorem faultTicked_eq (cc : Nat) : p.faultTicked cc = { p.pw with
    ftCount := if p.faultInput = true then min (8000 * p.ripe.ftime) (p.pw.ftCount + 8) else p.pw.ftCount - 1
    ftStart := if p.faultInput = true ∧ p.pw.ftCount = 0 then cc else p.pw.ftStart } := by
  unfold PortSt.faultTicked
  split
  · next h => simp [h]
  · next h => simp [h]

end

/-! ## A fold over the ports in which each changes its own (R416) -/

section
variable {f : State → Port → State} (hf : ∀ t k m, m ≠ k → (f t k).port m = t.port m)
include hf

theorem port_foldl_ne {n : Port} (l : List Port) (hn : n ∉ l) (s : State) : (l.foldl f s).port n = s.port n := by
  induction l generalizing s with
  | nil => rfl
  | cons k l ih =>
    rw [List.mem_cons, not_or] at hn
    rw [List.foldl_cons, ih hn.2, hf s k n hn.1]

/-- The port n is as its own step leaves it, on a state in which it is still as before. -/
theorem port_foldl_all {I : State → Prop} (hI : ∀ t k, I t → I (f t k)) {s : State} (hs : I s) (n : Port) :
    ∃ u, I u ∧ u.port n = s.port n ∧ (allPorts.foldl f s).port n = (f u n).port n := by
  obtain ⟨a, b, hsplit⟩ := List.append_of_mem (mem_allPorts n)
  have hnodup : allPorts.Nodup := List.nodup_finRange 16
  rw [hsplit, List.nodup_middle, List.nodup_cons, List.mem_append, not_or] at hnodup
  obtain ⟨⟨ha, hb⟩, -⟩ := hnodup
  refine ⟨a.foldl f s, ?_, port_foldl_ne hf a ha s, ?_⟩
  · exact List.foldlRecOn a f hs fun t ht k _ => hI t k ht
  · rw [hsplit, List.foldl_append, List.foldl_cons, port_foldl_ne hf b hb]

end

/-- The means of the ports that have been read. -/
def meansTaken (s : State) : State :=
  allPorts.foldl (fun t n => if t.has n ∧ 0 < (t.port n).me.count then updateMeans n t else t) s

/-- The meter of a port whose means are taken. -/
abbrev MeterSt.averaged (m : MeterSt) : MeterSt :=
  { m with
    vmeas := BitVec.ofInt 16 (openQuot m.sumV (10 * m.count)), imeas := BitVec.ofInt 32 (openQuot m.sumI m.count)
    pmeas := BitVec.ofInt 32 (openQuot m.sumP (10000 * m.count)), sumV := 0, sumI := 0, sumP := 0, count := 0 }

section
variable {s : State}

theorem meansTaken_moves : Moves [.anyPort] s (meansTaken s) := by
  refine Moves.foldl (fun t k => ?_) _ s
  split
  · exact (moves_updMe (.inr (by simp)) _).mpr (Moves.refl _ t)
  · exact Moves.refl _ t

theorem meansTaken_frame : (meansTaken s).mem = s.mem ∧ (meansTaken s).evq = s.evq ∧ (meansTaken s).fd = s.fd := by
  refine List.foldlRecOn allPorts _ (motive := fun t : State => t.mem = s.mem ∧ t.evq = s.evq ∧ t.fd = s.fd) ⟨rfl, rfl, rfl⟩ fun t ht k _ => ?_
  split
  · exact ht
  · exact ht

theorem port_meansTaken {n : Port} (hp : s.has n = true) (hc : 0 < (s.port n).me.count) :
    (meansTaken s).port n = { s.port n with me := (s.port n).me.averaged } := by
  obtain ⟨u, hu, hport, hall⟩ := port_foldl_all (f := fun t n => if t.has n ∧ 0 < (t.port n).me.count then updateMeans n t else t)
    (fun t k m hm => by
      split
      · exact State.port_updMe_ne _ _ _ _ hm
      · rfl)
    (I := Moves [.anyPort] s) (fun t k ht => ht.trans (by
      split
      · exact (moves_updMe (.inr (by simp)) _).mpr (Moves.refl _ t)
      · exact Moves.refl _ t)) (Moves.refl _ s) n
  have hpu : u.has n = true := by rw [has_congr (hu.dev_eq (by simp)) (hu.stone_eq (by simp))]; exact hp
  refine hall.trans ?_
  rw [if_pos ⟨hpu, by rw [hport]; exact hc⟩, updateMeans, State.updMe, State.port_updPort_same, hport]

end

/-! ## The records (R419) -/

/-- The bytes of a port's record. -/
def recordBytes (p : PortSt) (seq : Word) : List Byte :=
  (bytesLE seq ++ bytesLE (setFld (swstat p.pw) 15 0 p.me.vmeas.toNat) ++ bytesLE p.me.imeas ++ bytesLE p.me.pmeas
      ++ toBytesLE 6 p.me.eexp.toNat ++ [0, 0] ++ toBytesLE 6 p.me.eimp.toNat ++ [0, 0]) ++ List.replicate 28 0 ++ bytesLE seq

theorem portRecord_eq (n : Port) (seq : Word) (s : State) :
    portRecord n seq s = s.writeMem (0x30014400 + 64 * n.val) (recordBytes (s.port n) seq) := by
  rw [portRecord, recordBytes]

theorem length_recordBytes (p : PortSt) (seq : Word) : (recordBytes p seq).length = 64 := by
  simp [recordBytes, length_bytesLE, length_toBytesLE]

/-- The records of the ports are written into the memory alone. -/
def recordsWritten (l : List Port) (s : State) : State :=
  l.foldl (fun t n => if t.has n then portRecord n t.fd.telSeq t else t) s

/-- A state that differs from s in its memory alone, which is in order. -/
def MemOnly (s t : State) : Prop := ∃ m, t = { s with mem := m } ∧ memGood m = true ∧ Moves [.mem 0x30014400 0x30014840] s t

section
variable {s t u : State}

theorem MemOnly.refl (hm : memGood s.mem = true) : MemOnly s s := ⟨s.mem, rfl, hm, Moves.refl _ s⟩

theorem MemOnly.write (h : MemOnly s t) {a : Nat} {bs : List Byte} (ha : 0x30014400 ≤ a) (hb : a + bs.length ≤ 0x30014840) :
    MemOnly s (t.writeMem a bs) := by
  obtain ⟨m, rfl, hm, hmoves⟩ := h
  exact ⟨_, rfl, memGood_memWriteN _ _ _ hm, (moves_writeMem_covered hm ⟨_, _, List.mem_singleton_self _, ha, hb⟩ le_rfl).mpr hmoves⟩

theorem MemOnly.record (h : MemOnly s t) (n : Port) (seq : Word) : MemOnly s (portRecord n seq t) := by
  have hn := n.isLt
  rw [portRecord_eq]
  exact h.write (by omega) (by rw [length_recordBytes]; omega)

theorem MemOnly.records (h : MemOnly s t) (l : List Port) : MemOnly s (recordsWritten l t) := by
  refine List.foldlRecOn l _ h fun u hu k _ => ?_
  split
  · exact hu.record k _
  · exact hu

theorem MemOnly.good (h : MemOnly s t) : memGood t.mem = true := by obtain ⟨m, rfl, hm, -⟩ := h; exact hm

theorem MemOnly.same (h : MemOnly s t) : t.fd = s.fd ∧ t.ports = s.ports ∧ t.evq = s.evq ∧ t.dev = s.dev ∧ t.stone = s.stone := by
  obtain ⟨m, rfl, -⟩ := h
  exact ⟨rfl, rfl, rfl, rfl, rfl⟩

/-- The other ports' records lie elsewhere. -/
theorem readMem_records {n : Port} (l : List Port) (hn : n ∉ l) (hm : memGood s.mem = true) {a k : Nat}
    (ha : 0x30014400 + 64 * n.val ≤ a) (hb : a + k ≤ 0x30014440 + 64 * n.val) :
    (recordsWritten l s).readMem a k = s.readMem a k := by
  induction l generalizing s with
  | nil => rfl
  | cons j l ih =>
    rw [List.mem_cons, not_or] at hn
    have hstep : (recordsWritten (j :: l) s) = recordsWritten l (if s.has j then portRecord j s.fd.telSeq s else s) := rfl
    rw [hstep]
    split
    · have hne : n.val ≠ j.val := fun h => hn.1 (Fin.ext h)
      rw [ih hn.2 ((MemOnly.refl hm).record j _).good, portRecord_eq]
      exact readMem_writeMem_out hm (by rw [length_recordBytes]; omega)
    · exact ih hn.2 hm

/-- The record of a port that the hub has. -/
theorem recordsWritten_split {n : Port} (hm : memGood s.mem = true) (hp : s.has n = true) :
    ∃ u b, MemOnly s u ∧ n ∉ b ∧ recordsWritten allPorts s = recordsWritten b (portRecord n s.fd.telSeq u) := by
  obtain ⟨a, b, hsplit⟩ := List.append_of_mem (mem_allPorts n)
  have hnodup : allPorts.Nodup := List.nodup_finRange 16
  rw [hsplit, List.nodup_middle, List.nodup_cons, List.mem_append, not_or] at hnodup
  obtain ⟨⟨ha, hb⟩, -⟩ := hnodup
  have hu := (MemOnly.refl hm).records a
  have hpu : (recordsWritten a s).has n = true := by rw [has_congr hu.same.2.2.2.1 hu.same.2.2.2.2]; exact hp
  refine ⟨recordsWritten a s, b, hu, hb, ?_⟩
  rw [hsplit, recordsWritten, List.foldl_append, List.foldl_cons]
  have hone : (if (recordsWritten a s).has n then portRecord n (recordsWritten a s).fd.telSeq (recordsWritten a s)
      else recordsWritten a s) = portRecord n s.fd.telSeq (recordsWritten a s) := by rw [if_pos hpu, hu.same.1]
  exact congrArg (recordsWritten b) hone

theorem readMem_record {n : Port} (seq : Word) (hm : memGood s.mem = true) :
    (portRecord n seq s).readMem (0x30014400 + 64 * n.val) 32 = bytesLE seq ++ bytesLE (setFld (swstat (s.port n).pw) 15 0 (s.port n).me.vmeas.toNat)
      ++ bytesLE (s.port n).me.imeas ++ bytesLE (s.port n).me.pmeas ++ toBytesLE 6 (s.port n).me.eexp.toNat ++ [0, 0]
      ++ toBytesLE 6 (s.port n).me.eimp.toNat ++ [0, 0]
    ∧ (portRecord n seq s).readMem (0x30014400 + 64 * n.val + 60) 4 = bytesLE seq := by
  rw [portRecord_eq]
  constructor
  · refine (readMem_writeMem_start hm (by rw [length_recordBytes]; decide)).trans ?_
    rw [recordBytes, List.append_assoc]
    exact List.take_left' (by simp [length_bytesLE, length_toBytesLE])
  · have hpart := memReadN_memWriteN_part ((recordBytes (s.port n) seq).take 60) (bytesLE seq) [] s.mem (0x30014400 + 64 * n.val)
      (of_decide_eq_true hm)
    have hsplit : (recordBytes (s.port n) seq).take 60 ++ bytesLE seq ++ [] = recordBytes (s.port n) seq := by
      rw [List.append_nil, recordBytes, List.take_left' (by simp [length_bytesLE, length_toBytesLE])]
    rw [hsplit, List.length_take, length_recordBytes] at hpart
    exact hpart

end

/-- A millisecond of the feed selector: the records' sequence number, and the mean of HBUS. -/
def millisecond (s : State) : State :=
  { s with fd := { s.fd with
    telSeq := s.fd.telSeq + 1
    hbusmeas := if 0 < s.fd.hbusN then BitVec.ofInt 16 (openQuot s.fd.hbusSum (10 * s.fd.hbusN)) else s.fd.hbusmeas
    hbusSum := 0, hbusN := 0 } }

theorem exec_telemetryUpdate (s : State) : exec .telemetryUpdate s = done (hbusRecord (millisecond (meansTaken s)).fd.telSeq
    (recordsWritten allPorts (millisecond (meansTaken s)))) := by
  show execTelemetryUpdate s = _
  unfold execTelemetryUpdate millisecond meansTaken recordsWritten
  with_reducible rfl

/-- Settles O43: a microsecond by each port's own step, a millisecond by the means and the records. -/
theorem telemetryReadsAndMeters : Obligations.TelemetryReadsAndMeters := by
  intro s n mv v vs i hs hp
  dsimp only
  refine ⟨fun hramp hrampe hpre => ?_, fun hc => ?_⟩
  · let s1 := s.updPw n fun p => { p with vPort := v, vStage := vs, iPort := i }
    have hexec : exec (.telemetryTick [⟨n, v, vs, i⟩] mv) s = done (tickHbus mv (allPorts.foldl (fun t n => tickPort n t) s1)) := by
      show execTelemetryTick _ _ s = _
      rw [execTelemetryTick, List.foldl_cons, List.foldl_nil, if_pos hp]
      rfl
    have hport1 : s1.port n = { s.port n with pw := { (s.port n).pw with vPort := v, vStage := vs, iPort := i } } := port_updPw _ _ _
    have hon (k : Port) : (s1.port k).rampsOn := by
      by_cases hk : k = n
      · subst hk
        rw [hport1]
        exact hrampe
      · rw [show s1.port k = s.port k from State.port_updPw_ne _ _ _ _ hk]
        exact fun h => absurd h (hramp k hk)
    have hall := tickedAll allPorts (List.nodup_finRange 16) s1 fun k _ => hon k
    have hport := port_tickAll (s := s1) (n := n) hp hon
    generalize allPorts.foldl (fun t n => tickPort n t) s1 = u at hexec hall hport
    have hbus : tickHbus mv u = { u with fd := { u.fd with
        hbusMv := mv, hbusSum := u.fd.hbusSum + mv, hbusN := u.fd.hbusN + 1
        hbusLow := u.fd.hbusLow || (decide (mv < 18000) && decide (u.fd.feed = .none)) } } :=
      if_neg (by simp [hall.feed.2, s1, hpre])
    rw [hbus] at hexec
    have hgood : memGood u.mem = true := by rw [hall.mem]; exact hs.1
    have hmoves : Moves [.anyPort, .fd, .events] s s1 := by simp [s1]
    have hcc : s1.cc = s.cc := rfl
    refine answers_of hexec ?_
    rw [State.port_flush, State.flush_fd, State.port_mk, hport, hport1, hcc, PortSt.ticked]
    dsimp only
    obtain ⟨hv, hi, hpw, hcount⟩ := metered_sums (n := n)
      (p := { s.port n with pw := { (s.port n).pw with vPort := v, vStage := vs, iPort := i } })
    refine ⟨?_, hv, hi, hpw, hcount, fun hpos hmax => ?_, fun hneg hw hmax => ?_, rfl, hall.feed.1,
      ((hmoves.trans hall.moves).trans ((moves_fd (by simp) _).mpr (Moves.refl _ u))).flush (by simp) hs.2 hgood⟩
    · rw [startTicked_eq, faultTicked_eq]
      rfl
    · rw [metered_exports hpos]
      exact ⟨addEnergy_counts hmax, rfl⟩
    · rw [metered_imports hneg hw]
      exact ⟨addEnergy_counts hmax, rfl⟩
  · have hmeans := meansTaken_frame (s := s)
    have hmoves := meansTaken_moves (s := s)
    have hport := port_meansTaken hp hc
    have hexec := exec_telemetryUpdate s
    generalize meansTaken s = t at hmeans hmoves hport hexec
    obtain ⟨hmem, hevq, hfd⟩ := hmeans
    have hgood : memGood (millisecond t).mem = true := (congrArg memGood hmem).trans hs.1
    have hpu : (millisecond t).has n = true :=
      (has_congr (s := s) (hmoves.dev_eq (by simp)) (hmoves.stone_eq (by simp)) n).trans hp
    have hportm : (millisecond t).port n = { s.port n with me := (s.port n).me.averaged } := hport
    obtain ⟨u, b, hu, hb, hsplit⟩ := recordsWritten_split hgood hpu
    have hall := (MemOnly.refl hgood).records allPorts
    have hread := readMem_record (n := n) (millisecond t).fd.telSeq hu.good
    have hrest {a k : Nat} := readMem_records (n := n) (a := a) (k := k) b hb (hu.record n (millisecond t).fd.telSeq).good
    rw [← hsplit] at hrest
    rw [same_ports _ _ hu.same.2.1 n, hportm] at hread
    generalize recordsWritten allPorts (millisecond t) = w at hexec hall hrest
    have hbus : ∃ bs : List Byte, bs.length = 64 ∧ hbusRecord (millisecond t).fd.telSeq w = w.writeMem 0x30014800 bs :=
      ⟨_, by simp [length_bytesLE], rfl⟩
    obtain ⟨bs, hbs, hbus⟩ := hbus
    rw [hbus] at hexec
    have hfinal : MemOnly (millisecond t) (w.writeMem 0x30014800 bs) := hall.write (by omega) (by omega)
    have hn := n.isLt
    have hout {a k : Nat} (h : a + k ≤ 0x30014800) : (w.writeMem 0x30014800 bs).readMem a k = w.readMem a k :=
      readMem_writeMem_out hall.good (.inl h)
    have hquiet : (w.writeMem 0x30014800 bs).evq = [] := hfinal.same.2.2.1.trans (hevq.trans hs.2)
    have hmillis : Moves [.anyPort, .fd, .mem 0x30014400 0x30014840] s (millisecond t) :=
      (hmoves.mono (by simp)).trans ((moves_fd (by simp) _).mpr (Moves.refl _ t))
    have hportf : (w.writeMem 0x30014800 bs).port n = { s.port n with me := (s.port n).me.averaged } :=
      (same_ports _ _ hfinal.same.2.1 n).trans hportm
    refine answers_quiet hexec hquiet ?_
    rw [hportf, hfinal.same.1, hout (by omega), hout (by omega), hrest (by omega) (by omega), hrest (by omega) (by omega)]
    obtain ⟨_, _, _, hwm⟩ := hfinal
    refine ⟨rfl, rfl, rfl, rfl, rfl, rfl, rfl, ?_, hread.1, hread.2, (hmillis.trans (hwm.mono (by simp))).changesOnly hs.2 hquiet⟩
    show t.fd.telSeq + 1 = _
    rw [hfd]

end Sys2Proof.Machine
end

section
/-! The feed selector (Machine/Power.lean): what it looks at, and what the loss of a feed and the taking of a candidate leave. -/

namespace Sys2Proof.Machine

/-! ## What the selector looks at -/

/-- A port as START_REG's end leaves it, whichever port it is. -/
structure SameChoice (p q : PortSt) : Prop where
  pw : q.pw = p.pw
  cf : q.cf = p.cf
  ct : q.ct = p.ct
  mo : q.mo = p.mo
  ln : q.ln = p.ln
  ripe : q.ripe = p.ripe
  ov : q.st.ov = p.st.ov
  uv : q.st.uv = p.st.uv

theorem SameChoice.windowOut {p q : PortSt} (h : SameChoice p q) : q.windowOut = p.windowOut := by
  simp [PortSt.windowOut, h.ov, h.uv]

theorem port_endStartReg_ne {s : State} {n : Port} (h : n ≠ portB) : (endStartReg s).port n = s.port n :=
  State.port_updSt_ne _ _ _ _ h

theorem sameChoice_endStartReg (s : State) (n : Port) : SameChoice (s.port n) ((endStartReg s).port n) := by
  by_cases h : n = portB
  · subst h
    unfold endStartReg
    rw [port_updSt]
    split <;> constructor <;> rfl
  · rw [port_endStartReg_ne h]
    constructor <;> rfl

/-- The selector without its choice: what stands at the supplies and what the program has set. -/
def FeedSt.supplies (f : FeedSt) : FeedSt :=
  { f with feed := .none, last := .none, cause := 0, lossCause := 0, gap := false, pre := false, target := .none, planned := false
           chgcnt := 0 }

/-- Two hubs between which the selector sees no difference. -/
structure SameSelection (s u : State) : Prop where
  cc : u.cc = s.cc
  dev : u.dev = s.dev
  stone : u.stone = s.stone
  led : u.led = s.led
  fd : u.fd.supplies = s.fd.supplies
  port : ∀ n, SameChoice (s.port n) (u.port n)

namespace SameSelection

variable {s u : State} (h : SameSelection s u)
include h

theorem has (n : Port) : u.has n = s.has n := has_congr h.dev h.stone n

theorem eligible (f : Feed) : u.eligible f = s.eligible f := by
  have hprog : u.fd.prog = s.fd.prog := (congrArg FeedSt.prog h.fd :)
  have hben : u.fd.ben = s.fd.ben := (congrArg FeedSt.ben h.fd :)
  have hkuMv : u.fd.kuMv = s.fd.kuMv := (congrArg FeedSt.kuMv h.fd :)
  have hgMv : u.fd.gMv = s.fd.gMv := (congrArg FeedSt.gMv h.fd :)
  have hbMv : u.fd.bMv = s.fd.bMv := (congrArg FeedSt.bMv h.fd :)
  have hbHigh : u.fd.bHigh = s.fd.bHigh := (congrArg FeedSt.bHigh h.fd :)
  have hkuUp : u.fd.kuUp = s.fd.kuUp := (congrArg FeedSt.kuUp h.fd :)
  have hgUp : u.fd.gUp = s.fd.gUp := (congrArg FeedSt.gUp h.fd :)
  have hbUp : u.fd.bUp = s.fd.bUp := (congrArg FeedSt.bUp h.fd :)
  have hexempt : u.fd.exempt = s.fd.exempt := (congrArg FeedSt.exempt h.fd :)
  have hwithin : u.bWithin = s.bWithin := by simp only [State.bWithin, hbMv, hbHigh, h.cc]
  have hlegacy : u.legacyFeed = s.legacyFeed := by simp only [State.legacyFeed, (h.port portKU).ct, (h.port portKU).ripe, hkuMv]
  cases f <;>
    simp only [State.eligible, State.eligProg, State.eligStart, h.has, hprog, hben, hkuMv, hgMv, hbMv, hkuUp, hgUp, hbUp, hexempt, hwithin,
      hlegacy, (h.port portKU).pw, (h.port portKU).cf, (h.port portKU).ct, (h.port portKU).mo, (h.port portKU).ripe,
      (h.port portKU).windowOut, (h.port portG).pw, (h.port portG).cf, (h.port portG).ct, (h.port portG).mo, (h.port portG).ripe,
      (h.port portG).windowOut, (h.port portB).pw]

theorem firstFeed : u.firstFeed = s.firstFeed := by
  have hprog : u.fd.prog = s.fd.prog := (congrArg FeedSt.prog h.fd :)
  have hprio : u.fd.prio = s.fd.prio := (congrArg FeedSt.prio h.fd :)
  simp only [State.firstFeed, State.feedOrder, hprog, hprio, h.eligible]

theorem powerOf (f : Feed) : u.powerOf f = s.powerOf f := by
  cases f <;> simp only [State.powerOf, (h.port portKU).cf, (h.port portKU).ct, (h.port portKU).ripe, (h.port portG).cf,
    (h.port portG).ct, (h.port portG).ripe, reduceCtorEq, if_true, if_false]

theorem availOf (f : Feed) : u.availOf f = s.availOf f := by simp only [State.availOf, h.powerOf, h.led]

theorem hardOf (f : Feed) : u.hardOf f = s.hardOf f := by simp only [State.hardOf, h.powerOf, h.led]

end SameSelection

theorem SameChoice.refl (p : PortSt) : SameChoice p p := ⟨rfl, rfl, rfl, rfl, rfl, rfl, rfl, rfl⟩

/-- A change of the selector's own choice, with the end of START_REG. -/
theorem sameSelection_endStartReg (s : State) {x : FeedSt} (h : x.supplies = s.fd.supplies) :
    SameSelection s { endStartReg s with fd := x } := by
  refine ⟨by simp, by simp, by simp, by simp, h, fun n => ?_⟩
  have hport : ({ endStartReg s with fd := x } : State).port n = (endStartReg s).port n := same_ports _ _ rfl n
  rw [hport]
  exact sameChoice_endStartReg s n

theorem sameSelection_fd (s : State) {x : FeedSt} (h : x.supplies = s.fd.supplies) : SameSelection s { s with fd := x } :=
  ⟨rfl, rfl, rfl, rfl, h, fun _ => .refl _⟩

/-! ## A candidate is selected (R15, R165) -/

/-- HBUS carried and the books covering what is granted, the candidate is the feed after the gap. -/
theorem selectFeed_eq {s : State} {f : Feed} (hlow : s.fd.hbusLow = false)
    (hfits : s.led.grantSum + s.led.tokRes ≤ s.availOf f) :
    selectFeed f s = { s with
      fd := { s.fd with feed := f, target := f, gap := true, planned := false }
      led := { s.led with avail := s.availOf f, hard := s.hardOf f, shedRun := false, excursion := false } } := by
  have hsel : selectFeed f s = ledgerRefresh { s with fd := { s.fd with feed := f, target := f, gap := true, planned := false } } :=
    if_neg (by simp [hlow])
  rw [hsel, ledgerRefresh]
  have hsame := sameSelection_fd s (x := { s.fd with feed := f, target := f, gap := true, planned := false }) rfl
  rw [hsame.availOf, hsame.hardOf]
  exact ledgerAct_of_fits hfits

/-- HBUS below 18.0 V is pre-charged first (R422). -/
theorem selectFeed_low {s : State} (f : Feed) (hlow : s.fd.hbusLow = true) :
    selectFeed f s = { s with fd := { s.fd with target := f, pre := true, gap := false, planned := false } } := if_pos hlow

/-! ## The feed is lost (R424) -/

/-- The selector once the feed is lost and nothing is selected yet. -/
def FeedSt.lostBy (f : FeedSt) (cause : BitVec 4) : FeedSt :=
  { f with feed := .none, last := f.feed, cause := cause, lossCause := cause, gap := false, planned := false, chgcnt := satInc f.chgcnt }

/-- The hub once the feed is lost, its path open and nothing selected yet. -/
def feedLost (cause : BitVec 4) (s : State) : State := { endStartReg s with fd := s.fd.lostBy cause }

theorem abortFeedSwap_of_none {s : State} {n : Port} (h : ∀ q, (s.port n).ct.seq = some q → q.swapGranted = false) :
    abortFeedSwap n s = s := by
  unfold abortFeedSwap
  split
  · next q hq => simp [h q hq]
  · rfl

theorem abortFeedSwaps_of_noSwap {s : State} (h : s.noSwap) : abortFeedSwaps s = s := by
  rw [abortFeedSwaps, abortFeedSwap_of_none (h portKU), abortFeedSwap_of_none (h portG)]

theorem feed_port_some {f : Feed} (h : f ≠ .none) : ∃ n, f.port = some n := by
  cases f
  · exact absurd rfl h
  · exact ⟨_, rfl⟩
  · exact ⟨_, rfl⟩
  · exact ⟨_, rfl⟩

/-- The loss of a feed up to the choice that follows. -/
theorem feedLossBy_eq {s : State} (pick : State → Feed) (cause : BitVec 4) (hfeed : s.fd.feed ≠ .none) (hkd : s.kdSinks = false)
    (hpg : ∀ n, s.isFeed n = true → (s.port n).pw.pg = false) (hswap : s.noSwap) :
    feedLossBy pick cause s = (let u := feedLost cause s
      if u.fd.ov.valid && u.fd.ov.out then ledgerRefresh (u.fire 139 cause.toNat)
      else match pick u with
        | .none => noFeed (u.fire 139 cause.toNat)
        | f => selectFeed f (u.fire 139 (cause.toNat + 16 * f.code))) := by
  have hopen : abortFeedSwaps (endStartReg s) = endStartReg s :=
    abortFeedSwaps_of_noSwap fun n q => by rw [(sameChoice_endStartReg s n).ct]; exact hswap n q
  obtain ⟨n, hn⟩ := feed_port_some hfeed
  have hdrop : dropPg n (endStartReg s) = endStartReg s := by
    refine dropPg_of_low ?_
    rw [(sameChoice_endStartReg s n).pw]
    exact hpg n (by simp [State.isFeed, hn])
  have hfd : (endStartReg s).fd = s.fd := by simp
  unfold feedLossBy
  rw [if_neg hfeed]
  simp only [hkd, Bool.false_eq_true, if_false, hopen, hn, hdrop, hfd]
  rfl

/-! ## No candidate is left (R427) -/

/-- Port m is held off by a source of force-off. -/
def State.offBy (s : State) (x : ForceSource) (m : Port) : Prop := (s.port m).st.mode = .off ∧ x ∈ (s.port m).st.force

theorem mem_addForce_self (x : ForceSource) (l : List ForceSource) : x ∈ addForce x l := by
  unfold addForce
  split
  · next h => simpa using h
  · exact List.mem_cons_self

theorem mem_addForce {x : ForceSource} (y : ForceSource) {l : List ForceSource} (h : x ∈ l) : x ∈ addForce y l := by
  unfold addForce
  split
  · exact h
  · exact List.mem_cons_of_mem _ h

@[simp] theorem offBy_forcedClose (x : ForceSource) (n m : Port) (s : State) : (forcedClose n s).offBy x m ↔ s.offBy x m := by
  unfold forcedClose closeWindow State.offBy
  dsimp only
  by_cases hm : m = n
  · subst hm
    split
    · split <;> simp [StageSt.setBurst]
    · rfl
  · split
    · split <;> simp [hm]
    · rfl

/-- A stage that is held off stays so where nothing but the rest of the port changes. -/
theorem offBy_of_st {s u : State} {x : ForceSource} {m : Port} (h : (u.port m).st = (s.port m).st) : u.offBy x m ↔ s.offBy x m := by
  unfold State.offBy
  rw [h]

theorem offBy_forceOff_self (x : ForceSource) (n : Port) (s : State) : (forceOff x n s).offBy x n := by
  unfold forceOff
  rw [offBy_forcedClose, State.offBy]
  simp [mem_addForce_self]

theorem offBy_forceOff {s : State} {x : ForceSource} {m : Port} (y : ForceSource) (n : Port) (h : s.offBy x m) :
    (forceOff y n s).offBy x m := by
  obtain ⟨hmode, hforce⟩ := h
  unfold forceOff
  rw [offBy_forcedClose, State.offBy]
  by_cases hm : m = n
  · subst hm; simp [mem_addForce y hforce]
  · simp [hm, hmode, hforce]

theorem st_promoteWaiting (m : Port) (s : State) : ((promoteWaiting s).port m).st = (s.port m).st := by
  refine foldl_get (fun t : State => (t.port m).st) _ (fun t n => ?_) _ s
  split <;> simp

theorem st_dropPg (n m : Port) (s : State) : ((dropPg n s).port m).st = (s.port m).st := by
  unfold dropPg
  split <;> simp

theorem st_fault (n m : Port) (cause : BitVec 4) (s : State) : ((fault n cause s).port m).st = (s.port m).st := by simp

theorem st_openSwitch (next : SwState) (n m : Port) (s : State) : ((openSwitch next n s).port m).st = (s.port m).st := by
  unfold openSwitch
  dsimp only
  split
  · rw [st_promoteWaiting, st_dropPg]; simp
  · rfl

theorem st_setContract (n m : Port) (st : CtrState) (v : BitVec 11) (i : BitVec 9) (src : Bool) (s : State) :
    ((setContract n st v i src s).port m).st = (s.port m).st := by
  unfold setContract
  dsimp only
  split <;> simp

theorem st_resumeDetach (n m : Port) (s : State) : ((resumeDetach n s).port m).st = (s.port m).st := by
  unfold resumeDetach
  split <;> simp

theorem st_updCt (n m : Port) (f : ContractSt → ContractSt) (s : State) : ((s.updCt n f).port m).st = (s.port m).st := by simp

theorem st_updPw (n m : Port) (f : PowerSt → PowerSt) (s : State) : ((s.updPw n f).port m).st = (s.port m).st := by simp

theorem offBy_endContract (x : ForceSource) (n m : Port) (s : State) : (endContract n s).offBy x m ↔ s.offBy x m := by
  have hst : ((setContract n .none 0 0 false (resumeDetach n s)).port m).st = (s.port m).st := by
    rw [st_setContract, st_resumeDetach]
  unfold endContract
  dsimp only
  rw [offBy_of_st (st_openSwitch .off n m _), offBy_of_st (st_updCt n m _ _), offBy_forcedClose, offBy_of_st hst]

theorem offBy_sendBye (x : ForceSource) (n m : Port) (code : Nat) (dflt : Bool) (s : State) :
    (sendBye n code dflt s).offBy x m ↔ s.offBy x m := by
  unfold sendBye
  dsimp only
  split
  · exact offBy_of_st (by simp)
  · split
    · rfl
    · exact offBy_endContract x n m s

theorem offBy_shedPort {s : State} {x : ForceSource} {m : Port} (n : Port) (h : s.offBy x m) : (shedPort n s).offBy x m := by
  have hopened : (shedOpened n s).offBy x m := by
    unfold shedOpened
    rw [offBy_of_st (st_promoteWaiting m _), offBy_of_st (st_dropPg n m _), offBy_of_st (st_updPw n m _ _)]
    exact offBy_forceOff .trip n h
  rw [shedPort_eq]
  generalize shedOpened n s = u at *
  rw [offBy_sendBye, offBy_of_st (st_fault n m 7 _)]
  exact hopened

theorem offBy_shedLoop {s : State} {x : ForceSource} {m : Port} (limit k : Nat) (h : s.offBy x m) : (shedLoop limit k s).offBy x m := by
  induction k generalizing s with
  | zero => exact h
  | succ k ih =>
    unfold shedLoop
    split
    · exact h
    · split
      · exact h
      · next n _ => exact ih (offBy_shedPort n h)

theorem offBy_ledgerAct {s : State} {x : ForceSource} {m : Port} (h : s.offBy x m) : (ledgerAct s).offBy x m := by
  by_cases hfits : s.led.grantSum + s.led.tokRes ≤ s.led.avail
  · rw [ledgerAct_of_fits hfits]; exact h
  · have hhard : (hardShed s).offBy x m := by
      unfold hardShed
      split
      · exact offBy_shedLoop _ _ h
      · exact h
    rw [ledgerAct_exceeds hfits, excursionNoted]
    split
    · exact hhard
    · exact (offBy_of_st (by simp)).mpr hhard

/-- With no candidate left every port is held off, and AVAIL and HARD are 0. -/
structure NoFeed (s u : State) : Prop where
  fd : u.fd = { s.fd with feed := .none, target := .none, gap := false, pre := false }
  avail : u.led.avail = 0
  hard : u.led.hard = 0
  off : ∀ m, u.offBy .noFeed m
  moves : Moves [.fd, .led, .anyPort, .events] s u

theorem offBy_foldl_forceOff (x : ForceSource) (l : List Port) {s : State} {m : Port} (h : s.offBy x m ∨ m ∈ l) :
    (l.foldl (fun t n => forceOff x n t) s).offBy x m := by
  induction l generalizing s with
  | nil => simpa using h
  | cons n l ih =>
    refine ih ?_
    rcases h with h | h
    · exact .inl (offBy_forceOff x n h)
    · rcases List.mem_cons.mp h with rfl | h
      · exact .inl (offBy_forceOff_self x m s)
      · exact .inr h

theorem ledgerAct_hard (s : State) : (ledgerAct s).led.hard = s.led.hard := by
  by_cases h : s.led.grantSum + s.led.tokRes ≤ s.led.avail
  · rw [ledgerAct_of_fits h]
  · have hhard : (hardShed s).led.hard = s.led.hard := by
      unfold hardShed
      split
      · obtain ⟨c, hc⟩ := shedLoop_led s.led.hard 16 { s with led := { s.led with cut := true } }
        rw [hc]
      · rfl
    rw [ledgerAct_exceeds h, excursionNoted]
    split
    · exact hhard
    · simpa using hhard

/-- AVAIL and HARD of the feed that is selected, once the books have been judged. -/
theorem ledgerRefresh_led (s : State) : (ledgerRefresh s).led.avail = s.availOf s.fd.feed
    ∧ (ledgerRefresh s).led.hard = s.hardOf s.fd.feed :=
  ⟨(ledgerAct_keeps _).2.2.1, ledgerAct_hard _⟩

theorem moves_ledgerRefresh {l : List Area} {s t : State} (ha : Area.anyPort ∈ l) (he : Area.events ∈ l ∨ Area.sources ∈ l)
    (hl : Area.led ∈ l) : Moves l s (ledgerRefresh t) ↔ Moves l s t := by
  unfold ledgerRefresh
  rw [moves_ledgerAct ha he hl, moves_led hl]

/-- The hub once every port is forced off and the active ones have opened their switches (R427). -/
def allForced (s : State) : State :=
  let active := allPorts.filter fun n =>
    let w := (s.port n).pw.sw
    decide (w = .wait) || decide (w = .prechg) || decide (w = .ramp) || decide (w = .on) || decide (w = .offtime)
  active.foldl (fun t n => openSwitch .off n (fault n 9 t)) (allPorts.foldl (fun t n => forceOff .noFeed n t) s)

theorem noFeed_eq (s : State) : noFeed s = ledgerRefresh { allForced s with
    fd := { (allForced s).fd with feed := .none, target := .none, gap := false, pre := false } } := by
  unfold noFeed allForced
  with_reducible rfl

theorem offBy_allForced (s : State) (m : Port) : (allForced s).offBy .noFeed m := by
  unfold allForced
  dsimp only
  have hst (l : List Port) (t : State) : ((l.foldl (fun t n => openSwitch .off n (fault n 9 t)) t).port m).st = (t.port m).st :=
    foldl_get (fun t : State => (t.port m).st) _ (fun t n => by rw [st_openSwitch, st_fault]) l t
  rw [offBy_of_st (hst _ _)]
  exact offBy_foldl_forceOff .noFeed allPorts (.inr (mem_allPorts m))

theorem moves_allForced (s : State) : Moves [.fd, .led, .anyPort, .events] s (allForced s) := by
  unfold allForced
  refine Moves.trans (Moves.foldl (fun t n => ?_) _ s) (Moves.foldl (fun t n => ?_) _ _)
  · exact (moves_forceOff (.inr (by simp)) (by simp) _).mpr (Moves.refl _ t)
  · exact (moves_openSwitch (by simp) (by simp) .off n).mpr ((moves_fault (.inr (by simp)) (by simp) 9).mpr (Moves.refl _ t))

theorem allForced_fd (s : State) : (allForced s).fd = s.fd := by
  unfold allForced
  dsimp only
  rw [foldl_fd, foldl_fd] <;> simp

theorem noFeed_leaves (s : State) : NoFeed s (noFeed s) := by
  rw [noFeed_eq]
  have hfd := allForced_fd s
  have hoff := offBy_allForced s
  have hmoves := moves_allForced s
  generalize allForced s = u at *
  obtain ⟨havail, hhard⟩ := ledgerRefresh_led { u with fd := { u.fd with feed := .none, target := .none, gap := false, pre := false } }
  refine ⟨by simp [hfd], by rw [havail]; rfl, by rw [hhard]; rfl, fun m => ?_, ?_⟩
  · exact offBy_ledgerAct (hoff m)
  · rw [moves_ledgerRefresh (by simp) (by simp) (by simp), moves_fd (by simp)]
    exact hmoves

end Sys2Proof.Machine
end

section
/-! The words of the statements about the feed (Safety.lean): a command that ends in `feedLoss` loses the feed, one that ends in
`feedSeek` with nothing selected takes the first candidate. -/

namespace Sys2Proof.Machine

theorem SameChoice.trans {p q r : PortSt} (h : SameChoice p q) (k : SameChoice q r) : SameChoice p r :=
  ⟨k.pw.trans h.pw, k.cf.trans h.cf, k.ct.trans h.ct, k.mo.trans h.mo, k.ln.trans h.ln, k.ripe.trans h.ripe, k.ov.trans h.ov,
    k.uv.trans h.uv⟩

/-- An event changes nothing that the selector looks at. -/
theorem SameSelection.fire {s u : State} (h : SameSelection s u) (e a : Nat) : SameSelection s (u.fire e a) :=
  ⟨by simp [h.cc], by simp [h.dev], by simp [h.stone], by simp [h.led], by simp [h.fd], fun n => by simpa using h.port n⟩

theorem Moves.endStartReg {l : List Area} {s t : State} (hp : Area.port portB ∈ l ∨ Area.anyPort ∈ l) :
    Moves l s (endStartReg t) ↔ Moves l s t := moves_updSt hp _

theorem moves_fd_led {l : List Area} {s t : State} (hf : Area.fd ∈ l) (hl : Area.led ∈ l) (x : FeedSt) (y : LedgerSt) :
    Moves l s { t with fd := x, led := y } ↔ Moves l s t := (moves_led hl y).trans (moves_fd hf x)

/-- What a command brings with it before the selector acts: no event, and changes inside the areas alone. -/
structure Brings (l : List Area) (s s1 : State) : Prop where
  evq : s1.evq = []
  mem : s1.mem = s.mem
  host : s1.host = s.host
  moves : Moves l s s1

namespace Brings

variable {s s1 : State}

theorem eventsOn {l : List Area} (h : Brings l s s1) (hd : Area.dev ∉ l) : s1.eventsOn = s.eventsOn := eventsOn_congr (h.moves.dev_eq hd)

theorem mono {l l' : List Area} (h : Brings l s s1) (hsub : l ⊆ l') : Brings l' s s1 := ⟨h.evq, h.mem, h.host, h.moves.mono hsub⟩

theorem movesAll (h : Brings [.fd, .port portB] s s1) : Moves [.fd, .led, .anyPort, .events] s s1 := by
  obtain ⟨hpend, hevq, hcc, hdev, hcore, hport, hled, htim, hfd, hth, hstone, hbt, hhost, hfree, hmem⟩ := h.moves
  refine ⟨hpend, hevq, by simpa using hcc, by simpa using hdev, fun c => ?_, fun n => .inr (.inl (by simp)), .inl (by simp),
    by simpa using htim, .inl (by simp), by simpa using hth, by simpa using hstone, by simpa using hbt, .inr (.inl h.host),
    by simpa using hfree, fun a _ _ => by rw [show ({ s1 with evq := [] } : State).mem = s.mem from h.mem]⟩
  have hsame := hcore c
  exact .inr (.inr (.inl (by simpa using hsame)))

end Brings

theorem brings_self {s : State} (hs : s.settled) (l : List Area) : Brings l s s := ⟨hs.2, rfl, rfl, Moves.refl l s⟩

theorem feedLost_same (cause : BitVec 4) (s : State) : SameSelection s (feedLost cause s) := sameSelection_endStartReg s rfl

theorem feedLost_rest (cause : BitVec 4) (s : State) : (feedLost cause s).evq = s.evq ∧ (feedLost cause s).mem = s.mem
    ∧ (feedLost cause s).host = s.host ∧ (feedLost cause s).fd = s.fd.lostBy cause := by
  refine ⟨?_, ?_, ?_, rfl⟩ <;> simp [feedLost, endStartReg]

theorem moves_feedLost {l : List Area} {s t : State} (hf : Area.fd ∈ l) (hp : Area.port portB ∈ l ∨ Area.anyPort ∈ l) (cause : BitVec 4) :
    Moves l s (feedLost cause t) ↔ Moves l s t := by
  rw [feedLost, moves_fd hf, Moves.endStartReg hp]

/-- The selected feed is lost (R424, R427). -/
theorem losesFeed_of {c : Instr} {s s1 : State} {cause : BitVec 4} (hs : s.settled) (hb : Brings [.fd, .port portB] s s1)
    (hexec : exec c s = done (feedLoss cause s1)) : losesFeed c s s1 cause := by
  intro hon hfeed hkd hov hlow hpg hswap
  have hsame := feedLost_same cause s1
  obtain ⟨hevq, hmem, hhost, hfd⟩ := feedLost_rest cause s1
  have hloss := feedLossBy_eq State.firstFeed cause hfeed hkd hpg hswap
  have hon1 : (feedLost cause s1).eventsOn = true := by rw [eventsOn_congr hsame.dev, hb.eventsOn (by simp), hon]
  have hov1 : ((feedLost cause s1).fd.ov.valid && (feedLost cause s1).fd.ov.out) = false := hov
  have hmoves {l : List Area} (hl : Area.fd ∈ l) (hp : Area.port portB ∈ l ∨ Area.anyPort ∈ l) (h : Moves l s s1) :
      Moves l s (feedLost cause s1) := (moves_feedLost hl hp cause).mpr h
  have hlow1 : (feedLost cause s1).fd.hbusLow = false := hlow
  dsimp only at hloss
  rw [hov1, if_neg (by decide), hsame.firstFeed] at hloss
  rw [feedLoss, hloss] at hexec
  rw [hb.evq] at hevq
  rw [hb.mem] at hmem
  rw [hb.host] at hhost
  generalize feedLost cause s1 = u at *
  refine ⟨fun f hf hne hfits => ?_, fun hnone => ?_⟩
  · have hsame' := hsame.fire 139 (cause.toNat + 16 * f.code)
    have hv : exec c s = done (selectFeed f (u.fire 139 (cause.toNat + 16 * f.code))) := by
      rw [hexec, hf]
      cases f
      · exact absurd rfl hne
      · rfl
      · rfl
      · rfl
    rw [selectFeed_eq (by simp [hlow1]) (by rw [hsame'.availOf, hsame'.led]; exact hfits), hsame'.availOf, hsame'.hardOf] at hv
    have hq : (u.fire 139 (cause.toNat + 16 * f.code)).evq = [(139, cause.toNat + 16 * f.code)] := by
      rw [State.fire_evq _ _ _ hon1, hevq]; rfl
    refine answers_of hv ⟨?_, ?_, ?_, ?_⟩
    · simp [hfd, FeedSt.lostBy]
    · simp [hsame.led]
    · exact logs_flush hq (by simp [hmem, hs.1]) (by simp [hhost])
    · refine Moves.flush ?_ (by simp) hs.2 (by simp [hmem, hs.1])
      rw [moves_fd_led (by simp) (by simp), moves_fire (by simp)]
      exact hmoves (by simp) (.inl (by simp)) (hb.moves.mono (by simp))
  · have hv : exec c s = done (noFeed (u.fire 139 cause.toNat)) := by rw [hexec, hnone]
    obtain ⟨hfd', havail, hhard, hoff, hmv⟩ := noFeed_leaves (u.fire 139 cause.toNat)
    have hgood : memGood (noFeed (u.fire 139 cause.toNat)).mem = true := by simp [hmem, hs.1]
    generalize noFeed (u.fire 139 cause.toNat) = w at *
    refine answers_of hv ⟨by simp [hfd'], by simp [hfd', hfd, FeedSt.lostBy], by simp [havail], by simp [hhard], fun n => ?_, ?_⟩
    · have := hoff n
      simpa [State.offBy] using this
    · refine Moves.flush (Moves.trans ?_ hmv) (by simp) hs.2 hgood
      rw [moves_fire (by simp)]
      exact hmoves (by simp) (.inr (by simp)) hb.movesAll

/-- The selector with a free choice: the first candidate is taken (R421, R422). -/
theorem feedSeek_eq {s : State} {f : Feed} (hfeed : s.fd.feed = .none) (hpre : s.fd.pre = false) (hov : (s.fd.ov.valid && s.fd.ov.out) = false)
    (hf : s.firstFeed = f) (hne : f ≠ .none) :
    feedSeek s = if s.fd.hbusLow = true then selectFeed f { s with fd := { s.fd with cause := 9 } }
      else selectFeed f ({ s with fd := { s.fd with cause := 9, chgcnt := satInc s.fd.chgcnt } }.fire 139 (9 + 16 * f.code)) := by
  unfold feedSeek
  rw [if_neg (by simp [hfeed, hpre, hov]), hf]
  cases f
  · exact absurd rfl hne
  · rfl
  · rfl
  · rfl

/-- A candidate that is to pre-charge an HBUS below 18.0 V. -/
theorem feedSeek_low {s : State} {f : Feed} (hfeed : s.fd.feed = .none) (hpre : s.fd.pre = false)
    (hov : (s.fd.ov.valid && s.fd.ov.out) = false) (hf : s.firstFeed = f) (hne : f ≠ .none) (hlow : s.fd.hbusLow = true) :
    feedSeek s = { s with fd := { s.fd with target := f, pre := true, gap := false, planned := false, cause := 9 } } := by
  rw [feedSeek_eq hfeed hpre hov hf hne, if_pos hlow]
  exact selectFeed_low f hlow

/-- A candidate is taken (R421, R422). -/
theorem takesFeed_of {c : Instr} {s s1 : State} {f : Feed} (hs : s.settled) (hb : Brings [.fd] s s1) (hfeed : s1.fd.feed = .none)
    (hpre : s1.fd.pre = false) (hov : (s1.fd.ov.valid && s1.fd.ov.out) = false) (hf : s1.firstFeed = f) (hne : f ≠ .none)
    (hexec : exec c s = done (feedSeek s1)) : takesFeed c s s1 f := by
  refine ⟨fun hlow => ?_, fun hlow hon hfits => ?_⟩
  · rw [feedSeek_low hfeed hpre hov hf hne hlow] at hexec
    exact answers_quiet hexec hb.evq ⟨rfl, Moves.changesOnly ((moves_fd (by simp) _).mpr hb.moves) hs.2 hb.evq⟩
  · rw [feedSeek_eq hfeed hpre hov hf hne, if_neg (by simp [hlow])] at hexec
    have hsame := (sameSelection_fd s1 (x := { s1.fd with cause := 9, chgcnt := satInc s1.fd.chgcnt }) rfl).fire 139 (9 + 16 * f.code)
    rw [selectFeed_eq (by simpa using hlow) (by rw [hsame.availOf, hsame.led]; exact hfits), hsame.availOf, hsame.hardOf] at hexec
    have hon1 : ({ s1 with fd := { s1.fd with cause := 9, chgcnt := satInc s1.fd.chgcnt } } : State).eventsOn = true :=
      (hb.eventsOn (by simp)).trans hon
    have hq : (({ s1 with fd := { s1.fd with cause := 9, chgcnt := satInc s1.fd.chgcnt } } : State).fire 139 (9 + 16 * f.code)).evq =
        [(139, 9 + 16 * f.code)] := by
      rw [State.fire_evq _ _ _ hon1, hb.evq]; rfl
    refine answers_of hexec ⟨?_, ?_, ?_, ?_⟩
    · simp
    · simp
    · exact logs_flush hq (by simp [hb.mem, hs.1]) (by simp [hb.host])
    · refine Moves.flush ?_ (by simp) hs.2 (by simp [hb.mem, hs.1])
      rw [moves_fd_led (by simp) (by simp), moves_fire (by simp), moves_fd (by simp)]
      exact hb.moves.mono (by simp)

end Sys2Proof.Machine
end

section
/-! Planned changes, PROG, BEN and the HBUS OV comparator (R421, R423, R424, R426): the statement about the commands to the feed. -/

namespace Sys2Proof.Machine

/-! ## Planned changes (R423) -/

section
variable {s : State} {f : Feed}

theorem planChange_idle (h : f = .none ∨ f = s.fd.feed) : planChange f s = s := if_pos h

theorem planChange_refused {c : BitVec 4} (h : ¬(f = .none ∨ f = s.fd.feed)) (hr : planRefused s f = some c) :
    planChange f s = { s with fd := { s.fd with refused := true, refcause := c } } := by
  unfold planChange
  rw [if_neg h, hr]

theorem planRefused_fits (h : planRefused s f = none) : s.led.grantSum + s.led.tokRes ≤ s.availOf f := by
  unfold planRefused at h
  split at h
  · cases h
  · split at h
    · cases h
    · split at h
      · cases h
      · split at h
        · cases h
        · omega

/-- The selector once the present path is open for a planned change. -/
def FeedSt.planned1 (x : FeedSt) : FeedSt := { x with last := x.feed, cause := 1, chgcnt := satInc x.chgcnt }

theorem planChange_accepted (h : ¬(f = .none ∨ f = s.fd.feed)) (hr : planRefused s f = none) (hkd : s.kdSinks = false)
    (hpg : ∀ m, s.isFeed m = true → (s.port m).pw.pg = false) :
    planChange f s =
      let u := selectFeed f (({ endStartReg s with fd := s.fd.planned1 } : State).fire 139 (1 + 16 * f.code))
      { u with fd := { u.fd with planned := true } } := by
  have hfd : (endStartReg s).fd = s.fd := by simp
  unfold planChange
  rw [if_neg h, hr]
  simp only [hkd, Bool.false_eq_true, if_false]
  cases hp : s.fd.feed.port with
  | none => simp only [hfd]; rfl
  | some n =>
    have hdrop : dropPg n (endStartReg s) = endStartReg s := by
      refine dropPg_of_low ?_
      rw [(sameChoice_endStartReg s n).pw]
      exact hpg n (by simp [State.isFeed, hp])
    simp only [hdrop, hfd]
    rfl

end

/-! ## HBUS OV (R426) -/

theorem ct_forcedClose (n m : Port) (s : State) : ((forcedClose n s).port m).ct = (s.port m).ct := by
  unfold forcedClose closeWindow
  dsimp only
  split
  · split <;> simp
  · rfl

theorem ct_forceOff (x : ForceSource) (n m : Port) (s : State) : ((forceOff x n s).port m).ct = (s.port m).ct := by
  unfold forceOff
  dsimp only
  rw [ct_forcedClose]
  simp

theorem ct_promoteWaiting (m : Port) (s : State) : ((promoteWaiting s).port m).ct = (s.port m).ct := by
  refine foldl_get (fun t : State => (t.port m).ct) _ (fun t n => ?_) _ s
  split <;> simp

theorem ct_dropPg (n m : Port) (s : State) : ((dropPg n s).port m).ct = (s.port m).ct := by
  unfold dropPg
  split <;> simp

theorem ct_openSwitch (next : SwState) (n m : Port) (s : State) : ((openSwitch next n s).port m).ct = (s.port m).ct := by
  unfold openSwitch
  dsimp only
  split
  · rw [ct_promoteWaiting, ct_dropPg]; simp
  · rfl

theorem noSwap_of_ct {s u : State} (h : ∀ m, (u.port m).ct = (s.port m).ct) (hs : s.noSwap) : u.noSwap := fun m q => by
  rw [h m]
  exact hs m q

theorem offBy_endStartReg {s : State} {x : ForceSource} {m : Port} (h : s.offBy x m) : (endStartReg s).offBy x m := by
  obtain ⟨hmode, hforce⟩ := h
  unfold endStartReg State.offBy
  by_cases hm : m = portB
  · subst hm; simp [hmode, hforce]
  · simp [hm, hmode, hforce]

theorem offBy_dropPg {s : State} {x : ForceSource} (n m : Port) : (dropPg n s).offBy x m ↔ s.offBy x m := offBy_of_st (st_dropPg n m s)

/-- The hub once the path of a feed that is lost is open: KD draws no more and the feed shows no power-good. -/
def pathOpened (s : State) (n : Port) : State :=
  dropPg n (abortFeedSwaps (endStartReg (if s.kdSinks then openSwitch .off portKD s else s)))

theorem pathOpened_of_noSwap {s : State} (n : Port) (h : s.noSwap) :
    pathOpened s n = dropPg n (endStartReg (if s.kdSinks then openSwitch .off portKD s else s)) := by
  unfold pathOpened
  rw [abortFeedSwaps_of_noSwap]
  refine noSwap_of_ct (fun m => ?_) h
  rw [(sameChoice_endStartReg _ m).ct]
  split
  · exact ct_openSwitch .off portKD m s
  · rfl

theorem pathOpened_frame (s : State) (n : Port) : (pathOpened s n).fd = s.fd ∧ (pathOpened s n).cc = s.cc := by
  unfold pathOpened
  split <;> simp

/-- The loss of a feed, whatever else stands (R424, R426, R427). -/
theorem feedLoss_opened {s : State} {n : Port} (cause : BitVec 4) (hn : s.fd.feed.port = some n) :
    feedLoss cause s = (
      let u : State := { pathOpened s n with fd := s.fd.lostBy cause }
      if s.fd.ov.valid && s.fd.ov.out then ledgerRefresh (u.fire 139 cause.toNat)
      else match u.firstFeed with
        | .none => noFeed (u.fire 139 cause.toNat)
        | f => selectFeed f (u.fire 139 (cause.toNat + 16 * f.code))) := by
  have hfeed : s.fd.feed ≠ .none := by
    intro h
    rw [h] at hn
    cases hn
  have hfd := (pathOpened_frame s n).1
  have hopen : dropPg n (abortFeedSwaps (endStartReg (if s.kdSinks then openSwitch .off portKD s else s))) = pathOpened s n := rfl
  unfold feedLoss feedLossBy
  rw [if_neg hfeed]
  simp only [hn, hopen]
  generalize pathOpened s n = w at *
  rw [hfd]
  rfl

/-- With the HBUS OV comparator tripped no candidate follows (R426). -/
theorem feedLoss_tripped {s : State} {n : Port} (cause : BitVec 4) (hn : s.fd.feed.port = some n)
    (hov : (s.fd.ov.valid && s.fd.ov.out) = true) :
    feedLoss cause s = ledgerRefresh (({ pathOpened s n with fd := s.fd.lostBy cause } : State).fire 139 cause.toNat) :=
  (feedLoss_opened cause hn).trans (if_pos hov)

/-- What the loss leaves of the ports, the books and the selector while the comparator is tripped. -/
structure OvLost (s u : State) (cause : BitVec 4) : Prop where
  fd : u.fd = s.fd.lostBy cause
  avail : u.led.avail = 0
  good : memGood s.mem = true → memGood u.mem = true
  off : ∀ x m, s.offBy x m → u.offBy x m
  moves : Moves [.fd, .led, .anyPort, .events] s u

theorem ovLost {s : State} {n : Port} (cause : BitVec 4) (hn : s.fd.feed.port = some n)
    (hov : (s.fd.ov.valid && s.fd.ov.out) = true) (hswap : s.noSwap) : OvLost s (feedLoss cause s) cause := by
  have hopenKd (x : ForceSource) (m : Port) (h : s.offBy x m) : (if s.kdSinks then openSwitch .off portKD s else s).offBy x m := by
    split
    · exact (offBy_of_st (st_openSwitch .off portKD m s)).mpr h
    · exact h
  have hmoveKd : Moves [.fd, .led, .anyPort, .events] s (if s.kdSinks then openSwitch .off portKD s else s) := by
    split
    · exact (moves_openSwitch (by simp) (by simp) _ _).mpr (Moves.refl _ s)
    · exact Moves.refl _ s
  have hoff (x : ForceSource) (m : Port) (h : s.offBy x m) : (pathOpened s n).offBy x m := by
    rw [pathOpened_of_noSwap n hswap, offBy_dropPg]
    exact offBy_endStartReg (hopenKd x m h)
  have hmoves : Moves [.fd, .led, .anyPort, .events] s (pathOpened s n) := by
    rw [pathOpened_of_noSwap n hswap, moves_dropPg (.inr (by simp)) (by simp), Moves.endStartReg (.inr (by simp))]
    exact hmoveKd
  have hgood : memGood s.mem = true → memGood (feedLoss cause s).mem = true := fun h => by simp [h]
  rw [feedLoss_tripped cause hn hov] at hgood ⊢
  generalize pathOpened s n = w at *
  obtain ⟨havail, -⟩ := ledgerRefresh_led (({ w with fd := s.fd.lostBy cause } : State).fire 139 cause.toNat)
  refine ⟨by simp, ?_, hgood, fun x m h => ?_, ?_⟩
  · rw [havail]
    simp [FeedSt.lostBy, State.availOf]
  · refine offBy_ledgerAct ((offBy_of_st (s := w) ?_).mpr (hoff x m h))
    simp
  · rw [moves_ledgerRefresh (by simp) (by simp) (by simp), moves_fire (by simp), moves_fd (by simp)]
    exact hmoves

/-- The hub once the HBUS OV comparator has tripped and has forced off the feed port n, and a KD that draws. -/
def ovForced (s : State) (n : Port) : State :=
  let s2 := forceOff .hbusOv n { s with fd := { s.fd with ov := { valid := true, out := true } } }
  if s.kdSinks then forceOff .hbusOv portKD s2 else s2

theorem ovForced_leaves (s : State) (n : Port) : (ovForced s n).fd = { s.fd with ov := { valid := true, out := true } }
    ∧ (ovForced s n).offBy .hbusOv n ∧ (memGood s.mem = true → memGood (ovForced s n).mem = true)
    ∧ Moves [.fd, .led, .anyPort, .events] s (ovForced s n) := by
  have hself := offBy_forceOff_self .hbusOv n { s with fd := { s.fd with ov := { valid := true, out := true } } }
  have hmoves : Moves [.fd, .led, .anyPort, .events] s
      (forceOff .hbusOv n { s with fd := { s.fd with ov := { valid := true, out := true } } }) := by
    rw [moves_forceOff (.inr (by simp)) (by simp), moves_fd (by simp)]
    exact Moves.refl _ s
  unfold ovForced
  dsimp only
  split
  · exact ⟨by simp, offBy_forceOff .hbusOv portKD hself, by simp, (moves_forceOff (.inr (by simp)) (by simp) _).mpr hmoves⟩
  · exact ⟨by simp, hself, by simp, hmoves⟩

theorem ct_ovForced (s : State) (n m : Port) : ((ovForced s n).port m).ct = (s.port m).ct := by
  unfold ovForced
  dsimp only
  split
  · rw [ct_forceOff, ct_forceOff]; rfl
  · rw [ct_forceOff]; rfl

/-- A force-off source lifted from every port. -/
def liftAll (xs : List ForceSource) (s : State) : State := allPorts.foldl (fun t n => liftForce xs n t) s

theorem liftAll_of_absent {s : State} {xs : List ForceSource} (h : ∀ m, ∀ x ∈ xs, x ∉ (s.port m).st.force) : liftAll xs s = s := by
  unfold liftAll
  refine List.foldlRecOn (motive := fun t => t = s) allPorts _ rfl fun t ht n _ => ?_
  subst ht
  exact liftForce_of_absent (h n)

theorem port_liftAll (xs : List ForceSource) (s : State) (m : Port) : (liftAll xs s).port m =
    { s.port m with st := { (s.port m).st with force := (s.port m).st.force.filter fun y => !List.contains xs y } } := by
  obtain ⟨u, -, hport, hall⟩ := port_foldl_all (f := fun t n => liftForce xs n t) (I := fun _ => True) (s := s)
    (fun t k m hm => State.port_updSt_ne _ _ _ _ hm) (fun _ _ _ => trivial) trivial m
  refine hall.trans ?_
  rw [liftForce, port_updSt, hport]

/-- The hub once the HBUS OV comparator has released every port. -/
def ovLifted (s : State) : State := liftAll [.hbusOv] { s with fd := { s.fd with ov := { valid := true, out := false } } }

theorem ovRelease_eq (s : State) : exec .hbusOvRelease s =
    if (s.fd.ov.valid && s.fd.ov.out) && decide ((ovLifted s).fd.feed = .none) && !(ovLifted s).fd.pre then
      done (match (ovLifted s).firstFeed with
        | .none => noFeed (ovLifted s)
        | _ => feedSeek (ovLifted s))
    else done (ovLifted s) := rfl

theorem ovLifted_fd (s : State) : (ovLifted s).fd = { s.fd with ov := { valid := true, out := false } } := by
  unfold ovLifted liftAll
  rw [foldl_fd]
  simp

theorem ovLifted_evq (s : State) : (ovLifted s).evq = s.evq := by
  unfold ovLifted liftAll
  rw [foldl_get State.evq (fun t n => liftForce [.hbusOv] n t) fun t n => State.updSt_evq t n _]

theorem moves_ovLifted (s : State) : Moves [.fd, .anyPort] s (ovLifted s) := by
  refine Moves.trans ((moves_fd (by simp) _).mpr (Moves.refl _ s)) (Moves.foldl (fun t n => ?_) _ _)
  exact (moves_liftForce (.inr (by simp)) _).mpr (Moves.refl _ t)

theorem port_ovLifted (s : State) (m : Port) : (ovLifted s).port m =
    { s.port m with st := { (s.port m).st with force := (s.port m).st.force.filter fun x => x != .hbusOv } } := by
  have hsame : (fun y : ForceSource => !List.contains [.hbusOv] y) = fun x => x != .hbusOv := by
    funext y
    cases y <;> rfl
  rw [ovLifted, port_liftAll, hsame]
  rfl

/-! ## The statement -/

/-- Settles O45: refused writers, and what each command finds: the plan's causes in their order, the start path on PROG, the loss of a
feed B, and the HBUS OV comparator, under which the feed port is forced off and nothing is selected. -/
theorem feedCommandsAreChecked : Obligations.FeedCommandsAreChecked := by
  intro s w k v n hs
  dsimp only
  refine ⟨fun hw => ?_, fun hw => ?_, ?_, ?_, ?_, ?_⟩
  · have hw' : ¬writerFeed w = true := by simp [hw]
    exact ⟨refusesWrite_of hs (by decide) (if_neg hw'), refusesWrite_of hs (by decide) (if_neg hw'),
      refusesWrite_of hs (by decide) (if_neg hw')⟩
  · have hplan : exec (.plan w k) s = done (planChange (feedOfCode k.toNat) s) := if_pos hw
    have hprog (b : Bool) : exec (.progWrite w b) s = done (progSet b s) := if_pos hw
    have hben : exec (.benClear w) s = done (benSet false s) := if_pos hw
    generalize feedOfCode k.toNat = f at *
    refine ⟨fun hf => ?_, fun c hf hne hr => ?_, fun hf hne hr hon hlow hkd hpg => ?_, fun hv => ?_, fun hp hf => ?_,
      fun hp hf hg hl => ?_, fun hf hp => ?_, fun hf hp hb => ?_⟩
    · exact idles_of_same hs hplan (planChange_idle hf)
    · exact answers_fd hs (hplan.trans (congrArg done (planChange_refused (by simp [hf, hne]) hr)))
    · have hsame := (sameSelection_endStartReg s (x := s.fd.planned1) rfl).fire 139 (1 + 16 * f.code)
      rw [planChange_accepted (by simp [hf, hne]) hr hkd hpg] at hplan
      dsimp only at hplan
      rw [selectFeed_eq (by simpa [FeedSt.planned1] using hlow) (by rw [hsame.availOf, hsame.led]; exact planRefused_fits hr), hsame.availOf,
        hsame.hardOf] at hplan
      have hon1 : ({ endStartReg s with fd := s.fd.planned1 } : State).eventsOn = true := (eventsOn_congr (by simp)).trans hon
      have hq : (({ endStartReg s with fd := s.fd.planned1 } : State).fire 139 (1 + 16 * f.code)).evq = [(139, 1 + 16 * f.code)] := by
        rw [State.fire_evq _ _ _ hon1]
        simp [endStartReg, hs.2]
      refine answers_of hplan ⟨?_, ?_, ?_, ?_⟩
      · simp [FeedSt.planned1]
      · simp
      · exact logs_flush hq (by simp [hs.1]) (by simp)
      · refine Moves.flush ?_ (by simp) hs.2 (by simp [hs.1])
        rw [moves_fd (by simp), moves_fd_led (by simp) (by simp), moves_fire (by simp), moves_fd (by simp), Moves.endStartReg (.inl (by simp))]
        exact Moves.refl _ s
    · exact idles_of_same hs (hprog v) (if_pos hv)
    · refine answers_fd hs ((hprog true).trans (congrArg done ?_))
      unfold progSet
      rw [if_neg (by simp [hp]), if_pos rfl]
      exact feedSeek_of_fed hf
    · obtain hfn : s.fd.feed.port = some n := by simpa [State.isFeed] using hf
      have hclear : progSet false s = ({ s with fd := { s.fd with prog := false } } : State).updSt n fun t =>
          { t with mode := closeMode { s with fd := { s.fd with prog := false } } s.fd.feed, pendMode := none, prevMode := none
                   bypExit := none, bypBack := false } := by
        unfold progSet
        rw [if_neg (by simp [hp]), if_neg (by decide), progClear]
        simp only [hfn, hl]
        rw [if_neg (by simp [hg])]
      have hexec := (hprog false).trans (congrArg done hclear)
      refine answers_quiet hexec hs.2 ⟨rfl, ?_, Moves.changesOnly ?_ hs.2 hs.2⟩
      · rw [port_updSt]
        simp [closeMode]
      · rw [moves_updSt (.inl (by simp)), moves_fd (by simp)]
        exact Moves.refl _ s
    · refine answers_fd hs (hben.trans (congrArg done ?_))
      unfold benSet
      dsimp only
      rw [if_neg (by rcases hp with hp | hp <;> simp [hp])]
      exact feedSeek_of_fed hf
    · refine losesFeed_of hs ⟨hs.2, rfl, rfl, (moves_fd (by simp) _).mpr (Moves.refl _ s)⟩ (hben.trans (congrArg done ?_))
      unfold benSet
      exact if_pos (by simp [hf, hp, hb])
  · intro hov
    exact idles_of_same hs (if_pos (by simp [hov])) rfl
  · intro hout hf hswap
    have hfn : s.fd.feed.port = some n := by simpa [State.isFeed] using hf
    have hexec : exec .hbusOvTrip s = done (hbusOvTripped s) := if_neg (by simp [hout])
    have htrip : hbusOvTripped s = feedLoss 7 (ovForced s n) := by
      unfold hbusOvTripped ovForced
      simp only [hfn]
    obtain ⟨hfd, hoff, hgood, hmoves⟩ := ovForced_leaves s n
    have hct := ct_ovForced s n
    rw [htrip] at hexec
    generalize ovForced s n = u at *
    obtain ⟨hfd', havail, hgood', hoff', hmoves'⟩ := ovLost (s := u) (n := n) 7 (by rw [hfd]; exact hfn) (by rw [hfd]; rfl)
      (noSwap_of_ct hct hswap)
    generalize feedLoss 7 u = w at *
    obtain ⟨hmode, hforce⟩ := hoff' .hbusOv n hoff
    refine answers_of hexec ⟨?_, ?_, ?_, ?_, ?_, ?_, ?_, (hmoves.trans hmoves').flush (by simp) hs.2 (hgood' (hgood hs.1))⟩
    · simp [hfd', hfd, FeedSt.lostBy]
    · simp [hfd', FeedSt.lostBy]
    · simp [hfd', FeedSt.lostBy]
    · simp [hfd', FeedSt.lostBy]
    · simp [havail]
    · simpa using hmode
    · simpa using hforce
  · intro hf
    have hexec : exec .hbusOvRelease s = done (ovLifted s) := by
      refine (ovRelease_eq s).trans (if_neg ?_)
      rw [ovLifted_fd]
      simp [hf]
    refine answers_quiet hexec (by rw [ovLifted_evq, hs.2]) ⟨ovLifted_fd s, fun m => port_ovLifted s m, ?_⟩
    exact (moves_ovLifted s).changesOnly hs.2 (by rw [ovLifted_evq, hs.2])
  · intro c hf hpre hov hforce hc hne
    have hlift : ovLifted s = { s with fd := { s.fd with ov := ⟨true, false⟩ } } :=
      liftAll_of_absent fun m => by
        show ∀ x ∈ _, x ∉ (s.port m).st.force
        simp [hforce m]
    have hexec : exec .hbusOvRelease s = done (feedSeek { s with fd := { s.fd with ov := ⟨true, false⟩ } }) := by
      refine (ovRelease_eq s).trans ((if_pos ?_).trans ?_)
      · rw [ovLifted_fd]
        simp [hf, hpre, hov]
      · rw [hlift]
        have hfirst : ({ s with fd := { s.fd with ov := ⟨true, false⟩ } } : State).firstFeed = c := hc
        rw [hfirst]
        cases c
        · exact absurd rfl hne
        · rfl
        · rfl
        · rfl
    exact takesFeed_of hs ⟨hs.2, rfl, rfl, (moves_fd (by simp) _).mpr (Moves.refl _ s)⟩ hf hpre rfl hc hne hexec

end Sys2Proof.Machine
end

section
/-! Supplies (R62, R69, R83, R182, R420 to R428): the statement about what a supply that rises, falls or leaves its range does, about
the gap and about the pre-charge of HBUS. -/

namespace Sys2Proof.Machine

/-! ## A contract that has ended stays so -/

/-- Port m is under no contract. -/
def State.uncontracted (s : State) (m : Port) : Prop := (s.port m).ct.state = .none

theorem uncontracted_of_ct {s u : State} {m : Port} (h : (u.port m).ct = (s.port m).ct) : u.uncontracted m ↔ s.uncontracted m := by
  unfold State.uncontracted
  rw [h]

theorem ct_resumeDetach (n m : Port) (s : State) : ((resumeDetach n s).port m).ct = (s.port m).ct := by
  unfold resumeDetach
  split <;> simp

theorem ct_fault (n m : Port) (cause : BitVec 4) (s : State) : ((fault n cause s).port m).ct = (s.port m).ct := by simp

theorem ct_setContract_self (n : Port) (st : CtrState) (v : BitVec 11) (i : BitVec 9) (src : Bool) (s : State) :
    ((setContract n st v i src s).port n).ct.state = st := by
  unfold setContract
  dsimp only
  split <;> simp

theorem ct_setContract_ne {n m : Port} (hm : m ≠ n) (st : CtrState) (v : BitVec 11) (i : BitVec 9) (src : Bool) (s : State) :
    ((setContract n st v i src s).port m).ct = (s.port m).ct := by
  unfold setContract
  dsimp only
  split <;> simp [hm]

theorem endContract_state (n m : Port) (s : State) :
    ((endContract n s).port m).ct.state = if m = n then .none else (s.port m).ct.state := by
  unfold endContract
  dsimp only
  rw [ct_openSwitch]
  by_cases hm : m = n
  · subst hm
    rw [if_pos rfl, port_updCt]
    dsimp only
    rw [ct_forcedClose, ct_setContract_self]
  · rw [if_neg hm, State.port_updCt_ne _ _ _ _ hm, ct_forcedClose, ct_setContract_ne hm, ct_resumeDetach]

theorem ct_allForced (m : Port) (s : State) : ((allForced s).port m).ct = (s.port m).ct := by
  have hopen (l : List Port) (t : State) : ((l.foldl (fun t n => openSwitch .off n (fault n 9 t)) t).port m).ct = (t.port m).ct :=
    foldl_get (fun t : State => (t.port m).ct) _ (fun t n => by rw [ct_openSwitch, ct_fault]) l t
  have hforce (l : List Port) (t : State) : ((l.foldl (fun t n => forceOff .noFeed n t) t).port m).ct = (t.port m).ct :=
    foldl_get (fun t : State => (t.port m).ct) _ (fun t n => ct_forceOff .noFeed n m t) l t
  unfold allForced
  dsimp only
  rw [hopen, hforce]

section
variable {s : State} {m : Port} (h : s.uncontracted m)
include h

theorem uncontracted_endContract (n : Port) : (endContract n s).uncontracted m := by
  rw [State.uncontracted, endContract_state]
  split
  · rfl
  · exact h

theorem uncontracted_sendBye (n : Port) (code : Nat) (dflt : Bool) : (sendBye n code dflt s).uncontracted m := by
  unfold sendBye
  dsimp only
  split
  · exact (uncontracted_of_ct (by simp)).mpr h
  · split
    · exact h
    · exact uncontracted_endContract h n

theorem uncontracted_shedPort (n : Port) : (shedPort n s).uncontracted m := by
  have hopened : (shedOpened n s).uncontracted m := by
    refine (uncontracted_of_ct ?_).mpr h
    unfold shedOpened
    rw [ct_promoteWaiting, ct_dropPg]
    have hforced := ct_forceOff .trip n m s
    simpa using hforced
  rw [shedPort_eq]
  generalize shedOpened n s = u at *
  refine uncontracted_sendBye ?_ n _ _
  exact (uncontracted_of_ct (ct_fault n m 7 _)).mpr hopened

theorem uncontracted_shedLoop (limit k : Nat) : (shedLoop limit k s).uncontracted m := by
  induction k generalizing s with
  | zero => exact h
  | succ k ih =>
    unfold shedLoop
    split
    · exact h
    · split
      · exact h
      · next n _ => exact ih (uncontracted_shedPort h n)

theorem uncontracted_ledgerAct : (ledgerAct s).uncontracted m := by
  by_cases hfits : s.led.grantSum + s.led.tokRes ≤ s.led.avail
  · rw [ledgerAct_of_fits hfits]; exact h
  · have hhard : (hardShed s).uncontracted m := by
      unfold hardShed
      split
      · refine uncontracted_shedLoop ?_ _ _
        exact h
      · exact h
    rw [ledgerAct_exceeds hfits, excursionNoted]
    split
    · exact hhard
    · exact (uncontracted_of_ct (by simp)).mpr hhard

theorem uncontracted_ledgerRefresh : (ledgerRefresh s).uncontracted m := by
  unfold ledgerRefresh
  refine uncontracted_ledgerAct ?_
  exact h

theorem uncontracted_noFeed : (noFeed s).uncontracted m := by
  have hforced := ct_allForced m s
  rw [noFeed_eq]
  generalize allForced s = u at *
  exact uncontracted_ledgerRefresh ((uncontracted_of_ct hforced).mpr h)

theorem uncontracted_selectFeed (f : Feed) : (selectFeed f s).uncontracted m := by
  unfold selectFeed
  split
  · exact h
  · refine uncontracted_ledgerRefresh ?_
    exact h

end

theorem ct_abortFeedSwap (n m : Port) (s : State) : ((abortFeedSwap n s).port m).ct = (s.port m).ct := by
  unfold abortFeedSwap pushMsg pushEntry
  split
  · split
    · split
      · rfl
      · simp
    · rfl
  · rfl

theorem ct_pathOpened (s : State) (n m : Port) : ((pathOpened s n).port m).ct = (s.port m).ct := by
  unfold pathOpened abortFeedSwaps
  rw [ct_dropPg, ct_abortFeedSwap, ct_abortFeedSwap, (sameChoice_endStartReg _ m).ct]
  split
  · exact ct_openSwitch .off portKD m s
  · rfl

/-- The end of a contract for good (R403). -/
theorem uncontracted_finishContract (n : Port) (s : State) : (finishContract n s).uncontracted n := by
  have hended : (endContract n s).uncontracted n := by rw [State.uncontracted, endContract_state, if_pos rfl]
  unfold finishContract
  dsimp only
  split
  · unfold opRelease
    generalize endContract n s = u at *
    refine uncontracted_ledgerAct ?_
    rw [State.uncontracted, journal_eq]
    show ((setHeld n 0 0 u).port n).ct.state = .none
    rw [port_setHeld]
    exact hended
  · exact hended

/-! ## The loss of a feed whatever else stands -/

/-- What the loss of a feed always leaves: the cause, and a feed that a selector of the same supplies and contracts found first. -/
structure LossLeft (s u : State) (cause : BitVec 4) (m : Port) : Prop where
  last : u.fd.last = s.fd.feed
  loss : u.fd.lossCause = cause
  feed : u.fd.feed = .none ∨ ∃ w : State, w.firstFeed = u.fd.feed ∧ w.fd.supplies = s.fd.supplies ∧ (w.port m).ct = (s.port m).ct
  ended : s.uncontracted m → u.uncontracted m

theorem selectFeed_fd (f : Feed) (s : State) : (selectFeed f s).fd.last = s.fd.last ∧ (selectFeed f s).fd.lossCause = s.fd.lossCause
    ∧ ((selectFeed f s).fd.feed = s.fd.feed ∨ (selectFeed f s).fd.feed = f) := by
  unfold selectFeed
  split <;> simp

theorem feedLoss_leaves {s : State} {n : Port} (cause : BitVec 4) (m : Port) (hn : s.fd.feed.port = some n) :
    LossLeft s (feedLoss cause s) cause m := by
  have hct := ct_pathOpened s n m
  have hloss := feedLoss_opened cause hn
  dsimp only at hloss
  rw [hloss]
  generalize pathOpened s n = w at *
  have hended (e a : Nat) (h : s.uncontracted m) : (({ w with fd := s.fd.lostBy cause } : State).fire e a).uncontracted m := by
    refine (uncontracted_of_ct ?_).mpr h
    simpa using hct
  split
  · exact ⟨by simp [FeedSt.lostBy], by simp [FeedSt.lostBy], .inl (by simp [FeedSt.lostBy]), fun h => uncontracted_ledgerRefresh (hended _ _ h)⟩
  · split
    · next hnone =>
      obtain ⟨hfd, -⟩ := noFeed_leaves (({ w with fd := s.fd.lostBy cause } : State).fire 139 cause.toNat)
      refine ⟨?_, ?_, .inl ?_, fun h => uncontracted_noFeed (hended _ _ h)⟩ <;> rw [hfd] <;> simp [FeedSt.lostBy]
    · next f hne =>
      obtain ⟨hlast, hcause, hfeed⟩ := selectFeed_fd ({ w with fd := s.fd.lostBy cause } : State).firstFeed
        (({ w with fd := s.fd.lostBy cause } : State).fire 139
          (cause.toNat + 16 * ({ w with fd := s.fd.lostBy cause } : State).firstFeed.code))
      refine ⟨hlast.trans (by simp [FeedSt.lostBy]), hcause.trans (by simp [FeedSt.lostBy]), ?_, fun h => uncontracted_selectFeed (hended _ _ h) _⟩
      rcases hfeed with hfeed | hfeed
      · exact .inl (hfeed.trans (by simp [FeedSt.lostBy]))
      · exact .inr ⟨{ w with fd := s.fd.lostBy cause }, hfeed.symm, rfl, hct⟩

/-- A candidate that the selector finds is eligible. -/
theorem eligible_firstFeed {s : State} {f : Feed} (h : s.firstFeed = f) (hne : f ≠ .none) : s.eligible f = true := by
  unfold State.firstFeed at h
  cases hfind : s.feedOrder.find? fun f => s.eligible f with
  | none =>
    rw [hfind] at h
    exact absurd h.symm hne
  | some found =>
    rw [hfind] at h
    have hfound := List.find?_some hfind
    rw [← h]
    exact hfound

/-! ## A supply reading -/

/-- A reading of B_PWR keeps B seated within 18.0-32.0 V (R399). -/
abbrev seatsB (p : Supply) (mv : Nat) : Prop := p ≠ .b ∨ (18000 ≤ mv ∧ mv ≤ 32000)

/-- What a supply reading leaves: the selector with the reading and the choice it had, and the ports but B as they were. -/
structure Noted (l : List Area) (s u : State) : Prop where
  brings : Brings l s u
  feed : u.fd.feed = s.fd.feed
  pre : u.fd.pre = s.fd.pre
  ov : u.fd.ov = s.fd.ov
  others : ∀ m, m ≠ portB → u.port m = s.port m
  dev : u.dev = s.dev

theorem Noted.isFeed {l : List Area} {s u : State} (h : Noted l s u) (n : Port) : u.isFeed n = s.isFeed n := by
  simp only [State.isFeed, h.feed]

theorem Noted.mono {l l' : List Area} {s u : State} (h : Noted l s u) (hsub : l ⊆ l') : Noted l' s u := { h with brings := h.brings.mono hsub }

theorem Noted.setUp {l : List Area} {s u : State} (h : Noted l s u) (hl : Area.fd ∈ l) (p : Supply) (up : Bool) :
    Noted l s (setUp p up u) := by
  obtain ⟨⟨hevq, hmem, hhost, hmoves⟩, hfeed, hpre, hov, hothers, hdev⟩ := h
  cases p <;> exact ⟨⟨hevq, hmem, hhost, (moves_fd hl _).mpr hmoves⟩, hfeed, hpre, hov, hothers, hdev⟩

theorem port_setUp (p : Supply) (up : Bool) (s : State) (m : Port) : (setUp p up s).port m = s.port m := by cases p <;> rfl

theorem port_setSupply (p : Supply) (mv : Nat) (s : State) (m : Port) : (setSupply p mv s).port m = s.port m := by cases p <;> rfl

section
variable {p : Supply} {mv : Nat} {s : State}

theorem noted_setSupply (hs : s.settled) : Noted [.fd] s (setSupply p mv s) := by
  cases p <;> exact ⟨⟨hs.2, rfl, rfl, (moves_fd (by simp) _).mpr (Moves.refl _ s)⟩, rfl, rfl, rfl, fun _ _ => rfl, rfl⟩

theorem noteSupply_seated (h : seatsB p mv) : noteSupply p mv s = setSupply p mv s := if_neg (by
  rintro ⟨hp, hmv⟩
  exact h.elim (fun hne => hne hp) hmv)

theorem noteSupply_unseated (hs : s.settled) (h : ¬seatsB p mv) (hq : s.isFeed portB = true ∨ (s.port portB).pw.sw = .off) :
    noteSupply p mv s = (setSupply p mv s).updPw portB fun w => { w with settled := false, startHeld := false } := by
  obtain ⟨hp, hmv⟩ := not_or.mp h
  have hnote : noteSupply p mv s = bBroken (setSupply p mv s) := if_pos ⟨not_not.mp hp, hmv⟩
  rw [hnote]
  unfold bBroken
  refine if_pos ?_
  rw [(noted_setSupply hs).isFeed, port_setSupply]
  simpa using hq

theorem noted_noteSupply (hs : s.settled) (h : seatsB p mv ∨ s.isFeed portB = true ∨ (s.port portB).pw.sw = .off) :
    Noted [.fd, .port portB] s (noteSupply p mv s) := by
  by_cases hseat : seatsB p mv
  · rw [noteSupply_seated hseat]
    exact (noted_setSupply hs).mono (by simp)
  · rw [noteSupply_unseated hs hseat (h.resolve_left hseat)]
    obtain ⟨⟨hevq, hmem, hhost, hmoves⟩, hfeed, hpre, hov, hothers, hdev⟩ := noted_setSupply (p := p) (mv := mv) hs
    refine ⟨⟨hevq, hmem, hhost, (moves_updPw (.inl (by simp)) _).mpr (hmoves.mono (by simp))⟩, hfeed, hpre, hov, fun m hm => ?_, hdev⟩
    rw [State.port_updPw_ne _ _ _ _ hm]
    exact hothers m hm

end

theorem portKU_ne_portB : portKU ≠ portB := by decide

theorem Noted.kuFree {s u : State} (h : Noted [.fd, .port portB] s u) (hku : s.kuFree) : u.kuFree := by
  unfold State.kuFree
  rwa [h.isFeed, h.others portKU portKU_ne_portB]

/-! ## What a supply's change brings about -/

/-- A change that leaves the feed where it was is noted and nothing else (R421). -/
theorem noted_answer {c : Instr} {s u : State} (hs : s.settled) (hu : Noted [.fd, .port portB] s u) (h : exec c s = done u) :
    answers c s fun t => t.fd = u.fd ∧ t.port portB = u.port portB ∧ changesOnly [.fd, .port portB] s t :=
  answers_quiet h hu.brings.evq ⟨rfl, rfl, hu.brings.moves.changesOnly hs.2 hu.brings.evq⟩

theorem supplyChanged_kept {s : State} (hfeed : s.fd.feed ≠ .none) (hpre : s.fd.pre = false) (h : supplyLoss s = none) :
    supplyChanged s = s := by
  unfold supplyChanged
  rw [h]
  exact feedReview_of_fed hfeed hpre

theorem supplyChanged_lost {s : State} {c : BitVec 4} (h : supplyLoss s = some c) : supplyChanged s = supplyLost c s := by
  unfold supplyChanged
  rw [h]

theorem supplyLoss_none {s : State} (h : s.fd.feed = .none) : supplyLoss s = none := by
  unfold supplyLoss
  rw [h]

theorem endKuContract_kept {s : State} (h : s.kuFree) : endKuContract s = s := if_neg (by
  rintro ⟨hfeed, hstate⟩
  rcases h with h | h
  · rw [hfeed] at h
    cases h
  · exact h (by simpa using hstate))

theorem endKuContract_ended {s : State} (hfeed : s.fd.feed = .ku)
    (hstate : (s.port portKU).ct.state = .default ∨ (s.port portKU).ct.state = .negotiated) :
    endKuContract s = finishContract portKU s := if_pos ⟨by simp [State.isFeed, hfeed, Feed.port], hstate⟩

/-- KU keeps no legacy limits that a change of its supply could end. -/
abbrev State.kuCalm (s : State) : Prop :=
  (s.port portKU).cf.attach ≠ .legacy ∧ (s.port portKU).cf.fromLegacy = false ∧ (s.port portKU).cf.legacyDue = false

section
variable {p : Supply} {mv : Nat} {s : State}

theorem rangeChange_calm (hs : s.settled) (hcalm : s.kuCalm) (h : seatsB p mv ∨ s.isFeed portB = true ∨ (s.port portB).pw.sw = .off) :
    exec (.supplyRangeChange p mv) s = done (supplyChanged (noteSupply p mv s)) := by
  obtain ⟨-, -, hdue⟩ := hcalm
  have hport := (noted_noteSupply (p := p) (mv := mv) hs h).others portKU portKU_ne_portB
  have hkeep : (noteSupply p mv s).updCf portKU (fun c => { c with legacyDue := false }) = noteSupply p mv s :=
    updCf_of_fixed (f := fun c => { c with legacyDue := false }) (by rw [hport, ← hdue])
  have hexec : exec (.supplyRangeChange p mv) s = execSupplyRangeChange p mv s := rfl
  rw [hexec, execSupplyRangeChange]
  rw [hkeep, ite_self]

/-- A supply that falls, KU calm and the hub not held: only the feed that it carries, or the candidate it pre-charges, is lost. -/
theorem supplyFell_calm (hcalm : s.kuCalm) (hhold : (noteSupply p mv s).dev.hold ≠ .brownOut) :
    supplyFell p mv s =
      let u := setUp p false (noteSupply p mv s)
      if u.fd.pre && decide (u.fd.target = feedOfSupply p) then preLost false u
      else if u.fd.feed = feedOfSupply p then feedLoss 6 (if p = .ku then endKuContract u else u) else u := by
  obtain ⟨hattach, -, -⟩ := hcalm
  have hhold' : (setUp p false (noteSupply p mv s)).dev.hold ≠ .brownOut := by cases p <;> exact hhold
  have hlegacy : ¬(p = .ku ∧ (s.port portKU).cf.attach = .legacy) := fun h => hattach h.2
  have hcold : ¬(p = .b ∧ (setUp p false (noteSupply p mv s)).dev.hold = .brownOut) := fun h => hhold' h.2
  unfold supplyFell
  simp only [if_neg hlegacy, if_neg hcold]

end

/-- KU outside its window with its contract gone is no candidate of the start path. -/
theorem not_eligible_ku {s w : State} (h : supplyLoss s = some 5) (hfeed : s.fd.feed = .ku) (hct : (s.port portKU).ct.state ≠ .legacy)
    (hsup : w.fd.supplies = s.fd.supplies) (hw : (w.port portKU).ct.state = .none) : w.eligible .ku = false := by
  have hprog : w.fd.prog = s.fd.prog := (congrArg FeedSt.prog hsup :)
  have hmv : w.fd.kuMv = s.fd.kuMv := (congrArg FeedSt.kuMv hsup :)
  have hup : w.fd.kuUp = s.fd.kuUp := (congrArg FeedSt.kuUp hsup :)
  have hexempt : w.fd.exempt = s.fd.exempt := (congrArg FeedSt.exempt hsup :)
  unfold supplyLoss at h
  rw [hfeed] at h
  simp only [hct, if_false] at h
  split at h
  · cases h
  · next hp =>
    split at h
    · cases h
    · next hrange =>
      split at h
      · cases h
      · next hex =>
        simp only [State.eligible, State.eligStart, State.legacyFeed, hprog, hmv, hup, hexempt, hw, Bool.not_eq_true _ ▸ hp,
          Bool.false_eq_true, if_false]
        simp only [hrange, decide_false, Bool.false_and, Bool.false_or, reduceCtorEq, Bool.or_false]
        have : (decide (s.fd.exempt = .ku) && s.fd.kuUp && decide (s.fd.kuMv ≤ 56000)) = false := by
          simpa [and_assoc] using hex
        rw [this]
        simp

/-! ## The gap ends (R421 to R424) -/

/-- The selector once the gap has ended. -/
def FeedSt.gapEnded (x : FeedSt) : FeedSt := { x with gap := false, planned := false, pre := false, hbusLow := false }

/-- The stage of the feed port as its path closes. -/
def StageSt.pathClosed (t : StageSt) (mode : StageMode) (prog : Bool) (ilimpk : Nat) : StageSt :=
  { t with hs := false, pendMode := none, prevMode := none, bypExit := none, bypBack := false
           mode := if t.force.isEmpty || !prog then mode else .off
           refCode := if prog then BitVec.ofNat 10 ilimpk else t.refCode, refOld := none }

section
variable {s : State} {n : Port} (hn : s.fd.feed.port = some n)
include hn

theorem closePath_eq : closePath s =
    (liftForce [.trip, .hardShort, .seatBreak] n (liftAll [.noFeed] { s with fd := s.fd.gapEnded })).updSt n fun t =>
      t.pathClosed (closeMode s s.fd.feed) s.fd.prog (s.port n).ripe.ilimpk := by
  unfold closePath
  simp only [hn]
  rfl

theorem closePath_unforced (h : ∀ m, (s.port m).st.force = []) : closePath s = ({ s with fd := s.fd.gapEnded } : State).updSt n fun t =>
    t.pathClosed (closeMode s s.fd.feed) s.fd.prog (s.port n).ripe.ilimpk := by
  have hall : liftAll [.noFeed] { s with fd := s.fd.gapEnded } = { s with fd := s.fd.gapEnded } :=
    liftAll_of_absent fun m => by
      show ∀ x ∈ _, x ∉ (s.port m).st.force
      simp [h m]
  have hone : liftForce [.trip, .hardShort, .seatBreak] n { s with fd := s.fd.gapEnded } = { s with fd := s.fd.gapEnded } :=
    liftForce_of_absent (by
      show ∀ x ∈ _, x ∉ (s.port n).st.force
      simp [h n])
  rw [closePath_eq hn, hall, hone]

theorem noFeed_not_mem_closePath (m : Port) : .noFeed ∉ ((closePath s).port m).st.force := by
  have hall : .noFeed ∉ ((liftAll [.noFeed] { s with fd := s.fd.gapEnded }).port m).st.force := by
    rw [port_liftAll]
    simp
  rw [closePath_eq hn]
  generalize liftAll [.noFeed] { s with fd := s.fd.gapEnded } = u at *
  by_cases hm : m = n
  · subst hm
    rw [port_updSt, liftForce, port_updSt]
    simp [StageSt.pathClosed, hall]
  · rw [State.port_updSt_ne _ _ _ _ hm, liftForce, State.port_updSt_ne _ _ _ _ hm]
    exact hall

end

/-! ## The statement -/

section
variable {s : State} {p : Supply} {mv : Nat} (hs : s.settled) (h : seatsB p mv ∨ s.isFeed portB = true ∨ (s.port portB).pw.sw = .off)
include hs h

/-- A supply that falls and carries nothing is noted. -/
theorem supplyFall_noted (hcalm : s.kuCalm) (hhold : s.dev.hold = .none) (hfeed : s.fd.feed ≠ feedOfSupply p) (hpre : s.fd.pre = false) :
    exec (.supplyFall p mv) s = done (setUp p false (noteSupply p mv s)) := by
  have hnote := noted_noteSupply (p := p) (mv := mv) hs h
  have hu := hnote.setUp (by simp) p false
  refine congrArg done ((supplyFell_calm hcalm (by rw [hnote.dev, hhold]; decide)).trans ?_)
  dsimp only
  rw [hu.pre, hpre, hu.feed, if_neg (by simp), if_neg hfeed]

/-- A feed whose supply falls is lost, a KU with its contract. -/
theorem supplyFall_lost (hcalm : s.kuCalm) (hhold : s.dev.hold = .none) (hfeed : s.fd.feed = feedOfSupply p) (hpre : s.fd.pre = false) :
    exec (.supplyFall p mv) s = done (feedLoss 6 (if p = .ku then endKuContract (setUp p false (noteSupply p mv s))
      else setUp p false (noteSupply p mv s))) := by
  have hnote := noted_noteSupply (p := p) (mv := mv) hs h
  have hu := hnote.setUp (by simp) p false
  refine congrArg done ((supplyFell_calm hcalm (by rw [hnote.dev, hhold]; decide)).trans ?_)
  dsimp only
  rw [hu.pre, hpre, hu.feed, if_neg (by simp), if_pos hfeed]

end

/-- A KU that is fed from and whose contract ends is lost with its cause. -/
theorem ku_lost {s u : State} (cause : BitVec 4) (hfeed : s.fd.feed = .ku) (hu : Noted [.fd, .port portB] s u)
    (hstate : (s.port portKU).ct.state = .default ∨ (s.port portKU).ct.state = .negotiated) :
    ∃ w, feedLoss cause (endKuContract u) = feedLoss cause w ∧ w.fd = u.fd ∧ w.uncontracted portKU
      ∧ LossLeft w (feedLoss cause (endKuContract u)) cause portKU := by
  have hended : endKuContract u = finishContract portKU u :=
    endKuContract_ended (hu.feed.trans hfeed) (by rwa [hu.others portKU portKU_ne_portB])
  have hunc := uncontracted_finishContract portKU u
  have hfd : (finishContract portKU u).fd = u.fd := by simp
  rw [hended]
  generalize finishContract portKU u = w at *
  exact ⟨w, rfl, hfd, hunc, feedLoss_leaves cause portKU (by rw [hfd, hu.feed, hfeed]; rfl)⟩

/-- The hub once the candidate on port n, which pre-charged HBUS, has failed (R422). -/
def preFailed (s : State) (n : Port) : State :=
  { s.updPw n fun w => { w with failed := true } with fd := { s.fd with pre := false, target := .none } }

/-- Settles O44: a reading is noted, with B's seat; the feed it carries is lost through `feedLoss`, with KU's contract where it stands,
or a candidate is taken through `feedSeek`; the gap closes the path; a pre-charge that does not come passes on. -/
theorem suppliesMoveTheFeed : Obligations.SuppliesMoveTheFeed := by
  intro s p mv n hs
  dsimp only
  have hseated (hseat : seatsB p mv) (m : Port) : (noteSupply p mv s).port m = s.port m := by
    rw [noteSupply_seated hseat, port_setSupply]
  refine ⟨fun hseat => hseated hseat portB, fun hseat hq => ?_, fun hq => ?_, fun f hseat hpath hf hne => ?_, fun hcalm hfeed hstate hp => ?_,
    fun hgap hf hforce => ?_, fun hgap hf => ?_, fun hgap => idles_of_same hs (if_neg (by simp [hgap])) rfl,
    fun hpre htarget hfeed hlow hov => ?_, fun hpre => idles_of_same hs (if_neg (by simp [hpre])) rfl⟩
  · rw [noteSupply_unseated hs hseat hq, port_updPw, port_setSupply]
  · have hnote := noted_noteSupply (p := p) (mv := mv) hs hq
    have hrise := hnote.setUp (by simp) p true
    have hfall := hnote.setUp (by simp) p false
    refine ⟨fun hfeed hpre hl => noted_answer hs hrise (congrArg done (supplyChanged_kept ?_ ?_ hl)),
      fun hcalm hfeed hpre hl => noted_answer hs hnote ((rangeChange_calm hs hcalm hq).trans (congrArg done (supplyChanged_kept ?_ ?_ hl))),
      fun c hcalm hl hc => ?_, fun hcalm hhold hfeed hpre => noted_answer hs hfall (supplyFall_noted hs hq hcalm hhold hfeed hpre),
      fun hcalm hhold hfeed hpre hku => ?_⟩
    · rw [hrise.feed]; exact hfeed
    · rw [hrise.pre]; exact hpre
    · rw [hnote.feed]; exact hfeed
    · rw [hnote.pre]; exact hpre
    · refine losesFeed_of hs hnote.brings ((rangeChange_calm hs hcalm hq).trans (congrArg done ((supplyChanged_lost hl).trans ?_)))
      unfold supplyLost
      rcases hc with hc | hc
      · rw [if_neg hc]
      · rw [endKuContract_kept (hnote.kuFree hc), ite_self]
    · refine losesFeed_of hs hfall.brings ((supplyFall_lost hs hq hcalm hhold hfeed hpre).trans (congrArg (fun u => done (feedLoss 6 u)) ?_))
      split
      · next hp => exact endKuContract_kept (hfall.kuFree (hku.resolve_left (by simp [hp])))
      · rfl
  · obtain ⟨hfeed, hpre, hov⟩ := hpath
    have hrise : Noted [.fd] s (setUp p true (noteSupply p mv s)) := by
      rw [noteSupply_seated hseat]
      exact (noted_setSupply hs).setUp (by simp) p true
    refine takesFeed_of hs hrise.brings (hrise.feed.trans hfeed) (hrise.pre.trans hpre) (by rw [hrise.ov]; exact hov) hf hne
      (congrArg done ?_)
    unfold supplyChanged
    rw [supplyLoss_none (hrise.feed.trans hfeed)]
    unfold feedReview
    exact if_neg (by simp [hrise.pre, hpre])
  · have hq : seatsB p mv ∨ s.isFeed portB = true ∨ (s.port portB).pw.sw = .off := .inl (.inl (by simp [hp]))
    have hnote := noted_noteSupply (p := p) (mv := mv) hs hq
    refine ⟨fun hl => ?_, fun hpre hhold => ?_⟩
    · obtain ⟨w, hw, hfd, hunc, ⟨hlast, hloss, hnext, hended⟩⟩ := ku_lost 5 hfeed hnote hstate
      have hexec : exec (.supplyRangeChange p mv) s = done (feedLoss 5 (endKuContract (noteSupply p mv s))) :=
        (rangeChange_calm hs hcalm hq).trans (congrArg done (supplyChanged_lost hl))
      have hnostate : (noteSupply p mv s).port portKU = s.port portKU := hnote.others portKU portKU_ne_portB
      refine answers_of hexec ⟨?_, ?_, ?_, ?_⟩
      · rw [State.port_flush]
        exact hended hunc
      · rw [State.flush_fd]
        rcases hnext with hnext | ⟨x, hx, hsup, hxct⟩
        · rw [hnext]; decide
        · intro hku
          have hel := eligible_firstFeed (hx.trans hku) (by decide)
          rw [not_eligible_ku hl (hnote.feed.trans hfeed) (by rw [hnostate]; rcases hstate with h | h <;> simp [h]) (by rw [hsup, hfd])
            (by rw [hxct]; exact hunc)] at hel
          cases hel
      · rw [State.flush_fd, hlast, hfd, hnote.feed, hfeed]
      · rw [State.flush_fd, hloss]
    · have hfall := hnote.setUp (by simp) p false
      obtain ⟨w, hw, hfd, hunc, ⟨hlast, hloss, -, hended⟩⟩ := ku_lost 6 hfeed hfall hstate
      have hexec : exec (.supplyFall p mv) s = done (feedLoss 6 (endKuContract (setUp p false (noteSupply p mv s)))) :=
        (supplyFall_lost hs hq hcalm hhold (by rw [hfeed, hp]; rfl) hpre).trans (congrArg (fun u => done (feedLoss 6 u)) (if_pos hp))
      refine answers_of hexec ⟨?_, ?_, ?_⟩
      · rw [State.port_flush]
        exact hended hunc
      · rw [State.flush_fd, hlast, hfd, hfall.feed, hfeed]
      · rw [State.flush_fd, hloss]
  · have hfn : s.fd.feed.port = some n := by simpa [State.isFeed] using hf
    have hexec : exec .feedGapEnd s = done (({ s with fd := s.fd.gapEnded } : State).updSt n fun t =>
        t.pathClosed (closeMode s s.fd.feed) s.fd.prog (s.port n).ripe.ilimpk) :=
      (if_pos hgap).trans (congrArg done (closePath_unforced hfn hforce))
    refine answers_quiet hexec hs.2 ⟨rfl, ?_, Moves.changesOnly ?_ hs.2 hs.2⟩
    · rw [port_updSt]
      have hempty : ((s.port n).st.force.isEmpty || !s.fd.prog) = true := by simp [hforce n]
      show { s.port n with st := (s.port n).st.pathClosed (closeMode s s.fd.feed) s.fd.prog (s.port n).ripe.ilimpk } = _
      rw [StageSt.pathClosed, hempty, if_pos rfl]
      rfl
    · rw [moves_updSt (.inl (by simp)), moves_fd (by simp)]
      exact Moves.refl _ s
  · obtain ⟨m, hm⟩ := feed_port_some hf
    have hexec : exec .feedGapEnd s = done (closePath s) := if_pos hgap
    refine answers_of hexec fun k => ?_
    rw [State.port_flush]
    exact noFeed_not_mem_closePath hm k
  · have hexec : exec .hbusPrechargeTimeout s = done (feedSeek (preFailed s n)) := by
      refine (if_pos hpre).trans (congrArg done ?_)
      unfold preLost
      simp only [htarget]
      rfl
    have hmoves : Moves [.fd, .port n] s (preFailed s n) := by
      rw [preFailed, moves_fd (by simp), moves_updPw (.inl (by simp))]
      exact Moves.refl _ s
    refine ⟨fun hnone => ?_, fun f hfirst hne => ?_⟩
    · have hkeep : feedSeek (preFailed s n) = preFailed s n := by
        have hnone' : (preFailed s n).firstFeed = .none := hnone
        unfold feedSeek
        rw [hnone', ite_self]
      exact answers_quiet (hexec.trans (congrArg done hkeep)) hs.2 ⟨rfl, rfl, hmoves.changesOnly hs.2 hs.2⟩
    · rw [feedSeek_low (s := preFailed s n) hfeed rfl hov hfirst hne hlow] at hexec
      exact answers_quiet hexec hs.2 ⟨rfl, rfl, ((moves_fd (by simp) _).mpr hmoves).changesOnly hs.2 hs.2⟩

end Sys2Proof.Machine
end

section
/-! Moisture (R429 to R434): the statement about measurements, the flag and the timeout after it. -/

namespace Sys2Proof.Machine

/-! ## The flag -/

section
variable {l : List Area} {s t : State} {n : Port} {p : PortSt} {q : List (Nat × Nat)} (hl : PortAreas l n)
  (h : PortChange l s t n p q) (hfeed : s.fd.feed ≠ .none) (hpre : s.fd.pre = false)

theorem PortChange.mo (h : PortChange l s t n p q) (f : MoistSt → MoistSt) : PortChange l s (t.updMo n f) n { p with mo := f p.mo } q :=
  h.upd _

include h

theorem flagWet_wet (pins : BitVec 3) (hw : p.mo.wet = true) :
    flagWet n pins t = t.updMo n fun m => { m with wet := true, pins := pins, dryRuns := 0 } := if_pos (by rw [h.port]; exact hw)

theorem clearWet_dry (hw : p.mo.wet = false) : clearWet n t = t.updMo n fun m => { m with wet := false, pins := 0 } :=
  if_neg (by rw [h.port, hw]; decide)

include hl hfeed hpre
variable (hon : s.eventsOn = true) (hsig : s.signals n = true)
include hon hsig

/-- The MOISTURE event of a port whose flag has changed, under a feed (R428, R433). -/
theorem PortChange.moistEvent : PortChange l s (feedReview (Machine.moistEvent n t)) n p
    (q ++ [(8 * n.val + 4, b2n p.mo.wet + 2 * p.mo.pins.toNat)]) := by
  have hfired := h.event hl hon hsig 4 (b2n p.mo.wet + 2 * p.mo.pins.toNat)
  have heq : Machine.moistEvent n t = t.firePort n 4 (b2n p.mo.wet + 2 * p.mo.pins.toNat) := by rw [Machine.moistEvent, h.port]
  have hfd := hfired.fd_eq hl
  rw [heq, feedReview_of_fed (by rw [hfd]; exact hfeed) (by rw [hfd]; exact hpre)]
  exact hfired

theorem PortChange.flagWet (pins : BitVec 3) (hw : p.mo.wet = false) :
    PortChange l s (Machine.flagWet n pins t) n { p with mo := { p.mo with wet := true, pins := pins, dryRuns := 0 } }
      (q ++ [(8 * n.val + 4, 1 + 2 * pins.toNat)]) := by
  have heq : Machine.flagWet n pins t =
      feedReview (Machine.moistEvent n (t.updMo n fun m => { m with wet := true, pins := pins, dryRuns := 0 })) :=
    if_neg (by rw [h.port, hw]; decide)
  rw [heq]
  exact (h.mo _).moistEvent hl hfeed hpre hon hsig

theorem PortChange.clearWet (hw : p.mo.wet = true) :
    PortChange l s (Machine.clearWet n t) n { p with mo := { p.mo with wet := false, pins := 0 } } (q ++ [(8 * n.val + 4, 0)]) := by
  have heq : Machine.clearWet n t = feedReview (Machine.moistEvent n (t.updMo n fun m => { m with wet := false, pins := 0 })) :=
    if_pos (by rw [h.port, hw])
  rw [heq]
  exact (h.mo _).moistEvent hl hfeed hpre hon hsig

end

/-! ## Measurements (R429, R430) -/

/-- A measurement that has ended, its pins not yet judged. -/
def MoistSt.measured (m : MoistSt) (r : MoistSample) : MoistSt :=
  { m with
    measuring := false, mcnt := m.mcnt + 1
    dgmax := BitVec.ofNat 8 (min 255 (max (r.cf1G20 - r.cf1G1) (max (r.cf2G20 - r.cf2G1) (r.seatG20 - r.seatG1)))) }

section
variable {s : State} {n : Port} {r : MoistSample} (hm : (s.port n).mo.measuring = true)
include hm

theorem exec_measured_wet (h : wetPins (s.port n) r ≠ 0) : exec (.moistureMeasurementDone n r) s =
    done (flagWet n (wetPins (s.port n) r) (s.updMo n fun m => m.measured r)) := (if_pos hm).trans (if_pos h)

theorem exec_measured_dry (h : wetPins (s.port n) r = 0) : exec (.moistureMeasurementDone n r) s =
    done (if 3 ≤ (s.port n).mo.dryRuns + 1 then clearWet n ((s.updMo n fun m => m.measured r).updMo n fun m => { m with dryRuns := m.dryRuns + 1 })
      else (s.updMo n fun m => m.measured r).updMo n fun m => { m with dryRuns := m.dryRuns + 1 }) :=
  (if_pos hm).trans (if_neg (not_not.mpr h))

end

/-! ## The statement -/

/-- Settles O46: each measurement ends by its pins, the flag and its end fire MOISTURE, and a switch that is still on after 500 ms opens. -/
theorem moistureIsFlaggedAndCleared : Obligations.MoistureIsFlaggedAndCleared := by
  intro s n r hs hsig hon hfeed hpre
  dsimp only
  have hports := PortAreas.pair n
  have hstart : PortChange [.port n] s s n (s.port n) [] := PortChange.refl (.inl (by simp)) s
  have hpair : PortChange [.port n, .events] s s n (s.port n) [] := PortChange.refl hports.port s
  have hpins : wetPins (s.port n) r = BitVec.ofNat 3
      (b2n (decide (r.cf1G1 ≤ r.cf1G20 ∧ (s.port n).ripe.mdg ≤ r.cf1G20 - r.cf1G1))
        + 2 * b2n (decide (r.cf2G1 ≤ r.cf2G20 ∧ (s.port n).ripe.mdg ≤ r.cf2G20 - r.cf2G1))
        + 4 * b2n (decide (r.seatG1 ≤ r.seatG20 ∧ (s.port n).ripe.mdg ≤ r.seatG20 - r.seatG1)
          || ((s.port n).pw.seat.valid && !(s.port n).pw.seat.out && decide (20 ≤ r.seatG20)))) := by
    simp only [wetPins, Bool.decide_and, Bool.and_comm (decide ((s.port n).ripe.mdg ≤ _))]
  rw [← hpins]
  have hmeas := hpair.mo fun m => m.measured r
  refine ⟨fun hen hun hq hm => setsPort_updMo (c := .moistureMeasurementStart n)
      (f := fun m => { m with measuring := true }) hs (if_pos (by simp [hsig, hen, hun, hq, hm])), fun h => ?_,
    fun hm => setsPort_updMo (c := .moistureYield n) (f := fun m => { m with measuring := false, yield := satInc m.yield }) hs (if_pos hm),
    fun hm hp hw => ?_, fun hm hp hw => ?_, fun hm hp hd => ?_, fun hm hp hd hw => ?_,
    fun hm => ⟨idles_of hs (if_neg (by simp [hm])), idles_of hs (if_neg (by simp [hm]))⟩, fun ht hw => ⟨?_, ?_⟩, fun ht hw => ?_,
    fun ht => ⟨idles_of hs (if_neg (by simp [ht])), idles_of hs (if_neg (by simp [ht]))⟩, fun hw hv hsw hpg hf hwait => ?_, fun h => ?_⟩
  · refine idles_of hs (if_neg ?_)
    rcases h with h | h | h | h <;> simp [h]
  · have hflag := hmeas.flagWet hports hfeed hpre hon hsig (wetPins (s.port n) r) hw
    exact setsPortFires_of_change hs hflag (exec_measured_wet hm hp)
  · have hexec := exec_measured_wet hm hp
    rw [flagWet_wet hmeas _ hw] at hexec
    have hset := (hstart.mo fun m => m.measured r).mo fun m => { m with wet := true, pins := wetPins (s.port n) r, dryRuns := 0 }
    exact setsPort_of_change hs (hset.of_eq (by simp [MoistSt.measured, hw])) hexec
  · have hexec := exec_measured_dry hm hp
    rw [if_neg (by omega)] at hexec
    exact setsPort_of_change hs ((hstart.mo _).mo _) hexec
  · have hexec := exec_measured_dry hm hp
    rw [if_pos hd] at hexec
    exact setsPortFires_of_change hs ((hmeas.mo _).clearWet hports hfeed hpre hon hsig hw) hexec
  · exact setsPortFires_of_change hs (hpair.flagWet hports hfeed hpre hon hsig _ hw) (if_pos ht)
  · have hexec : exec (.leakageDry n) s = done (clearWet n s) := if_pos ht
    rw [clearWet_dry hstart hw] at hexec
    exact setsPort_of_change hs ((hstart.mo _).of_eq (by rw [← hw])) hexec
  · exact setsPortFires_of_change hs (hpair.clearWet hports hfeed hpre hon hsig hw) (if_pos ht)
  · have hsig' : s.has n = true ∧ n ≠ portB := by simpa [State.signals] using hsig
    have hfault := hpair.fault hports hon hsig'.1 0xA
    have hopen := hfault.opensSwitch .off (.inr (.inr (.inr hsw))) (fun m hm => by rw [hfault.others hports hm]; exact hwait m) hpg
    have hexec : exec (.wetTimeout n) s = done (openSwitch .off n (fault n 0xA s)) :=
      (if_pos (by simp [hw, hv])).trans ((if_neg (by simp [hf])).trans (if_pos hsw))
    exact setsPortFires_of_change hs (hopen.of_eq (by simp [PowerSt.opened, hsig'.2])) hexec
  · rcases h with h | h | ⟨hsw, hf⟩
    · exact idles_of hs (if_neg (by simp [h]))
    · exact idles_of hs (if_neg (by simp [h]))
    · by_cases hw : ((s.port n).mo.wet && aboveMvlim (s.port n).ripe (s.port n).ct.volt) = true
      · exact idles_of hs ((if_pos hw).trans ((if_neg (by simp [hf])).trans (if_neg hsw)))
      · exact idles_of hs (if_neg hw)

end Sys2Proof.Machine
end

section
/-! What the feed selector may change at most: the selector, the books, the ports, the events, and the TX rings and the ledger's records
in shared SRAM. Nothing of the image store is touched. -/

namespace Sys2Proof.Machine

/-- What the selector, with the contracts it ends, may change. -/
abbrev selectorAreas : List Area := [.fd, .led, .anyPort, .events, .mem 0x30000000 0x3000C400]

theorem covers_within {l : List Area} {a b lo hi : Nat} (h : Area.mem a b ∈ l) (hlo : a ≤ lo) (hhi : hi ≤ b) : covers l lo hi :=
  ⟨a, b, h, hlo, hhi⟩

section
variable {l : List Area} {s t : State} (hl : selectorAreas ⊆ l)
include hl

theorem selector_port : Area.anyPort ∈ l := hl (by simp)
theorem selector_fd : Area.fd ∈ l := hl (by simp)
theorem selector_led : Area.led ∈ l := hl (by simp)
theorem selector_events : Area.events ∈ l ∨ Area.sources ∈ l := .inl (hl (by simp))
theorem selector_mem : Area.mem 0x30000000 0x3000C400 ∈ l := hl (by simp)

theorem moves_pushMsg (n : Port) (start : Bool) (type : BitVec 5) (objs : List Word) (hm : memGood t.mem = true) :
    Moves l s (pushMsg n start type objs t) ↔ Moves l s t := by
  unfold pushMsg
  split
  · exact Iff.rfl
  · obtain ⟨hlo, hhi⟩ := txSlot_bounds t n
    exact moves_pushEntry hm (.inr (selector_port hl)) (covers_within (selector_mem hl) hlo (by omega)) _ _ _ _ _ _ _

theorem moves_abortFeedSwap (n : Port) (hm : memGood t.mem = true) : Moves l s (abortFeedSwap n t) ↔ Moves l s t := by
  unfold abortFeedSwap
  split
  · split
    · exact moves_pushMsg hl _ _ _ _ hm
    · exact Iff.rfl
  · exact Iff.rfl

theorem moves_abortFeedSwaps (hm : memGood t.mem = true) : Moves l s (abortFeedSwaps t) ↔ Moves l s t := by
  rw [abortFeedSwaps, moves_abortFeedSwap hl _ (by simp [hm]), moves_abortFeedSwap hl _ hm]

theorem moves_noFeed : Moves l s (noFeed t) ↔ Moves l s t :=
  Moves.iff_right ((noFeed_leaves t).moves.mono fun a ha => hl (by revert ha; simp; tauto))

theorem moves_selectFeed (f : Feed) : Moves l s (selectFeed f t) ↔ Moves l s t := by
  unfold selectFeed
  split
  · rw [moves_fd (selector_fd hl)]
  · rw [moves_ledgerRefresh (selector_port hl) (selector_events hl) (selector_led hl), moves_fd (selector_fd hl)]

theorem moves_pathOpened (n : Port) (hm : memGood t.mem = true) : Moves l s (pathOpened t n) ↔ Moves l s t := by
  have hgood : memGood (endStartReg (if t.kdSinks then openSwitch .off portKD t else t)).mem = true := by
    split <;> simp [hm]
  unfold pathOpened
  rw [moves_dropPg (.inr (selector_port hl)) (selector_events hl), moves_abortFeedSwaps hl hgood, Moves.endStartReg (.inr (selector_port hl))]
  split
  · rw [moves_openSwitch (selector_port hl) (selector_events hl)]
  · exact Iff.rfl

theorem moves_feedLoss (cause : BitVec 4) (hm : memGood t.mem = true) : Moves l s (feedLoss cause t) ↔ Moves l s t := by
  cases hp : t.fd.feed.port with
  | none =>
    have hnone : t.fd.feed = .none := by
      by_contra hne
      obtain ⟨n, hn⟩ := feed_port_some hne
      rw [hn] at hp
      cases hp
    rw [show feedLoss cause t = t from if_pos hnone]
  | some n =>
    have hopen := moves_pathOpened (s := s) hl n hm
    have hloss := feedLoss_opened cause hp
    dsimp only at hloss
    rw [hloss]
    generalize pathOpened t n = w at *
    have hfired (e a : Nat) : Moves l s (({ w with fd := t.fd.lostBy cause } : State).fire e a) ↔ Moves l s t := by
      rw [moves_fire (selector_events hl), moves_fd (selector_fd hl)]
      exact hopen
    split
    · rw [moves_ledgerRefresh (selector_port hl) (selector_events hl) (selector_led hl)]
      exact hfired _ _
    · split
      · rw [moves_noFeed hl]
        exact hfired _ _
      · rw [moves_selectFeed hl]
        exact hfired _ _

theorem moves_feedSeek : Moves l s (feedSeek t) ↔ Moves l s t := by
  unfold feedSeek
  split
  · exact Iff.rfl
  · split
    · exact Iff.rfl
    · split
      · rw [moves_selectFeed hl, moves_fd (selector_fd hl)]
      · rw [moves_selectFeed hl, moves_fire (selector_events hl), moves_fd (selector_fd hl)]

theorem moves_opRelease (n : Port) (hm : memGood t.mem = true) : Moves l s (opRelease n t) ↔ Moves l s t := by
  have hset : Moves l t (setHeld n 0 0 t) := by
    unfold setHeld
    split
    · exact (moves_updCt (.inr (selector_port hl)) _).mpr ((moves_led (t := t) (selector_led hl) _).mpr (Moves.refl l t))
    · exact (moves_updCt (.inr (selector_port hl)) _).mpr ((moves_led (t := t) (selector_led hl) _).mpr (Moves.refl l t))
  have hgood : memGood (setHeld n 0 0 t).mem = true := by rw [setHeld_mem]; exact hm
  have hn := n.isLt
  unfold opRelease
  rw [moves_ledgerAct (selector_port hl) (selector_events hl) (selector_led hl), journal_eq]
  generalize setHeld n 0 0 t = u at *
  have hgrant : Moves l t (writeGrant n t.led.held[n] 0 u) :=
    (moves_writeMem_covered hgood (covers_within (lo := 0x3000C100 + 16 * n.val) (hi := 0x3000C110 + 16 * n.val) (selector_mem hl)
      (by omega) (by omega)) (by simp; omega)).mpr hset
  have hgood' : memGood (writeGrant n t.led.held[n] 0 u).mem = true := memGood_memWriteN _ _ _ hgood
  generalize writeGrant n t.led.held[n] 0 u = w at *
  have hj := Nat.mod_lt w.led.jhead (show 0 < 32 by decide)
  have hjournal : Moves l t (w.writeMem (0x3000C200 + 16 * (w.led.jhead % 32)) (journalBytes w.led n 2 1 w.timeUs)) :=
    (moves_writeMem_covered hgood' (covers_within (lo := 0x3000C200 + 16 * (w.led.jhead % 32))
      (hi := 0x3000C210 + 16 * (w.led.jhead % 32)) (selector_mem hl) (by omega) (by omega)) (by simp; omega)).mpr hgrant
  exact ((moves_led (selector_led hl) _).mpr hjournal).iff_right

theorem moves_finishContract (n : Port) (hm : memGood t.mem = true) : Moves l s (finishContract n t) ↔ Moves l s t := by
  have hended := moves_endContract (s := s) (t := t) (selector_port hl) (selector_events hl) n
  have hgood : memGood (endContract n t).mem = true := by simp [hm]
  unfold finishContract
  dsimp only
  split
  · rw [moves_opRelease hl n hgood, hended]
  · exact hended

theorem moves_supplyLost (c : BitVec 4) (hm : memGood t.mem = true) : Moves l s (supplyLost c t) ↔ Moves l s t := by
  unfold supplyLost
  split
  · rw [moves_feedLoss hl c (by simp [hm])]
    unfold endKuContract
    dsimp only
    split
    · exact moves_finishContract hl _ hm
    · exact Iff.rfl
  · exact moves_feedLoss hl c hm

theorem moves_progClear (hm : memGood t.mem = true) : Moves l s (progClear t) ↔ Moves l s t := by
  have hcleared : Moves l s { t with fd := { t.fd with prog := false } } ↔ Moves l s t := moves_fd (selector_fd hl) _
  unfold progClear
  dsimp only
  split
  · rw [moves_feedSeek hl]
    exact hcleared
  · split
    · rw [moves_supplyLost hl]
      · exact hcleared
      · exact hm
    · split
      · exact hcleared
      · rw [moves_updSt (.inr (selector_port hl))]
        exact hcleared

end

end Sys2Proof.Machine
end

section
/-! Resets of the hub (R17, R70, R427, R447 to R450, R471, R545): what each leaves, and the statement about them. -/

namespace Sys2Proof.Machine

/-! ## The selector keeps the supplies -/

theorem supplies_selectFeed (f : Feed) (s : State) : (selectFeed f s).fd.supplies = s.fd.supplies := by
  unfold selectFeed
  split <;> simp [FeedSt.supplies]

theorem supplies_feedSeek (s : State) : (feedSeek s).fd.supplies = s.fd.supplies := by
  unfold feedSeek
  split
  · rfl
  · split
    · rfl
    · split
      · rw [supplies_selectFeed]; rfl
      · rw [supplies_selectFeed, State.fire_fd]; rfl

theorem supplies_feedLoss (cause : BitVec 4) (s : State) : (feedLoss cause s).fd.supplies = s.fd.supplies := by
  cases hp : s.fd.feed.port with
  | none =>
    have hnone : s.fd.feed = .none := by
      by_contra hne
      obtain ⟨n, hn⟩ := feed_port_some hne
      rw [hn] at hp
      cases hp
    rw [show feedLoss cause s = s from if_pos hnone]
  | some n =>
    have hloss := feedLoss_opened cause hp
    dsimp only at hloss
    rw [hloss]
    generalize pathOpened s n = w
    split
    · simp [FeedSt.supplies, FeedSt.lostBy]
    · split
      · obtain ⟨hfd, -⟩ := noFeed_leaves (({ w with fd := s.fd.lostBy cause } : State).fire 139 cause.toNat)
        rw [hfd, State.fire_fd]
        rfl
      · rw [supplies_selectFeed, State.fire_fd]
        rfl

theorem supplies_progClear (s : State) : (progClear s).fd.supplies = ({ s.fd with prog := false } : FeedSt).supplies := by
  unfold progClear
  dsimp only
  split
  · rw [supplies_feedSeek]
  · split
    · next c _ =>
      unfold supplyLost
      rw [supplies_feedLoss]
      split
      · unfold endKuContract
        dsimp only
        split
        · simp
        · rfl
      · rfl
    · split
      · rfl
      · rfl

/-! ## The reset (R70, R450, R524, R545) -/

theorem memRead_filter_image (m : Memory) (a : Nat) :
    memRead (m.filter fun c => decide (0x60000000 ≤ c.1)) a = if 0x60000000 ≤ a then memRead m a else memDefault a := by
  induction m with
  | nil => split <;> rfl
  | cons c m ih =>
    rw [List.filter_cons]
    by_cases hc : 0x60000000 ≤ c.1
    · rw [if_pos (by simpa using hc), memRead, memRead, ih]
      by_cases ha : c.1 = a
      · rw [if_pos ha, if_pos ha, if_pos (by omega)]
      · rw [if_neg ha, if_neg ha]
    · rw [if_neg (by simpa using hc), ih]
      split
      · rw [memRead, if_neg (by omega)]
      · rfl

/-- The hub as a reset computes it from what the operations cut off have left. -/
def hubReset (k : State) : State :=
  { State.reset with
    freeCtr := k.freeCtr, pending := k.pending
    mem := k.mem.filter fun c => decide (0x60000000 ≤ c.1)
    dev := { k.dev with mode := .booting, hold := .none, asleep := false, sleepDue := false }
    stone := { State.reset.stone with fuses := k.stone.fuses }
    bt := { State.reset.bt with rcause := k.bt.rcause, feedcause := k.bt.feedcause, rsensor := k.bt.rsensor, rpeak := k.bt.rpeak }
    th := { State.reset.th with sensors := k.th.sensors, fast := k.th.fast, calm := k.th.calm, now := k.th.now,
                                maxTemp := k.th.maxTemp, maxSensor := k.th.maxSensor }
    fd := { State.reset.fd with
      feed := k.fd.feed, last := k.fd.last, cause := k.fd.cause, lossCause := k.fd.lossCause, gap := k.fd.gap,
      pre := k.fd.pre, target := k.fd.target, hbusMv := k.fd.hbusMv, hbusLow := k.fd.hbusLow,
      kuMv := k.fd.kuMv, gMv := k.fd.gMv, bMv := k.fd.bMv, bHigh := k.fd.bHigh, kuUp := k.fd.kuUp,
      gUp := k.fd.gUp, bUp := k.fd.bUp, uv := k.fd.uv, ov := k.fd.ov, vhost := k.fd.vhost }
    ports := Vector.ofFn (keepPort k) }

theorem resetHub_eq (s : State) : resetHub s = seekPartner portG (seekPartner portKU (hubReset (progClear (cutImage (cutStone s))))) := rfl

theorem port_seekPartner (n m : Port) (s : State) : ∃ c, (seekPartner n s).port m = { s.port m with cf := c } := by
  unfold seekPartner
  dsimp only
  by_cases hm : m = n
  · subst hm
    split
    · exact ⟨_, rfl⟩
    · split
      · split
        · exact ⟨_, port_updCf _ _ _⟩
        · exact ⟨_, rfl⟩
      · split
        · exact ⟨_, port_updCf _ _ _⟩
        · exact ⟨_, rfl⟩
  · refine ⟨(s.port m).cf, ?_⟩
    split
    · rfl
    · split
      · split
        · exact State.port_updCf_ne _ _ _ _ hm
        · rfl
      · split
        · exact State.port_updCf_ne _ _ _ _ hm
        · rfl

theorem seekPartner_evq (n : Port) (s : State) : (seekPartner n s).evq = s.evq := by
  unfold seekPartner
  dsimp only
  (repeat' split) <;> rfl

/-- What a reset clears, and what it leaves of memory and Stone. -/
structure HubCleared (s t : State) : Prop where
  evq : t.evq = []
  asleep : t.dev.asleep = false
  cores : t.cores = State.reset.cores
  tim : t.tim = State.reset.tim
  host : t.host = State.reset.host
  held : t.led.held = State.reset.led.held
  tokens : t.led.tokens = 4
  ports : ∀ n, (t.port n).green = GwSet.reset n ∧ (t.port n).ripe = GwSet.reset n ∧ (t.port n).ct = .reset
    ∧ (t.port n).pw.sw = .off ∧ (t.port n).ln = .reset
  low : ∀ a, a < 0x60000000 → memRead t.mem a = memRead State.reset.mem a
  image : s.bt.img = none → ∀ a, 0x60000000 ≤ a → memRead t.mem a = memRead s.mem a
  fuses : s.stone.busy = none → t.stone.fuses = s.stone.fuses
  pending : t.pending = s.pending

/-- The parts in the order of the statement. -/
theorem HubCleared.parts {s t : State} (h : HubCleared s t) :
    t.dev.asleep = false ∧ t.cores = State.reset.cores ∧ t.tim = State.reset.tim ∧ t.host = State.reset.host
      ∧ t.led.held = State.reset.led.held ∧ t.led.tokens = 4
      ∧ (∀ n, (t.port n).green = GwSet.reset n ∧ (t.port n).ripe = GwSet.reset n ∧ (t.port n).ct = .reset
          ∧ (t.port n).pw.sw = .off ∧ (t.port n).ln = .reset)
      ∧ (∀ a, (a < 0x60000000 → memRead t.mem a = memRead State.reset.mem a)
          ∧ (s.bt.img = none → 0x60000000 ≤ a → memRead t.mem a = memRead s.mem a))
      ∧ (s.stone.busy = none → t.stone.fuses = s.stone.fuses) ∧ t.pending = s.pending :=
  ⟨h.asleep, h.cores, h.tim, h.host, h.held, h.tokens, h.ports, fun a => ⟨h.low a, fun hidle => h.image hidle a⟩, h.fuses, h.pending⟩

/-- What a reset keeps of the device and the selector. -/
structure HubKept (s t : State) : Prop where
  booting : t.dev.mode = .booting
  hold : t.dev.hold = .none
  cc : t.cc = 0
  rcause : t.bt.rcause = s.bt.rcause
  vhost : t.fd.vhost = s.fd.vhost
  uv : t.fd.uv = s.fd.uv
  bUp : t.fd.bUp = s.fd.bUp

theorem cutStone_idle {s : State} (h : s.stone.busy = none) : cutStone s = s := by unfold cutStone; rw [h]

theorem cutImage_idle {s : State} (h : s.bt.img = none) : cutImage s = s := by unfold cutImage; rw [h]

theorem hubReset_port (k : State) (n : Port) : (hubReset k).port n = keepPort k n := by
  simp [hubReset, State.port]

section
variable {s : State} (hm : memGood s.mem = true)
include hm

theorem image_progClear {a : Nat} (ha : 0x60000000 ≤ a) : memRead (progClear s).mem a = memRead s.mem a := by
  have hmoves : Moves selectorAreas s (progClear s) := (moves_progClear (fun _ h => h) hm).mpr (Moves.refl _ s)
  obtain ⟨-, -, -, -, -, -, -, -, -, -, -, -, -, -, hmem⟩ := hmoves
  refine hmem a (fun lo hi h => .inr ?_) fun _ => .inr (by omega)
  obtain ⟨-, rfl⟩ : lo = 0x30000000 ∧ hi = 0x3000C400 := by simpa using h
  omega

theorem hubCleared : HubCleared s (resetHub s) := by
  have hgood : memGood (cutImage (cutStone s)).mem = true := by simp [hm]
  have himage : s.bt.img = none → ∀ a, 0x60000000 ≤ a → memRead (progClear (cutImage (cutStone s))).mem a = memRead s.mem a := by
    intro hidle a ha
    rw [image_progClear hgood ha, cutImage_idle (by simpa using hidle)]
    simp
  have hfuses : s.stone.busy = none → (progClear (cutImage (cutStone s))).stone.fuses = s.stone.fuses := by
    intro hidle
    rw [cutStone_idle hidle]
    simp
  have hpending : (progClear (cutImage (cutStone s))).pending = s.pending := by simp
  rw [resetHub_eq]
  generalize progClear (cutImage (cutStone s)) = k at *
  have hread (a : Nat) : memRead (seekPartner portG (seekPartner portKU (hubReset k))).mem a =
      if 0x60000000 ≤ a then memRead k.mem a else memDefault a := by
    simp only [seekPartner_frame]
    exact memRead_filter_image k.mem a
  refine ⟨?_, by simp [hubReset], by simp [hubReset], by simp [hubReset], by simp [hubReset], by simp [hubReset], ?_, fun n => ?_,
    fun a ha => ?_, fun hidle a ha => ?_, fun hidle => ?_, ?_⟩
  · rw [seekPartner_evq, seekPartner_evq]; rfl
  · simp [hubReset, State.reset, LedgerSt.reset]
  · obtain ⟨c, hc⟩ := port_seekPartner portG n (seekPartner portKU (hubReset k))
    obtain ⟨d, hd⟩ := port_seekPartner portKU n (hubReset k)
    rw [hc, hd, hubReset_port]
    exact ⟨rfl, rfl, rfl, rfl, rfl⟩
  · rw [hread, if_neg (by omega)]; rfl
  · rw [hread, if_pos ha, himage hidle a ha]
  · rw [← hfuses hidle]; simp [hubReset]
  · rw [← hpending]; simp [hubReset]

end

theorem hubKept (s : State) : HubKept s (resetHub s) := by
  have hsup := supplies_progClear (cutImage (cutStone s))
  have hfd : (cutImage (cutStone s)).fd = s.fd := by simp
  have hbt : (progClear (cutImage (cutStone s))).bt = s.bt := by simp
  rw [hfd] at hsup
  rw [resetHub_eq]
  generalize progClear (cutImage (cutStone s)) = k at *
  have hvhost : k.fd.vhost = s.fd.vhost := (congrArg FeedSt.vhost hsup :)
  have huv : k.fd.uv = s.fd.uv := (congrArg FeedSt.uv hsup :)
  have hbUp : k.fd.bUp = s.fd.bUp := (congrArg FeedSt.bUp hsup :)
  exact ⟨by simp [hubReset], by simp [hubReset], by simp [hubReset, State.reset], by simp [hubReset, hbt], by simp [hubReset, hvhost],
    by simp [hubReset, huv], by simp [hubReset, hbUp]⟩

theorem HubCleared.of_parts {s t u : State} (h : HubCleared s t) (hs : u.mem = s.mem ∧ u.bt.img = s.bt.img ∧ u.stone = s.stone
    ∧ u.pending = s.pending) : HubCleared u t := by
  obtain ⟨hmem, himg, hstone, hpend⟩ := hs
  refine { h with image := ?_, fuses := ?_, pending := ?_ }
  · rw [himg, hmem]; exact h.image
  · rw [hstone]; exact h.fuses
  · rw [hpend]; exact h.pending

theorem HubCleared.bt {s t : State} (h : HubCleared s t) (b : BootSt) : HubCleared s { t with bt := b } := by
  obtain ⟨hevq, hasleep, hcores, htim, hhost, hheld, htokens, hports, hlow, himage, hfuses, hpending⟩ := h
  exact ⟨hevq, hasleep, hcores, htim, hhost, hheld, htokens, hports, hlow, himage, hfuses, hpending⟩

theorem HubCleared.withHold {s t : State} (h : HubCleared s t) (x : Hold) : HubCleared s { t with dev := { t.dev with hold := x } } := by
  obtain ⟨hevq, hasleep, hcores, htim, hhost, hheld, htokens, hports, hlow, himage, hfuses, hpending⟩ := h
  exact ⟨hevq, hasleep, hcores, htim, hhost, hheld, htokens, hports, hlow, himage, hfuses, hpending⟩

/-- A port whose comparators and receivers start anew. -/
def coldPort (p : PortSt) : PortSt :=
  { p with pw := { p.pw with seat := .reset, settled := false }, cf := { p.cf with cf1 := .undecided, cf2 := .undecided }
           st := { p.st with pk := .reset, hsCmp := .reset, ov := .reset, uv := .reset }, wh := { p.wh with tone := .reset } }

/-- The hub once every port's comparators have started anew. -/
def coldPorts (s : State) : State := allPorts.foldl (fun t n => t.updPort n coldPort) s

theorem coldComparators_eq (s : State) : coldComparators s =
    { coldPorts s with fd := { (coldPorts s).fd with ov := .reset } } := rfl

theorem coldPorts_evq (s : State) : (coldPorts s).evq = s.evq := by
  unfold coldPorts
  rw [foldl_get State.evq (fun t n => t.updPort n coldPort) fun t n => State.updPort_evq t n _]

theorem coldPorts_fd (s : State) : (coldPorts s).fd = s.fd := by
  unfold coldPorts
  rw [foldl_get State.fd (fun t n => t.updPort n coldPort) fun t n => State.updPort_fd t n _]

theorem coldComparators_fd (s : State) : (coldComparators s).fd = { s.fd with ov := .reset } := by
  rw [coldComparators_eq, coldPorts_fd]

theorem port_coldPorts (s : State) (n : Port) : (coldPorts s).port n = coldPort (s.port n) := by
  obtain ⟨u, -, hport, hall⟩ := port_foldl_all (f := fun t n => t.updPort n coldPort) (I := fun _ => True) (s := s)
    (fun t k m hm => State.port_updPort_ne _ _ _ _ hm) (fun _ _ _ => trivial) trivial n
  refine hall.trans ?_
  rw [State.port_updPort_same, hport]

/-- The comparators that start anew touch none of it (R220). -/
theorem HubCleared.cold {s t : State} (h : HubCleared s t) : HubCleared s (coldComparators t) := by
  obtain ⟨hevq, hasleep, hcores, htim, hhost, hheld, htokens, hports, hlow, himage, hfuses, hpending⟩ := h
  refine ⟨?_, by simpa using hasleep, by simpa using hcores, by simpa using htim, by simpa using hhost, by simpa using hheld,
    by simpa using htokens, fun n => ?_, by simpa using hlow, by simpa using himage, by simpa using hfuses, by simpa using hpending⟩
  · have hsame := coldPorts_evq t
    rw [coldComparators_eq]
    generalize coldPorts t = u at *
    exact hsame.trans hevq
  · have hport := port_coldPorts t n
    rw [coldComparators_eq]
    generalize coldPorts t = u at *
    show (u.port n).green = _ ∧ (u.port n).ripe = _ ∧ (u.port n).ct = _ ∧ (u.port n).pw.sw = _ ∧ (u.port n).ln = _
    rw [hport]
    exact hports n

theorem resetWith_leaves {s : State} (cause : BitVec 4) (hm : memGood s.mem = true) :
    (resetWith cause s).dev.mode = .booting ∧ (resetWith cause s).cc = 0 ∧ (resetWith cause s).bt.rcause = cause
      ∧ HubCleared s (resetWith cause s) := by
  have hkept := hubKept s
  have hclear := hubCleared hm
  unfold resetWith
  generalize resetHub s = t at *
  exact ⟨hkept.booting, hkept.cc, rfl, hclear.bt _⟩

/-- The hub as a brown-out finds it: VHOST down, and HBUS below 18.0 V. -/
def uvTrippedHub (s : State) : State := { s with fd := { s.fd with uv := { valid := true, out := true }, vhost := false, hbusLow := true } }

theorem brownOut_leaves {s : State} (hm : memGood s.mem = true) (hhold : s.dev.hold = .none) (hmode : s.dev.mode ≠ .shutdown) :
    (brownOut s).dev.hold = .brownOut ∧ (brownOut s).fd.vhost = false ∧ (brownOut s).fd.uv = ⟨true, true⟩
      ∧ (brownOut s).bt.rcause = (if s.fd.bUp = true then 5 else 0) ∧ HubCleared s (brownOut s) := by
  have hkept := hubKept (uvTrippedHub s)
  have hclear := hubCleared (s := uvTrippedHub s) hm
  have hbUp : (resetHub (uvTrippedHub s)).fd.bUp = s.fd.bUp := hkept.bUp
  have heq : brownOut s = (
      let k := resetHub (uvTrippedHub s)
      let b := if k.fd.bUp then (if decide (s.dev.mode = .shutdown) then { k.bt with feedcause := s.fd.lossCause }
          else { k.bt with rcause := 5, feedcause := s.fd.lossCause, rsensor := 0, rpeak := 0 })
        else { k.bt with rcause := 0, feedcause := 0, rsensor := 0, rpeak := 0 }
      let h := { k with bt := b, dev := { k.dev with hold := .brownOut } }
      if k.fd.bUp then h else coldComparators h) := by
    unfold brownOut uvTrippedHub
    rw [if_neg (by rw [hhold]; decide)]
  have hthermal : decide (s.dev.mode = .shutdown) = false := by simpa using hmode
  rw [heq, hthermal]
  generalize resetHub (uvTrippedHub s) = k at *
  have hclear' := (hclear.of_parts (u := s) ⟨rfl, rfl, rfl, rfl⟩)
  dsimp only
  rw [hbUp]
  by_cases hup : s.fd.bUp = true
  · simp only [hup, if_true, Bool.false_eq_true, if_false]
    have hwarm := (hclear'.bt { k.bt with rcause := 5, feedcause := s.fd.lossCause, rsensor := 0, rpeak := 0 }).withHold .brownOut
    exact ⟨trivial, hkept.vhost, hkept.uv, trivial, hwarm⟩
  · simp only [hup, Bool.false_eq_true, if_false]
    have hcold := ((hclear'.bt { k.bt with rcause := 0, feedcause := 0, rsensor := 0, rpeak := 0 }).withHold .brownOut).cold
    refine ⟨by simp, ?_, ?_, by simp, hcold⟩
    · rw [coldComparators_fd]; exact hkept.vhost
    · rw [coldComparators_fd]; exact hkept.uv

/-! ## The statement -/

/-- Settles O48: every reset is `resetHub` on what the cause leaves, which clears the hub but the image store and the Stone. -/
theorem resetsLeaveABootingHub : Obligations.ResetsLeaveABootingHub := by
  intro s ns hs
  dsimp only
  have hkept := hubKept s
  have hclear := hubCleared hs.1
  refine ⟨fun hmode htemp => ?_, fun h => ?_, fun hmode hhold hns => ?_, fun hmode hhold h100 h1000 => ?_, fun hns => ?_,
    fun hhold hmode => ?_, fun hhold => ?_⟩
  · exact answers_quiet (if_pos ⟨hmode, htemp⟩) hclear.evq ⟨hkept.booting, hkept.cc, hkept.rcause, hclear.parts⟩
  · refine idles_of hs (if_neg ?_)
    rintro ⟨hmode, htemp⟩
    rcases h with h | h
    · exact h hmode
    · omega
  · have hexec : exec (.resetNLow ns) s = done (resetWith 1 s) := (if_neg (by simp [hmode, hhold]; omega)).trans (if_pos hns)
    obtain ⟨hboot, hcc, hcause, hleft⟩ := resetWith_leaves (s := s) 1 hs.1
    exact answers_quiet hexec hleft.evq ⟨hboot, hcc, hcause, hleft.parts⟩
  · have hexec : exec (.resetNLow ns) s = if s.freeB.1 then done (resetWith 1 s.freeB.2) else done s.freeB.2 :=
      (if_neg (by simp [hmode, hhold]; omega)).trans (if_neg (by omega))
    by_cases hfree : s.freeB.1 = true
    · rw [if_pos hfree] at hexec
      obtain ⟨hboot, hcc, hcause, hleft⟩ := resetWith_leaves (s := s.freeB.2) 1 hs.1
      exact answers_quiet hexec hleft.evq (.inr ⟨hboot, hcause, (hleft.of_parts ⟨rfl, rfl, rfl, rfl⟩).parts⟩)
    · rw [if_neg hfree] at hexec
      exact answers_quiet hexec hs.2 (.inl rfl)
  · exact idles_of hs (if_pos (.inr (.inr hns)))
  · obtain ⟨hheld, hvhost, huv, hcause, hleft⟩ := brownOut_leaves hs.1 hhold hmode
    exact answers_quiet rfl hleft.evq ⟨hheld, hvhost, huv, hcause, hleft.parts⟩
  · have hexec : exec .hbusUvRelease s = done { s with
        cc := 0, fd := { s.fd with uv := { valid := true, out := false }, vhost := true }, dev := { s.dev with hold := .none, mode := .booting } } :=
      if_pos hhold
    refine answers_quiet hexec hs.2 ⟨rfl, rfl, rfl, rfl, rfl, Moves.changesOnly ?_ hs.2 hs.2⟩
    exact moves_part (.inl (by simp)) (.inl (by simp)) (.inr rfl) (.inr rfl) (.inl (by simp)) (.inr rfl) (.inr rfl) (.inr rfl) (.inr rfl)
      (.inr rfl) ⟨rfl, rfl, rfl, rfl⟩

end Sys2Proof.Machine
end

section
/-! A thermal round that trips a port and shuts the hub down at once (R443, R444, R447): the statement about thermal rounds does not hold
of every settled state. -/

namespace Sys2Proof.Machine

/-- A hub that runs on KU with no supply left on it. The stage of W0 converts in its off-time and its sensor has been at its limit once;
the first device sensor has been at 150 °C twice already. -/
def heatedHub : State := { State.reset with
  dev := { State.reset.dev with mode := .running }
  fd := { State.reset.fd with feed := .ku }
  th := { State.reset.th with
    sensors := (Vector.replicate 24 Sensor.reset).set 0 { Sensor.reset with overLim := 1 } |>.set 16 { Sensor.reset with overLim := 2 } }
  ports := State.reset.ports.set 0 { PortSt.reset 0 with
    pw := { PowerSt.reset with sw := .offtime }, st := { StageSt.reset with mode := .buckIn } } }

/-- W0's sensor at 200 °C, the first device sensor at 150 °C, the others at 0 °C. -/
def heatedRound : List (Option Int) := some 3200 :: List.replicate 15 (some 0) ++ some 2400 :: List.replicate 7 (some 0)

/-- No other sensor begins a rate excess or reaches its limit for the second time. -/
theorem heatedRound_others : ∀ j : Fin 24, j ≠ 0 →
    let o := (roundSensor heatedHub.th.thermctl j.val 40 heatedHub.th.sensors[j] (heatedRound.getD j.val none)).2
    o.2.2.1 = false ∧ o.2.2.2.1 = false := by decide

set_option maxRecDepth 20000 in
/-- The shutdown in the same round loses the feed, and NOFEED takes the place of THERM in the cause of a port in its off-time. -/
theorem heatedRound_cause : ((thermalRound heatedRound heatedHub).port 0).pw.cause = 9 := by decide

/-- Refutes O47: in `heatedHub` the trip of W0 by its sensor records THERM, but the device sensor, past 150 °C for the third time, shuts
the hub down in the same round; PROG clears, the feed is lost for its supply, and the NOFEED fault of a port in its off-time replaces
the cause. The premise about the other sensors rules out a second time alone. -/
theorem not_thermalRoundsGuard : ¬ Obligations.ThermalRoundsGuard := by
  intro h
  obtain ⟨-, -, -, htrip, -⟩ := h heatedHub heatedRound 0 3200 (by decide) (by decide) rfl
  obtain ⟨t, hexec, -, hcause, -⟩ := htrip 0 rfl (by decide) (by decide) rfl rfl rfl (by decide) (fun j r hj hr => by
    have hget : heatedRound.getD j.val none = r := by rw [List.getD_eq_getElem?_getD, hr]; rfl
    rw [← hget]
    exact heatedRound_others j hj) (by decide) (by decide) (.inl (by decide)) (by decide) (by decide)
  have hround : exec (.thermalRound heatedRound) heatedHub = done (thermalRound heatedRound heatedHub) := by
    show (if heatedHub.dev.hold = .brownOut then done heatedHub else done (thermalRound heatedRound heatedHub)) = _
    exact if_neg (by decide)
  have hflush : t = (thermalRound heatedRound heatedHub).flush := by
    rw [hround] at hexec
    exact (Host.Outcome.next.inj hexec).symm
  rw [hflush, State.port_flush, heatedRound_cause] at hcause
  exact absurd hcause (by decide)

end Sys2Proof.Machine
end

section
/-! O52: what the hub answers to a read of the host bus (R498 to R506, R514, R518 to R520), and what it does where it recognises
no address (R495). -/

namespace Sys2Proof.Machine

/-! ## A hub that recognises no address (R495) -/

theorem hostRun_deaf {s : State} (h : s.hostState = .deaf) (c : Byte) (x : Xact) (active : Option WakeSource) :
    hostRun c x active s = hostNack 0 (hostStart s) := by
  unfold hostRun
  rw [if_pos h, h]
  rfl

theorem blockRun_deaf {s : State} (h : s.hostState = .deaf) (lo hi : Nat) (c : Byte) (x : Xact) :
    blockRun lo hi c x s = hostNack 0 (hostStart s) := by
  unfold blockRun
  rw [hostRun_deaf h, ite_self]

/-- Only that no byte was acknowledged shows of a transaction with an address the hub does not recognise. -/
theorem answers_unheard {i : Instr} {s : State} (hs : s.settled) (hi : exec i s = done (hostNack 0 (hostStart s))) :
    answers i s fun t => t.host = { s.host with sent := [], nack := some 0 } ∧ changesOnly [.bus] s t :=
  ⟨_, hi.trans (done_quiet _ hs.2), rfl, changesOnly_host s _ (by simp)⟩

/-! ## STATUS without a command byte, and QUICK (R498) -/

theorem hostSays_readWithoutCommand {s : State} (hs : s.settled) (hd : s.hostState ≠ .deaf) (whole : Bool) :
    hostSays (.readWithoutCommand whole) s [s.addrByte + 1] (toBytesLE 2 (statusWord s)) s.host :=
  hostSays_hostSend hs (if_neg hd)

theorem answers_quick {s : State} (hs : s.settled) :
    answers .quick s fun t => t.host = { s.host with sent := [], nack := none } ∧ changesOnly [.bus] s t :=
  ⟨_, done_quiet (hostStart s) hs.2, rfl, changesOnly_hostStart s (by simp)⟩

/-! ## EVPOP (R518) -/

/-- The host bus once the oldest k entries of the host ring have left it. -/
abbrev HostSt.evPopped (h : HostSt) (k : Nat) : HostSt := { h with evhead := (h.evhead + k) % 512, evcount := h.evcount - k }

/-- An accepted read sends its data and, once the host has them all, what it takes leaves. -/
theorem hostRun_taken {s : State} {c : Byte} {x : Xact} (hx : isRead x) (ha : codeAccepted s.hostState c = true)
    (hr : hasRead c = true) :
    hostRun c x none s
      = (if x.whole = true then readWhole c else id) (hostSend (s.asked c) (readData s c) (hostSetup c x (hostStart s))) := by
  obtain ⟨hshape, hend⟩ := hx
  unfold hostRun
  rw [if_neg (hostState_ne_deaf_of_accepted ha)]
  cases hw : x.whole <;> rcases hshape with h | h | h <;> simp [ha, hend, h, hr, State.asked]

theorem hostRun_evpop {s : State} {x : Xact} (hx : s.takes x) (ha : codeAccepted s.hostState 0x01 = true) :
    hostRun 0x01 x none s = { s with host := {
      (if x.whole = true then s.host.evPopped (min 4 s.host.evcount) else s.host) with
        sent := readData s 0x01 ++ (if s.pecOn = true then [pecOf (s.asked 0x01 ++ readData s 0x01)] else []), nack := none } } := by
  rw [hostRun_taken hx.1 ha rfl, hostSetup_hostStart, setupNoted_of_kept hx.2]
  cases x.whole <;> rfl

theorem hostSays_evpop {s : State} {x : Xact} (hs : s.settled) (hx : s.takes x) (ha : codeAccepted s.hostState 0x01 = true) :
    hostSays (.evpop x) s (s.asked 0x01)
      (BitVec.ofNat 8 (8 * min 4 s.host.evcount) :: evEntries s (min 4 s.host.evcount))
      (if x.whole = true then s.host.evPopped (min 4 s.host.evcount) else s.host) := by
  have hi : exec (.evpop x) s = done (hostRun 0x01 x none s) := rfl
  rw [hostRun_evpop hx ha] at hi
  exact ⟨_, hi.trans (done_quiet _ hs.2), rfl, changesOnly_host s _ (by simp)⟩

/-! ## The register blocks (R505, R506) -/

theorem isBlockCode_of_range {c : Byte} (hlo : 0x10 ≤ c.toNat) (hhi : c.toNat < 0x70) : isBlockCode c = true :=
  decide_eq_true ⟨hlo, by omega⟩

theorem ne_evpop_of_range {c : Byte} (hlo : 0x10 ≤ c.toNat) : c ≠ 0x01 := by
  rintro rfl
  exact absurd hlo (by decide)

/-- A block read answers the 32 bytes of its row. -/
theorem readData_block {s : State} {c : Byte} (hb : isBlockCode c = true) :
    readData s c = 32 :: (List.range 8).flatMap fun i => bytesLE (regRead s (rowAddr s c + 4 * i)) := if_pos hb

theorem rowAddr_port {c : Byte} (s : State) (hc : c.toNat < 0x40) :
    rowAddr s c = 0x40010000 + s.host.portsel.toNat * 0x1000 + (c.toNat - 0x10) / 8 * 0x100 + (c.toNat - 0x10) % 8 * 0x20 :=
  if_pos hc

theorem rowAddr_global {c : Byte} (s : State) (hc : 0x40 ≤ c.toNat) :
    rowAddr s c = 0x40000000 + (c.toNat - 0x40) / 4 * 0x100 + (c.toNat - 0x40) % 4 * 0x20 :=
  if_neg (by omega)

theorem hostSays_block {i : Instr} {s : State} {c : Byte} {x : Xact} (hs : s.settled)
    (hi : exec i s = done (hostRun c x none s)) (hx : s.takes x) (ha : codeAccepted s.hostState c = true)
    (hlo : 0x10 ≤ c.toNat) (hhi : c.toNat < 0x70) :
    hostSays i s (s.asked c) (32 :: (List.range 8).flatMap fun i => bytesLE (regRead s (rowAddr s c + 4 * i))) s.host := by
  have hb := isBlockCode_of_range hlo hhi
  have hsays := hostSays_read hs hi hx.1 ha (by simp [hasRead, hb]) (ne_evpop_of_range hlo)
  rwa [readData_block hb, setupNoted_of_kept hx.2] at hsays

/-! ## RINGPOP (R514) -/

@[simp] theorem hostStart_port (s : State) (n : Port) : (hostStart s).port n = s.port n := rfl

section
variable {s : State} {n : Port} {r : Byte}

/-- What a RINGPOP of ring r asks for. -/
abbrev ringPopped (r : Byte) (whole : Bool) : Xact := ⟨.processCall, 1, [r], .repStart, whole, none⟩

theorem exec_ringpop (ha : codeAccepted s.hostState 0xE1 = true) (whole : Bool) :
    exec (.ringpop (ringPopped r whole)) s = done (procRead 0xE1 [1, r] whole (hostStart s)) := by
  have hnack : writeNack s.hostState 0xE1 (1 :: [r]) = none :=
    writeNack_of_count (k := .proc) rfl (by decide) rfl rfl (fun h => absurd h.1 (by decide)) (by simp)
  exact congrArg done (hostRun_processCall (n := 1) (d := [r]) whole none ha rfl hnack rfl)

/-- The bytes on the bus before the answer to a RINGPOP. -/
abbrev State.askedPop (s : State) (r : Byte) : List Byte := s.addrByte :: 0xE1 :: 1 :: [r, s.addrByte + 1]

theorem hostRing_rx (hr : r.toNat = 2 * n.val + 1) : hostRing s r.toNat = (s.port n).ln.owner := by
  have hn : (⟨r.toNat / 2, by omega⟩ : Port) = n := Fin.ext (by simp only; omega)
  unfold hostRing
  rw [dif_pos (by omega)]
  exact congrArg (fun m => (s.port m).ln.owner) hn

theorem ringPopData_rx (hr : r.toNat = 2 * n.val + 1) :
    ringPopData s r.toNat = if (s.port n).ln.owner = false then ([0], true, none)
      else if (s.port n).ln.rxCount = 0 then ([0], false, none)
      else (80 :: s.readMem (ringAddr (2 * n.val + 1) (s.port n).ln.rxHead) 80, false, some n) := by
  have hn : (⟨r.toNat / 2 % 16, by omega⟩ : Port) = n := Fin.ext (by simp only; omega)
  unfold ringPopData
  rw [hostRing_rx hr]
  simp only [hn]
  rw [hr]
  simp

theorem procRead_ringpop_closed (hr : r.toNat = 2 * n.val + 1) (ho : (s.port n).ln.owner = false) (whole : Bool) :
    procRead 0xE1 [1, r] whole (hostStart s) = (hostSend (s.askedPop r) [0] (hostStart s)).busError 0xE1 3 := by
  have hdata : ringPopData (hostStart s) r.toNat = ([0], true, none) := (ringPopData_rx hr).trans (if_pos ho)
  simp [procRead, hdata, State.askedPop]

theorem procRead_ringpop_empty (hr : r.toNat = 2 * n.val + 1) (ho : (s.port n).ln.owner = true)
    (he : (s.port n).ln.rxCount = 0) (whole : Bool) :
    procRead 0xE1 [1, r] whole (hostStart s) = hostSend (s.askedPop r) [0] (hostStart s) := by
  have hdata : ringPopData (hostStart s) r.toNat = ([0], false, none) :=
    (ringPopData_rx hr).trans ((if_neg (by simp [ho])).trans (if_pos he))
  simp [procRead, hdata, State.askedPop]

theorem procRead_ringpop_oldest (hr : r.toNat = 2 * n.val + 1) (ho : (s.port n).ln.owner = true)
    (he : 0 < (s.port n).ln.rxCount) (whole : Bool) :
    procRead 0xE1 [1, r] whole (hostStart s)
      = (if whole = true then popRx n else id) (hostSend (s.askedPop r)
          (80 :: s.readMem (ringAddr (2 * n.val + 1) (s.port n).ln.rxHead) 80) (hostStart s)) := by
  have hdata : ringPopData (hostStart s) r.toNat
      = (80 :: s.readMem (ringAddr (2 * n.val + 1) (s.port n).ln.rxHead) 80, false, some n) :=
    (ringPopData_rx hr).trans ((if_neg (by simp [ho])).trans (if_neg (show (s.port n).ln.rxCount ≠ 0 by omega)))
  cases whole <;> simp [procRead, hdata, State.askedPop]

end

section
variable {s : State} (hs : s.settled) (ha : codeAccepted s.hostState 0xE1 = true) {n : Port} {r : Byte}
  (hr : r.toNat = 2 * n.val + 1) (whole : Bool)
include hs ha hr

/-- A ring the host does not own answers 0 and an ACCESS error. -/
theorem hostError_ringpop_closed (ho : (s.port n).ln.owner = false) :
    hostError (.ringpop (ringPopped r whole)) s 0xE1 3
      ([0] ++ (if s.pecOn = true then [pecOf (s.askedPop r ++ [0])] else [])) none :=
  hostError_of_busError hs ((exec_ringpop ha whole).trans (congrArg done (procRead_ringpop_closed hr ho whole))) (by decide)
    rfl rfl rfl (changesOnly_host s _ (by simp))

theorem hostSays_ringpop_empty (ho : (s.port n).ln.owner = true) (he : (s.port n).ln.rxCount = 0) :
    hostSays (.ringpop (ringPopped r whole)) s (s.askedPop r) [0] s.host :=
  hostSays_hostSend hs ((exec_ringpop ha whole).trans (congrArg done (procRead_ringpop_empty hr ho he whole)))

/-- A RINGPOP answers the oldest message, which leaves the ring once the host has it whole. -/
theorem answers_ringpop_oldest (ho : (s.port n).ln.owner = true) (he : 0 < (s.port n).ln.rxCount) :
    answers (.ringpop (ringPopped r whole)) s fun t =>
      t.host = { s.host with
        sent := (80 :: s.readMem (ringAddr (2 * n.val + 1) (s.port n).ln.rxHead) 80)
          ++ (if s.pecOn = true then [pecOf (s.askedPop r ++ (80 :: s.readMem (ringAddr (2 * n.val + 1) (s.port n).ln.rxHead) 80))]
            else [])
        nack := none }
      ∧ (t.port n).ln = (if whole = true then
          { (s.port n).ln with rxHead := ((s.port n).ln.rxHead + 1) % 16, rxCount := (s.port n).ln.rxCount - 1 } else (s.port n).ln)
      ∧ changesOnly [.bus, .port n] s t := by
  have hexec := (exec_ringpop ha whole).trans (congrArg done (procRead_ringpop_oldest hr ho he whole))
  cases whole with
  | false => exact ⟨_, hexec.trans (done_quiet _ hs.2), rfl, rfl, changesOnly_host s _ (by simp)⟩
  | true =>
    rw [if_pos rfl, popRx] at hexec
    refine ⟨_, hexec.trans (done_quiet _ hs.2), rfl, by rw [if_pos rfl, State.port_updLn_same]; rfl, ?_⟩
    exact changesOnly_trans (changesOnly_host s _ (by simp)) (changesOnly_updPort _ n _ _ (by simp))

end

/-- Settles O52: the reads by the data of their command, RINGPOP by the ring it names, and the refusals of a deaf hub. -/
theorem hostReadsAnswer : Obligations.HostReadsAnswer := by
  unfold Obligations.HostReadsAnswer
  intro s x c r whole n hs h k acc refused pop l before
  refine ⟨fun hx ha => ?status, fun hd => hostSays_readWithoutCommand hs hd whole, answers_quick hs,
    fun hx ha => hostSays_evpop hs hx ha, fun hx ha => ?portsel, fun hx ha hlo hhi => ?portBlock, fun hx ha hlo hhi => ?globalBlock,
    fun ha hr ho => ⟨hostSays_ringpop_empty hs ha hr whole ho, answers_ringpop_oldest hs ha hr whole ho⟩,
    fun ha hr ho => hostError_ringpop_closed hs ha hr whole ho, fun hd => ?deaf⟩
  case status =>
    have hsays := hostSays_read (i := .status x) hs rfl hx.1 ha rfl (by decide)
    rwa [setupNoted_of_kept hx.2] at hsays
  case portsel =>
    have hsays := hostSays_read (i := .portsel x) hs rfl hx.1 ha rfl (by decide)
    rwa [setupNoted_of_kept hx.2] at hsays
  case portBlock =>
    have hexec : exec (.portBlockRead c x) s = done (hostRun c x none s) := congrArg done (if_pos ⟨hlo, by omega⟩)
    have hsays := hostSays_block hs hexec hx ha hlo (by omega)
    rwa [rowAddr_port s hhi] at hsays
  case globalBlock =>
    have hexec : exec (.globalBlockRead c x) s = done (hostRun c x none s) := congrArg done (if_pos ⟨hlo, by omega⟩)
    have hsays := hostSays_block hs hexec hx ha (by omega) hhi
    rwa [rowAddr_global s hlo] at hsays
  case deaf =>
    have run (c : Byte) (x : Xact) := congrArg done (hostRun_deaf hd c x none)
    have block (lo hi : Nat) := congrArg done (blockRun_deaf hd lo hi c x)
    have plain : exec (.readWithoutCommand whole) s = done (hostNack 0 (hostStart s)) := if_pos hd
    exact ⟨answers_unheard hs (run 0x00 x), answers_unheard hs plain, answers_unheard hs (run 0x01 x),
      answers_unheard hs (run 0x02 x), answers_unheard hs (run 0x08 x), answers_unheard hs (block 0x10 0x3F),
      answers_unheard hs (block 0x40 0x6F), answers_unheard hs (run 0xD0 x), answers_unheard hs (run 0xD1 x),
      answers_unheard hs (run 0xE1 x), answers_unheard hs (run 0xD2 x), answers_unheard hs (run 0xE0 x)⟩

end Sys2Proof.Machine
end

section
/-! O54: transactions that break (R503, R529 to R532), and the entry into and the end of sleep (R525, R526). -/

namespace Sys2Proof.Machine

/-! ## A bus error from any state (R533) -/

/-- A bus error touches the host bus and what an event touches. -/
@[simp] theorem moves_busError {l : List Area} {s t : State} (hb : Area.bus ∈ l) (he : Area.events ∈ l) (cmd : Byte)
    (code : BitVec 4) : Moves l s (t.busError cmd code) ↔ Moves l s t := by
  unfold State.busError
  (repeat' split) <;> simp [hb, he]

/-- A bus error other than SETUP, as the statements show it. -/
theorem busError_shown {s u : State} (cmd : Byte) {code : BitVec 4} (hc : code ≠ 9) (hon : u.eventsOn = true) (hs : s.settled)
    (hh : u.host = s.host) (hm : u.mem = s.mem) (hu : u.evq = []) :
    errorShown s (u.busError cmd code).flush cmd code ∧ logs s (u.busError cmd code).flush 148 code.toNat := by
  have herr := busError_of_eventsOn (u := u) cmd hc hon
  have hqueue : (u.busError cmd code).evq = [(148, code.toNat)] := by rw [herr, hu]; rfl
  refine ⟨?_, logs_flush hqueue (by rw [herr]; simpa [hm] using hs.1) (by rw [herr]; simp [hh])⟩
  rw [errorShown, host_flush_quiet, herr]
  simp [hh]

section
variable {s : State} (hs : s.settled) (hon : s.eventsOn = true)
include hs hon

/-- A command that is a bus error and nothing else. -/
theorem answers_busError {i : Instr} (cmd : Byte) {code : BitVec 4} (hc : code ≠ 9) (hi : exec i s = done (s.busError cmd code)) :
    answers i s fun t => errorShown s t cmd code ∧ logs s t 148 code.toNat ∧ changesOnly [.bus, .events] s t := by
  obtain ⟨hshown, hlog⟩ := busError_shown cmd hc hon hs rfl rfl hs.2
  exact answers_of hi ⟨hshown, hlog, ((moves_busError (by simp) (by simp) cmd code).2 (.refl _ s)).flush (by simp) hs.2 (by simpa using hs.1)⟩

omit hon in
/-- A command that sets the device state and reports one event. -/
theorem answers_dev_event {i : Instr} {d : DeviceSt} {e arg : Nat} (hd : ({ s with dev := d } : State).eventsOn = true)
    (hi : exec i s = done ({ s with dev := d }.fire e arg)) :
    answers i s fun t => t.dev = d ∧ logs s t e arg ∧ changesOnly [.dev, .events] s t := by
  have hq : (({ s with dev := d } : State).fire e arg).evq = [(e, arg)] := by rw [State.fire_evq _ _ _ hd]; simp [hs.2]
  have hgood : memGood (({ s with dev := d } : State).fire e arg).mem = true := by simpa using hs.1
  have hm : Moves [.dev, .events] s (({ s with dev := d } : State).fire e arg) := by simp
  exact answers_of hi ⟨by simp, logs_flush hq hgood (by simp), hm.flush (by simp) hs.2 hgood⟩

end

/-! ## Bytes written with no block (R510) -/

/-- An accepted write of bytes after the command byte runs on the bus cleared for the transaction. -/
theorem hostRun_writeByte {s : State} {c : Byte} {x : Xact} (active : Option WakeSource) (ha : codeAccepted s.hostState c = true)
    (hx : x.shape = .writeByte) (hb : x.bytes ≠ []) (hend : x.ending ≠ .timeout) (hrise : x.rise = none) :
    hostRun c x active s = writeRun c x active (hostStart s) := by
  have hsetup : hostSetup c x (hostStart s) = hostStart s := by simp [hostSetup, hrise]
  unfold hostRun
  rw [hsetup, ite_self]
  simp [ha, hend, hx, Xact.wire, hb]

section
variable {s : State} (hs : s.settled) (ha : codeAccepted s.hostState 0x08 = true) (p q : Byte)
include hs ha

/-- A write that breaks off is discarded with ABORT (R529). -/
theorem hostError_portsel_broken : hostError (.portsel ⟨.writeByte, 0, [p], .broken, false, none⟩) s 0x08 8 [] none := by
  have hrun := hostRun_writeByte (x := ⟨.writeByte, 0, [p], .broken, false, none⟩) none ha rfl (by simp) (by simp) rfl
  exact hostError_of_busError (u := hostStart s) hs (congrArg done hrun) (by decide) rfl rfl rfl (changesOnly_hostStart s (by simp))

/-- A write whose PEC is wrong is discarded with PEC (R503). -/
theorem hostError_portsel_pec (hpec : s.pecOn = true) (hq : q ≠ pecOf [s.addrByte, 0x08, p]) :
    hostError (.portsel ⟨.writeByte, 0, [p, q], .stop, false, none⟩) s 0x08 1 [] none := by
  have hrun := hostRun_writeByte (x := ⟨.writeByte, 0, [p, q], .stop, false, none⟩) none ha rfl (by simp) (by simp) rfl
  have hright : (s.pecOn && !pecRight s 0x08 [p, q] 1) = true := by simpa [hpec, pecRight] using hq
  have hwrite : writeRun 0x08 ⟨.writeByte, 0, [p, q], .stop, false, none⟩ none (hostStart s) = (hostStart s).busError 0x08 1 :=
    if_pos hright
  exact hostError_of_busError (u := hostStart s) hs (congrArg done (hrun.trans hwrite)) (by decide) rfl rfl rfl
    (changesOnly_hostStart s (by simp))

/-- With TOEN set a transaction in which SCL stays low ends with TIMEOUT (R532). -/
theorem hostError_portsel_timeout (hto : bitOf s.host.busctl 2 = true) :
    hostError (.portsel ⟨.writeByte, 0, [p], .timeout, false, none⟩) s 0x08 7 [] none := by
  have hrun : hostRun 0x08 ⟨.writeByte, 0, [p], .timeout, false, none⟩ none s = (hostStart s).busError 0x08 7 := by
    have hsetup : hostSetup 0x08 ⟨.writeByte, 0, [p], .timeout, false, none⟩ (hostStart s) = hostStart s := rfl
    unfold hostRun
    rw [hsetup, ite_self, ha]
    exact if_pos hto
  exact hostError_of_busError (u := hostStart s) hs (congrArg done hrun) (by decide) rfl rfl rfl (changesOnly_hostStart s (by simp))

end

/-! ## Cores with nothing under way -/

theorem updCore_of_fixed {s : State} {c : Core} {f : CoreSt → CoreSt} (h : f (s.core c) = s.core c) : s.updCore c f = s := by
  have hset : s.cores.set c (f s.cores[c]) = s.cores := by
    ext i hi : 1
    rw [Vector.getElem_set]
    split
    · next hci => subst hci; exact h
    · rfl
  rw [State.updCore, hset]

@[simp] theorem State.at_self (s : State) : s.at s.cc = s := if_neg (Nat.lt_irrefl _)

section
variable {s : State} {c : Core} (h : (s.core c).still)
include h

/-- A core with nothing under way has nothing to commit. -/
theorem commitDue_still (at_ : Nat) : (s.core c).commitDue at_ = s.core c := by
  obtain ⟨hin, -, hseg, -⟩ := h
  simp only [CoreSt.commitDue, CoreSt.segsAt, hin, hseg, List.filter_nil, List.foldl_nil]
  rw [← hin, ← hseg]

theorem commitCore_still : commitCore c s = s := by
  have hsame : (s.updCore c fun k => k.commitDue s.cc) = s := updCore_of_fixed (commitDue_still h s.cc)
  obtain ⟨-, -, -, hmsg, hserve, htok⟩ := h
  unfold commitCore
  simp only [hsame, hmsg]
  split
  · next hc =>
    subst hc
    simp [ledDue, hserve, htok]
  · rfl

theorem drainCore_still : drainCore c s = s := by
  have hcommit := commitCore_still h
  obtain ⟨hin, -, hseg, hmsg, hserve, htok⟩ := h
  simp [drainCore, hin, hseg, hmsg, hserve, htok, hcommit]

end

/-- Cores with nothing under way let their clocks stop as they are (R525). -/
theorem drained_still {s : State} (h : ∀ c, (s.core c).still) :
    allCores.foldl (fun t c => drainCore c t) (farRun none (farCount s) s) = s := by
  have hcount : farCount s = 0 := by simp [farCount, (h _).2.1]
  have hdrain : ∀ l : List Core, l.foldl (fun t c => drainCore c t) s = s := by
    intro l
    induction l with
    | nil => rfl
    | cons c l ih => rw [List.foldl_cons, drainCore_still (h c), ih]
  rw [hcount, farRun, hdrain]

/-! ## Sleep (R525, R526) -/

section
variable {s : State} (hs : s.settled) (hon : s.eventsOn = true) {w : WakeSource}
include hs

/-- Port B whose stage has taken its low-power mode: the mode last written waits (R227). -/
abbrev PortSt.inLowPower (b : PortSt) : PortSt :=
  let back : Option StageMode := if b.st.mode = .startReg then b.st.pendMode else some b.st.lastMode
  { b with st := { b.st with mode := .startReg, pendMode := back, prevMode := back, bypExit := none, active := false } }

/-- The hub sleeps with nothing changed but B's stage. -/
theorem answers_asleep {active : Option WakeSource} (hdue : s.dev.sleepDue = true) (hnone : active.filter (wakeEnabled s) = none)
    (hok : s.sleepOk = true) (hstill : ∀ c, (s.core c).still) : answers (.sleepEntry active) s fun t =>
      t.dev = { s.dev with sleepDue := false, asleep := true } ∧ t.port portB = (s.port portB).inLowPower
        ∧ changesOnly [.dev, .port portB] s t := by
  let awake : State := { s with dev := { s.dev with sleepDue := false } }
  have hdrain : allCores.foldl (fun t c => drainCore c t) (farRun none (farCount awake) awake) = awake := drained_still hstill
  have hexec : exec (.sleepEntry active) s
      = done { lowPower awake with dev := { (lowPower awake).dev with asleep := true } } := by
    have hnone' : active.filter (wakeEnabled awake) = none := hnone
    have hok' : awake.sleepOk = true := hok
    refine (if_pos hdue).trans ?_
    dsimp only [awake] at hnone' hok' hdrain ⊢
    simp only [hnone', hok', hdrain, if_true]
  refine answers_quiet hexec hs.2 ⟨rfl, ?_, ?_⟩
  · show (lowPower awake).port portB = _
    rw [lowPower, port_updSt]
    rfl
  · exact Moves.changesOnly ((moves_dev (by simp) _).2 ((moves_updSt (by simp) _).2 ((moves_dev (by simp) _).2 (.refl _ s)))) hs.2 hs.2

end

/-- Settles O54: the broken transactions as bus errors with their codes, the entry into sleep by its conditions, and the wake. -/
theorem busFailuresAndSleep : Obligations.BusFailuresAndSleep := by
  unfold Obligations.BusFailuresAndSleep
  intro s cmd p q writing w hs hon h acc on fails woke b back low sleeps
  have hwoke : wakeArg w = woke := by cases w <;> rfl
  refine ⟨fun ha => answers_busError hs hon cmd (by decide) (if_pos (by simpa [acc] using ha)), fun hno => ?misplaced,
    fun ha hto => answers_busError hs hon cmd (by decide) (if_pos (by simp only [acc, h] at ha hto; simp [ha, hto])),
    fun hno => ?sclLow,
    fun ha => ⟨hostError_portsel_pec hs ha p q, hostError_portsel_broken hs ha p, hostError_portsel_timeout hs ha p⟩,
    fun hd => ?release, fun hd => idles_of hs (if_pos hd), fun hdue => ⟨fun hw => ?stopped, fun hok => ?refused, fun hok hstill => ?entered⟩,
    fun hdue => ?awake, fun hasleep hw => ?wakes, fun hno => ?still⟩
  case misplaced =>
    refine idles_of hs (if_neg ?_)
    rcases hno with hno | hno
    · simp only [acc] at hno
      simp [hno]
    · simp [hno]
  case sclLow =>
    refine idles_of hs (if_neg ?_)
    rcases hno with hno | hno | hno
    · simp only [acc] at hno
      simp [hno]
    · simp only [h] at hno
      simp [hno]
    · simp [hno]
  case release =>
    have hq : (s.fire 149 0).evq = [(149, 0)] := by rw [State.fire_evq _ _ _ hon]; simp [hs.2]
    have hgood : memGood (s.fire 149 0).mem = true := by simpa using hs.1
    exact answers_of (if_neg hd) ⟨logs_flush hq hgood (by simp), Moves.flush (by simp) (by simp) hs.2 hgood⟩
  case stopped =>
    refine hwoke ▸ answers_dev_event hs hon ?_
    refine (if_pos hdue).trans ?_
    have hsome : (some w).filter (wakeEnabled { s with dev := { s.dev with sleepDue := false } }) = some w := if_pos hw
    simp only [hsome]
  case refused =>
    have hexec : exec (.sleepEntry none) s = done (({ s with dev := { s.dev with sleepDue := false } } : State).busError 0xF1 6) :=
      (if_pos hdue).trans (if_neg fun h => Bool.noConfusion (hok.symm.trans h))
    obtain ⟨hshown, hlog⟩ := busError_shown (u := { s with dev := { s.dev with sleepDue := false } }) 0xF1 (code := 6) (by decide)
      hon hs rfl rfl hs.2
    refine answers_of hexec ⟨?_, hshown, hlog, Moves.flush (by simp) (by simp) hs.2 (by simpa using hs.1)⟩
    rw [State.flush_dev]
    simp
  case entered => exact ⟨answers_asleep hs hdue rfl hok hstill, fun hw => answers_asleep hs hdue (if_neg (by simpa [on] using hw)) hok hstill⟩
  case awake => exact ⟨idles_of hs (if_neg (by simp [hdue])), idles_of hs (if_neg (by simp [hdue]))⟩
  case wakes =>
    exact hwoke ▸ answers_dev_event hs hon (if_pos (by simp only [on] at hw; simp [hasleep, hw]))
  case still =>
    refine idles_of hs (if_neg ?_)
    rcases hno with hno | hno
    · simp [hno]
    · simp only [on] at hno
      simp [hno]

end Sys2Proof.Machine
end

section
/-! O55: operations of the Stone (R326, R327, R463 to R467): asked for by SV or the host, and at their end. -/

namespace Sys2Proof.Machine

/-! ## One event of the Stone (R327) -/

/-- The Stone once an operation has ended with a code (R327, R467). -/
abbrev StoneSt.ended (t : StoneSt) (code : BitVec 4) : StoneSt :=
  { t with
    busy := none, done := true, code := code, otpuDone := t.otpuDone || decide (t.src = 2)
    otpuCode := if t.src = 2 then code else t.otpuCode }

/-- The Stone once a request has found another operation under way (R327, R463). -/
abbrev StoneSt.foundBusy (t : StoneSt) (src : BitVec 2) : StoneSt :=
  { t with
    done := true, code := 2, otpuDone := t.otpuDone || decide (src = 2), otpuCode := if src = 2 then 2 else t.otpuCode }

/-- The end of an operation, and a request that finds one running, show on the Stone, on SV's source 6 and as event 147. -/
def stoneNotes (x : StoneSt) (code : Nat) (u : State) : State := (({ u with stone := x }).fireSrc coreSV 6).fire 147 code

theorem stoneEnd_eq (code : BitVec 4) (u : State) : stoneEnd code u = stoneNotes (u.stone.ended code) code.toNat u := by
  unfold stoneEnd stoneNotes
  simp only [decide_eq_true_eq]

theorem stoneBusy_eq (src : BitVec 2) (u : State) : stoneBusy src u = stoneNotes (u.stone.foundBusy src) 2 u := rfl

theorem answers_stoneNotes {i : Instr} {s u : State} {x : StoneSt} {code : Nat} {l : List Area}
    (hexec : exec i s = done (stoneNotes x code u)) (hs : s.settled) (hon : u.eventsOn = true) (hq : u.evq = [])
    (hmem : u.mem = s.mem) (hlog : u.host.loghead = s.host.loghead) (hm : Moves l s u) (hl : Area.stone ∈ l)
    (he : Area.events ∈ l) : answers i s fun t =>
      t.stone = x ∧ bitOf (t.core coreSV).evtPend 6 = true ∧ logs s t 147 code ∧ changesOnly l s t := by
  have hqueue : (stoneNotes x code u).evq = [(147, code)] := by
    rw [stoneNotes, State.fire_evq _ _ _ (by rw [eventsOn_fireSrc]; exact hon)]
    exact congrArg (· ++ [(147, code)]) hq
  have hgood : memGood (stoneNotes x code u).mem = true := by
    rw [stoneNotes, State.fire_mem]
    exact hmem ▸ hs.1
  refine answers_of hexec ⟨by rw [State.flush_stone, stoneNotes, State.fire_stone]; rfl, ?_, logs_flush hqueue hgood ?_, ?_⟩
  · have hcore : (stoneNotes x code u).core coreSV = (({ u with stone := x } : State).fireSrc coreSV 6).core coreSV := by
      unfold stoneNotes State.fire
      split <;> rfl
    rw [State.core_flush, hcore]
    exact evtPend_fireSrc_same _ _ (by decide)
  · rw [stoneNotes, State.fire_host]
    exact hlog
  · have hnotes : Moves l s (stoneNotes x code u) := by simp [stoneNotes, hl, he, hm]
    exact hnotes.flush he hs.2 hgood

/-! ## Requests (R326, R463 to R467) -/

/-- The Stone that has noted a request. -/
abbrev StoneSt.asked (t : StoneSt) (src : BitVec 2) (o : StoneOp) : StoneSt :=
  { t with src := src, op := o.op, arg := o.arg, otpuDone := t.otpuDone && decide (src ≠ 2) }

section
variable {i : Instr} {s u : State} {src : BitVec 2} {o : StoneOp} (hexec : exec i s = done (stoneRequest src o u)) (hs : s.settled)
  (hstone : u.stone = s.stone) (hq : u.evq = [])
include hexec hs hstone hq

/-- A request that nothing stops begins its operation. -/
theorem answers_stoneBegins {l : List Area} (hfree : s.stone.busy = none) (hok : stoneRefusal u o = none) (hm : Moves l s u)
    (hl : Area.stone ∈ l) : answers i s fun t =>
      t.stone = { s.stone.asked src o with busy := some o } ∧ t.host = u.host ∧ changesOnly l s t := by
  have hbegin : stoneRequest src o u = { u with stone := { u.stone.asked src o with busy := some o } } := by
    unfold stoneRequest
    simp only [hstone, hfree, hok]
    rfl
  rw [hbegin, hstone] at hexec
  exact answers_quiet hexec hq ⟨rfl, rfl, Moves.changesOnly ((moves_stone hl _).2 hm) hs.2 hq⟩

variable (hon : u.eventsOn = true) (hmem : u.mem = s.mem) (hlog : u.host.loghead = s.host.loghead)
  (hm : Moves [.stone, .bus, .events] s u)
include hon hmem hlog hm

theorem answers_stoneRefused {code : BitVec 4} (hfree : s.stone.busy = none) (hno : stoneRefusal u o = some code) :
    answers i s fun t => t.stone = (s.stone.asked src o).ended code ∧ bitOf (t.core coreSV).evtPend 6 = true
      ∧ logs s t 147 code.toNat ∧ changesOnly [.stone, .bus, .events] s t := by
  have hend : stoneRequest src o u = stoneNotes ((s.stone.asked src o).ended code) code.toNat { u with stone := s.stone.asked src o } := by
    unfold stoneRequest
    simp only [hstone, hfree, hno]
    exact stoneEnd_eq _ _
  exact answers_stoneNotes (hexec.trans (congrArg done hend)) hs hon hq hmem hlog ((moves_stone (by simp) _).2 hm) (by simp) (by simp)

theorem answers_stoneFoundBusy (hbusy : s.stone.busy ≠ none) : answers i s fun t =>
    t.stone = s.stone.foundBusy src ∧ bitOf (t.core coreSV).evtPend 6 = true ∧ logs s t 147 2
      ∧ changesOnly [.stone, .bus, .events] s t := by
  have hbusy' : stoneRequest src o u = stoneNotes (s.stone.foundBusy src) 2 u := by
    refine (if_pos ?_).trans (by rw [stoneBusy_eq, hstone])
    rw [hstone]
    exact Option.isSome_iff_ne_none.2 hbusy
  exact answers_stoneNotes (hexec.trans (congrArg done hbusy')) hs hon hq hmem hlog hm (by simp) (by simp)

/-- What a request of the Stone answers: begun, refused with its code, or BUSY. -/
theorem answers_stoneRequest {l : List Area} {h : HostSt} (hsame : stoneRefusal u o = stoneRefusal s o) (hhost : u.host = h)
    (hl : Moves l s u) (hst : Area.stone ∈ l) :
    (s.stone.busy = none → stoneRefusal s o = none → answers i s fun t =>
      t.stone = { s.stone.asked src o with busy := some o } ∧ t.host = h ∧ changesOnly l s t)
    ∧ (∀ code, s.stone.busy = none → stoneRefusal s o = some code → answers i s fun t =>
      t.stone = { s.stone.asked src o with
        done := true, code := code, otpuDone := (s.stone.asked src o).otpuDone || decide (src = 2)
        otpuCode := if src = 2 then code else s.stone.otpuCode }
      ∧ bitOf (t.core coreSV).evtPend 6 = true ∧ logs s t 147 code.toNat ∧ changesOnly [.stone, .bus, .events] s t)
    ∧ (s.stone.busy ≠ none → answers i s fun t =>
      t.stone = s.stone.foundBusy src ∧ logs s t 147 2 ∧ changesOnly [.stone, .bus, .events] s t) := by
  refine ⟨fun hfree hok => ?begins, fun code hfree hno => ?refused, fun hbusy => ?busy⟩
  case begins => exact hhost ▸ answers_stoneBegins hexec hs hstone hq hfree (hsame.trans hok) hl hst
  case refused =>
    obtain ⟨t, ht, hst, hrest⟩ := answers_stoneRefused hexec hs hstone hq hon hmem hlog hm hfree (hsame.trans hno)
    exact ⟨t, ht, hst.trans (by simp [StoneSt.ended, ← hfree]), hrest⟩
  case busy =>
    obtain ⟨t, ht, hst, -, hrest⟩ := answers_stoneFoundBusy hexec hs hstone hq hon hmem hlog hm hbusy
    exact ⟨t, ht, hst, hrest⟩

end

/-! ## Fuses (R453, R463) -/

/-- A word reads as it was last programmed. -/
theorem fuse_setFuse_same (t : StoneSt) (f : FuseWord) : (t.setFuse f).fuse f.word = f := by
  have hnone : t.fuses.find? (fun _ => false) = none := List.find?_eq_none.2 (by simp)
  simp [StoneSt.setFuse, StoneSt.fuse, List.find?_append, List.find?_filter, hnone]

theorem fuse_setFuse_ne (t : StoneSt) (f : FuseWord) {w : Nat} (h : w ≠ f.word) : (t.setFuse f).fuse w = t.fuse w := by
  have hfilter : (t.fuses.filter fun g => decide (g.word ≠ f.word)).find? (fun g => decide (g.word = w))
      = t.fuses.find? fun g => decide (g.word = w) := by
    rw [List.find?_filter]
    refine congrArg (fun p => t.fuses.find? p) (funext fun g => ?_)
    by_cases hg : g.word = w <;> simp [hg, h]
  rw [StoneSt.setFuse, StoneSt.fuse, List.find?_append, hfilter]
  simp [StoneSt.fuse, h.symm]

theorem fuse_word (t : StoneSt) (w : Nat) : (t.fuse w).word = w := by
  unfold StoneSt.fuse
  cases hf : t.fuses.find? fun f => decide (f.word = w) with
  | none => rfl
  | some f => simpa using List.find?_some hf

/-- A word with bits that read 1 at all three references (R463). -/
abbrev FuseWord.or (f : FuseWord) (m : Word) : FuseWord := { f with normal := f.normal ||| m, low := f.low ||| m, high := f.high ||| m }

/-- The bits of one word as a mask. -/
def fuseMask (bits : List Nat) : Word := bits.foldr (fun b m => withBit 0 (b % 32) true ||| m) 0

/-- Bits of one word programmed one after another. -/
theorem fuse_setFuseBits {w : Nat} (bits : List Nat) (h : ∀ b ∈ bits, b / 32 = w) (t : StoneSt) :
    (bits.foldl (fun t b => setFuseBit b t) t).fuse w = (t.fuse w).or (fuseMask bits)
      ∧ ∀ x, x ≠ w → (bits.foldl (fun t b => setFuseBit b t) t).fuse x = t.fuse x := by
  induction bits generalizing t with
  | nil => exact ⟨by simp [fuseMask, FuseWord.or], fun x _ => rfl⟩
  | cons b bits ih =>
    obtain ⟨hsame, hother⟩ := ih (fun c hc => h c (by simp [hc])) (setFuseBit b t)
    have hb : b / 32 = w := h b (by simp)
    have hone : (setFuseBit b t).fuse w = (t.fuse w).or (withBit 0 (b % 32) true) := by
      have hset := fuse_setFuse_same t ((t.fuse (b / 32)).or (withBit 0 (b % 32) true))
      rw [fuse_word] at hset
      rw [← hb]
      exact hset
    refine ⟨?_, fun x hx => (hother x hx).trans (fuse_setFuse_ne _ _ ?_)⟩
    · rw [List.foldl_cons, hsame, hone]
      simp [fuseMask, FuseWord.or, BitVec.or_assoc]
    · rw [fuse_word, hb]
      exact hx

/-! ## The end of an operation (R463 to R467) -/

section
variable {s : State} {o : StoneOp} (hs : s.settled) (hon : s.eventsOn = true) (hbusy : s.stone.busy = some o)
include hs hon hbusy

/-- The words of the statement: an operation that ends well leaves bits of one word reading 1. -/
abbrev stoneSets (s : State) (w : Nat) (m : Word) (t : State) : Prop :=
  t.stone.fuse w = (s.stone.fuse w).or m ∧ (∀ x : Fin 2048, x.val ≠ w → t.stone.fuse x.val = s.stone.fuse x.val)
    ∧ t.stone.busy = none ∧ t.stone.done = true ∧ t.stone.code = 1 ∧ logs s t 147 1 ∧ changesOnly [.stone, .events] s t

theorem answers_stoneDone {w : Nat} (hw : ∀ b ∈ stoneBits o s.stone.life, b / 32 = w) :
    answers (.stoneOperationDone true) s (stoneSets s w (fuseMask (stoneBits o s.stone.life))) := by
  have hexec : exec (.stoneOperationDone true) s
      = done (stoneNotes (((stoneBits o s.stone.life).foldl (fun t b => setFuseBit b t) s.stone).ended 1) 1
          { s with stone := (stoneBits o s.stone.life).foldl (fun t b => setFuseBit b t) s.stone }) := by
    have hmeans : exec (.stoneOperationDone true) s = execStoneOperationDone true s := rfl
    rw [hmeans, execStoneOperationDone]
    simp only [hbusy, if_true]
    exact congrArg done (stoneEnd_eq _ _)
  obtain ⟨hsame, hother⟩ := fuse_setFuseBits _ hw s.stone
  obtain ⟨t, ht, hst, -, hlog, hchange⟩ := answers_stoneNotes hexec hs hon hs.2 rfl rfl
    ((moves_stone (l := [.stone, .events]) (by simp) _).2 (.refl _ s)) (by simp) (by simp)
  refine ⟨t, ht, ?_, fun x hx => ?_, ?_, ?_, ?_, hlog, hchange⟩
  · rw [hst]
    exact hsame
  · rw [hst]
    exact hother x hx
  all_goals rw [hst]

/-- What is programmed in part leaves everything but the Stone and the open values alone. -/
theorem answers_stoneFailed : answers (.stoneOperationDone false) s fun t =>
    t.stone.busy = none ∧ t.stone.done = true ∧ t.stone.code = 6 ∧ logs s t 147 6 ∧ changesOnly [.stone, .open_, .events] s t := by
  have hpart : ∀ (b : Nat) (t : State), ∃ x k, partBit b t = { t with stone := x, freeCtr := k } := fun b t => ⟨_, _, rfl⟩
  have hparts : ∀ (bits : List Nat) (t : State), ∃ x k, bits.foldl (fun t b => partBit b t) t = { t with stone := x, freeCtr := k } := by
    intro bits
    induction bits with
    | nil => exact fun t => ⟨t.stone, t.freeCtr, rfl⟩
    | cons b bits ih =>
      intro t
      obtain ⟨x, k, hx⟩ := ih (partBit b t)
      obtain ⟨y, j, hy⟩ := hpart b t
      exact ⟨x, k, by rw [List.foldl_cons, hx, hy]⟩
  have hexec : ∃ x k, exec (.stoneOperationDone false) s = done (stoneNotes (x.ended 6) 6 { s with stone := x, freeCtr := k }) := by
    have hmeans : exec (.stoneOperationDone false) s = execStoneOperationDone false s := rfl
    rw [hmeans, execStoneOperationDone]
    simp only [hbusy, Bool.false_eq_true, if_false]
    split
    · exact ⟨_, _, congrArg done (stoneEnd_eq 6 (failFuseBit o.arg.toNat s))⟩
    · obtain ⟨x, k, hx⟩ := hparts (stoneBits o s.stone.life) s
      exact ⟨x, k, by rw [hx]; exact congrArg done (stoneEnd_eq 6 _)⟩
  obtain ⟨x, k, hexec⟩ := hexec
  have hmoves : Moves [.stone, .open_, .events] s { s with stone := x, freeCtr := k } :=
    (moves_freeCtr (l := [.stone, .open_, .events]) (t := { s with stone := x }) (by simp) k).2
      ((moves_stone (by simp) x).2 (.refl _ s))
  obtain ⟨t, ht, hst, -, hlog, hchange⟩ := answers_stoneNotes hexec hs hon hs.2 rfl rfl hmoves (by simp) (by simp)
  exact ⟨t, ht, by rw [hst], by rw [hst], by rw [hst], hlog, hchange⟩

end

/-! ## The bits of each operation as a mask -/

theorem fuseMask_one : ∀ i : Fin 32, fuseMask [i.val] = 1 <<< i.val := by decide

theorem fuseMask_lock : ∀ a : Fin 4, fuseMask ((List.range 4).map fun k => 32 + 8 * a.val + k) = 0xF <<< (8 * a.val) := by decide

theorem fuseMask_advance : ∀ l : Fin 4, fuseMask ((List.range 8).map fun k => 8 * l.val + k) = 0xFF <<< (8 * l.val) := by decide

theorem fuseMask_mod (bits : List Nat) : fuseMask (bits.map (· % 32)) = fuseMask bits := by
  simp [fuseMask, List.foldr_map]

/-- What stands before the effect of a whole write (R288). -/
theorem moves_fired_hostStart {s : State} {l : List Area} (hb : Area.bus ∈ l) (hsrc : Area.events ∈ l ∨ Area.sources ∈ l) :
    Moves l s ((hostStart s).fireSrc coreSV 0) :=
  (moves_fireSrc hsrc _ _).2 ((moves_host hb _).2 (.refl l s))

/-- Settles O55: requests by whether something stops them, ends by the bits of their operation. -/
theorem stoneOperationsRun : Obligations.StoneOperationsRun := by
  unfold Obligations.StoneOperationsRun
  intro s v ok hs hon t0 b host held asks sets
  have sv (i : Instr) (o : StoneOp) (hexec : exec i s = done (stoneRequest 2 o s)) : asks i 2 o :=
    answers_stoneRequest hexec hs rfl hs.2 hon rfl rfl (.refl _ s) rfl rfl (.refl _ s) (by simp)
  have fromHost (i : Instr) (d : List Byte) (o : StoneOp) (ha : codeAccepted s.hostState 0xF3 = true) (hd : d.length = 3)
      (hi : exec i s = done (hostRun 0xF3 (host d) none s))
      (hcmd : otpCmd d ((hostStart s).fireSrc coreSV 0) = stoneRequest 1 o ((hostStart s).fireSrc coreSV 0)) : asks i 1 o := by
    have hrun := hostRun_writes (d := d) none rfl (by omega) ha rfl (by rw [hd]; rfl)
    have hexec : exec i s = done (stoneRequest 1 o ((hostStart s).fireSrc coreSV 0)) :=
      hi.trans (congrArg done (hrun.trans hcmd))
    exact answers_stoneRequest hexec hs rfl hs.2 hon rfl rfl (moves_fired_hostStart (by simp) (by simp)) rfl rfl
      (moves_fired_hostStart (by simp) (by simp)) (by simp)
  have hlow : natLE [b 0, b 1] = v.toNat % 65536 := by
    simp only [natLE, b, BitVec.toNat_ofNat]
    omega
  have harea : (b 0).toNat % 4 = v.toNat % 4 := by
    simp only [b, BitVec.toNat_ofNat]
    omega
  refine ⟨sv _ _ rfl, sv _ _ ?lock, fun ha => ⟨fromHost _ _ _ ha rfl rfl ?pgmHost, fromHost _ _ _ ha rfl rfl ?lockHost,
    fromHost _ _ _ ha rfl rfl rfl, fromHost _ _ _ ha rfl rfl rfl, ?badScrap⟩, fun bit hbusy => ?pgmDone, fun a hbusy => ?lockDone,
    fun hbusy hlife => ?advanceDone, fun hbusy => ?scrapDone, fun hbusy => ?failed, fun hfree => ?none⟩
  case lock =>
    have harg : BitVec.ofNat 16 (v.toNat % 4) = (v.extractLsb' 0 2).setWidth 16 := BitVec.eq_of_toNat_eq (by simp)
    exact congrArg (fun x => done (stoneRequest 2 ⟨2, x⟩ s)) harg
  case pgmHost =>
    have harg : BitVec.ofNat 16 (natLE [b 0, b 1]) = v.extractLsb' 0 16 := by
      rw [hlow]
      exact BitVec.eq_of_toNat_eq (by simp)
    exact congrArg (fun x => stoneRequest 1 ⟨1, x⟩ _) harg
  case lockHost =>
    have harg : BitVec.ofNat 16 ((b 0).toNat % 4) = (v.extractLsb' 0 2).setWidth 16 := by
      rw [harea]
      exact BitVec.eq_of_toNat_eq (by simp)
    exact congrArg (fun x => stoneRequest 1 ⟨2, x⟩ _) harg
  case badScrap =>
    have hrun := hostRun_writes (d := [4, 0xA5, 0x5A]) none rfl (by simp) ha rfl rfl
    exact hostError_of_busError hs (i := .scrap (host [4, 0xA5, 0x5A])) (congrArg done hrun) (by decide) rfl rfl rfl
      (changesOnly_fired_hostStart s (by simp) (by simp))
  case pgmDone =>
    have hdone := answers_stoneDone hs hon hbusy (w := bit.toNat / 32) (by simp [stoneBits])
    have hmask : fuseMask (stoneBits ⟨1, bit⟩ s.stone.life) = 1 <<< (bit.toNat % 32) := by
      rw [← fuseMask_mod]
      exact fuseMask_one ⟨bit.toNat % 32, by omega⟩
    rwa [hmask] at hdone
  case lockDone =>
    have hdone := answers_stoneDone hs hon hbusy (w := 1) (by simp [stoneBits]; omega)
    have hmask : fuseMask (stoneBits ⟨2, a⟩ s.stone.life) = 0xF <<< (8 * (a.toNat % 4)) := fuseMask_lock ⟨a.toNat % 4, by omega⟩
    rwa [hmask] at hdone
  case advanceDone =>
    have hdone := answers_stoneDone hs hon hbusy (w := 0) (by simp only [t0] at hlife; simp [stoneBits]; omega)
    have hmask : fuseMask (stoneBits ⟨3, 0⟩ s.stone.life) = 0xFF <<< (8 * s.stone.life.toNat) := fuseMask_advance ⟨s.stone.life.toNat, hlife⟩
    rwa [hmask] at hdone
  case scrapDone =>
    have hdone := answers_stoneDone hs hon hbusy (w := 0) (by simp [stoneBits]; omega)
    have hmask : fuseMask (stoneBits ⟨4, 0⟩ s.stone.life) = 0xFF000000 := fuseMask_advance 3
    rwa [hmask] at hdone
  case failed =>
    obtain ⟨o, ho⟩ := Option.ne_none_iff_exists'.1 hbusy
    exact answers_stoneFailed hs hon ho
  case none =>
    have hmeans : exec (.stoneOperationDone ok) s = execStoneOperationDone ok s := rfl
    refine idles_of hs ?_
    rw [hmeans, execStoneOperationDone]
    simp only [t0] at hfree
    simp only [hfree]

end Sys2Proof.Machine
end

section
/-! O56: operations of the image store (R446, R487 to R491): asked for by SV or the host, and at their end. -/

namespace Sys2Proof.Machine

/-! ## The end of an operation (R288, R491) -/

/-- What stands of the image store once an operation has ended. -/
abbrev BootSt.imgEnded (b : BootSt) (code check : BitVec 4) : BootSt :=
  { b with img := none, imgDone := true, imgCode := code, imgCheck := check, imgLeft := 0 }

theorem imageEnd_eq (code check : BitVec 4) (u : State) :
    imageEnd code check u = ({ u with bt := u.bt.imgEnded code check } : State).fireSrc coreSV 7 := rfl

section
variable {i : Instr} {s u : State} {l : List Area} (hs : s.settled) (hq : u.evq = []) (hm : Moves l s u) (hbt : Area.bt ∈ l)
  (he : Area.events ∈ l ∨ Area.sources ∈ l)
include hs hq hm hbt he

/-- A command that leaves a word about the image store and fires SV's source 7. -/
theorem answers_imageNote {b : BootSt} {P : State → Prop} (hexec : exec i s = done (({ u with bt := b } : State).fireSrc coreSV 7))
    (hP : P (({ u with bt := b } : State).fireSrc coreSV 7)) : answers i s fun t =>
      t.bt = b ∧ bitOf (t.core coreSV).evtPend 7 = true ∧ P t ∧ changesOnly l s t :=
  answers_quiet hexec hq ⟨rfl, evtPend_fireSrc_same _ _ (by decide), hP,
    Moves.changesOnly ((moves_fireSrc he _ _).2 ((moves_bt hbt _).2 hm)) hs.2 hq⟩

end

/-! ## Requests (R490, R491) -/

section
variable {s : State} {o : ImageOp} (hfree : s.bt.img = none) (hstone : s.stone.busy = none)
  (hmay : s.dev.mode ≠ .restrictive ∧ s.dev.mode ≠ .scrapped)
include hfree hstone hmay

/-- A request with an operation that has one and a mode that takes it is judged by its operands, the slot and the heat. -/
theorem imageRequest_judged (hop : 1 ≤ o.op.toNat ∧ o.op.toNat ≤ 4) : imageRequest true o s =
    if imageRange o = true then imageEnd 3 s.bt.imgCheck { s with bt := { s.bt with imgOp := o.op } }
    else if (o.op = 1 ∨ o.op = 2) ∧ s.slotRuns o.slot = true then imageEnd 4 s.bt.imgCheck { s with bt := { s.bt with imgOp := o.op } }
    else if (o.op = 1 ∨ o.op = 2) ∧ s.storeHot = true then imageEnd 5 s.bt.imgCheck { s with bt := { s.bt with imgOp := o.op } }
    else if o.op = 4 ∧ o.kind = 3 then imageEnd 8 7 { s with bt := { s.bt with imgOp := o.op } }
    else if o.op = 4 ∧ greenHeld s o.kind.toNat = true then imageEnd 6 s.bt.imgCheck { s with bt := { s.bt with imgOp := o.op } }
    else { s with bt := { s.bt with
      imgOp := o.op, img := some o
      imgLeft := BitVec.ofNat 16 (if o.op = 1 then 32 else if o.op = 2 then (o.len + 255) / 256 else 0) } } := by
  have hop0 : o.op ≠ 0 := by
    intro h
    rw [h] at hop
    exact absurd hop.1 (by decide)
  have hop4 : ¬ 4 < o.op.toNat := by omega
  exact (if_neg (by simp [hfree, hstone])).trans <| (if_neg (not_or.2 ⟨hop0, hop4⟩)).trans (if_neg (by simp [hmay.1, hmay.2]))

/-- A request that nothing stops begins its operation. -/
theorem imageRequest_begins (hop : 1 ≤ o.op.toNat ∧ o.op.toNat ≤ 4) (hrange : imageRange o = false)
    (hslot : o.op = 1 ∨ o.op = 2 → s.slotRuns o.slot = false ∧ s.storeHot = false)
    (hgreen : o.op = 4 → o.kind ≠ 3 ∧ greenHeld s o.kind.toNat = false) :
    imageRequest true o s = { s with bt := { s.bt with
      imgOp := o.op, img := some o
      imgLeft := BitVec.ofNat 16 (if o.op = 1 then 32 else if o.op = 2 then (o.len + 255) / 256 else 0) } } := by
  rw [imageRequest_judged hfree hstone hmay hop, if_neg (by simp [hrange]), if_neg fun h => by simp [hslot h.1] at h,
    if_neg fun h => by simp [hslot h.1] at h, if_neg fun h => (hgreen h.1).1 h.2, if_neg fun h => by simp [hgreen h.1] at h]

end

theorem greenHeld_fired (s : State) (k : Nat) : greenHeld ((hostStart s).fireSrc coreSV 0) k = greenHeld s k := by
  unfold greenHeld
  simp only [run_core_fireSrc]
  rfl

section
variable {s : State} {mk : ImageReq → Instr} {args : List Byte} {o : ImageOp}
  (hmk : ∀ r, exec (mk r) s = done (imageRun o.op r s)) (hargs : imageArgs o.op args = some o)
include hmk hargs

/-- A request of SV, by what it asks for. -/
theorem exec_imageReq_sv : exec (mk (.sv args)) s = done (imageRequest true o s) := by
  rw [hmk]
  simp only [imageRun, hargs]

variable (hop : 1 ≤ o.op.toNat ∧ o.op.toNat ≤ 4) (hn : countOk 0xF4 (args.length + 1) = true)
include hop hn

/-- A request of the host, by what it asks for. -/
theorem exec_imageReq_host (ha : codeAccepted s.hostState 0xF4 = true) :
    exec (mk (.host (s.writes 0xF4 true (o.op.setWidth 8 :: args)))) s
      = done (imageRequest true o ((hostStart s).fireSrc coreSV 0)) := by
  have hlen : args.length < 255 := by
    have : decide (args.length + 1 = 2 ∨ args.length + 1 = 4 ∨ args.length + 1 = 11) = true := hn
    simp at this
    omega
  have hrun := hostRun_writes (s := s) (c := 0xF4) (d := o.op.setWidth 8 :: args) none rfl (by simpa using by omega) ha rfl hn
  have hcode : (o.op.setWidth 8).toNat = o.op.toNat := by simp; omega
  rw [hmk]
  refine congrArg done (hrun.trans ?_)
  show imgCmd (o.op.setWidth 8 :: args) _ = _
  unfold imgCmd
  simp only [List.getD_cons_zero, hcode, List.drop_one, List.tail_cons, BitVec.ofNat_toNat, BitVec.setWidth_eq, hargs]
  exact if_neg (by omega)

/-- A request that nothing stops begins its operation, for SV and for the host. -/
theorem answers_imageStarts (hs : s.settled) (hfree : s.bt.img = none) (hstone : s.stone.busy = none)
    (hmay : s.dev.mode ≠ .restrictive ∧ s.dev.mode ≠ .scrapped) (hrange : imageRange o = false)
    (hslot : o.op = 1 ∨ o.op = 2 → s.slotRuns o.slot = false ∧ s.storeHot = false)
    (hgreen : o.op = 4 → o.kind ≠ 3 ∧ greenHeld s o.kind.toNat = false) {left : Nat}
    (hleft : (if o.op = 1 then 32 else if o.op = 2 then (o.len + 255) / 256 else 0) = left) :
    answers (mk (.sv args)) s (fun t =>
      t.bt = { s.bt with imgOp := o.op, img := some o, imgLeft := BitVec.ofNat 16 left } ∧ changesOnly [.bt] s t)
    ∧ (codeAccepted s.hostState 0xF4 = true → answers (mk (.host (s.writes 0xF4 true (o.op.setWidth 8 :: args)))) s fun t =>
      t.bt = { s.bt with imgOp := o.op, img := some o, imgLeft := BitVec.ofNat 16 left }
        ∧ changesOnly [.bt, .bus, .sources] s t) := by
  constructor
  · have hexec := exec_imageReq_sv hmk hargs
    rw [imageRequest_begins hfree hstone hmay hop hrange hslot hgreen, hleft] at hexec
    exact answers_quiet hexec hs.2 ⟨rfl, Moves.changesOnly ((moves_bt (by simp) _).2 (.refl _ s)) hs.2 hs.2⟩
  · intro ha
    have hexec := exec_imageReq_host hmk hargs hop hn ha
    have hgreen' : o.op = 4 → o.kind ≠ 3 ∧ greenHeld ((hostStart s).fireSrc coreSV 0) o.kind.toNat = false :=
      fun h => ⟨(hgreen h).1, (greenHeld_fired s _).trans (hgreen h).2⟩
    rw [imageRequest_begins (s := (hostStart s).fireSrc coreSV 0) hfree hstone hmay hop hrange hslot hgreen', hleft] at hexec
    exact answers_quiet hexec hs.2 ⟨rfl, Moves.changesOnly ((moves_bt (by simp) _).2
      (moves_fired_hostStart (by simp) (by simp))) hs.2 hs.2⟩

end

/-! ## What the operations leave in memory (R473, R490) -/

theorem memRead_clearMem (a len x : Nat) (s : State) :
    memRead (clearMem a len s).mem x = if a ≤ x ∧ x < a + len then memDefault x else memRead s.mem x := by
  show memRead (s.mem.filter _) x = _
  induction s.mem with
  | nil => split <;> rfl
  | cons c m ih =>
    rw [List.filter_cons]
    by_cases hc : a ≤ c.1 ∧ c.1 < a + len
    · rw [if_neg (by simpa using hc), ih]
      split
      · rfl
      · next hx => rw [memRead, if_neg (by rintro rfl; exact hx hc)]
    · rw [if_pos (by rw [decide_eq_false hc]; rfl), memRead, memRead, ih]
      by_cases hx : c.1 = x
      · rw [if_pos hx, if_pos hx, if_neg (hx ▸ hc)]
      · rw [if_neg hx, if_neg hx]

theorem moves_clearMem {l : List Area} {s t : State} {a len : Nat} (h : Area.mem a (a + len) ∈ l) :
    Moves l s (clearMem a len t) ↔ Moves l s t :=
  moves_mem fun x hx => (memRead_clearMem a len x t).trans (if_neg (by have := hx a (a + len) h; omega))

@[simp] theorem length_programmed (m : Memory) (a : Nat) (bs : List Byte) : (programmed m a bs).length = bs.length := by
  induction bs generalizing a with
  | nil => rfl
  | cons b bs ih => simp [programmed, ih]

@[simp] theorem length_memReadN (m : Memory) (a k : Nat) : (memReadN m a k).length = k := by
  induction k generalizing a with
  | zero => rfl
  | succ k ih => simp [memReadN, ih]

/-! ## LOADGREEN (R487) -/

/-- A verified image of a kind is of that kind. -/
theorem checkGreen_kind {s : State} {slot kind : Nat} {i : Img} (h : (checkGreen s slot kind).2 = some i) : i.kind = kind := by
  unfold checkGreen at h
  split at h
  · exact absurd h (by simp)
  · split at h
    · exact absurd h (by simp)
    · next t _ =>
      split at h
      · next j hj =>
        have hmem : j ∈ t.imgs.filter fun i => decide (i.kind = kind) := by rw [hj]; simp
        have hkind : j.kind = kind := by simpa using (List.mem_filter.1 hmem).2
        (repeat' split at h) <;> simp_all
      · exact absurd h (by simp)

theorem loadGreen_pc {i : Img} (hk : i.kind = 2) (slot : Nat) (sel : Byte) (s : State) :
    loadGreen i slot sel s = greenCore slot i corePC1 (greenCore slot i corePC0 s) := by
  unfold loadGreen
  simp only [hk]
  rfl

/-- Of the cores LOADGREEN touches the one it loads, which has its image verified in the green bank. -/
theorem greenCore_cores (slot : Nat) (i : Img) (c : Core) (s : State) :
    ∃ u : State, u.cores = s.cores
      ∧ greenCore slot i c s = u.updCore c fun k => { k with verified := true, greenMeta := i.toMeta slot } := by
  unfold greenCore
  refine ⟨_, ?_, rfl⟩
  rw [foldl_get State.cores _ (fun t x => by split <;> [rfl; (split <;> simp)])]
  split <;> simp

theorem core_greenCore_same (slot : Nat) (i : Img) (c : Core) (s : State) :
    (greenCore slot i c s).core c = { s.core c with verified := true, greenMeta := i.toMeta slot } := by
  obtain ⟨u, hu, hgreen⟩ := greenCore_cores slot i c s
  rw [hgreen, State.core_updCore_same, same_cores s u hu]

theorem core_greenCore_ne (slot : Nat) (i : Img) {c d : Core} (h : d ≠ c) (s : State) : (greenCore slot i c s).core d = s.core d := by
  obtain ⟨u, hu, hgreen⟩ := greenCore_cores slot i c s
  rw [hgreen, State.core_updCore_ne _ _ _ _ h, same_cores s u hu]

/-- Each policy core has the image of a PC kind verified in its green bank. -/
theorem core_loadGreen_pc {i : Img} (hk : i.kind = 2) (slot : Nat) (sel : Byte) (s : State) {c : Core} (hc : c = corePC0 ∨ c = corePC1) :
    (loadGreen i slot sel s).core c = { s.core c with verified := true, greenMeta := i.toMeta slot } := by
  rw [loadGreen_pc hk]
  rcases hc with rfl | rfl
  · rw [core_greenCore_ne _ _ (by decide), core_greenCore_same]
  · rw [core_greenCore_same, core_greenCore_ne _ _ (by decide)]

/-! ## The commands -/

/-- The end of an operation by what runs. -/
theorem exec_imageOperationDone {s : State} {o : ImageOp} (h : s.bt.img = some o) : exec .imageOperationDone s =
    if o.op = 1 then done (imageEnd 1 s.bt.imgCheck (clearMem (slotBase o.slot) 0x200000 s))
    else if o.op = 2 then
      done (imageEnd (if programmed s.mem (slotBase o.slot + o.offset) (s.readMem o.src o.len) = s.readMem o.src o.len then 1 else 7)
        s.bt.imgCheck (s.writeMem (slotBase o.slot + o.offset)
          (programmed s.mem (slotBase o.slot + o.offset) (s.readMem o.src o.len))))
    else if o.op = 3 then done (imageEnd (if (checkSlot s o.slot).1 = 1 then 1 else 8) (checkSlot s o.slot).1 s)
    else match (checkGreen s o.slot o.kind.toNat).2 with
      | none => done (imageEnd 8 (checkGreen s o.slot o.kind.toNat).1 s)
      | some i => done (imageEnd 1 (checkGreen s o.slot o.kind.toNat).1 (loadGreen i o.slot o.portSel s)) := by
  have hmeans : exec .imageOperationDone s = execImageOperationDone s := rfl
  rw [hmeans, execImageOperationDone]
  simp only [h] <;> rfl

/-- The operands of a WRITE as its bytes spell them (R490). -/
theorem imageArgs_write (slot : Byte) (off : BitVec 24) (len : BitVec 16) (src : Word) :
    imageArgs 2 (slot :: (toBytesLE 3 off.toNat ++ toBytesLE 2 len.toNat ++ toBytesLE 4 src.toNat))
      = some ⟨2, slot.toNat, off.toNat, len.toNat, src.toNat, 0, 0⟩ := by
  have hmeans : imageArgs 2 (slot :: (toBytesLE 3 off.toNat ++ toBytesLE 2 len.toNat ++ toBytesLE 4 src.toNat))
      = some ⟨2, slot.toNat, natLE (toBytesLE 3 off.toNat), natLE (toBytesLE 2 len.toNat), natLE (toBytesLE 4 src.toNat), 0, 0⟩ := rfl
  have hoff : natLE (toBytesLE 3 off.toNat) = off.toNat := by rw [natLE_toBytesLE]; exact Nat.mod_eq_of_lt off.isLt
  have hsrc : natLE (toBytesLE 4 src.toNat) = src.toNat := by rw [natLE_toBytesLE]; exact Nat.mod_eq_of_lt src.isLt
  rw [hmeans, hoff, natLE_word16 len, hsrc]

/-- Settles O56: requests by what stops them, ends by the operation that runs. -/
theorem imageOperationsRun : Obligations.ImageOperationsRun := by
  unfold Obligations.ImageOperationsRun
  intro s slot kind sel off len src hs b0 le wargs wop may starts ends done_
  have noted {l : List Area} {i : Instr} {u : State} {code check : BitVec 4} (hexec : exec i s = done (imageEnd code check u))
      (hq : u.evq = []) (hm : Moves l s u) (hbt : Area.bt ∈ l) (he : Area.events ∈ l ∨ Area.sources ∈ l) {P : State → Prop}
      (hP : P (imageEnd code check u)) : answers i s fun t =>
        t.bt = u.bt.imgEnded code check ∧ bitOf (t.core coreSV).evtPend 7 = true ∧ P t ∧ changesOnly l s t :=
    answers_imageNote hs hq hm hbt he hexec hP
  have refuses {i : Instr} {op code : BitVec 4} (hfree : b0.img = none)
      (hexec : exec i s = done (imageEnd code s.bt.imgCheck { s with bt := { s.bt with imgOp := op } })) : ends i op code := by
    obtain ⟨t, ht, hbt, hsv, -, hchange⟩ := noted (l := [.bt, .events]) (P := fun _ => True) hexec hs.2
      ((moves_bt (by simp) _).2 (.refl _ s)) (by simp) (by simp) trivial
    exact ⟨t, ht, hbt.trans (by simp only [b0] at hfree ⊢; simp [← hfree]), hsv, hchange⟩
  refine ⟨fun hfree hstone hmay hslot => ⟨fun hruns hhot => ⟨?erase, fun hrange => ?write⟩, ?check, fun hkind hheld => ?loadgreen,
    fun hruns => ?running, fun hruns hhot => ?hot⟩, fun hfree hstone hmay hslot => ?range, fun hbusy => ?busy,
    fun himg hslot => ?erased, fun himg hslot hrange => ?written, fun himg => ?checked, fun himg => ⟨fun hno => ?notLoaded, ?loaded⟩,
    fun hfree => ?none⟩
  case erase =>
    exact answers_imageStarts (mk := .erase) (o := ⟨1, slot.toNat, 0, 0, 0, 0, 0⟩) (args := [slot]) (fun r => rfl) rfl (by simp) rfl hs
      hfree hstone hmay (by simp [imageRange]; omega) (fun _ => ⟨hruns, hhot⟩) (fun h => absurd h (by simp)) rfl
  case write =>
    exact answers_imageStarts (mk := .write) (o := wop) (args := wargs) (fun r => rfl) (imageArgs_write slot off len src)
      (by simp [wop]) rfl hs hfree hstone hmay hrange (fun _ => ⟨hruns, hhot⟩) (fun h => absurd h (by simp [wop])) rfl
  case check =>
    exact answers_imageStarts (mk := .check) (o := ⟨3, slot.toNat, 0, 0, 0, 0, 0⟩) (args := [slot]) (fun r => rfl) rfl (by simp) rfl hs
      hfree hstone hmay (by simp [imageRange]; omega) (fun h => absurd h (by simp)) (fun h => absurd h (by simp)) rfl
  case loadgreen =>
    have hne : kind ≠ 3 := by rcases hkind with rfl | rfl | ⟨rfl, -⟩ <;> decide
    have hrange : imageRange ⟨4, slot.toNat, 0, 0, 0, kind, sel⟩ = false := by
      rcases hkind with rfl | rfl | ⟨rfl, hsel | rfl⟩
      · simp [imageRange]; omega
      · simp [imageRange]; omega
      · simp [imageRange]; exact ⟨hslot, fun h => by omega⟩
      · simp [imageRange]; omega
    exact answers_imageStarts (mk := .loadgreen) (o := ⟨4, slot.toNat, 0, 0, 0, kind, sel⟩) (args := [slot, kind, sel]) (fun r => rfl)
      rfl (by simp) rfl hs hfree hstone hmay hrange (fun h => absurd h (by simp)) (fun _ => ⟨hne, hheld⟩) rfl
  case running =>
    refine refuses hfree ((exec_imageReq_sv (mk := .erase) (o := ⟨1, slot.toNat, 0, 0, 0, 0, 0⟩) (fun r => rfl) rfl).trans ?_)
    rw [imageRequest_judged hfree hstone hmay (by simp), if_neg (by simp [imageRange]; omega), if_pos ⟨.inl rfl, hruns⟩]
  case hot =>
    refine refuses hfree ((exec_imageReq_sv (mk := .erase) (o := ⟨1, slot.toNat, 0, 0, 0, 0, 0⟩) (fun r => rfl) rfl).trans ?_)
    rw [imageRequest_judged hfree hstone hmay (by simp), if_neg (by simp [imageRange]; omega), if_neg (by simp [hruns]),
      if_pos ⟨.inl rfl, hhot⟩]
  case range =>
    refine refuses hfree ((exec_imageReq_sv (mk := .check) (o := ⟨3, slot.toNat, 0, 0, 0, 0, 0⟩) (fun r => rfl) rfl).trans ?_)
    rw [imageRequest_judged hfree hstone hmay (by simp), if_pos (by simp [imageRange]; omega)]
  case busy =>
    have hsome : (s.bt.img.isSome || s.stone.busy.isSome) = true := by
      rw [Option.isSome_iff_ne_none.2 hbusy]
      rfl
    have hexec : exec (.check (.sv [slot])) s
        = done (({ s with bt := { s.bt with imgDone := true, imgCode := 2 } } : State).fireSrc coreSV 7) :=
      (exec_imageReq_sv (mk := .check) (o := ⟨3, slot.toNat, 0, 0, 0, 0, 0⟩) (fun r => rfl) rfl).trans (congrArg done (if_pos hsome))
    obtain ⟨t, ht, hbt, -, -, hchange⟩ := answers_imageNote (l := [.bt, .events]) (P := fun _ => True) hs hs.2 (.refl _ s) (by simp)
      (by simp) hexec trivial
    exact ⟨t, ht, hbt, hchange⟩
  case erased =>
    have hblank (i : Fin 0x200000) :
        memRead (clearMem (slotBase slot.toNat) 0x200000 s).mem (slotBase slot.toNat + i.val) = 0xFF := by
      have hi := i.isLt
      rw [memRead_clearMem, if_pos (by omega), memDefault, if_pos (by simp only [slotBase]; omega)]
    obtain ⟨t, ht, hbt, hsv, hmem, hchange⟩ := noted (l := [.bt, .events, .mem (slotBase slot.toNat) (slotBase slot.toNat + 0x200000)])
      (P := fun t => ∀ i : Fin 0x200000, memRead t.mem (slotBase slot.toNat + i.val) = 0xFF)
      ((exec_imageOperationDone himg).trans (if_pos rfl)) hs.2 ((moves_clearMem (by simp)).2 (.refl _ s)) (by simp) (by simp) hblank
    exact ⟨t, ht, ⟨hbt, hsv⟩, hmem, hchange⟩
  case written =>
    have hwf : Memory.wf s.mem := of_decide_eq_true hs.1
    have hgot : (programmed s.mem (slotBase slot.toNat + off.toNat) (s.readMem src.toNat len.toNat)).length = len.toNat := by
      simp [State.readMem]
    have hreads : memReadN (s.writeMem (slotBase slot.toNat + off.toNat)
        (programmed s.mem (slotBase slot.toNat + off.toNat) (s.readMem src.toNat len.toNat))).mem
          (slotBase slot.toNat + off.toNat) len.toNat
        = programmed s.mem (slotBase slot.toNat + off.toNat) (s.readMem src.toNat len.toNat) := by
      have := memReadN_memWriteN (programmed s.mem (slotBase slot.toNat + off.toNat) (s.readMem src.toNat len.toNat)) s.mem
        (slotBase slot.toNat + off.toNat) hwf
      rwa [hgot] at this
    obtain ⟨t, ht, hbt, hsv, hmem, hchange⟩ := noted
      (l := [.bt, .events, .mem (slotBase slot.toNat + off.toNat) (slotBase slot.toNat + off.toNat + len.toNat)])
      (P := fun t => t.readMem (slotBase slot.toNat + off.toNat) len.toNat
        = programmed s.mem (slotBase slot.toNat + off.toNat) (s.readMem src.toNat len.toNat))
      ((exec_imageOperationDone himg).trans ((if_neg (by simp [wop])).trans (if_pos rfl))) hs.2
      ((moves_writeMem (lo := slotBase slot.toNat + off.toNat) (hi := slotBase slot.toNat + off.toNat + len.toNat) hs.1 (by simp)
        (le_refl _) (by rw [hgot])).2 (.refl _ s)) (by simp) (by simp) hreads
    exact ⟨t, ht, ⟨hbt, hsv⟩, hmem, hchange⟩
  case checked =>
    obtain ⟨t, ht, hbt, hsv, -, hchange⟩ := noted (l := [.bt, .events]) (P := fun _ => True)
      ((exec_imageOperationDone himg).trans ((if_neg (by simp)).trans ((if_neg (by simp)).trans (if_pos rfl)))) hs.2 (.refl _ s)
      (by simp) (by simp) trivial
    exact ⟨t, ht, ⟨hbt, hsv⟩, hchange⟩
  case notLoaded =>
    have hexec := (exec_imageOperationDone himg).trans ((if_neg (by simp)).trans ((if_neg (by simp)).trans (if_neg (by simp))))
    simp only [hno] at hexec
    obtain ⟨t, ht, hbt, hsv, -, hchange⟩ := noted (l := [.bt, .events]) (P := fun _ => True) hexec hs.2 (.refl _ s)
      (by simp) (by simp) trivial
    exact ⟨t, ht, ⟨hbt, hsv⟩, hchange⟩
  case loaded =>
    rintro i rfl hsome
    obtain ⟨img, himage⟩ := Option.ne_none_iff_exists'.1 hsome
    have hkind := checkGreen_kind himage
    have hexec := (exec_imageOperationDone himg).trans ((if_neg (by simp)).trans ((if_neg (by simp)).trans (if_neg (by simp))))
    have hc : (⟨4 + i.val, by omega⟩ : Core) = corePC0 ∨ (⟨4 + i.val, by omega⟩ : Core) = corePC1 := by
      match i with
      | 0 => exact .inl rfl
      | 1 => exact .inr rfl
    have hne : (⟨4 + i.val, by omega⟩ : Core) ≠ coreSV := by rcases hc with h | h <;> rw [h] <;> decide
    have himage' : (checkGreen s slot.toNat (2 : Byte).toNat).2 = some img := himage
    simp only [himage'] at hexec
    have hcore : (imageEnd 1 (checkGreen s slot.toNat (2 : Byte).toNat).1 (loadGreen img slot.toNat sel s)).core ⟨4 + i.val, by omega⟩
        = { s.core ⟨4 + i.val, by omega⟩ with verified := true, greenMeta := img.toMeta slot.toNat } :=
      (State.core_updCore_ne _ _ _ _ hne).trans (core_loadGreen_pc hkind _ _ _ hc)
    have hslot : decide (slot.toNat = 1) = decide (slot = 1) := decide_eq_decide.2
      ⟨fun h => BitVec.eq_of_toNat_eq h, fun h => congrArg BitVec.toNat h⟩
    refine answers_of hexec ⟨?_, ?_, ?_⟩
    · rw [State.flush_bt]
      rfl
    · rw [State.flush_bt]
      rfl
    · rw [State.core_flush, hcore]
      exact ⟨rfl, rfl, congrArg some hslot⟩
  case none =>
    have hmeans : exec .imageOperationDone s = execImageOperationDone s := rfl
    refine idles_of hs ?_
    rw [hmeans, execImageOperationDone]
    simp only [b0] at hfree
    simp only [hfree]

end Sys2Proof.Machine
end

section
/-! What a restart of a core leaves (R269, R270): the core itself, the ports of an engine, and those of a policy core, whose contracts
end for good. -/

namespace Sys2Proof.Machine

/-! ## Contracts that end (R163, R172, R403) -/

/-- What the end of contracts leaves of a port: its contract's state or none, and no force-off but that of a trip besides. -/
structure Winds (s u : State) (m : Port) : Prop where
  ct : (u.port m).ct.state = (s.port m).ct.state ∨ (u.port m).ct.state = .none
  force : ∀ x ∈ (u.port m).st.force, x ∈ (s.port m).st.force ∨ x = .trip

section
variable {s t u : State} {m : Port}

theorem Winds.refl (s : State) (m : Port) : Winds s s m := ⟨.inl rfl, fun _ h => .inl h⟩

theorem Winds.trans (h : Winds s t m) (k : Winds t u m) : Winds s u m := by
  refine ⟨?_, fun x hx => ?_⟩
  · rcases k.ct with hk | hk
    · rw [hk]; exact h.ct
    · exact .inr hk
  · rcases k.force x hx with hk | hk
    · exact h.force x hk
    · exact .inr hk

theorem Winds.uncontracted (h : Winds s u m) (hs : s.uncontracted m) : u.uncontracted m := by
  rcases h.ct with hk | hk
  · exact hk.trans hs
  · exact hk

/-- A step that leaves the contract and the stage of the port. -/
theorem Winds.of_same (hct : (u.port m).ct.state = (s.port m).ct.state) (hst : (u.port m).st = (s.port m).st) : Winds s u m :=
  ⟨.inl hct, fun x hx => .inl (by rwa [hst] at hx)⟩

theorem force_forcedClose (n : Port) (s : State) : ((forcedClose n s).port m).st.force = (s.port m).st.force := by
  unfold forcedClose closeWindow
  dsimp only
  by_cases hm : m = n
  · subst hm
    split
    · split <;> simp [StageSt.setBurst]
    · rfl
  · split
    · split <;> simp [hm]
    · rfl

theorem mem_of_mem_addForce {x y : ForceSource} {l : List ForceSource} (h : x ∈ addForce y l) : x ∈ l ∨ x = y := by
  unfold addForce at h
  split at h
  · exact .inl h
  · exact (List.mem_cons.1 h).symm

theorem winds_forceOff_trip (n : Port) (s : State) : Winds s (forceOff .trip n s) m := by
  refine ⟨.inl (by rw [ct_forceOff]), fun x hx => ?_⟩
  unfold forceOff at hx
  rw [force_forcedClose] at hx
  by_cases hm : m = n
  · subst hm
    exact mem_of_mem_addForce (by simpa using hx)
  · exact .inl (by simpa [hm] using hx)

theorem force_endContract (n : Port) (s : State) : ((endContract n s).port m).st.force = (s.port m).st.force := by
  have hst : ((setContract n .none 0 0 false (resumeDetach n s)).port m).st = (s.port m).st := by
    rw [st_setContract, st_resumeDetach]
  unfold endContract
  dsimp only
  rw [st_openSwitch, st_updCt, force_forcedClose, hst]

theorem winds_endContract (n : Port) (s : State) : Winds s (endContract n s) m := by
  refine ⟨?_, fun x hx => .inl (by rwa [force_endContract] at hx)⟩
  rw [endContract_state]
  split
  · exact .inr rfl
  · exact .inl rfl

theorem winds_sendBye (n : Port) (code : Nat) (dflt : Bool) (s : State) : Winds s (sendBye n code dflt s) m := by
  unfold sendBye
  dsimp only
  split
  · exact .of_same (by simp) (by simp)
  · split
    · exact .refl s m
    · exact winds_endContract n s

theorem winds_shedPort (n : Port) (s : State) : Winds s (shedPort n s) m := by
  have hopened : Winds s (shedOpened n s) m := by
    unfold shedOpened
    refine (winds_forceOff_trip n s).trans (.of_same ?_ ?_)
    · rw [ct_promoteWaiting, ct_dropPg]
      simp
    · rw [st_promoteWaiting, st_dropPg, st_updPw]
  rw [shedPort_eq]
  generalize shedOpened n s = u at *
  refine hopened.trans (.trans (.of_same ?_ ?_) (winds_sendBye n _ _ _))
  · rw [ct_fault]; rfl
  · rw [st_fault]; rfl

theorem winds_shedLoop (limit k : Nat) (s : State) : Winds s (shedLoop limit k s) m := by
  induction k generalizing s with
  | zero => exact .refl s m
  | succ k ih =>
    unfold shedLoop
    split
    · exact .refl s m
    · split
      · exact .refl s m
      · next n _ => exact (winds_shedPort n s).trans (ih _)

theorem winds_ledgerAct (s : State) : Winds s (ledgerAct s) m := by
  by_cases hfits : s.led.grantSum + s.led.tokRes ≤ s.led.avail
  · rw [ledgerAct_of_fits hfits]
    exact .of_same rfl rfl
  · have hhard : Winds s (hardShed s) m := by
      unfold hardShed
      split
      · exact Winds.trans (t := { s with led := { s.led with cut := true } }) (.of_same rfl rfl) (winds_shedLoop _ _ _)
      · exact .refl s m
    rw [ledgerAct_exceeds hfits, excursionNoted]
    split
    · exact hhard
    · exact hhard.trans (.of_same (by simp) (by simp))

theorem winds_opRelease (n : Port) (s : State) : Winds s (opRelease n s) m := by
  have hjournal : Winds s (journal n 2 1 (writeGrant n s.led.held[n] 0 (setHeld n 0 0 s))) m := by
    have hset : Winds s (setHeld n 0 0 s) m := by
      by_cases hm : m = n
      · subst hm
        exact .of_same (by rw [port_setHeld]) (by rw [port_setHeld])
      · exact .of_same (by rw [port_setHeld_ne 0 0 s hm]) (by rw [port_setHeld_ne 0 0 s hm])
    generalize setHeld n 0 0 s = u at *
    rw [journal_eq]
    exact hset.trans (.of_same rfl rfl)
  unfold opRelease
  generalize journal n 2 1 _ = u at *
  exact hjournal.trans (winds_ledgerAct u)

theorem winds_finishContract (n : Port) (s : State) : Winds s (finishContract n s) m := by
  have hended := winds_endContract (m := m) n s
  unfold finishContract
  dsimp only
  generalize endContract n s = u at *
  split
  · exact hended.trans (winds_opRelease n u)
  · exact hended

end

/-! ## A fold that brings something about -/

/-- What one of the steps brings about and every step keeps, under an invariant of the steps. -/
theorem foldl_brings {α : Type} {f : State → α → State} {I P : State → Prop} (hI : ∀ t y, I t → I (f t y))
    (hkeep : ∀ t y, I t → P t → P (f t y)) {x : α} (hx : ∀ t, I t → P (f t x)) {l : List α} (hmem : x ∈ l) {s : State} (hs : I s) :
    P (l.foldl f s) := by
  obtain ⟨a, b, rfl⟩ := List.append_of_mem hmem
  rw [List.foldl_append, List.foldl_cons]
  have ha : I (a.foldl f s) := List.foldlRecOn a f hs fun t ht y _ => hI t y ht
  exact (List.foldlRecOn (motive := fun t => I t ∧ P t) b f ⟨hI _ x ha, hx _ ha⟩ fun t ht y _ =>
    ⟨hI t y ht.1, hkeep t y ht.1 ht.2⟩).2

/-! ## The core that restarts (R243, R270) -/

/-- The core of a restart: as after reset, with what earlier instructions began and its bank, record and images. -/
def restartedCore (c : Core) (s : State) : State :=
  loadSegs c (s.updCore c fun k =>
    { CoreSt.reset k.wdctl with
      far := k.far.filter fun x => x.kind.stores
      msgOp := k.msgOp, ledServe := k.ledServe, ledTokw := k.ledTokw
      run := .run, startCc := s.cc, wdStart := s.cc, trapRec := k.trapRec, trapArg := k.trapArg, bank := k.bank
      verified := k.verified, ripeVerified := k.ripeVerified, ripeMeta := k.ripeMeta, greenMeta := k.greenMeta })

/-- A port of an engine that restarts: its run-time limits end and the force-off of the trap is lifted. -/
def enginePortRestarted (n : Port) (s : State) : State :=
  resumeOffTime n (liftForce [.leTrap] n (s.updSt n fun x => { x with dmaxRun := 0, dmaxPend := none }))

/-- A port of a policy core that restarts: the force-off of the trap is lifted and its contract ends. -/
def policyPortRestarted (n : Port) (s : State) : State := dropContract n (liftForce [.pcTrap] n s)

theorem restartCore_le {c : Core} (h : isLe c = true) (s : State) : restartCore c s =
    ([0, 1, 2, 3] : List (Fin 4)).foldl (fun t k => enginePortRestarted (lePort c k) t) (restartedCore c s) := if_pos h

theorem restartCore_pc {c : Core} (h : isLe c = false) (s : State) : restartCore c s =
    allPorts.foldl (fun t n => if pcOf n = c then policyPortRestarted n t else t) (restartedCore c s) := if_neg (by simp [h])

theorem restartedCore_port (c : Core) (s : State) (n : Port) : (restartedCore c s).port n = s.port n := rfl

theorem moves_restartedCore {l : List Area} {c : Core} (h : Area.core c ∈ l) (s : State) : Moves l s (restartedCore c s) := by
  unfold restartedCore loadSegs
  exact (moves_updCore (.inl h) _).2 ((moves_updCore (.inl h) _).2 (.refl l s))

/-- A state whose core c is the restarted one but for its wait sources, and whose ports are as R270 asks, is a restart. -/
theorem restarts_of {s u : State} {c : Core} (hcore : (u.core c).quiet = ((restartedCore c s).core c).quiet)
    (hengine : ∀ n, c = leOf n → .leTrap ∉ (u.port n).st.force ∧ (u.port n).st.dmaxRun = 0)
    (hlift : ∀ n, c = pcOf n → .pcTrap ∉ (u.port n).st.force)
    (hdrop : ∀ n, c = pcOf n → s.isFeed n = false → (s.port n).ct.state ≠ .legacy → (u.port n).ct.state = .none) :
    restarts s u c := by
  unfold restartedCore loadSegs at hcore
  rw [State.core_updCore_same, State.core_updCore_same] at hcore
  exact ⟨(congrArg CoreSt.run hcore :), (congrArg CoreSt.pc hcore :), (congrArg CoreSt.guards hcore :), (congrArg CoreSt.locals hcore :),
    (congrArg CoreSt.acc hcore :), (congrArg CoreSt.stack hcore :), (congrArg CoreSt.loops hcore :), (congrArg CoreSt.jump hcore :),
    (congrArg CoreSt.inflight hcore :), (congrArg CoreSt.bank hcore :), (congrArg CoreSt.trapRec hcore :),
    (congrArg CoreSt.trapArg hcore :), (congrArg CoreSt.startCc hcore :), hengine, (congrArg CoreSt.far hcore :),
    (congrArg CoreSt.msgOp hcore :), hlift, hdrop⟩

theorem restarts_flush {s u : State} {c : Core} (h : restarts s u c) : restarts s u.flush c := by
  unfold restarts at h ⊢
  simp only [State.core_flush, State.port_flush]
  exact h

/-! ## The ports of an engine (R270, R312) -/

theorem enginePortRestarted_eq {s : State} {n : Port} (h : (s.port n).pw.offElapsed = false) : enginePortRestarted n s =
    s.updSt n fun x => { x with dmaxRun := 0, dmaxPend := none, force := x.force.filter fun y => !List.contains [.leTrap] y } := by
  unfold enginePortRestarted resumeOffTime
  rw [if_neg (by simp [liftForce, h])]
  exact updSt_updSt s n _ _

theorem mem_enginePorts : ∀ (c : Core) (n : Port), c = leOf n → isLe c = true ∧ ∃ k : Fin 4, lePort c k = n := by decide

theorem mem_fours : ∀ k : Fin 4, k ∈ ([0, 1, 2, 3] : List (Fin 4)) := by decide

theorem leOf_lePort : ∀ (c : Core) (k : Fin 4), isLe c = true → leOf (lePort c k) = c := by decide

theorem not_isLe_pcOf (n : Port) : isLe (pcOf n) = false := by
  unfold pcOf
  split <;> rfl

section
variable {s : State} {c : Core} (hle : isLe c = true) (hfree : ∀ n, (s.port n).pw.offElapsed = false)
include hle hfree

/-- The restart of an engine in the words of the statement. -/
theorem restarts_engine : restarts s (restartCore c s) c ∧ (restartCore c s).evq = s.evq
    ∧ ∀ {l : List Area}, Area.core c ∈ l → (∀ n, c = leOf n → Area.port n ∈ l) → Moves l s (restartCore c s) := by
  rw [restartCore_le hle]
  let I (t : State) : Prop := ∀ n, (t.port n).pw.offElapsed = false
  have hI (t : State) (k : Fin 4) (ht : I t) : I (enginePortRestarted (lePort c k) t) := by
    intro n
    rw [enginePortRestarted_eq (ht _), State.port_updSt_pw]
    exact ht n
  have hstart : I (restartedCore c s) := hfree
  let f (t : State) (k : Fin 4) : State := enginePortRestarted (lePort c k) t
  have hkept : I (([0, 1, 2, 3] : List (Fin 4)).foldl f (restartedCore c s))
      ∧ (([0, 1, 2, 3] : List (Fin 4)).foldl f (restartedCore c s)).cores = (restartedCore c s).cores
      ∧ (([0, 1, 2, 3] : List (Fin 4)).foldl f (restartedCore c s)).evq = s.evq := by
    refine List.foldlRecOn (motive := fun t => I t ∧ t.cores = (restartedCore c s).cores ∧ t.evq = s.evq) _ f ⟨hstart, rfl, rfl⟩ ?_
    rintro t ⟨ht, hcores, hevq⟩ k -
    refine ⟨hI t k ht, ?_, ?_⟩ <;> simp only [f, enginePortRestarted_eq (ht _)]
    · exact hcores
    · exact hevq
  obtain ⟨-, hcores, hevq⟩ := hkept
  refine ⟨restarts_of (congrArg CoreSt.quiet (same_cores _ _ hcores c)) (fun n hn => ?ports) (fun n hn => ?_) (fun n hn => ?_), hevq,
    fun hcore hports => ?moves⟩
  case ports =>
    obtain ⟨-, k, hk⟩ := mem_enginePorts c n hn
    refine foldl_brings (P := fun t => .leTrap ∉ (t.port n).st.force ∧ (t.port n).st.dmaxRun = 0) hI ?_ (x := k) ?_ (mem_fours k) hstart
    · rintro t j ht ⟨hforce, hdmax⟩
      rw [enginePortRestarted_eq (ht _)]
      by_cases hj : n = lePort c j
      · subst hj
        simp
      · simp [hj, hforce, hdmax]
    · intro t ht
      rw [enginePortRestarted_eq (ht _), hk]
      simp
  case moves =>
    have hsteps := List.foldlRecOn (motive := fun t => I t ∧ Moves _ s t) ([0, 1, 2, 3] : List (Fin 4)) f
      ⟨hstart, moves_restartedCore hcore s⟩ fun t ht k _ => ⟨hI t k ht.1, by
        simp only [f, enginePortRestarted_eq (ht.1 _)]
        exact (moves_updSt (.inl (hports _ (leOf_lePort c k hle).symm)) _).2 ht.2⟩
    exact hsteps.2
  all_goals
    rw [hn, not_isLe_pcOf] at hle
    exact absurd hle (by decide)

end

/-! ## The ports of a policy core (R270) -/

theorem isFeed_of_fd {s u : State} (h : u.fd = s.fd) (n : Port) : u.isFeed n = s.isFeed n := by
  unfold State.isFeed
  rw [h]

theorem dropContract_fd (n : Port) (s : State) : (dropContract n s).fd = s.fd := by
  unfold dropContract
  dsimp only
  split
  · rfl
  · simp

theorem dropContract_quiet (n : Port) (s : State) : (dropContract n s).cores.map CoreSt.quiet = s.cores.map CoreSt.quiet := by
  unfold dropContract
  dsimp only
  split
  · rfl
  · simp

theorem winds_dropContract (n m : Port) (s : State) : Winds s (dropContract n s) m := by
  unfold dropContract
  dsimp only
  split
  · exact .refl s m
  · exact winds_finishContract n s

theorem winds_liftForce (xs : List ForceSource) (n m : Port) (s : State) : Winds s (liftForce xs n s) m := by
  by_cases hm : m = n
  · subst hm
    refine ⟨.inl (by rw [liftForce, port_updSt]), fun x hx => .inl ?_⟩
    rw [liftForce, port_updSt] at hx
    exact (List.mem_filter.1 hx).1
  · exact .of_same (by rw [liftForce, State.port_updSt_ne _ _ _ _ hm]) (by rw [liftForce, State.port_updSt_ne _ _ _ _ hm])

/-- A port that is no feed and does not keep KU's legacy limits is left without a contract. -/
theorem uncontracted_policyPort {s : State} {n : Port} (hf : s.isFeed n = false) (hl : (s.port n).ct.state ≠ .legacy) :
    (policyPortRestarted n s).uncontracted n := by
  have hf' : (liftForce [.pcTrap] n s).isFeed n = false := hf
  have hct : ((liftForce [.pcTrap] n s).port n).ct = (s.port n).ct := by rw [liftForce, port_updSt]
  unfold policyPortRestarted dropContract
  dsimp only
  rw [hct, hf']
  split
  · next h =>
    have hnone : (s.port n).ct.state = .none := by simpa [hl] using h
    rw [State.uncontracted, hct]
    exact hnone
  · exact uncontracted_finishContract n _

theorem force_policyPort (s : State) (n : Port) : .pcTrap ∉ ((policyPortRestarted n s).port n).st.force := by
  have hlift : .pcTrap ∉ ((liftForce [.pcTrap] n s).port n).st.force := by
    rw [liftForce, port_updSt]
    simp
  intro hmem
  rcases (winds_dropContract n n _).force _ hmem with h | h
  · exact hlift h
  · exact absurd h (by decide)

/-- A port that is a feed, or under no contract but KU's legacy limits, keeps what it has. -/
theorem policyPortRestarted_bare {s : State} {n : Port}
    (h : s.isFeed n = true ∨ (s.port n).ct.state = .none ∨ (s.port n).ct.state = .legacy) :
    policyPortRestarted n s = liftForce [.pcTrap] n s := by
  have hf : (liftForce [.pcTrap] n s).isFeed n = s.isFeed n := rfl
  have hct : ((liftForce [.pcTrap] n s).port n).ct = (s.port n).ct := by rw [liftForce, port_updSt]
  unfold policyPortRestarted dropContract
  dsimp only
  rw [hct, hf]
  exact if_pos h

section
variable {s : State} {c : Core} (hpc : isLe c = false)
include hpc

/-- The restart of a policy core in the words of the statement. -/
theorem restarts_policy : restarts s (restartCore c s) c := by
  rw [restartCore_pc hpc]
  let f (t : State) (n : Port) : State := if pcOf n = c then policyPortRestarted n t else t
  have hwinds (t : State) (y m : Port) : Winds t (f t y) m := by
    simp only [f]
    split
    · exact (winds_liftForce _ y m t).trans (winds_dropContract y m _)
    · exact .refl t m
  have hquiet : (allPorts.foldl f (restartedCore c s)).cores.map CoreSt.quiet = (restartedCore c s).cores.map CoreSt.quiet :=
    foldl_get (fun t : State => t.cores.map CoreSt.quiet) f (fun t n => by
      simp only [f]
      split
      · exact dropContract_quiet n _
      · rfl) _ _
  have hfeed (t : State) (y : Port) : (f t y).fd = t.fd := by
    simp only [f]
    split
    · exact dropContract_fd y _
    · rfl
  refine restarts_of (quiet_core _ _ hquiet c) (fun n hn => ?engine) (fun n hn => ?lift) (fun n hn hf hl => ?drop)
  case engine =>
    rw [hn] at hpc
    exact absurd hpc (by simp [(mem_enginePorts (leOf n) n rfl).1])
  case lift =>
    refine foldl_brings (I := fun _ => True) (P := fun t => .pcTrap ∉ (t.port n).st.force) (fun _ _ _ => trivial)
      (fun t y _ ht hmem => ?_) (x := n) (fun t _ => ?_) (mem_allPorts n) trivial
    · rcases (hwinds t y n).force _ hmem with h | h
      · exact ht h
      · exact absurd h (by decide)
    · simp only [hn, if_true]
      exact force_policyPort t n
  case drop =>
    refine foldl_brings (I := fun t => t.fd = s.fd ∧ (t.port n).ct.state ≠ .legacy) (P := fun t => t.uncontracted n)
      (fun t y ht => ⟨(hfeed t y).trans ht.1, fun h => ?_⟩) (fun t y _ ht => (hwinds t y n).uncontracted ht) (x := n)
      (fun t ht => ?_) (mem_allPorts n) ⟨rfl, hl⟩
    · rcases (hwinds t y n).ct with hk | hk
      · exact ht.2 (hk ▸ h)
      · exact absurd (hk.symm.trans h) (by decide)
    · simp only [f, hn, if_true]
      exact uncontracted_policyPort ((isFeed_of_fd ht.1 n).trans hf) ht.2

/-- A policy core whose ports are feeds or bare touches them only to lift the force-off of its trap. -/
theorem restartCore_bare (hbare : ∀ n, c = pcOf n → s.isFeed n = true ∨ (s.port n).ct.state = .none ∨ (s.port n).ct.state = .legacy) :
    (restartCore c s).evq = s.evq
      ∧ ∀ {l : List Area}, Area.core c ∈ l → (∀ n, c = pcOf n → Area.port n ∈ l) → Moves l s (restartCore c s) := by
  rw [restartCore_pc hpc]
  let f (t : State) (n : Port) : State := if pcOf n = c then policyPortRestarted n t else t
  let I (t : State) : Prop := ∀ n, c = pcOf n → t.isFeed n = true ∨ (t.port n).ct.state = .none ∨ (t.port n).ct.state = .legacy
  have hstep (t : State) (ht : I t) (n : Port) : f t n = t ∨ (c = pcOf n ∧ f t n = liftForce [.pcTrap] n t) := by
    by_cases hn : pcOf n = c
    · exact .inr ⟨hn.symm, (if_pos hn).trans (policyPortRestarted_bare (ht n hn.symm))⟩
    · exact .inl (if_neg hn)
  have hI (t : State) (n : Port) (ht : I t) : I (f t n) := by
    rcases hstep t ht n with h | ⟨-, h⟩
    · rwa [h]
    · rw [h]
      intro m hm
      have hct : ((liftForce [.pcTrap] n t).port m).ct = (t.port m).ct := by rw [liftForce]; simp
      rw [hct]
      exact ht m hm
  constructor
  · have hkept := List.foldlRecOn (motive := fun t => I t ∧ t.evq = s.evq) allPorts f (b := restartedCore c s) ⟨hbare, rfl⟩ fun t ht n _ =>
      ⟨hI t n ht.1, by
        rcases hstep t ht.1 n with h | ⟨-, h⟩ <;> rw [h]
        · exact ht.2
        · exact ht.2⟩
    exact hkept.2
  · intro l hcore hports
    have hkept := List.foldlRecOn (motive := fun t => I t ∧ Moves l s t) allPorts f (b := restartedCore c s)
      ⟨hbare, moves_restartedCore hcore s⟩ fun t ht n _ => ⟨hI t n ht.1, by
        rcases hstep t ht.1 n with h | ⟨hn, h⟩ <;> rw [h]
        · exact ht.2
        · exact (moves_updSt (.inl (hports n hn)) _).2 ht.2⟩
    exact hkept.2

end

end Sys2Proof.Machine
end

section
/-! O58: restarts and watchdogs (R263 to R270), with what a trap of a core leaves on a hub whose ports are bare. -/

namespace Sys2Proof.Machine

/-! ## The trap record (R273) -/

theorem fld_or (a b : Word) (hi lo : Nat) : fld (a ||| b) hi lo = fld a hi lo ||| fld b hi lo := by
  unfold fld
  rw [BitVec.toNat_or, Nat.shiftRight_or_distrib, Nat.or_mod_two_pow]

theorem fld_place (v p hi lo : Nat) : fld (place v p) hi lo = v * 2 ^ p % 2 ^ 32 / 2 ^ lo % 2 ^ (hi - lo + 1) := by
  unfold fld place
  rw [BitVec.toNat_ofNat, Nat.shiftLeft_eq, Nat.shiftRight_eq_div_pow]

/-- A number placed below a field does not show in it. -/
theorem fld_place_below {v p k hi lo : Nat} (hv : v < 2 ^ k) (h : p + k ≤ lo) : fld (place v p) hi lo = 0 := by
  have hlt : v * 2 ^ p < 2 ^ lo := by
    calc v * 2 ^ p < 2 ^ k * 2 ^ p := Nat.mul_lt_mul_of_pos_right hv (by positivity)
      _ = 2 ^ (p + k) := by rw [← pow_add, Nat.add_comm]
      _ ≤ 2 ^ lo := Nat.pow_le_pow_right (by decide) h
  rw [fld_place, Nat.div_eq_of_lt (lt_of_le_of_lt (Nat.mod_le _ _) hlt), Nat.zero_mod]

/-- A number placed above a field does not show in it. -/
theorem fld_place_above {v p hi lo : Nat} (hle : lo ≤ hi) (h : hi < p) (hp : p ≤ 32) : fld (place v p) hi lo = 0 := by
  have hdvd : 2 ^ (lo + (hi - lo + 1)) ∣ v * 2 ^ p % 2 ^ 32 :=
    (Nat.dvd_mod_iff (pow_dvd_pow 2 (by omega))).2 (Dvd.dvd.mul_left (pow_dvd_pow 2 (by omega)) v)
  obtain ⟨y, hy⟩ := hdvd
  rw [fld_place, hy, pow_add, Nat.mul_assoc, Nat.mul_div_cancel_left _ (by positivity), Nat.mul_mod_right]

/-- A number placed in a field shows there. -/
theorem fld_place_at {v p k : Nat} (hv : v < 2 ^ (k + 1)) (hp : p + k < 32) : fld (place v p) (p + k) p = v := by
  have hlt : v * 2 ^ p < 2 ^ 32 := by
    calc v * 2 ^ p < 2 ^ (k + 1) * 2 ^ p := Nat.mul_lt_mul_of_pos_right hv (by positivity)
      _ = 2 ^ (p + (k + 1)) := by rw [← pow_add, Nat.add_comm]
      _ ≤ 2 ^ 32 := Nat.pow_le_pow_right (by decide) (by omega)
  rw [fld_place, Nat.mod_eq_of_lt hlt, Nat.mul_div_cancel _ (by positivity), Nat.add_sub_cancel_left, Nat.mod_eq_of_lt hv]

theorem placeB_eq (b : Bool) (p : Nat) : placeB b p = place (b2n b) p := by
  cases b <;> simp [placeB, place, b2n]

section
variable {t : TrapInfo} (hcause : t.cause < 16) (hsub : t.sub < 16) (hslot : t.slot < 4) (bank waiting : Bool) (index : Nat)
include hcause hsub hslot

/-- The record of a trap holds its cause, its sub-code and the index. -/
theorem fld_trapWord : fld (trapWord t bank waiting index) 31 28 = t.cause ∧ fld (trapWord t bank waiting index) 27 24 = t.sub
    ∧ fld (trapWord t bank waiting index) 11 0 = index % 4096 := by
  have hb (b : Bool) : b2n b < 2 := by cases b <;> decide
  have hm := hb t.multi
  have hk := hb bank
  have hw := hb waiting
  have hi : index % 4096 < 4096 := Nat.mod_lt index (by decide)
  unfold trapWord
  simp only [fld_or, placeB_eq]
  refine ⟨?_, ?_, ?_⟩
  · rw [fld_place_at (p := 28) (k := 3) hcause (by decide), fld_place_below (k := 4) hsub (by decide),
      fld_place_below (k := 1) hm (by decide), fld_place_below (k := 2) hslot (by decide), fld_place_below (k := 1) hk (by decide),
      fld_place_below (k := 1) hw (by decide), fld_place_below (k := 12) hi (by decide)]
    simp
  · rw [fld_place_above (v := t.cause) (by decide) (by decide) (by decide), fld_place_at (p := 24) (k := 3) hsub (by decide),
      fld_place_below (k := 1) hm (by decide), fld_place_below (k := 2) hslot (by decide), fld_place_below (k := 1) hk (by decide),
      fld_place_below (k := 1) hw (by decide), fld_place_below (k := 12) hi (by decide)]
    simp
  · rw [fld_place_above (v := t.cause) (by decide) (by decide) (by decide), fld_place_above (v := t.sub) (by decide) (by decide) (by decide),
      fld_place_above (p := 23) (by decide) (by decide) (by decide), fld_place_above (v := t.slot) (by decide) (by decide) (by decide),
      fld_place_above (p := 13) (by decide) (by decide) (by decide), fld_place_above (p := 12) (by decide) (by decide) (by decide),
      fld_place_at (v := index % 4096) (p := 0) (k := 11) hi (by decide)]
    simp

end

/-! ## The ports of a core that traps (R268, R403) -/

/-- A port turned off: its stage forced off, its switch opened. -/
def portHalted (x : ForceSource) (n : Port) (s : State) : State := openSwitch .off n (forceOff x n s)

/-- Port m shows no power-good and holds no contract. -/
def State.portBare (s : State) (m : Port) : Prop := (s.port m).ct.state = .none ∧ (s.port m).pw.pg = false

section
variable (x : ForceSource) (n m : Port) {s : State}

theorem pg_promoteWaiting (s : State) : ((promoteWaiting s).port m).pw.pg = (s.port m).pw.pg := by
  unfold promoteWaiting
  refine foldl_get (fun t : State => (t.port m).pw.pg) _ (fun t k => ?_) _ s
  split
  · by_cases hm : m = k
    · subst hm; simp
    · simp [hm]
  · rfl

theorem evq_promoteWaiting (s : State) : (promoteWaiting s).evq = s.evq :=
  foldl_get State.evq _ (fun t k => by split <;> rfl) _ s

/-- A switch that opens without power-good fires nothing. -/
theorem evq_openSwitch_low (next : SwState) (h : (s.port n).pw.pg = false) : (openSwitch next n s).evq = s.evq := by
  unfold openSwitch
  dsimp only
  split
  · rw [evq_promoteWaiting, dropPg_of_low (by simp [h])]
    rfl
  · rfl

theorem pg_openSwitch (next : SwState) (h : (s.port m).pw.pg = false) : ((openSwitch next n s).port m).pw.pg = false := by
  unfold openSwitch
  dsimp only
  split
  · rw [pg_promoteWaiting]
    unfold dropPg
    by_cases hm : m = n
    · subst hm
      split <;> simp [h]
    · split <;> simp [hm, h]
  · exact h

theorem portBare_halted (h : s.portBare m) : (portHalted x n s).portBare m := by
  obtain ⟨hct, hpg⟩ := h
  unfold portHalted
  exact ⟨by rw [ct_openSwitch, ct_forceOff]; exact hct, pg_openSwitch n m .off (by rw [pw_forceOff]; exact hpg)⟩

theorem evq_halted (h : s.portBare n) : (portHalted x n s).evq = s.evq := by
  unfold portHalted
  rw [evq_openSwitch_low n .off (by rw [pw_forceOff]; exact h.2), forceOff_evq]

theorem offBy_halted : (portHalted x n s).offBy x n := by
  have h := offBy_forceOff_self x n s
  unfold portHalted
  exact (offBy_of_st (st_openSwitch .off n n _)).mpr h

theorem offBy_halted_of (y : ForceSource) (h : s.offBy y m) : (portHalted x n s).offBy y m := by
  unfold portHalted
  exact (offBy_of_st (st_openSwitch .off n m _)).mpr (offBy_forceOff x n h)

theorem fd_halted (s : State) : (portHalted x n s).fd = s.fd := by simp [portHalted]

theorem stone_halted (s : State) : (portHalted x n s).stone = s.stone := by simp [portHalted]

theorem quiet_halted (s : State) : (portHalted x n s).cores.map CoreSt.quiet = s.cores.map CoreSt.quiet := by simp [portHalted]

/-- What the PHY of a port queues, and whether it is on. -/
def PortSt.sends (p : PortSt) : List PhyFrame × Bool := (p.ln.own, p.phyOn)

theorem sends_promoteWaiting (s : State) : ((promoteWaiting s).port m).sends = (s.port m).sends := by
  unfold promoteWaiting
  refine foldl_get (fun t : State => (t.port m).sends) _ (fun t k => ?_) _ s
  split
  · by_cases hm : m = k
    · subst hm; rw [State.updPw, State.port_updPort_same]; rfl
    · rw [State.port_updPw_ne _ _ _ _ hm]
  · rfl

theorem sends_openSwitch (next : SwState) (s : State) : ((openSwitch next n s).port m).sends = (s.port m).sends := by
  have hpw (f : PowerSt → PowerSt) (t : State) : ((t.updPw n f).port m).sends = (t.port m).sends := by
    by_cases hm : m = n
    · subst hm; rw [State.updPw, State.port_updPort_same]; rfl
    · rw [State.port_updPw_ne _ _ _ _ hm]
  have hdrop (t : State) : ((dropPg n t).port m).sends = (t.port m).sends := by
    unfold dropPg
    split
    · rw [State.port_firePort, hpw]
    · rfl
  unfold openSwitch
  dsimp only
  split
  · rw [sends_promoteWaiting, hdrop, hpw]
  · rfl

theorem sends_forceOff (s : State) : ((forceOff x n s).port m).sends = (s.port m).sends := by
  unfold forceOff forcedClose closeWindow
  dsimp only
  by_cases hm : m = n
  · subst hm
    split
    · split <;> simp [PortSt.sends, PortSt.phyOn]
    · simp [PortSt.sends, PortSt.phyOn]
  · split
    · split <;> simp [hm]
    · simp [hm]

theorem sends_halted (s : State) : ((portHalted x n s).port m).sends = (s.port m).sends := by
  unfold portHalted
  rw [sends_openSwitch, sends_forceOff]

/-- BYE from a port under no contract: queued where the PHY is on, and nothing else. -/
theorem sendBye_bare (code : Nat) (dflt : Bool) (h : s.portBare n) : sendBye n code dflt s = if (s.port n).phyOn = true then
    s.updLn n fun l => { l with own := l.own ++ [{ ctx := 0, type := 0x10, objs := [refObj 0 0 code (b2n dflt)] }] } else s := by
  unfold sendBye
  dsimp only
  split
  · rfl
  · exact if_pos (.inr (.inl h.1))

end

/-! ## A hub whose ports are bare -/

/-- No feed is selected, and no port shows power-good or holds a contract. -/
structure HubBare (s : State) : Prop where
  feed : s.fd.feed = .none
  ports : ∀ m, s.portBare m

section
variable {s t : State}

theorem HubBare.isFeed (h : HubBare s) (n : Port) : s.isFeed n = false := by simp [State.isFeed, h.feed, Feed.port]

theorem HubBare.halted (h : HubBare s) (x : ForceSource) (n : Port) : HubBare (portHalted x n s) :=
  ⟨by rw [fd_halted]; exact h.feed, fun m => portBare_halted x n m (h.ports m)⟩

theorem HubBare.bye (h : HubBare s) (n : Port) (code : Nat) (dflt : Bool) : HubBare (sendBye n code dflt s) := by
  rw [sendBye_bare n code dflt (h.ports n)]
  split
  · refine ⟨h.feed, fun m => ?_⟩
    have := h.ports m
    exact ⟨by simpa using this.1, by simpa using this.2⟩
  · exact h

theorem leTrapPort_bare (h : HubBare s) (n : Port) : leTrapPort n s =
    if s.has n = true then sendBye n 0x13 false (portHalted .leTrap n s) else s := by
  unfold leTrapPort
  dsimp only
  rw [h.isFeed n]
  cases s.has n <;> rfl

theorem pcTrapPort_bare (h : HubBare s) (n : Port) : pcTrapPort n s =
    if s.has n = true ∧ n = portB then portHalted .pcTrap n s else s := by
  unfold pcTrapPort
  rw [h.isFeed n, (h.ports n).1]
  cases s.has n
  · rfl
  · by_cases hn : n = portB
    · simp [hn, portHalted]
    · simp [hn]

end

/-! ## What a trap does to a bare hub -/

/-- What one step of a fold changes, the steps before and after it leave. -/
theorem foldl_once {α : Type} {f : State → α → State} {I P Q : State → Prop} (hI : ∀ t y, I t → I (f t y)) {x : α}
    (hbefore : ∀ t y, I t → y ≠ x → P t → P (f t y)) (hx : ∀ t, I t → P t → Q (f t x))
    (hafter : ∀ t y, I t → y ≠ x → Q t → Q (f t y)) {l : List α} (hmem : x ∈ l) (hnodup : l.Nodup) {s : State} (hs : I s) (hp : P s) :
    Q (l.foldl f s) := by
  obtain ⟨a, b, rfl⟩ := List.append_of_mem hmem
  rw [List.nodup_middle, List.nodup_cons, List.mem_append, not_or] at hnodup
  obtain ⟨⟨hxa, hxb⟩, -⟩ := hnodup
  have ha : I (a.foldl f s) ∧ P (a.foldl f s) := List.foldlRecOn (motive := fun t => I t ∧ P t) a f ⟨hs, hp⟩ fun t ht y hy =>
    ⟨hI t y ht.1, hbefore t y ht.1 (fun h => hxa (h ▸ hy)) ht.2⟩
  rw [List.foldl_append, List.foldl_cons]
  exact (List.foldlRecOn (motive := fun t => I t ∧ Q t) b f ⟨hI _ x ha.1, hx _ ha.1 ha.2⟩ fun t ht y hy =>
    ⟨hI t y ht.1, hafter t y ht.1 (fun h => hxb (h ▸ hy)) ht.2⟩).2

/-- A bare hub that has the device and the Stone of another. -/
structure BareLike (s t : State) : Prop where
  bare : HubBare t
  dev : t.dev = s.dev
  stone : t.stone = s.stone
  evq : t.evq = s.evq

section
variable {s t : State}

theorem BareLike.has (h : BareLike s t) (n : Port) : t.has n = s.has n := has_congr h.dev h.stone n

theorem BareLike.leTrap (h : BareLike s t) (n : Port) : BareLike s (leTrapPort n t) := by
  refine ⟨?_, by simpa using h.dev, by simpa using h.stone, ?_⟩ <;> rw [leTrapPort_bare h.bare]
  · split
    · exact (h.bare.halted .leTrap n).bye n _ _
    · exact h.bare
  · split
    · rw [sendBye_bare n _ _ ((h.bare.halted .leTrap n).ports n)]
      split
      · exact (evq_halted .leTrap n (h.bare.ports n)).trans h.evq
      · exact (evq_halted .leTrap n (h.bare.ports n)).trans h.evq
    · exact h.evq

theorem BareLike.pcTrap (h : BareLike s t) (n : Port) : BareLike s (pcTrapPort n t) := by
  refine ⟨?_, by simpa using h.dev, by simpa using h.stone, ?_⟩ <;> rw [pcTrapPort_bare h.bare]
  · split
    · exact h.bare.halted .pcTrap n
    · exact h.bare
  · split
    · exact (evq_halted .pcTrap n (h.bare.ports n)).trans h.evq
    · exact h.evq

theorem offBy_leTrapPort {x : ForceSource} {m : Port} (hb : HubBare t) (n : Port) (h : t.offBy x m) : (leTrapPort n t).offBy x m := by
  rw [leTrapPort_bare hb]
  split
  · exact (offBy_sendBye _ _ _ _ _ _).mpr (offBy_halted_of .leTrap n m x h)
  · exact h

theorem sends_leTrapPort_ne {m n : Port} (hb : HubBare t) (hne : m ≠ n) : ((leTrapPort n t).port m).sends = (t.port m).sends := by
  rw [leTrapPort_bare hb]
  split
  · rw [sendBye_bare n _ _ ((hb.halted .leTrap n).ports n)]
    split
    · rw [State.port_updLn_ne _ _ _ _ hne, sends_halted]
    · rw [sends_halted]
  · rfl

/-- The port of an engine that traps queues BYE TRAP where its PHY is on. -/
theorem own_leTrapPort {n : Port} (hb : HubBare t) (hn : t.has n = true) (hphy : (t.port n).phyOn = true) :
    ((leTrapPort n t).port n).ln.own = (t.port n).ln.own ++ [{ ctx := 0, type := 0x10, objs := [0x00130000] }] := by
  have hsends := sends_halted .leTrap n n t
  have hon : ((portHalted .leTrap n t).port n).phyOn = true := (congrArg Prod.snd hsends).trans hphy
  rw [leTrapPort_bare hb, if_pos hn, sendBye_bare n _ _ ((hb.halted .leTrap n).ports n), if_pos hon, State.port_updLn_same]
  exact congrArg (· ++ [({ ctx := 0, type := 0x10, objs := [0x00130000] } : PhyFrame)]) (congrArg Prod.fst hsends)

theorem moves_leTrapPort (hb : HubBare t) (n : Port) : Moves [.anyPort, .fd, .events] t (leTrapPort n t) := by
  rw [leTrapPort_bare hb]
  split
  · simp [portHalted]
  · exact .refl _ t

theorem moves_pcTrapPort (hb : HubBare t) (n : Port) : Moves [.anyPort, .fd, .events] t (pcTrapPort n t) := by
  rw [pcTrapPort_bare hb]
  split
  · simp [portHalted]
  · exact .refl _ t

end

/-- What the trap of core c does to a bare hub. -/
structure TrapDone (s u : State) (c : Core) : Prop where
  evq : u.evq = s.evq
  quiet : u.cores.map CoreSt.quiet = s.cores.map CoreSt.quiet
  moves : Moves [.anyPort, .fd, .events] s u
  same : u.dev = s.dev ∧ u.host = s.host ∧ u.mem = s.mem
  engine : ∀ n, s.has n = true → c = leOf n → u.offBy .leTrap n
    ∧ ((s.port n).phyOn = true → (u.port n).ln.own = (s.port n).ln.own ++ [{ ctx := 0, type := 0x10, objs := [0x00130000] }])
  supply : c = corePC1 → u.offBy .pcTrap portB

theorem has_portB (s : State) : s.has portB = true := by
  unfold State.has populated
  (repeat' split) <;> rfl

theorem leOf_le3 : ∀ n : Port, leOf n ≠ corePC1 := by decide

section
variable {s : State} (hb : HubBare s)
include hb

theorem trapDone_engine {c : Core} (hle : isLe c = true) :
    TrapDone s (([0, 1, 2, 3] : List (Fin 4)).foldl (fun t k => leTrapPort (lePort c k) t) s) c := by
  have hI (t : State) (k : Fin 4) (ht : BareLike s t) : BareLike s (leTrapPort (lePort c k) t) := ht.leTrap _
  have hstart : BareLike s s := ⟨hb, rfl, rfl, rfl⟩
  have hend := List.foldlRecOn (motive := fun t => BareLike s t ∧ Moves [.anyPort, .fd, .events] s t) ([0, 1, 2, 3] : List (Fin 4))
    (fun t k => leTrapPort (lePort c k) t) ⟨hstart, .refl _ s⟩
    fun t ht k _ => ⟨ht.1.leTrap _, ht.2.trans (moves_leTrapPort ht.1.bare _)⟩
  have hinj : ∀ j k : Fin 4, lePort c j = lePort c k → j = k := by
    intro j k h
    have := congrArg Fin.val h
    simp only [lePort] at this
    exact Fin.ext (by omega)
  refine ⟨hend.1.evq, foldl_get (fun t : State => t.cores.map CoreSt.quiet) _ (fun t k => by simp) _ s, hend.2,
    ⟨hend.1.dev, foldl_get State.host _ (fun t k => by simp) _ s, foldl_get State.mem _ (fun t k => by simp) _ s⟩, fun n hn hc => ?_, ?_⟩
  · obtain ⟨-, k, hk⟩ := mem_enginePorts c n hc
    refine ⟨foldl_brings (P := fun t => t.offBy .leTrap n) hI (fun t j ht h => offBy_leTrapPort ht.bare _ h) (x := k) (fun t ht => ?_)
      (mem_fours k) hstart, fun hphy => ?_⟩
    · rw [hk, leTrapPort_bare ht.bare, if_pos ((ht.has n).trans hn)]
      exact (offBy_sendBye _ _ _ _ _ _).mpr (offBy_halted .leTrap n)
    · refine foldl_once (P := fun t => (t.port n).sends = (s.port n).sends)
        (Q := fun t => (t.port n).ln.own = (s.port n).ln.own ++ [{ ctx := 0, type := 0x10, objs := [0x00130000] }]) hI
        (fun t j ht hj h => ?_) (x := k) (fun t ht h => ?_) (fun t j ht hj h => ?_) (mem_fours k) (by decide) hstart rfl
      · exact (sends_leTrapPort_ne ht.bare fun h => hj (hinj _ _ (hk.trans h).symm)).trans h
      · have hown : (t.port n).ln.own = (s.port n).ln.own := congrArg Prod.fst h
        have hon : (t.port n).phyOn = true := (congrArg Prod.snd h).trans hphy
        rw [hk, own_leTrapPort ht.bare ((ht.has n).trans hn) hon, hown]
      · have hsends := sends_leTrapPort_ne (n := lePort c j) ht.bare fun h => hj (hinj _ _ (hk.trans h).symm)
        exact (congrArg Prod.fst hsends).trans h
  · rintro rfl
    exact absurd hle (by decide)

theorem trapDone_policy {c : Core} (hpc : isLe c = false) :
    TrapDone s (allPorts.foldl (fun t n => if pcOf n = c then pcTrapPort n t else t) s) c := by
  let f (t : State) (n : Port) : State := if pcOf n = c then pcTrapPort n t else t
  have hI (t : State) (n : Port) (ht : BareLike s t) : BareLike s (f t n) := by
    simp only [f]
    split
    · exact ht.pcTrap n
    · exact ht
  have hstart : BareLike s s := ⟨hb, rfl, rfl, rfl⟩
  have hget {β : Type} (g : State → β) (hg : ∀ n t, g (pcTrapPort n t) = g t) : g (allPorts.foldl f s) = g s :=
    foldl_get g f (fun t n => by simp only [f]; split <;> simp [hg]) _ s
  have hend := List.foldlRecOn (motive := fun t => BareLike s t ∧ Moves [.anyPort, .fd, .events] s t) allPorts f ⟨hstart, .refl _ s⟩
    fun t ht n _ => ⟨hI t n ht.1, by
      simp only [f]
      split
      · exact ht.2.trans (moves_pcTrapPort ht.1.bare n)
      · exact ht.2⟩
  refine ⟨hend.1.evq, hget (fun t => t.cores.map CoreSt.quiet) (by simp), hend.2, ⟨hend.1.dev, hget State.host (by simp), hget State.mem (by simp)⟩,
    fun n hn hc => ?_, fun hc => ?_⟩
  · rw [hc] at hpc
    exact absurd hpc (by simp [(mem_enginePorts (leOf n) n rfl).1])
  · refine foldl_brings (P := fun t => t.offBy .pcTrap portB) hI (fun t n ht h => ?_) (x := portB) (fun t ht => ?_) (mem_allPorts portB) hstart
    · simp only [f]
      split
      · rw [pcTrapPort_bare ht.bare]
        split
        · exact offBy_halted_of .pcTrap n portB .pcTrap h
        · exact h
      · exact h
    · have hcore : pcOf portB = c := by rw [hc]; rfl
      simp only [f, if_pos hcore]
      rw [pcTrapPort_bare ht.bare, if_pos ⟨has_portB t, rfl⟩]
      exact offBy_halted .pcTrap portB

theorem trapDone (c : Core) : TrapDone s (trapEffect c s) c := by
  unfold trapEffect
  by_cases hle : isLe c = true
  · have hdone := trapDone_engine hb hle
    have hfeed : (([0, 1, 2, 3] : List (Fin 4)).foldl (fun t k => leTrapPort (lePort c k) t) s).fd.feed = .none := by
      rw [foldl_get State.fd _ (fun t k => by simp) _ s]
      exact hb.feed
    rw [if_pos hle]
    dsimp only
    generalize ([0, 1, 2, 3] : List (Fin 4)).foldl (fun t k => leTrapPort (lePort c k) t) s = u at *
    split
    · have hclear : leTrapFeed u = { u with fd := { u.fd with prog := false } } := if_pos (.inl hfeed)
      rw [hclear]
      obtain ⟨hevq, hquiet, hmoves, hsame, hengine, hsupply⟩ := hdone
      exact ⟨hevq, hquiet, (moves_fd (by simp) _).2 hmoves, hsame, hengine, hsupply⟩
    · exact hdone
  · rw [if_neg hle]
    exact trapDone_policy hb (by simpa using hle)

end

/-! ## A trap in the words of the statements (R265 to R268, R273) -/

/-- The core that a trap has halted, with its record. -/
def CoreSt.trapped (k : CoreSt) (x : TrapInfo) (cc : Nat) : CoreSt :=
  { k with
    run := .halted, trapRec := trapWord x k.bank (decide (k.run = .wait)) (if decide (k.run = .wait) = true then k.lastPc else k.pc)
    trapArg := x.arg, trapCc := some cc, jump := none }

theorem trapCore_eq {s : State} {c : Core} (hc : c ≠ coreSV) (hr : (s.core c).ripenPend = false) (x : TrapInfo) :
    trapCore c x s = (trapEffect c (s.updCore c fun k => k.trapped x s.cc)).fire (128 + c.val) (16 * x.cause + x.sub) := by
  have hsame : (s.updCore c fun k => { k with
      run := .halted
      trapRec := trapWord x (s.core c).bank (decide ((s.core c).run = .wait))
        (if decide ((s.core c).run = .wait) = true then (s.core c).lastPc else (s.core c).pc)
      trapArg := x.arg, trapCc := some s.cc, jump := none }) = s.updCore c fun k => k.trapped x s.cc := rfl
  unfold trapCore
  dsimp only
  rw [if_neg hc, if_neg hc, hr, if_neg Bool.false_ne_true, hsame]

/-- From s to t core d has trapped: what `traps` says of the state that a command answers. -/
def trapShows (s t : State) (d : Core) (cause sub : Nat) (arg : Word) : Prop :=
  (t.core d).run = .halted ∧ fld (t.core d).trapRec 31 28 = cause ∧ fld (t.core d).trapRec 27 24 = sub
  ∧ fld (t.core d).trapRec 11 0 = (if (s.core d).run = .wait then (s.core d).lastPc else (s.core d).pc) % 4096
  ∧ (t.core d).trapArg = arg
  ∧ logs s t (128 + d.val) (16 * cause + sub)
  ∧ (∀ n, s.has n = true → d = leOf n → (t.port n).st.mode = .off ∧ .leTrap ∈ (t.port n).st.force
      ∧ ((s.port n).phyOn = true → (t.port n).ln.own = (s.port n).ln.own ++ [{ ctx := 0, type := 0x10, objs := [0x00130000] }]))
  ∧ (d = corePC1 → (t.port portB).st.mode = .off ∧ .pcTrap ∈ (t.port portB).st.force)
  ∧ changesOnly [.core d, .anyPort, .fd, .events] s t

/-- A trap of a core other than SV on a bare hub. -/
theorem trapShows_of {s : State} {c : Core} {x : TrapInfo} (hs : s.settled) (hc : c ≠ coreSV) (hcause : x.cause < 16)
    (hsub : x.sub < 16) (hslot : x.slot < 4) (hon : s.eventsOn = true) (hr : (s.core c).ripenPend = false)
    (hfeed : s.fd.feed = .none) (hports : ∀ n, (s.port n).ct.state = .none ∧ (s.port n).pw.pg = false) :
    trapShows s (trapCore c x s).flush c x.cause x.sub x.arg := by
  have hbare : HubBare (s.updCore c fun k => k.trapped x s.cc) := ⟨hfeed, hports⟩
  obtain ⟨hevq, hquiet, hmoves, ⟨hdev, hhost, hmem⟩, hengine, hsupply⟩ := trapDone hbare c
  rw [trapCore_eq hc hr]
  generalize trapEffect c (s.updCore c fun k => k.trapped x s.cc) = u at *
  have hon' : u.eventsOn = true := (eventsOn_congr hdev).trans hon
  have hcore : (((u.fire (128 + c.val) (16 * x.cause + x.sub)).flush.core c).quiet) = ((s.core c).trapped x s.cc).quiet := by
    rw [State.core_flush, quiet_core u _ (fire_quiet u _ _), quiet_core _ u hquiet, State.core_updCore_same]
  have hqueue : (u.fire (128 + c.val) (16 * x.cause + x.sub)).evq = [(128 + c.val, 16 * x.cause + x.sub)] := by
    rw [State.fire_evq _ _ _ hon', hevq]
    exact congrArg (· ++ [(128 + c.val, 16 * x.cause + x.sub)]) hs.2
  have hgood : memGood (u.fire (128 + c.val) (16 * x.cause + x.sub)).mem = true := by
    rw [State.fire_mem, hmem]
    exact hs.1
  have hport (n : Port) : (u.fire (128 + c.val) (16 * x.cause + x.sub)).flush.port n = u.port n := by simp
  obtain ⟨hfcause, hfsub, hfindex⟩ := fld_trapWord hcause hsub hslot (s.core c).bank (decide ((s.core c).run = .wait))
    (if decide ((s.core c).run = .wait) = true then (s.core c).lastPc else (s.core c).pc)
  have hrec : ((u.fire (128 + c.val) (16 * x.cause + x.sub)).flush.core c).trapRec
      = trapWord x (s.core c).bank (decide ((s.core c).run = .wait))
        (if decide ((s.core c).run = .wait) = true then (s.core c).lastPc else (s.core c).pc) := (congrArg CoreSt.trapRec hcore :)
  refine ⟨(congrArg CoreSt.run hcore :), by rw [hrec, hfcause], by rw [hrec, hfsub], ?_, (congrArg CoreSt.trapArg hcore :),
    logs_flush hqueue hgood (by rw [State.fire_host, hhost]; rfl), fun n hn hle => ?_, fun hpc => ?_, ?_⟩
  · rw [hrec, hfindex]
    simp only [decide_eq_true_eq]
  · obtain ⟨⟨hmode, hforce⟩, hown⟩ := hengine n hn hle
    rw [hport]
    exact ⟨hmode, hforce, hown⟩
  · rw [hport]
    exact hsupply hpc
  · have hcore' : Moves [.core c, .anyPort, .fd, .events] s (s.updCore c fun k => k.trapped x s.cc) :=
      (moves_updCore (.inl (by simp)) _).2 (.refl _ s)
    have hwide : Moves [.core c, .anyPort, .fd, .events] (s.updCore c fun k => k.trapped x s.cc) u := by
      exact hmoves.mono (by simp)
    exact ((moves_fire (by simp) _ _).2 (hcore'.trans hwide)).flush (by simp) hs.2 hgood

theorem traps_of {i : Instr} {s : State} {c : Core} {x : TrapInfo} (hs : s.settled) (hc : c ≠ coreSV)
    (hexec : exec i s = done (trapCore c x s)) (hcause : x.cause < 16) (hsub : x.sub < 16) (hslot : x.slot < 4) :
    traps i s c x.cause x.sub x.arg :=
  fun hon hr hfeed hports => answers_of hexec (trapShows_of hs hc hcause hsub hslot hon hr hfeed hports)

/-! ## Restarts and watchdogs (R263, R264, R269, R270) -/

/-- A restart of a core of a hub in which no retry is held up. -/
theorem answers_again {i : Instr} {s : State} {c : Core} (hs : s.settled) (hexec : exec i s = done (restartCore c s))
    (hfree : ∀ n, (s.port n).pw.offElapsed = false) {l : List Area} (hcore : Area.core c ∈ l)
    (hports : ∀ n, c = leOf n ∨ c = pcOf n → Area.port n ∈ l) : answers i s fun t =>
      restarts s t c
      ∧ ((∀ n, c = pcOf n → s.isFeed n = true ∨ (s.port n).ct.state = .none ∨ (s.port n).ct.state = .legacy) → changesOnly l s t) := by
  by_cases hle : isLe c = true
  · obtain ⟨hrestarts, hevq, hmoves⟩ := restarts_engine hle hfree
    exact answers_quiet hexec (hevq.trans hs.2) ⟨hrestarts, fun _ =>
      (hmoves hcore fun n hn => hports n (.inl hn)).changesOnly hs.2 (hevq.trans hs.2)⟩
  · have hpc : isLe c = false := by simpa using hle
    refine answers_of hexec ⟨restarts_flush (restarts_policy hpc), fun hbare => ?_⟩
    obtain ⟨hevq, hmoves⟩ := restartCore_bare hpc hbare
    rw [State.flush_nil _ (hevq.trans hs.2)]
    exact (hmoves hcore fun n hn => hports n (.inr hn)).changesOnly hs.2 (hevq.trans hs.2)

theorem restartRefused_of {s : State} {c : Core}
    (h : (s.core c).run = .wait ∨ (s.core c).run = .reset ∨ ((s.core c).run = .run ∧ (s.core c).startCc ≠ s.cc)) (w : Writer) :
    restartRefused c w s = true := by
  unfold restartRefused
  rcases h with h | h | ⟨h, hcc⟩ <;> simp [*]

/-- A second cause in the cc of a trap (R267). -/
theorem answers_second {i : Instr} {s : State} (hs : s.settled) (d : Core)
    (hexec : exec i s = done (s.updCore d fun k => { k with trapRec := k.trapRec ||| placeB true 23 })) : answers i s fun t =>
      t.core d = { s.core d with trapRec := (s.core d).trapRec ||| 0x00800000 } ∧ changesOnly [.core d] s t :=
  answers_quiet hexec hs.2 ⟨State.core_updCore_same _ _ _, changesOnly_updCore _ _ _ _ (by simp)⟩

/-- Settles O58: restarts by who asks for them, watchdogs by what the core does; SV's expiry is a trap that resets the hub. -/
theorem restartsAndWatchdogs : Obligations.RestartsAndWatchdogs := by
  unfold Obligations.RestartsAndWatchdogs
  intro s c w hs k sv ports free bare again second
  have hports (n : Port) (h : c = leOf n ∨ c = pcOf n) : Area.port n ∈ Area.core c :: ports :=
    List.mem_cons_of_mem _ (List.mem_filterMap.2 ⟨n, mem_allPorts n, if_pos h⟩)
  refine ⟨fun hc hhalt hw hfree => ?restart, fun hc hw => ?otherWriter, fun hc hrun => ?notHalted, fun hc => idles_of hs (if_pos hc),
    fun hpc hhalt htrap hfree => ?auto, fun hno => ?noAuto, fun hc hrun => ?expiry, fun hc hhalt htrap => ?secondCause, fun hno => ?quiet,
    fun hrun => ?svExpiry, fun hrun => ⟨fun ht => ?svSecond, fun ht => ?svQuiet⟩⟩
  case restart =>
    have hok : ¬ restartRefused c w s = true := by simp [restartRefused, hw, show (s.core c).run = .halted from hhalt]
    have hexec : exec (.restart c w) s = done (restartCore c s) :=
      (if_neg hc).trans ((if_neg hok).trans (congrArg done (if_pos hhalt)))
    exact answers_again hs hexec hfree (by simp) hports
  case otherWriter =>
    exact refusesWrite_of hs (by decide) ((if_neg hc).trans (if_pos (by simp [restartRefused, hw])))
  case notHalted => exact refusesWrite_of hs (by decide) ((if_neg hc).trans (if_pos (restartRefused_of hrun w)))
  case auto =>
    have hsome : (s.core c).trapCc.isSome = true := Option.isSome_iff_ne_none.2 htrap
    have hexec : exec (.pcAutoRestart c) s = done (restartCore c s) :=
      if_pos (by simp [hpc, show (s.core c).run = .halted from hhalt, hsome])
    exact answers_again hs hexec hfree (by simp) hports
  case noAuto =>
    refine idles_of hs (if_neg ?_)
    rcases hno with h | h
    · simp [h]
    · simp [show (s.core c).run ≠ .halted from h]
  case expiry =>
    exact traps_of hs hc ((if_neg hc).trans (if_pos hrun)) (x := wdogTrap (s.core c).wdLim) (by simp [wdogTrap]) (by simp [wdogTrap])
      (by simp [wdogTrap])
  case secondCause =>
    have hrun : ¬ ((s.core c).run = .run ∨ (s.core c).run = .wait) := by simp [show (s.core c).run = .halted from hhalt]
    exact answers_second hs c ((if_neg hc).trans ((if_neg hrun).trans (if_pos ⟨hhalt, htrap⟩)))
  case quiet =>
    have hmeans : exec (.watchdogExpiry c) s = execWatchdogExpiry c s := rfl
    refine idles_of hs ?_
    rw [hmeans, execWatchdogExpiry]
    rcases hno with h | h | ⟨h, htrap⟩
    · simp [show (s.core c).run = .reset from h]
    · exact if_pos h
    · simp [show (s.core c).run = .halted from h, show (s.core c).trapCc ≠ some s.cc from htrap]
  case svExpiry =>
    have hexec : exec .svWatchdogExpiry s = done (trapCore coreSV (wdogTrap (s.core coreSV).wdLim) s) := if_pos hrun
    obtain ⟨hmode, hcc, hcause, hclear⟩ := resetWith_leaves 3 hs.1
    obtain ⟨hfld, -, -⟩ := fld_trapWord (t := wdogTrap (s.core coreSV).wdLim) (by simp [wdogTrap]) (by simp [wdogTrap]) (by simp [wdogTrap])
      (s.core coreSV).inRom (decide ((s.core coreSV).run = .wait))
      (if decide ((s.core coreSV).run = .wait) = true then (s.core coreSV).lastPc else (s.core coreSV).pc)
    have htrap : trapCore coreSV (wdogTrap (s.core coreSV).wdLim) s = (resetWith 3 s).updCore coreSV fun k =>
        { k with
          trapRec := trapWord (wdogTrap (s.core coreSV).wdLim) (s.core coreSV).inRom (decide ((s.core coreSV).run = .wait))
            (if decide ((s.core coreSV).run = .wait) = true then (s.core coreSV).lastPc else (s.core coreSV).pc)
          trapArg := (s.core coreSV).wdLim.setWidth 32 } := rfl
    rw [htrap] at hexec
    generalize resetWith 3 s = u at *
    have hcore : u.core coreSV = State.reset.core coreSV := same_cores State.reset u hclear.cores coreSV
    refine answers_quiet hexec hclear.evq ⟨hmode, hcc, hcause, hclear.held, ?_, ?_, hclear.pending⟩
    · rw [State.core_updCore_same]
      exact hfld
    · rw [State.core_updCore_same, hcore]
      rfl
  case svSecond =>
    have hno : ¬ ((s.core coreSV).run = .run ∨ (s.core coreSV).run = .wait) := by
      rcases hrun with h | h <;> simp [show (s.core coreSV).run = _ from h]
    exact answers_second hs coreSV ((if_neg hno).trans (if_pos ht))
  case svQuiet =>
    have hno : ¬ ((s.core coreSV).run = .run ∨ (s.core coreSV).run = .wait) := by
      rcases hrun with h | h <;> simp [show (s.core coreSV).run = _ from h]
    exact idles_of hs ((if_neg hno).trans (if_neg (by simp [ht])))

end Sys2Proof.Machine
end

section
/-! O53: what a whole write of the host does (R504, R510, R511, R513, R524, R525), and what a register write of any writer does
(R307, R511). -/

namespace Sys2Proof.Machine

/-! ## Whole writes (R510) -/

/-- A block write of a register block with the right count is performed outside boot (R506). -/
theorem hostRun_writesBlock {s : State} {c : Byte} {v : Word} (active : Option WakeSource) (hb : isBlockCode c = true)
    (ha : codeAccepted s.hostState c = true) (hboot : s.hostState ≠ .boot) :
    hostRun c (s.writes c true (bytesLE v)) active s = hostPerform c (bytesLE v) active (hostStart s) := by
  have hshape : writeShape c = some .block := if_pos hb
  have hcount : countOk c 4 = true := (if_pos hb).trans rfl
  have hne : c ≠ 0xD1 := by
    rintro rfl
    exact absurd hb (by decide)
  have hnack : writeNack s.hostState c (Xact.wire (s.writes c true (bytesLE v))) = none := by
    rw [wire_writes]
    unfold writeNack
    rw [hshape]
    dsimp only [List.headD_cons]
    rw [if_neg (by simp [hboot]), if_neg (by rw [length_bytesLE]; simp [hcount]), if_neg fun h => hne h.1, if_neg]
    cases s.pecOn <;> simp [length_bytesLE]
  rw [hostRun_written active ha (.inl rfl) (by simp [State.writes]) rfl, ← writeFinish_writes active hshape (by rw [length_bytesLE]; decide)]
  simp only [writeRun, hostStart_hostState, hnack, hshape]
  rfl

/-- A write of one byte is performed. -/
theorem hostRun_writesByte {s : State} {c b : Byte} (active : Option WakeSource) (hshape : writeShape c = some .byte)
    (ha : codeAccepted s.hostState c = true) :
    hostRun c (s.writes c false [b]) active s = hostPerform c [b] active (hostStart s) := by
  have hwire : Xact.wire (s.writes c false [b]) = b :: (if s.pecOn = true then [pecOf [s.addrByte, c, b]] else []) := rfl
  have hnack : writeNack s.hostState c (Xact.wire (s.writes c false [b])) = none := by
    rw [hwire]
    unfold writeNack
    rw [hshape]
    refine if_neg ?_
    cases s.pecOn <;> simp
  have hfinish : writeFinish c (Xact.wire (s.writes c false [b])) active (hostStart s) = hostPerform c [b] active (hostStart s) := by
    rw [hwire]
    cases hp : s.pecOn <;> simp [writeFinish, hshape, hp, pecRight]
  have hne : (s.writes c false [b]).bytes ≠ [] := by simp [State.writes]
  rw [hostRun_writeByte active ha rfl hne (by simp [State.writes]) rfl, ← hfinish]
  simp only [writeRun, hostStart_hostState, hnack, hshape]
  rfl

/-! ## Registers (R307, R511) -/

theorem portRefused_code {s : State} {w : Writer} {n : Port} {off : Nat} {v : Word} {code : BitVec 4}
    (h : portRefused s w n off v = some code) : code = 2 ∨ code = 3 := by
  have hres {b : Bool} (h : (if b = true then some (2 : BitVec 4) else none) = some code) : code = 2 := by
    split at h
    · exact (Option.some.inj h).symm
    · cases h
  unfold portRefused at h
  dsimp only at h
  split at h
  · exact .inl (Option.some.inj h).symm
  · split at h
    · exact .inl (hres h)
    · split at h
      · exact .inr (Option.some.inj h).symm
      · split at h <;> exact .inl (by simp_all)

/-- What refuses a register write is a reserved value or an access, no setup time. -/
theorem placeRefused_ne {s : State} {w : Writer} {p : RegPlace} {v : Word} {code : BitVec 4} (h : placeRefused s w p v = some code) :
    code ≠ 9 := by
  have hcode : code = 2 ∨ code = 3 := by
    unfold placeRefused at h
    split at h
    · exact .inl (by simp_all)
    · exact .inl (by simp_all)
    · exact portRefused_code h
  rcases hcode with rfl | rfl <;> decide

/-- A block of four bytes is one word. -/
theorem wordsLE_bytesLE (v : Word) : wordsLE (bytesLE v) = [v] := by
  have h : wordsLE (bytesLE v) = [BitVec.ofNat 32 (natLE (bytesLE v))] := rfl
  rw [h, natLE_bytesLE, BitVec.ofNat_toNat, BitVec.setWidth_eq]

/-- A block write of one word at a row that begins with a register is a write of that register (R506). -/
theorem blockWrite_word {s : State} {c : Byte} {v : Word} {p : RegPlace} (hp : regPlace (rowAddr s c) = some p) :
    blockWrite c (bytesLE v) s = match placeRefused s .host p v with
      | some code => s.busError c code
      | none => placeWrite p v s := by
  have hplaces : ((wordsLE (bytesLE v)).zipIdx.filterMap fun x => (regPlace (rowAddr s c + 4 * x.2)).map fun q => (q, x.1)) = [(p, v)] := by
    simp [wordsLE_bytesLE, hp]
  unfold blockWrite
  dsimp only
  rw [hplaces, hostRegs]
  cases hr : placeRefused s .host p v <;> simp [hr]

section
variable {s : State} (hs : s.settled)
include hs

/-- A register block written by the host: as the register's rule has it. -/
theorem answers_blockWrite {i : Instr} {c : Byte} {v : Word} (hi : exec i s = done (hostRun c (s.writes c true (bytesLE v)) none s))
    (hb : isBlockCode c = true) (ha : codeAccepted s.hostState c = true) (hboot : s.hostState ≠ .boot) {p : RegPlace}
    (hp : regPlace (rowAddr s c) = some p) :
    (placeRefused ((hostStart s).fireSrc coreSV 0) .host p v = none →
        exec i s = .next (placeWrite p v ((hostStart s).fireSrc coreSV 0)).flush)
    ∧ (∀ code, placeRefused ((hostStart s).fireSrc coreSV 0) .host p v = some code → hostError i s c code [] none) := by
  have heffect : hostEffect c (bytesLE v) none ((hostStart s).fireSrc coreSV 0) = blockWrite c (bytesLE v) ((hostStart s).fireSrc coreSV 0) :=
    if_pos hb
  have hexec := hi.trans (congrArg done ((hostRun_writesBlock none hb ha hboot).trans (heffect.trans (blockWrite_word hp))))
  refine ⟨fun hok => ?_, fun code hno => ?_⟩
  · simp only [hok] at hexec
    exact hexec
  · simp only [hno] at hexec
    exact hostError_of_busError hs hexec (placeRefused_ne hno) rfl rfl rfl (changesOnly_fired_hostStart s (by simp) (by simp))

/-- A register written by a core or the host: refused, or written by its rule. -/
theorem exec_registerWrite {w : Writer} {a v : Word} {p : RegPlace} (hp : regPlace a.toNat = some p) :
    (∀ code, placeRefused s w p v = some code → refusesWrite (.registerWrite w a v) s w code)
    ∧ (placeRefused s w p v = none → exec (.registerWrite w a v) s = .next (placeWrite p v s).flush) := by
  have hexec : exec (.registerWrite w a v) s = done (regStore w a.toNat v s) := rfl
  refine ⟨fun code hno => refusesWrite_of hs (placeRefused_ne hno) ?_, fun hok => ?_⟩ <;> rw [hexec, regStore]
  · simp only [hp, hno]
  · simp only [hp, hok]
    rfl

theorem refusesWrite_unlisted {w : Writer} {a v : Word} (hp : regPlace a.toNat = none) : refusesWrite (.registerWrite w a v) s w 0xA := by
  refine refusesWrite_of hs (by decide) ?_
  have hexec : exec (.registerWrite w a v) s = done (regStore w a.toNat v s) := rfl
  rw [hexec, regStore]
  simp only [hp]

/-- BUSCTL takes what R534 gives it, unless ALERT_N would have no threshold. -/
theorem answers_busctl {w : Writer} {v : Word} (hv : fld v 23 16 ≠ 0) : answers (.registerWrite w 0x40000B0C v) s fun t =>
    t.host = { s.host with busctl := v &&& 0x00FF0007 } ∧ changesOnly [.bus] s t := by
  have hplace : regPlace (0x40000B0C : Word).toNat = some (.global 0xB0C) := by decide
  have hok : placeRefused s w (.global 0xB0C) v = none := by
    have hglobal : globalRefused s w 0xB0C v = false := decide_eq_false hv
    exact if_neg (by simp [hglobal])
  have hexec := (exec_registerWrite hs hplace).2 hok
  have hwrite : placeWrite (.global 0xB0C) v s = { s with host := { s.host with busctl := v &&& 0x00FF0007 } } := rfl
  rw [hwrite] at hexec
  exact answers_quiet hexec hs.2 ⟨rfl, changesOnly_host s _ (by simp)⟩

/-- The error counters of a line clear where ones are written (R12, R125). -/
theorem answers_lineErrors {n : Port} {w : Writer} {a v : Word} (ha : a.toNat = 0x40010110 + 0x1000 * n.val) (hsig : s.signals n = true) :
    answers (.registerWrite w a v) s fun t =>
      (t.port n).ln = { (s.port n).ln with
        crcerr := w1c8 (s.port n).ln.crcerr v 24, drop := w1c8 (s.port n).ln.drop v 16
        rxfull := w1c8 (s.port n).ln.rxfull v 8, notsup := w1c8 (s.port n).ln.notsup v 0 } ∧ changesOnly [.port n] s t := by
  obtain ⟨hhas, hne⟩ : s.has n = true ∧ n ≠ portB := by simpa [State.signals] using hsig
  have hplace : regPlace a.toNat = some (.port n 0x110) := by
    have hall : ∀ m : Port, regPlace (0x40010110 + 0x1000 * m.val) = some (.port m 0x110) := by decide
    rw [ha]
    exact hall n
  have hok : placeRefused s w (.port n 0x110) v = none := by
    show portRefused s w n 0x110 v = none
    unfold portRefused
    dsimp only
    rw [if_neg (by simp [hhas, hne]), if_neg (by decide), if_neg (by decide)]
    rfl
  have hwrite : placeWrite (.port n 0x110) v s = s.updLn n fun l =>
      { l with crcerr := w1c8 l.crcerr v 24, drop := w1c8 l.drop v 16, rxfull := w1c8 l.rxfull v 8, notsup := w1c8 l.notsup v 0 } := rfl
  have hexec := (exec_registerWrite hs hplace).2 hok
  rw [hwrite] at hexec
  refine answers_quiet hexec hs.2 ⟨State.port_updLn_same _ n _, ?_⟩
  exact changesOnly_updPort _ n _ _ (by simp)

end

/-! ## RINGPUSH (R513) -/

section
variable {s : State} {n : Port} (hm : memGood s.mem = true) {img : List Byte} (hl : img.length = 80)
include hm hl

/-- CTL of an image that stands in a ring. -/
theorem entryCtl_image (a : Nat) : entryCtl (s.writeMem a img) a = BitVec.ofNat 16 (natLE (img.take 2)) := by
  have hread := memReadN_memWriteN_part [] (img.take 2) (img.drop 2) s.mem a (of_decide_eq_true hm)
  rw [List.nil_append, List.take_append_drop, List.length_take, hl] at hread
  exact congrArg (fun l => BitVec.ofNat 16 (natLE l)) hread

/-- Any image pushed into the TX ring. -/
theorem pushEntry_image : pushEntry n img s = ((s.writeMem (txSlot s n) img).writeMem (txSlot s n)
    (toBytesLE 2 (ctlPushed (BitVec.ofNat 16 (natLE (img.take 2)))).toNat)).updLn n LineSt.pushed := by
  unfold pushEntry
  dsimp only
  rw [← txSlot, entryCtl_image hm hl]
  rfl

theorem readMem_pushEntry_image : (pushEntry n img s).readMem (txSlot s n) 80
    = toBytesLE 2 (ctlPushed (BitVec.ofNat 16 (natLE (img.take 2)))).toNat ++ img.drop 2 := by
  have hread := readMem_writeMem_head (a := txSlot s n) hm (img.take 2) (toBytesLE 2 (ctlPushed (BitVec.ofNat 16 (natLE (img.take 2)))).toNat)
    (img.drop 2) (by simp [hl]) 80 (by simp [hl])
  rw [pushEntry_image hm hl]
  rwa [List.take_append_drop] at hread

theorem moves_pushEntry_image {l : List Area} {s0 : State} (hn : Area.port n ∈ l)
    (hslot : Area.mem (txSlot s n) (txSlot s n + 80) ∈ l) : Moves l s0 (pushEntry n img s) ↔ Moves l s0 s := by
  have hm1 : memGood (s.writeMem (txSlot s n) img).mem = true := memGood_memWriteN _ _ _ hm
  rw [pushEntry_image hm hl, moves_updLn (.inl hn), moves_writeMem hm1 hslot le_rfl (by rw [length_toBytesLE]; omega),
    moves_writeMem hm hslot le_rfl (by rw [hl])]

end

/-- RINGPUSH by who owns the ring and what room it has. -/
theorem ringPush_tx {s : State} {n : Port} {img : List Byte} : ringPush (BitVec.ofNat 8 (2 * n.val) :: img) s =
    if (s.port n).ln.owner = false then s.busError 0xE0 3
    else if 16 ≤ (s.port n).ln.txCount then s.busError 0xE0 0xB
    else pushEntry n img s := by
  have hr : (BitVec.ofNat 8 (2 * n.val)).toNat = 2 * n.val := by simp; omega
  have hn : (⟨2 * n.val / 2 % 16, by omega⟩ : Port) = n := Fin.ext (by simp only; omega)
  have hown : hostRing s (2 * n.val) = (s.port n).ln.owner := by
    have hn' : (⟨2 * n.val / 2, by omega⟩ : Port) = n := Fin.ext (by simp only; omega)
    unfold hostRing
    rw [dif_pos (by omega)]
    exact congrArg (fun m => (s.port m).ln.owner) hn'
  unfold ringPush
  simp only [List.getD_cons_zero, hr, hn, hown, List.drop_one, List.tail_cons]
  refine if_congr ?_ rfl rfl
  simp

section
variable {s : State} (hs : s.settled) (ha : codeAccepted s.hostState 0xE0 = true) {n : Port} {img : List Byte} (hl : img.length = 80)
include hs ha hl

omit hs in
theorem exec_ringpush : exec (.ringpush (s.writes 0xE0 true (BitVec.ofNat 8 (2 * n.val) :: img))) s
    = done (ringPush (BitVec.ofNat 8 (2 * n.val) :: img) ((hostStart s).fireSrc coreSV 0)) := by
  have hcount : countOk 0xE0 (img.length + 1) = true := by rw [hl]; rfl
  exact congrArg done (hostRun_writes (s := s) (c := 0xE0) (d := BitVec.ofNat 8 (2 * n.val) :: img) none rfl
    (by rw [List.length_cons, hl]; decide) ha rfl hcount)

/-- The host's message lies in a ring it owns, pending. -/
theorem answers_ringpush (ho : (s.port n).ln.owner = true) (hroom : (s.port n).ln.txCount < 16) :
    answers (.ringpush (s.writes 0xE0 true (BitVec.ofNat 8 (2 * n.val) :: img))) s fun t =>
      (t.port n).ln = (s.port n).ln.pushed
      ∧ t.readMem (txSlot s n) 80 = toBytesLE 2 (ctlPushed (BitVec.ofNat 16 (natLE (img.take 2)))).toNat ++ img.drop 2
      ∧ changesOnly [.bus, .sources, .port n, .mem (txSlot s n) (txSlot s n + 80)] s t := by
  have hexec := exec_ringpush ha (n := n) hl
  have hgood : memGood ((hostStart s).fireSrc coreSV 0).mem = true := hs.1
  rw [ringPush_tx, if_neg (show ¬ _ by simpa using ho), if_neg (show ¬ _ by simpa using hroom)] at hexec
  refine answers_quiet hexec ?_ ⟨?_, readMem_pushEntry_image hgood hl, ?_⟩
  · rw [pushEntry_image hgood hl]
    exact hs.2
  · rw [pushEntry_image hgood hl, State.port_updLn_same]
    rfl
  · refine Moves.changesOnly ((moves_pushEntry_image hgood hl (by simp) ?_).2 (moves_fired_hostStart (by simp) (by simp))) hs.2 ?_
    · show Area.mem (txSlot s n) (txSlot s n + 80) ∈ _
      simp
    · rw [pushEntry_image hgood hl]
      exact hs.2

theorem hostError_ringpush_full (ho : (s.port n).ln.owner = true) (hroom : 16 ≤ (s.port n).ln.txCount) :
    hostError (.ringpush (s.writes 0xE0 true (BitVec.ofNat 8 (2 * n.val) :: img))) s 0xE0 0xB [] none := by
  have hexec := exec_ringpush ha (n := n) hl
  rw [ringPush_tx, if_neg (show ¬ _ by simpa using ho), if_pos (by simpa using hroom)] at hexec
  exact hostError_of_busError hs hexec (by decide) rfl rfl rfl (changesOnly_fired_hostStart s (by simp) (by simp))

theorem hostError_ringpush_closed (ho : (s.port n).ln.owner = false) :
    hostError (.ringpush (s.writes 0xE0 true (BitVec.ofNat 8 (2 * n.val) :: img))) s 0xE0 3 [] none := by
  have hexec := exec_ringpush ha (n := n) hl
  rw [ringPush_tx, if_pos (by simpa using ho)] at hexec
  exact hostError_of_busError hs hexec (by decide) rfl rfl rfl (changesOnly_fired_hostStart s (by simp) (by simp))

end

/-! ## PORTSEL, RESET and SLEEP (R504, R524, R525) -/

theorem ripenPend_fireSrc (s : State) (c d : Core) (b : Nat) : ((s.fireSrc c b).core d).ripenPend = (s.core d).ripenPend := by
  by_cases hd : d = c
  · subst hd; simp [State.fireSrc, CoreSt.noteFired]
  · simp [State.fireSrc, hd]

theorem sleepOk_fired (s : State) : ((hostStart s).fireSrc coreSV 0).sleepOk = s.sleepOk := by
  unfold State.sleepOk
  simp only [ripenPend_fireSrc]
  rfl

theorem hostEffect_portsel (b : Byte) (active : Option WakeSource) (s : State) : hostEffect 0x08 [b] active s =
    if fld b 7 4 ≠ 0 then s.busError 0x08 2 else { s with host := { s.host with portsel := b.setWidth 4 } } := by rfl

theorem hostEffect_sleep (b : Byte) (active : Option WakeSource) (s : State) : hostEffect 0xF1 [b] active s =
    if b ≠ 0x5A then s.busError 0xF1 2
    else if (s.sleepOk && !active.any (wakeEnabled s)) = true then { s with dev := { s.dev with sleepDue := true } }
    else s.busError 0xF1 6 := by rfl

theorem hostEffect_reset (b : Byte) (active : Option WakeSource) (s : State) : hostEffect 0xF2 [b] active s =
    if b ≠ 0xA5 then s.busError 0xF2 2 else resetWith 2 s := by rfl

section
variable {s : State} (hs : s.settled) {b : Byte}
include hs

theorem answers_portsel (ha : codeAccepted s.hostState 0x08 = true) (hb : b.toNat < 16) :
    answers (.portsel (s.writes 0x08 false [b])) s fun t =>
      t.host = { s.host with portsel := b.setWidth 4, sent := [], nack := none } ∧ bitOf (t.core coreSV).evtPend 0 = true
        ∧ changesOnly [.bus, .sources] s t := by
  have hlow : fld b 7 4 = 0 := by
    unfold fld
    rw [Nat.shiftRight_eq_div_pow]
    omega
  have heffect : hostEffect 0x08 [b] none ((hostStart s).fireSrc coreSV 0)
      = { (hostStart s).fireSrc coreSV 0 with host := { (hostStart s).host with portsel := b.setWidth 4 } } :=
    (hostEffect_portsel _ _ _).trans (if_neg (not_not.2 hlow))
  have hexec : exec (.portsel (s.writes 0x08 false [b])) s = _ := congrArg done ((hostRun_writesByte none rfl ha).trans heffect)
  exact answers_quiet hexec hs.2 ⟨rfl, evtPend_fireSrc_same _ _ (by decide), Moves.changesOnly ((moves_host (by simp) _).2
    (moves_fired_hostStart (by simp) (by simp))) hs.2 hs.2⟩

/-- A byte the command does not take is a DATA error. -/
theorem hostError_byte {i : Instr} {c : Byte} {code : BitVec 4} (active : Option WakeSource)
    (hi : exec i s = done (hostRun c (s.writes c false [b]) active s)) (hshape : writeShape c = some .byte)
    (ha : codeAccepted s.hostState c = true) (hc : code ≠ 9)
    (heffect : hostEffect c [b] active ((hostStart s).fireSrc coreSV 0) = ((hostStart s).fireSrc coreSV 0).busError c code) :
    hostError i s c code [] none :=
  hostError_of_busError hs (hi.trans (congrArg done ((hostRun_writesByte active hshape ha).trans heffect))) hc rfl rfl rfl
    (changesOnly_fired_hostStart s (by simp) (by simp))

theorem answers_hostReset (ha : codeAccepted s.hostState 0xF2 = true) : answers (.reset (s.writes 0xF2 false [0xA5])) s fun t =>
    t.dev.mode = .booting ∧ t.cc = 0 ∧ t.bt.rcause = 2 ∧ t.cores = State.reset.cores ∧ t.pending = s.pending := by
  have hgood : memGood ((hostStart s).fireSrc coreSV 0).mem = true := hs.1
  have hexec : exec (.reset (s.writes 0xF2 false [0xA5])) s = done (resetWith 2 ((hostStart s).fireSrc coreSV 0)) :=
    congrArg done ((hostRun_writesByte none rfl ha).trans ((hostEffect_reset _ _ _).trans (if_neg (not_not.2 rfl))))
  have hpending : ((hostStart s).fireSrc coreSV 0).pending = s.pending := rfl
  generalize (hostStart s).fireSrc coreSV 0 = u at *
  obtain ⟨hmode, hcc, hcause, hclear⟩ := resetWith_leaves 2 hgood
  exact answers_quiet hexec hclear.evq ⟨hmode, hcc, hcause, hclear.cores, hclear.pending.trans hpending⟩

theorem answers_hostSleep {src : Option WakeSource} (ha : codeAccepted s.hostState 0xF1 = true) (hok : s.sleepOk = true)
    (hsrc : src.any (wakeEnabled s) = false) : answers (.sleep (s.writes 0xF1 false [0x5A]) src) s fun t =>
      t.dev = { s.dev with sleepDue := true } ∧ t.host = { s.host with sent := [], nack := none }
        ∧ changesOnly [.dev, .bus, .sources] s t := by
  have hcond : (((hostStart s).fireSrc coreSV 0).sleepOk && !src.any (wakeEnabled ((hostStart s).fireSrc coreSV 0))) = true := by
    have hsame : wakeEnabled ((hostStart s).fireSrc coreSV 0) = wakeEnabled s := rfl
    rw [sleepOk_fired, hok, hsame, hsrc]
    rfl
  have heffect : hostEffect 0xF1 [0x5A] src ((hostStart s).fireSrc coreSV 0)
      = { (hostStart s).fireSrc coreSV 0 with dev := { s.dev with sleepDue := true } } :=
    (hostEffect_sleep _ _ _).trans ((if_neg (not_not.2 rfl)).trans (if_pos hcond))
  have hexec : exec (.sleep (s.writes 0xF1 false [0x5A]) src) s = _ := congrArg done ((hostRun_writesByte src rfl ha).trans heffect)
  exact answers_quiet hexec hs.2 ⟨rfl, rfl, Moves.changesOnly ((moves_dev (by simp) _).2
    (moves_fired_hostStart (by simp) (by simp))) hs.2 hs.2⟩

theorem hostError_sleep {src : Option WakeSource} (ha : codeAccepted s.hostState 0xF1 = true)
    (hno : s.sleepOk = false ∨ src.any (wakeEnabled s) = true) : hostError (.sleep (s.writes 0xF1 false [0x5A]) src) s 0xF1 6 [] none := by
  refine hostError_byte hs src rfl rfl ha (by decide) ((hostEffect_sleep _ _ _).trans ((if_neg (not_not.2 rfl)).trans (if_neg ?_)))
  have hsame : wakeEnabled ((hostStart s).fireSrc coreSV 0) = wakeEnabled s := rfl
  rw [sleepOk_fired, hsame]
  rcases hno with h | h <;> simp [h]

end

theorem w1c8_fields (b : Byte) (v : Word) (lo : Nat) :
    w1c8 b v lo = if fld v (lo + 7) lo = 0 then b else b &&& ~~~(BitVec.ofNat 8 (fld v (lo + 7) lo)) := by
  unfold w1c8
  split
  · next h =>
    rw [h]
    exact BitVec.and_allOnes
  · rfl

/-- Settles O53: the writes of the host by their command, and register writes by their place. -/
theorem hostWritesAct : Obligations.HostWritesAct := by
  unfold Obligations.HostWritesAct
  intro s b c w a v n img src hs h s0 slot push l row acc reg
  refine ⟨fun ha => ⟨answers_portsel hs ha, fun hb => ?badPort⟩, fun hlo hhi ha hboot p hp => ?portBlock,
    fun hlo hhi ha hboot p hp => ?globalBlock, refusesWrite_unlisted hs, fun p hp => exec_registerWrite hs hp, ?busctl, fun hat hsig => ?line,
    fun ha hl => ⟨fun ho hroom => ?push, hostError_ringpush_full hs ha hl, hostError_ringpush_closed hs ha hl⟩,
    fun ha => ⟨answers_hostReset hs ha, fun hb => ?badReset⟩,
    fun ha => ⟨fun hb => ?badSleep, hostError_sleep hs ha, answers_hostSleep hs ha⟩⟩
  case badPort =>
    have hhigh : fld b 7 4 ≠ 0 := by
      unfold fld
      rw [Nat.shiftRight_eq_div_pow]
      have := b.isLt
      omega
    exact hostError_byte hs none rfl rfl ha (by decide) ((hostEffect_portsel _ _ _).trans (if_pos hhigh))
  case portBlock =>
    have hexec : exec (.portBlockWrite c (s.writes c true (bytesLE v))) s = done (hostRun c (s.writes c true (bytesLE v)) none s) :=
      congrArg done (if_pos ⟨hlo, by omega⟩)
    exact answers_blockWrite hs hexec (isBlockCode_of_range hlo (by omega)) ha hboot hp
  case globalBlock =>
    have hexec : exec (.globalBlockWrite c (s.writes c true (bytesLE v))) s = done (hostRun c (s.writes c true (bytesLE v)) none s) :=
      congrArg done (if_pos ⟨hlo, by omega⟩)
    exact answers_blockWrite hs hexec (isBlockCode_of_range (by omega) hhi) ha hboot hp
  case busctl =>
    rintro rfl hv
    exact answers_busctl hs hv
  case line =>
    obtain ⟨t, ht, hln, hchange⟩ := answers_lineErrors hs (w := w) (v := v) hat hsig
    rw [w1c8_fields _ v 24] at hln
    exact ⟨t, ht, hln, hchange⟩
  case push => exact answers_ringpush hs ha hl ho hroom
  case badReset => exact hostError_byte hs none rfl rfl ha (by decide) ((hostEffect_reset _ _ _).trans (if_pos hb))
  case badSleep => exact hostError_byte hs src rfl rfl ha (by decide) ((hostEffect_sleep _ _ _).trans (if_pos hb))

end Sys2Proof.Machine
end

section
/-! O60: what a core began comes to its end (R249 to R252, R282, R304 to R306, R321, R322). -/

namespace Sys2Proof.Machine

/-! ## Results (R249) -/

/-- A result reaches its own sockets: what a core has under way stays. -/
theorem commitVal_inflight (k : CoreSt) (l : List InFlight) (v : ResultVal) :
    commitVal { k with inflight := l } v = { commitVal k v with inflight := l } := by cases v <;> rfl

theorem commitVal_segNext (k : CoreSt) (l : List (Nat × Fin 8 × SegDesc)) (v : ResultVal) :
    commitVal { k with segNext := l } v = { commitVal k v with segNext := l } := by cases v <;> rfl

theorem commitVal_underway (k : CoreSt) (v : ResultVal) :
    (commitVal k v).msgOp = k.msgOp ∧ (commitVal k v).ledServe = k.ledServe ∧ (commitVal k v).ledTokw = k.ledTokw
    ∧ (commitVal k v).segNext = k.segNext ∧ (commitVal k v).segs = k.segs := by
  cases v <;> exact ⟨rfl, rfl, rfl, rfl, rfl⟩

theorem commitDue_single {k : CoreSt} {x : InFlight} (hin : k.inflight = [x]) (hseg : k.segNext = []) :
    k.commitDue x.due = commitVal { k with inflight := [] } x.val := by
  obtain ⟨-, -, -, hnext, hsegs⟩ := commitVal_underway k x.val
  rw [commitVal_inflight]
  have hnil : (commitVal k x.val).segNext = [] := hnext.trans hseg
  simp only [CoreSt.commitDue, CoreSt.segsAt, hin, hseg, List.foldl_nil, List.filter_nil, ← hsegs]
  simp [← hnil]

/-- A core whose results alone are due commits them. -/
theorem commitCore_results {c : Core} {u : State} (hm : ((u.core c).commitDue u.cc).msgOp = none)
    (hserve : ((u.core c).commitDue u.cc).ledServe = []) (htok : ((u.core c).commitDue u.cc).ledTokw = []) :
    commitCore c u = u.updCore c fun k => k.commitDue u.cc := by
  have hc : (u.updCore c fun k => k.commitDue u.cc).core c = (u.core c).commitDue u.cc := by simp
  unfold commitCore
  rw [← hc] at hm hserve htok
  generalize (u.updCore c fun k => k.commitDue u.cc) = v at hm hserve htok ⊢
  simp only [hm]
  split
  · next hpc =>
    subst hpc
    simp [ledDue, hserve, htok]
  · rfl

section
variable {s : State} (hs : s.settled) {c : Core}
include hs

theorem resultCommit_single {x : InFlight} (hin : (s.core c).inflight = [x]) (hx : s.cc ≤ x.due) (hseg : (s.core c).segNext = [])
    (hmsg : (s.core c).msgOp = none) (hserve : (s.core c).ledServe = []) (htok : (s.core c).ledTokw = []) :
    answers (.resultCommit c) s fun t =>
      t.cc = x.due ∧ t.core c = commitVal { s.core c with inflight := [] } x.val ∧ changesOnly [.clock, .core c] s t := by
  have hdue : (s.core c).nextDue s.cc = x.due := by simp [CoreSt.nextDue, hin, hseg, hmsg, hserve, htok]
  have hcc : (s.at x.due).cc = x.due := by simp [hx]
  have hcommit : ((s.at x.due).core c).commitDue (s.at x.due).cc = commitVal { s.core c with inflight := [] } x.val := by
    rw [hcc, State.core_at, commitDue_single hin hseg]
  obtain ⟨hm, hl, ht, -⟩ := commitVal_underway { s.core c with inflight := [] } x.val
  have hrun : commitCore c (s.at x.due) = (s.at x.due).updCore c fun k => k.commitDue (s.at x.due).cc :=
    commitCore_results (by rw [hcommit, hm]; exact hmsg) (by rw [hcommit, hl]; exact hserve) (by rw [hcommit, ht]; exact htok)
  have hexec : exec (.resultCommit c) s = done ((s.at x.due).updCore c fun k => k.commitDue (s.at x.due).cc) := by
    rw [← hrun, ← hdue]; rfl
  have hmoves : Moves [.clock, .core c] s ((s.at x.due).updCore c fun k => k.commitDue (s.at x.due).cc) := by simp
  have hq : ((s.at x.due).updCore c fun k => k.commitDue (s.at x.due).cc).evq = [] := by simp [hs.2]
  exact answers_quiet hexec hq ⟨by simp [hx], by rw [State.core_updCore_same, hcommit], hmoves.changesOnly hs.2 hq⟩

theorem resultCommit_still (h : (s.core c).still) : idles (.resultCommit c) s := by
  have hdue : (s.core c).nextDue s.cc = s.cc := by
    obtain ⟨hin, -, hseg, hmsg, hserve, htok⟩ := h
    simp [CoreSt.nextDue, hin, hseg, hmsg, hserve, htok]
  have hexec : exec (.resultCommit c) s = done (commitCore c (s.at ((s.core c).nextDue s.cc))) := rfl
  rw [hdue, State.at_self, commitCore_still h] at hexec
  exact idles_of hs hexec

end

/-! ## The order of far accesses (R252) -/

/-- One core more is looked at for the far access that comes first. -/
def farStep (s : State) (best : Option Core) (c : Core) : Option Core :=
  match best, (s.core c).far with
  | _, [] => best
  | none, _ :: _ => some c
  | some d, f :: _ =>
    match (s.core d).far with
    | g :: _ => if farBefore c f d g then some c else best
    | [] => some c

theorem nextFar_eq (s : State) : nextFar s = allCores.foldl (farStep s) none := rfl

section
variable {s : State} {c : Core} {f : FarAccess} {fs : List FarAccess} (hf : (s.core c).far = f :: fs)
  (hfirst : ∀ e g gs, e ≠ c → (s.core e).far = g :: gs → farBefore c f e g = true ∧ farBefore e g c f = false)
include hf hfirst

theorem farStep_self (best : Option Core) : farStep s best c = some c := by
  unfold farStep
  rcases best with _ | d
  · simp only [hf]
  · by_cases hd : d = c
    · subst hd
      simp only [hf, ite_self]
    · rcases hg : (s.core d).far with _ | ⟨g, gs⟩
      · simp only [hf, hg]
      · simp only [hf, hg, (hfirst d g gs hd hg).1, if_true]

theorem farStep_keeps (e : Core) : farStep s (some c) e = some c := by
  by_cases he : e = c
  · rw [he, farStep_self hf hfirst]
  · unfold farStep
    rcases hg : (s.core e).far with _ | ⟨g, gs⟩
    · rfl
    · simp only [hf, (hfirst e g gs he hg).2, Bool.false_eq_true, if_false]

theorem foldl_farStep (l : List Core) (best : Option Core) (h : best = some c ∨ c ∈ l) : l.foldl (farStep s) best = some c := by
  induction l generalizing best with
  | nil => simpa using h
  | cons e l ih =>
    rw [List.foldl_cons]
    refine ih _ ?_
    rcases h with rfl | h
    · exact .inl (farStep_keeps hf hfirst e)
    · rcases List.mem_cons.1 h with rfl | h
      · exact .inl (farStep_self hf hfirst best)
      · exact .inr h

/-- The far access that no other comes before is next. -/
theorem nextFar_of_first : nextFar s = some c :=
  (nextFar_eq s).trans (foldl_farStep hf hfirst allCores none (.inr (List.mem_finRange c)))

end

theorem farCount_eq (s : State) : farCount s = ∑ c : Core, (s.core c).far.length := by
  rw [Fin.sum_univ_def]
  rfl

theorem farCount_pos {s : State} {c : Core} {f : FarAccess} {fs : List FarAccess} (hf : (s.core c).far = f :: fs) :
    ∃ n, farCount s = n + 1 := by
  have hle : (s.core c).far.length ≤ farCount s := by
    rw [farCount_eq]
    exact Finset.single_le_sum (f := fun c => (s.core c).far.length) (fun _ _ => Nat.zero_le _) (Finset.mem_univ c)
  rw [hf, List.length_cons] at hle
  exact ⟨farCount s - 1, by omega⟩

theorem farCount_two {s : State} {c d : Core} {f g : FarAccess} (hcd : c ≠ d) (hf : (s.core c).far = [f])
    (hg : (s.core d).far = [g]) : ∃ n, farCount s = n + 2 := by
  have hle : (s.core c).far.length + (s.core d).far.length ≤ farCount s := by
    rw [farCount_eq]
    exact Finset.add_le_sum (f := fun c => (s.core c).far.length) (fun _ _ => Nat.zero_le _) (Finset.mem_univ c)
      (Finset.mem_univ d) hcd
  rw [hf, hg, List.length_singleton, List.length_singleton] at hle
  exact ⟨farCount s - 2, by omega⟩

theorem farHead_cons {s : State} {c : Core} {f : FarAccess} {fs : List FarAccess} (hf : (s.core c).far = f :: fs) :
    farHead c s = farPerform c f ((s.at f.due).updCore c fun k => { k with far := fs }) := by
  unfold farHead
  simp only [hf]

theorem exec_farAccess_first {s : State} {c : Core} {f : FarAccess} {fs : List FarAccess} (hf : (s.core c).far = f :: fs)
    (hnext : nextFar s = some c) : exec (.farAccessPerformed c) s = done (farHead c s) := by
  obtain ⟨n, hn⟩ := farCount_pos hf
  have hne : (s.core c).far ≠ [] := by simp [hf]
  have hrun : farRun (some c) (farCount s) s = farHead c s := by
    rw [hn, farRun]
    simp only [hnext, if_true]
  exact (if_neg hne).trans (congrArg done hrun)

/-! ## Far stores to shared SRAM (R252, R303) -/

/-- A far store of a word to the free part of shared SRAM. -/
abbrev freeStore (g : FarAccess) : Prop := g.kind = .st32 ∧ 0x30015400 ≤ g.addr.toNat ∧ g.addr.toNat + 4 ≤ 0x30020000

theorem sramPut_free (bs : List Byte) (a : Nat) (m : Memory) (hlo : 0x30015400 ≤ a) (hhi : a + bs.length ≤ 0x30020000) :
    sramPut a bs m = memWriteN m a bs := by
  induction bs generalizing a m with
  | nil => rfl
  | cons b bs ih =>
    rw [List.length_cons] at hhi
    have hone : sramPut a [b] m = memWrite m a b := sramPut_freeSram ⟨hlo, by omega⟩ b m
    rw [memWriteN, ← hone, ← ih _ _ (by omega) (by omega)]
    rfl

/-- The request slots lie below the free part of shared SRAM (R167). -/
theorem slotPending_writeMem {s : State} (hm : Memory.wf s.mem) (n : Port) {a : Nat} (bs : List Byte) (ha : 0x30015400 ≤ a) :
    slotPending n (s.writeMem a bs) = slotPending n s := by
  have hn := n.isLt
  have hread : memReadN (memWriteN s.mem a bs) (slotAddr n) 2 = memReadN s.mem (slotAddr n) 2 :=
    memReadN_memWriteN_out _ _ _ _ _ hm (.inl (by unfold slotAddr; omega))
  exact congrArg (fun l => bitOf (BitVec.ofNat 16 (natLE l)) 15) hread

theorem sramStore_free {s : State} (hm : Memory.wf s.mem) {a : Nat} {bs : List Byte} (hlo : 0x30015400 ≤ a)
    (hhi : a + bs.length ≤ 0x30020000) : sramStore a bs s = s.writeMem a bs := by
  have hput : { s with mem := sramPut a bs s.mem } = s.writeMem a bs := by rw [sramPut_free bs a _ hlo hhi]; rfl
  unfold sramStore
  dsimp only
  rw [hput]
  refine if_neg ?_
  simp [slotPending_writeMem hm _ bs hlo]

theorem farPerform_freeStore {s : State} (hm : Memory.wf s.mem) {g : FarAccess} (hg : freeStore g) (c : Core) :
    farPerform c g s = s.writeMem g.addr.toNat (bytesLE g.data) := by
  obtain ⟨hkind, hlo, hhi⟩ := hg
  have hlen : (bytesLE g.data).length = 4 := rfl
  have hstores : g.kind.stores = true := by rw [hkind]; rfl
  have hput : farPerform c g s = storePerform c g.kind g.addr.toNat g.data g.dataH s := if_pos hstores
  have hsram : storePerform c .st32 g.addr.toNat g.data g.dataH s = sramStore g.addr.toNat (bytesLE g.data) s := by
    unfold storePerform
    simp only [regionOf_freeSram (a := g.addr.toNat) ⟨hlo, by omega⟩, storeBytes]
  rw [hput, hkind, hsram, sramStore_free hm hlo (by omega)]

theorem farHead_freeStore {s : State} (hm : Memory.wf s.mem) {c : Core} {f : FarAccess} {fs : List FarAccess}
    (hf : (s.core c).far = f :: fs) (hfree : freeStore f) :
    farHead c s = ((s.at f.due).updCore c fun k => { k with far := fs }).writeMem f.addr.toNat (bytesLE f.data) := by
  rw [farHead_cons hf, farPerform_freeStore (by simpa using hm) hfree]

theorem readMem_writeMem_word {s : State} (hm : Memory.wf s.mem) (a : Nat) (w : Word) :
    (s.writeMem a (bytesLE w)).readMem a 4 = bytesLE w := memReadN_memWriteN (bytesLE w) s.mem a hm

/-! ## Far loads (R252, R304) -/

/-- Bytes that follow one another in shared SRAM are the memory's, or lie past it and read 0. -/
theorem busByte_sram {s t : State} {a : Nat} (h : t.mem = s.mem) (hlo : 0x30000000 ≤ a) (hhi : a < 0x30020004) :
    busByte t a = busByte s a := by
  have hregion : regionOf a = some .sram ∨ regionOf a = none := by
    unfold regionOf
    rw [if_neg (by omega), dif_neg (by omega), dif_neg (by omega)]
    by_cases hin : a < 0x30020000
    · exact .inl (if_pos ⟨hlo, hin⟩)
    · rw [if_neg (by omega), if_neg (by simp [inRegSpace]; omega), if_neg (by omega), if_neg (by omega)]
      exact .inr rfl
  unfold busByte
  rcases hregion with hr | hr <;> simp only [hr, h]

theorem busNat_sram {s t : State} {a : Nat} (ha : regionOf a = some .sram) (h : t.mem = s.mem) : busNat t a 4 = busNat s a 4 := by
  have hr : 0x30000000 ≤ a ∧ a < 0x30020000 := by
    unfold regionOf imemRegion dataRegion at ha
    split_ifs at ha with h0 h1 h2 h3 <;> simp_all
  unfold busNat busBytes busBytes busBytes busBytes busBytes
  rw [busByte_sram h (by omega) (by omega), busByte_sram h (by omega) (by omega), busByte_sram h (by omega) (by omega),
    busByte_sram h (by omega) (by omega)]

/-- A far load has read its location: its result is on its way. -/
def farLoaded (f : FarAccess) (s : State) (k : CoreSt) : CoreSt :=
  { k with inflight := addInflight { issued := f.issued, due := s.cc + 2, val := farResult s f.kind f.addr.toNat } k.inflight }

theorem farPerform_load {s : State} (c : Core) {f : FarAccess} (h : f.kind = .ld32) :
    farPerform c f s = s.updCore c (farLoaded f s) := if_neg (by rw [h]; decide)

theorem farResult_word (s : State) (a : Nat) : farResult s .ld32 a = .lsuDf (BitVec.ofNat 32 (busNat s a 4)) := rfl

section
variable {s : State} (hs : s.settled) {c : Core} {f : FarAccess} {fs : List FarAccess}
include hs

theorem farAccess_store (hf : (s.core c).far = f :: fs) (hnext : nextFar s = some c) (hfree : freeStore f) (hd : s.cc ≤ f.due) :
    answers (.farAccessPerformed c) s fun t =>
      t.cc = f.due ∧ t.core c = { s.core c with far := fs } ∧ t.readMem f.addr.toNat 4 = bytesLE f.data
      ∧ changesOnly [.clock, .core c, .mem f.addr.toNat (f.addr.toNat + 4)] s t := by
  have hm : Memory.wf s.mem := of_decide_eq_true hs.1
  have hexec := exec_farAccess_first hf hnext
  rw [farHead_freeStore hm hf hfree] at hexec
  have hmoves : Moves [.clock, .core c, .mem f.addr.toNat (f.addr.toNat + 4)] s
      (((s.at f.due).updCore c fun k => { k with far := fs }).writeMem f.addr.toNat (bytesLE f.data)) := by
    refine (moves_writeMem (lo := f.addr.toNat) (hi := f.addr.toNat + 4) (by simpa using hs.1) (by simp) le_rfl le_rfl).2 ?_
    simp
  refine answers_quiet hexec (by simp [hs.2]) ⟨by simp [hd], by simp, readMem_writeMem_word (by simpa using hm) _ _, ?_⟩
  exact hmoves.changesOnly hs.2 (by simp [hs.2])

/-- A far load is on its way two cc more, wherever it reads. -/
theorem farAccess_load (hf : (s.core c).far = f :: fs) (hnext : nextFar s = some c) (hkind : f.kind = .ld32) (hd : s.cc ≤ f.due)
    (hin : (s.core c).inflight = []) : answers (.farAccessPerformed c) s fun t =>
      t.cc = f.due ∧ (t.core c).far = fs
      ∧ (regionOf f.addr.toNat = some .sram → (t.core c).inflight
          = [⟨f.issued, f.due + 2, .lsuDf (BitVec.ofNat 32 (busNat { s with cc := f.due } f.addr.toNat 4))⟩])
      ∧ changesOnly [.clock, .core c] s t := by
  have hexec := exec_farAccess_first hf hnext
  rw [farHead_cons hf, farPerform_load c hkind] at hexec
  have hmem : ((s.at f.due).updCore c fun k => { k with far := fs }).mem = ({ s with cc := f.due } : State).mem := by simp
  have hcc : ((s.at f.due).updCore c fun k => { k with far := fs }).cc = f.due := by simp [hd]
  have hfar : (((s.at f.due).updCore c fun k => { k with far := fs }).core c).inflight = [] := by simpa using hin
  have hfs : (((s.at f.due).updCore c fun k => { k with far := fs }).core c).far = fs := by simp
  have hq : ((s.at f.due).updCore c fun k => { k with far := fs }).evq = [] := by simp [hs.2]
  have hmoves : Moves [.clock, .core c] s ((s.at f.due).updCore c fun k => { k with far := fs }) := by simp
  generalize ((s.at f.due).updCore c fun k => { k with far := fs }) = u at *
  have hall : Moves [.clock, .core c] s (u.updCore c (farLoaded f u)) := (moves_updCore (by simp) _).2 hmoves
  refine answers_quiet hexec hq ⟨hcc, ?_, fun hregion => ?_, hall.changesOnly hs.2 hq⟩
  · rw [State.core_updCore_same]
    exact hfs
  · rw [State.core_updCore_same, ← busNat_sram hregion hmem, farLoaded, hfar, hcc, hkind, farResult_word]
    rfl

/-- Two stores of one cc: that of the higher core is performed last. -/
theorem farAccess_stores {d : Core} {g : FarAccess} (hcd : c < d) (hf : (s.core c).far = [f]) (hg : (s.core d).far = [g])
    (hothers : ∀ e, e ≠ c → e ≠ d → (s.core e).far = []) (hfree : freeStore f) (hfree' : freeStore g) (haddr : f.addr = g.addr)
    (hdue : f.due = g.due) (hd : s.cc ≤ f.due) : answers (.farAccessPerformed d) s fun t =>
      t.cc = f.due ∧ (t.core c).far = [] ∧ (t.core d).far = [] ∧ t.readMem f.addr.toNat 4 = bytesLE g.data
      ∧ changesOnly [.clock, .core c, .core d, .mem f.addr.toNat (f.addr.toNat + 4)] s t := by
  have hm : Memory.wf s.mem := of_decide_eq_true hs.1
  have hne : c ≠ d := ne_of_lt hcd
  have hfirst : nextFar s = some c := by
    refine nextFar_of_first hf fun e g' gs he hg' => ?_
    by_cases hed : e = d
    · subst hed
      obtain ⟨rfl, -⟩ := List.cons_eq_cons.1 (hg.symm.trans hg')
      simp [farBefore, hdue, hfree.1, hfree'.1, AccessKind.stores, hcd, hcd.le]
    · simp [hothers e he hed] at hg'
  have hhead := farHead_freeStore hm hf hfree
  have hfar : ∀ e, e ≠ d → ((farHead c s).core e).far = [] := by
    intro e he
    rw [hhead]
    by_cases hec : e = c
    · subst hec; simp
    · simp [hec, hothers e hec he]
  have hfard : ((farHead c s).core d).far = [g] := by simp [hhead, hne.symm, hg]
  have hwf : Memory.wf (farHead c s).mem := by
    rw [hhead]
    exact State.writeMem_wf _ _ _ (by simpa using hm)
  have hcc : (farHead c s).cc = f.due := by simp [hhead, hd]
  have hq : (farHead c s).evq = [] := by simp [hhead, hs.2]
  have hmoves : Moves [.clock, .core c, .core d, .mem f.addr.toNat (f.addr.toNat + 4)] s (farHead c s) := by
    rw [hhead]
    refine (moves_writeMem (lo := f.addr.toNat) (hi := f.addr.toNat + 4) (by simpa using hs.1) (by simp) le_rfl le_rfl).2 ?_
    simp
  have hexec : exec (.farAccessPerformed d) s = done (farHead d (farHead c s)) := by
    obtain ⟨n, hn⟩ := farCount_two hne hf hg
    have hsecond : nextFar (farHead c s) = some d :=
      nextFar_of_first hfard fun e g' gs he hg' => by simp [hfar e he] at hg'
    have hrun : farRun (some d) (farCount s) s = farHead d (farHead c s) := by
      rw [hn, farRun]
      simp only [hfirst, Option.some.injEq, hne.symm, if_false]
      rw [farRun]
      simp only [hsecond, if_true]
    exact (if_neg (by simp [hg])).trans (congrArg done hrun)
  rw [farHead_freeStore hwf hfard hfree'] at hexec
  generalize farHead c s = u at *
  have hall : Moves [.clock, .core c, .core d, .mem f.addr.toNat (f.addr.toNat + 4)] s
      (((u.at g.due).updCore d fun k => { k with far := [] }).writeMem g.addr.toNat (bytesLE g.data)) := by
    rw [← haddr]
    refine (moves_writeMem (lo := f.addr.toNat) (hi := f.addr.toNat + 4) (decide_eq_true (by simpa using hwf)) (by simp) le_rfl le_rfl).2 ?_
    simpa using hmoves
  refine answers_quiet hexec (by simp [hq]) ⟨?_, ?_, by simp, ?_, hall.changesOnly hs.2 (by simp [hq])⟩
  · simp [hcc, ← hdue]
  · simp [hne, hfar c hne]
  · rw [haddr]
    exact readMem_writeMem_word (by simpa using hwf) _ _

end

/-! ## Message operations (R321, R322) -/

/-- MSG.ST as an operation that was due leaves it: a core that has restarted since keeps its own (R265, R270). -/
def CoreSt.msgShown (k : CoreSt) (m : MsgOp) (st : Word) : CoreSt :=
  { k with msgOp := none, msgSt := if m.due < k.startCc + 24 then k.msgSt else st }

section
variable {s : State} {c : Core} {m : MsgOp} (h : (s.core c).msgOp = some m)
include h

theorem msgFinish_bare (hcopy : m.copy = none) : msgFinish c s = s.updCore c fun k => k.msgShown m m.st := by
  unfold msgFinish
  simp only [h, hcopy]
  rfl

theorem msgFinish_copied {r : Fin 32} {a : Word} {pop : Bool} (hcopy : m.copy = some (r, a, pop)) :
    msgFinish c s = (msgCopy r a pop s).1.updCore c fun k => k.msgShown m (msgCopy r a pop s).2 := by
  unfold msgFinish
  simp only [h, hcopy]
  rfl

end

/-- The RX ring of a port after its oldest entry was copied, and taken by a POP. -/
def LineSt.copied (l : LineSt) (pop : Bool) : LineSt :=
  if pop = true then { l with rxHead := (l.rxHead + 1) % 16, rxCount := l.rxCount - 1 } else l

theorem LineSt.copied_rxCount (l : LineSt) (pop : Bool) :
    (l.copied pop).rxCount = if pop = true then l.rxCount - 1 else l.rxCount := by cases pop <;> rfl

section
variable {s : State} {n : Port} (hcount : 0 < (s.port n).ln.rxCount) (a : Word) (pop : Bool) (hr : 2 * n.val + 1 < 32)
include hcount

/-- The entry that is copied is the oldest of the RX ring of the port; a POP takes it. -/
theorem msgCopy_rx : msgCopy ⟨2 * n.val + 1, hr⟩ a pop s
    = ((s.writeMem a.toNat (s.readMem (ringAddr (2 * n.val + 1) (s.port n).ln.rxHead) 80)).updLn n fun l => l.copied pop,
        msgWord 1 (s.port n).ln.rxHead ((s.port n).ln.copied pop).rxCount) := by
  have hport : (⟨(2 * n.val + 1) / 2, by omega⟩ : Port) = n := by ext; simp; omega
  unfold msgCopy
  simp only [hport, Nat.ne_of_gt hcount, if_false]
  cases pop
  · have hkeep : (s.writeMem a.toNat (s.readMem (ringAddr (2 * n.val + 1) (s.port n).ln.rxHead) 80)).updLn n (fun l => l.copied false)
        = s.writeMem a.toNat (s.readMem (ringAddr (2 * n.val + 1) (s.port n).ln.rxHead) 80) := updPort_of_fixed rfl
    rw [hkeep]
    rfl
  · simp [popRx, LineSt.copied]

end

section
variable {s : State} (hs : s.settled) {c : Core}
include hs

theorem msgComplete_bare {m : MsgOp} (h : (s.core c).msgOp = some m) (hd : s.cc ≤ m.due) (hcopy : m.copy = none) :
    answers (.msgComplete c) s fun t =>
      t.cc = m.due ∧ t.core c = (s.core c).msgShown m m.st ∧ changesOnly [.clock, .core c] s t := by
  have hexec : exec (.msgComplete c) s = done (msgFinish c (s.at m.due)) := by
    have hmeans : exec (.msgComplete c) s = execMsgComplete c s := rfl
    rw [hmeans, execMsgComplete]
    simp only [h]
  rw [msgFinish_bare (s := s.at m.due) (by simpa using h) hcopy] at hexec
  have hmoves : Moves [.clock, .core c] s ((s.at m.due).updCore c fun k => k.msgShown m m.st) := by simp
  exact answers_quiet hexec (by simp [hs.2]) ⟨by simp [hd], by simp, hmoves.changesOnly hs.2 (by simp [hs.2])⟩

theorem msgComplete_copied {m : MsgOp} {n : Port} {a : Word} {pop : Bool} (h : (s.core c).msgOp = some m) (hd : s.cc ≤ m.due)
    (hr : 2 * n.val + 1 < 32) (hcopy : m.copy = some (⟨2 * n.val + 1, hr⟩, a, pop)) (hcount : 0 < (s.port n).ln.rxCount) :
    answers (.msgComplete c) s fun t =>
      t.cc = m.due ∧ t.readMem a.toNat 80 = s.readMem (ringAddr (2 * n.val + 1) (s.port n).ln.rxHead) 80
      ∧ (t.port n).ln = (s.port n).ln.copied pop
      ∧ t.core c = (s.core c).msgShown m (msgWord 1 (s.port n).ln.rxHead ((s.port n).ln.copied pop).rxCount)
      ∧ changesOnly [.clock, .core c, .port n, .mem a.toNat (a.toNat + 80)] s t := by
  have hexec : exec (.msgComplete c) s = done (msgFinish c (s.at m.due)) := by
    have hmeans : exec (.msgComplete c) s = execMsgComplete c s := rfl
    rw [hmeans, execMsgComplete]
    simp only [h]
  rw [msgFinish_copied (s := s.at m.due) (by simpa using h) hcopy, msgCopy_rx (s := s.at m.due) (by simpa using hcount) a pop hr,
    State.port_at] at hexec
  have hentry : (s.at m.due).readMem (ringAddr (2 * n.val + 1) (s.port n).ln.rxHead) 80
      = s.readMem (ringAddr (2 * n.val + 1) (s.port n).ln.rxHead) 80 := by simp [State.readMem]
  rw [hentry] at hexec
  have hlen : (s.readMem (ringAddr (2 * n.val + 1) (s.port n).ln.rxHead) 80).length = 80 := length_memReadN _ _ _
  generalize s.readMem (ringAddr (2 * n.val + 1) (s.port n).ln.rxHead) 80 = entry at hexec hlen ⊢
  have hread : memReadN (memWriteN s.mem a.toNat entry) a.toNat 80 = entry := by
    rw [← hlen]
    exact memReadN_memWriteN entry s.mem a.toNat (of_decide_eq_true hs.1)
  have hmoves : Moves [.clock, .core c, .port n, .mem a.toNat (a.toNat + 80)] s ((s.at m.due).writeMem a.toNat entry) := by
    refine (moves_writeMem (lo := a.toNat) (hi := a.toNat + 80) (by simpa using hs.1) (by simp) le_rfl (by omega)).2 ?_
    simp
  have hall := (moves_updCore (c := c) (by simp) fun k => k.msgShown m
    (msgWord 1 (s.port n).ln.rxHead ((s.port n).ln.copied pop).rxCount)).2
    ((moves_updLn (n := n) (by simp) fun l => l.copied pop).2 hmoves)
  refine answers_quiet hexec (by simp [hs.2]) ⟨by simp [hd], ?_, by simp, by simp, hall.changesOnly hs.2 (by simp [hs.2])⟩
  simpa [State.readMem, State.writeMem] using hread

end

/-! ## Waits (R282) -/

/-- The lowest source that is pending. -/
theorem lowestBit_eq {w : Word} {b : Fin 32} (h : bitOf w b.val = true) (hlow : ∀ j : Fin 32, j < b → bitOf w j.val = false) :
    lowestBit w = b.val := by
  have hfind : (List.range 32).find? (fun i => bitOf w i) = some b.val := by
    refine List.find?_range_eq_some.2 ⟨h, List.mem_range.2 b.isLt, fun j hj => ?_⟩
    simpa using hlow ⟨j, hj.trans b.isLt⟩ hj
  rw [lowestBit, hfind]
  rfl

/-- A core that goes on at a source that is pending (R282). -/
def CoreSt.sourceTaken (at_ b : Nat) (k : CoreSt) : CoreSt :=
  { k with run := .run, lastIssue := some at_, evtSrc := BitVec.ofNat 32 b, evtPend := setFld k.evtPend b b 0 }

section
variable {s : State} (hs : s.settled) {c : Core} {at_ : Nat} (hat : s.cc ≤ at_) (hrun : (s.core c).run = .wait) 
include hs hat hrun

theorem waitEnd_source (tmo : Bool) {b : Fin 32} (h : bitOf ((s.core c).ready c) b.val = true)
    (hlow : ∀ j : Fin 32, j < b → bitOf ((s.core c).ready c) j.val = false) : answers (.waitEnd c tmo at_) s fun t =>
      t.cc = at_
      ∧ t.core c = { s.core c with
          run := .run, lastIssue := some at_, evtSrc := BitVec.ofNat 32 b.val
          evtPend := setFld (s.core c).evtPend b.val b.val 0 }
      ∧ changesOnly [.clock, .core c] s t := by
  have hready : ((s.at at_).core c).ready c ≠ 0 := by
    rw [State.core_at]
    intro hzero
    rw [hzero] at h
    simp [bitOf] at h
  have hbit : lowestBit (((s.at at_).core c).ready c) = b.val := by rw [State.core_at, lowestBit_eq h hlow]
  have hexec : exec (.waitEnd c tmo at_) s = done ((s.at at_).updCore c (CoreSt.sourceTaken at_ b.val)) := by
    refine (if_neg ?_).trans ((if_pos hready).trans ?_)
    · simp [hrun]
    · dsimp only
      rw [hbit, State.at_cc, max_eq_right hat]
      rfl
  have hmoves : Moves [.clock, .core c] s ((s.at at_).updCore c (CoreSt.sourceTaken at_ b.val)) := by simp
  refine answers_quiet hexec (by simp [hs.2]) ⟨by simp [hat], ?_, hmoves.changesOnly hs.2 (by simp [hs.2])⟩
  rw [State.core_updCore_same, State.core_at]
  rfl

variable (hready : (s.core c).ready c = 0)
include hready

theorem waitEnd_timeout {d : Nat} (hout : (s.core c).waitOut = some d) (hd : d ≤ at_) : answers (.waitEnd c true at_) s fun t =>
    t.cc = at_ ∧ t.core c = { s.core c with run := .run, lastIssue := some at_, evtSrc := 32 }
    ∧ changesOnly [.clock, .core c] s t := by
  have hexec : exec (.waitEnd c true at_) s
      = done ((s.at at_).updCore c fun k => { k with run := .run, lastIssue := some (s.at at_).cc, evtSrc := 32 }) := by
    refine (if_neg ?_).trans ((if_neg ?_).trans (if_pos ?_))
    · simp [hrun]
    · simp [hready]
    · simp [hout, hd]
  have hmoves : Moves [.clock, .core c] s
      ((s.at at_).updCore c fun k => { k with run := .run, lastIssue := some (s.at at_).cc, evtSrc := 32 }) := by simp
  refine answers_quiet hexec (by simp [hs.2]) ⟨by simp [hat], ?_, hmoves.changesOnly hs.2 (by simp [hs.2])⟩
  rw [State.core_updCore_same, State.core_at, State.at_cc, max_eq_right hat]

theorem waitEnd_early {tmo : Bool} (hout : tmo = true → ∀ d, (s.core c).waitOut = some d → at_ < d) :
    answers (.waitEnd c tmo at_) s fun t =>
    t.core c = s.core c ∧ changesOnly [.clock] s t := by
  have hexec : exec (.waitEnd c tmo at_) s = done (s.at at_) := by
    refine (if_neg ?_).trans ((if_neg ?_).trans (if_neg ?_))
    · simp [hrun]
    · simp [hready]
    · rw [State.core_at, State.at_cc, max_eq_right hat]
      cases tmo
      · simp
      · simpa [Option.any_eq_true] using hout rfl
  have hmoves : Moves [.clock] s (s.at at_) := by simp
  exact answers_quiet hexec (by simp [hs.2]) ⟨by simp, hmoves.changesOnly hs.2 (by simp [hs.2])⟩

end

theorem CoreSt.waitOut_never {k : CoreSt} (h : fld k.waitT 15 0 = 0) : k.waitOut = none := if_pos h

theorem CoreSt.waitOut_at {k : CoreSt} {j : Nat} (hj : k.waitCc = some j) (h : fld k.waitT 15 0 ≠ 0) :
    k.waitOut = some (j + fld k.waitT 15 0 * if bitOf k.waitT 16 = true then 300 else 1) :=
  (if_neg h).trans (by rw [hj, Option.getD_some])

/-- Settles O60: each case by the rule of what comes to its end. -/
theorem coresCompleteTheirWork : Obligations.CoresCompleteTheirWork := by
  unfold Obligations.CoresCompleteTheirWork
  intro s c at_ x f fs m hs hat k put shows free unit
  refine ⟨resultCommit_single hs, resultCommit_still hs, farAccess_store hs, farAccess_load hs,
    fun d g hcd hf hg hothers hfree hfree' haddr hdue hd => farAccess_stores hs hcd hf hg hothers hfree hfree' haddr hdue hd,
    fun h => idles_of hs (if_pos h), msgComplete_bare hs,
    fun n a pop h hd hcopy hcount _ _ => ?_, fun h => ?_, fun b tmo hrun h hlow => waitEnd_source hs hat hrun tmo h hlow,
    fun j hrun hready hj => ⟨fun ht hle => ?_, fun ht => ?_⟩, fun hrun hready => ?_⟩
  · have hcopied := msgComplete_copied hs h hd (by omega) hcopy hcount
    rw [LineSt.copied_rxCount] at hcopied
    exact hcopied
  · have hexec : exec (.msgComplete c) s = done s := by
      have hmeans : exec (.msgComplete c) s = execMsgComplete c s := rfl
      rw [hmeans, execMsgComplete]
      simp only [show (s.core c).msgOp = none from h]
    exact idles_of hs hexec
  · exact waitEnd_timeout hs hat hrun hready (CoreSt.waitOut_at hj ht) hle
  · refine waitEnd_early hs hat hrun hready fun _ d hd => ?_
    by_cases hzero : fld k.waitT 15 0 = 0
    · rw [CoreSt.waitOut_never hzero] at hd
      cases hd
    · rw [CoreSt.waitOut_at hj hzero] at hd
      obtain rfl := Option.some.inj hd
      exact ht.resolve_left hzero
  · exact waitEnd_early hs hat hrun hready fun h => by cases h

end Sys2Proof.Machine
end

section
/-! O59: one instruction of a core with nothing under way (R231, R237 to R242, R258 to R262, R266, R267, R282). -/

namespace Sys2Proof.Machine

/-! ## Issue (R231, R265) -/

section
variable {s : State} {c : Core} (hrun : (s.core c).run = .run) (hawake : s.dev.asleep = false)
  (hlast : (s.core c).lastIssue ≠ some s.cc) (hstill : (s.core c).still)
include hrun hawake hlast hstill

/-- A running core with nothing to commit issues. -/
theorem exec_instructionIssue (e : Ecc) : exec (.instructionIssue c e) s = done (issue c e s) := by
  have hmeans : exec (.instructionIssue c e) s = execInstructionIssue c e s := rfl
  rw [hmeans, execInstructionIssue, if_neg hlast, commitCore_still hstill]
  exact if_pos ⟨hrun, hawake⟩

end

/-- The core after an instruction that met no cause. -/
def CoreSt.issued (k : CoreSt) (i : Nat) (l : List Move) (cc : Nat) : CoreSt := { advance i l k with lastIssue := some cc }

section
variable {s : State} {c : Core} {e : Ecc} (hbank : (s.core c).pc < (s.core c).bankLen c)
include hbank

theorem issue_clean (h : causesOf s c (fetchWord s c) e = []) : issue c e s = (runMoves c (fetchWord s c) s).updCore c fun x =>
    x.issued (s.core c).pc (movesOf s c (fetchWord s c)) s.cc := by
  refine (if_neg (Nat.not_le.2 hbank)).trans ?_
  simp only [h, trapOf]
  rfl

theorem issue_traps {x : Cause} (h : causesOf s c (fetchWord s c) e = [x]) :
    issue c e s = trapCore c { cause := x.cause, sub := x.sub, slot := x.slot, arg := x.arg, multi := false } s := by
  refine (if_neg (Nat.not_le.2 hbank)).trans ?_
  simp only [h, trapOf, List.any_nil]

end

theorem causesOf_fetch (s : State) (c : Core) (w : BitVec 128) :
    causesOf s c w .fetch = [⟨9, 1, 0, BitVec.ofNat 32 ((s.core c).instrAddr c (s.core c).pc)⟩] := rfl

theorem causesOf_format {s : State} {c : Core} {w : BitVec 128} (h : 2 ≤ formatOf w) :
    causesOf s c w .none = [⟨1, 1, 0, w.extractLsb' 96 32⟩] := by
  rw [causesOf, if_neg (by decide : Ecc.none ≠ .fetch)]
  exact (if_pos h).trans (if_pos h)

/-- An instruction that meets no cause writes no destination twice (R242). -/
theorem dupCauses_of_clean {s : State} {c : Core} {w : BitVec 128} (h : causesOf s c w .none = []) : dupCauses (movesOf s c w) = [] := by
  by_cases hf : 2 ≤ formatOf w
  · rw [causesOf_format hf] at h
    cases h
  · rw [causesOf, if_neg (by decide : Ecc.none ≠ .fetch), if_neg hf] at h
    simp only [List.append_eq_nil_iff] at h
    obtain ⟨⟨⟨⟨⟨-, hdup⟩, -⟩, -⟩, -⟩, -⟩ := h
    exact hdup

theorem movesOf_slots (s : State) (c : Core) (w : BitVec 128) : (movesOf s c w).Pairwise fun m x => m.slot ≠ x.slot := by
  have hnodup : (moveSlots w).Pairwise fun j k => j ≠ k := by
    unfold moveSlots
    split <;> decide
  refine List.Pairwise.filterMap _ (fun j k hjk m hm x hx => ?_) hnodup
  have hslot : ∀ {j : Fin 4} {m : Move}, (let x := slotOf w j.val
      if x.nop || !x.runs (s.core c).guards then none
      else some { slot := j.val, dst := x.dst, val := if x.imm then (BitVec.ofNat 12 x.src).signExtend 32 else readSock s c (limmOf w) x.src })
      = some m → m.slot = j.val := by
    intro j m h
    dsimp only at h
    split at h
    · cases h
    · exact (congrArg Move.slot (Option.some.inj h)).symm
  rw [hslot hm, hslot hx]
  exact fun h => hjk (Fin.ext h)

theorem movesOf_dsts {s : State} {c : Core} {w : BitVec 128} (h : causesOf s c w .none = []) :
    (movesOf s c w).Pairwise fun m x => m.dst ≠ x.dst := by
  have hdup := dupCauses_of_clean h
  have hslots := movesOf_slots s c w
  generalize movesOf s c w = l at *
  refine hslots.imp_of_mem fun {m x} hm hx hne hdst => ?_
  have hcause := List.filterMap_eq_nil_iff.1 hdup m hm
  have hany : (l.any fun x => decide (x.slot ≠ m.slot) && decide (x.dst = m.dst)) = true :=
    List.any_eq_true.2 ⟨x, hx, by simp [hne.symm, hdst]⟩
  rw [if_pos hany] at hcause
  cases hcause

/-! ## Moves to locals and guards (R241, R244) -/

theorem kind_both : ∀ d : Fin 40, ((sockAt d.val).map fun k => k.kind) = some .both := by decide

/-- What an instruction that only moves to locals and guards leaves of a core. -/
def CoreSt.keeps (k q : CoreSt) : Prop := q = { k with locals := q.locals, guards := q.guards }

theorem storeOperand_of_local {id : Nat} (h : id < 0x020) (k : CoreSt) (v : Word) :
    storeOperand k id v = { k with locals := k.locals.set id v } := dif_pos h

theorem storeOperand_of_guard {id : Nat} (h : ¬ id < 0x020) (h' : id < 0x028) (k : CoreSt) (v : Word) :
    storeOperand k id v = { k with guards := setFld k.guards (id - 0x020) (id - 0x020) (b2n (decide (v ≠ 0))) } :=
  (dif_neg h).trans (if_pos h')

section
variable {k : CoreSt} {id : Nat} (h : id < 0x028) (v : Word)
include h

theorem storeOperand_keeps : k.keeps (storeOperand k id v) := by
  by_cases hl : id < 0x020
  · rw [storeOperand_of_local hl]
    rfl
  · rw [storeOperand_of_guard hl h]
    rfl

theorem storeOperand_local (j : Fin 32) : (storeOperand k id v).locals[j] = if id = j.val then v else k.locals[j] := by
  by_cases hl : id < 0x020
  · rw [storeOperand_of_local hl]
    simp [Vector.getElem_set]
  · rw [storeOperand_of_guard hl h, if_neg (by omega)]

theorem storeOperand_guard (j : Fin 8) :
    bitOf (storeOperand k id v).guards j.val = if id = 0x020 + j.val then decide (v ≠ 0) else bitOf k.guards j.val := by
  have hj := j.isLt
  by_cases hl : id < 0x020
  · rw [storeOperand_of_local hl, if_neg (by omega)]
  · rw [storeOperand_of_guard hl h]
    by_cases hid : id = 0x020 + j.val
    · have hbit : id - 0x020 = j.val := by omega
      rw [if_pos hid, bitOf, hbit, getLsbD_setFld _ _ _ _ _ hj, if_pos (by omega), Nat.sub_self]
      cases decide (v ≠ 0) <;> rfl
    · rw [if_neg hid, bitOf_setFld_out _ _ (by omega) hj le_rfl]

end

section
variable {l : List Move} (h : ∀ m ∈ l, m.dst < 0x028)
include h

theorem kind_of_both {m : Move} (hm : m ∈ l) : m.kind = some .both := kind_both ⟨m.dst, h m hm⟩

theorem storeOperands_keeps (k : CoreSt) : k.keeps (storeOperands k l) := by
  refine List.foldlRecOn (motive := k.keeps) l _ rfl fun q hq m hm => ?_
  rw [if_pos (.inl (kind_of_both h hm))]
  have hstore := storeOperand_keeps (k := q) (h m hm) m.val
  unfold CoreSt.keeps at hq hstore ⊢
  rw [hstore, hq]

/-- Of moves to different destinations, a place takes the one to it, and reads as before where there is none. -/
theorem storeOperands_reads {β : Type} (get : CoreSt → β) (f : Word → β) (d : Nat)
    (hget : ∀ (k : CoreSt) (id : Nat) (v : Word), id < 0x028 → get (storeOperand k id v) = if id = d then f v else get k)
    (hdst : l.Pairwise fun m x => m.dst ≠ x.dst) (k : CoreSt) :
    get (storeOperands k l) = ((l.find? fun m => decide (m.dst = d)).map fun m => f m.val).getD (get k) := by
  induction l generalizing k with
  | nil => rfl
  | cons m l ih =>
    obtain ⟨hm, hl⟩ := List.pairwise_cons.1 hdst
    have hstep : storeOperands k (m :: l) = storeOperands (storeOperand k m.dst m.val) l := by
      rw [storeOperands, List.foldl_cons, if_pos (.inl (kind_of_both h (List.mem_cons_self ..)))]
      rfl
    rw [hstep, ih (fun x hx => h x (List.mem_cons_of_mem _ hx)) hl, hget k m.dst m.val (h m (List.mem_cons_self ..))]
    by_cases hd : m.dst = d
    · have hnone : l.find? (fun x => decide (x.dst = d)) = none :=
        List.find?_eq_none.2 fun x hx => by simpa [← hd] using (hm x hx).symm
      simp [hd, hnone]
    · simp [hd]

end

/-! ## What the moves do (R238, R241) -/

/-- A CU.WAIT among the triggers judges what is pending (R282). -/
def waited (c : Core) (trig : List Move) (cc : Nat) (s : State) : State :=
  match trig.find? fun m => decide (m.dst = 0x045) with
  | some m => s.updCore c (waitTrigger c m.val cc)
  | none => s

section
variable {s : State} {c : Core} {w : BitVec 128} (hreads : ∀ x, x ∈ readsOf s c w → x < 0x120 ∨ 0x124 ≤ x)
include hreads

/-- Sockets that show no accumulator are read without effect (R298). -/
theorem readEffects_none (k : CoreSt) : (readsOf s c w).foldl readEffect k = k := by
  refine List.foldlRecOn (motive := fun q => q = k) (readsOf s c w) readEffect rfl fun q hq x hx => ?_
  have hout := hreads x hx
  rw [hq]
  exact dif_neg (by omega)

/-- Without outputs and without a selected descriptor an instruction writes its operands, judges its wait, and triggers. -/
theorem runMoves_eq (hout : movesTo .output (movesOf s c w) = [])
    (hsel : ((movesOf s c w).any fun m => decide (m.dst = 0x038)) = false) :
    runMoves c w s = (movesTo .trigger (movesOf s c w)).foldl (fun t m => unitTrigger c m.dst m.val t)
      (waited c (movesTo .trigger (movesOf s c w)) s.cc (withOperands c (movesOf s c w) s)) := by
  have hclear : (s.updCore c fun k => (([] : List Move).filter fun m => isFlagClear m.dst).foldl
      (fun x m => flagClear m.dst m.val x) k) = s := updCore_of_fixed rfl
  have hread : (s.updCore c fun k => (readsOf s c w).foldl readEffect k) = s := updCore_of_fixed (readEffects_none hreads _)
  unfold runMoves
  dsimp only
  rw [hout, hsel, hclear, hread]
  rfl

theorem runMoves_stores (h : ∀ m ∈ movesOf s c w, m.dst < 0x028) :
    runMoves c w s = s.updCore c fun k => storeOperands k (movesOf s c w) := by
  have hto (kind : SockKind) (hk : kind ≠ .both) : movesTo kind (movesOf s c w) = [] := by
    have hfilter : (movesOf s c w).filter (fun m => decide (m.kind = some kind)) = [] :=
      List.filter_eq_nil_iff.2 fun m hm => by simp [kind_of_both h hm, hk.symm]
    rw [movesTo, hfilter]
    rfl
  have hsel : ((movesOf s c w).any fun m => decide (m.dst = 0x038)) = false :=
    List.any_eq_false.2 fun m hm => by have := h m hm; simp; omega
  rw [runMoves_eq hreads (hto .output (by decide)) hsel, hto .trigger (by decide)]
  rfl

/-- A single move to a trigger: a wait is judged, and the unit does its work. -/
theorem runMoves_trigger {m : Move} (h : movesOf s c w = [m]) (hkind : m.kind = some .trigger) :
    runMoves c w s = unitTrigger c m.dst m.val (if m.dst = 0x045 then s.updCore c (waitTrigger c m.val s.cc) else s) := by
  have htrig : movesTo .trigger [m] = [m] := by simp [movesTo, hkind, insertMove]
  have hout : movesTo .output (movesOf s c w) = [] := by simp [h, movesTo, hkind]
  have hdst : m.dst ≠ 0x038 := by
    intro hd
    rw [Move.kind, hd] at hkind
    exact absurd hkind (by decide)
  have hsel : ((movesOf s c w).any fun m => decide (m.dst = 0x038)) = false := by simp [h, hdst]
  have hoperands : withOperands c [m] s = s := updCore_of_fixed (by simp [storeOperands, hkind])
  rw [runMoves_eq hreads hout hsel, h, htrig, hoperands, List.foldl_cons, List.foldl_nil]
  by_cases hd : m.dst = 0x045 <;> simp [waited, hd]

end

/-! ## The next instruction (R258, R259) -/

section
variable {k : CoreSt} (hjump : k.jump = none) (hloops : k.loops = []) (i cc : Nat) {l : List Move}
include hjump hloops

/-- Without a control move the index goes on by one. -/
theorem issued_plain (h : ∀ m ∈ l, m.control = false ∧ m.dst ≠ 0x049) :
    k.issued i l cc = { k with pc := i + 1, lastPc := i, lastIssue := some cc } := by
  have hctl : l.find? (fun m => m.control) = none := List.find?_eq_none.2 fun m hm => by simp [(h m hm).1]
  have hloop : l.find? (fun m => decide (m.dst = 0x049)) = none := List.find?_eq_none.2 fun m hm => by simp [(h m hm).2]
  have htaken : takenControl k i l = (none, k.stack) := by
    unfold takenControl
    simp only [hctl]
  have hstart : startedLoop k i l = [] := by rw [startedLoop, hloop]; rfl
  unfold CoreSt.issued advance
  simp only [hjump, hloops, htaken, hstart, afterIndex, Option.map_none, List.nil_append]

/-- A control move goes to its target after the two delay slots. -/
theorem issued_jump {m : Move} {t : Nat} {ends : Bool} {stack : List Nat} (hloop : m.dst ≠ 0x049)
    (h : takenControl k i [m] = (some (t, ends), stack)) :
    k.issued i [m] cc = { k with pc := i + 1, lastPc := i, lastIssue := some cc, jump := some (2, t, ends), stack := stack } := by
  have hstart : startedLoop k i [m] = [] := by simp [startedLoop, hloop]
  unfold CoreSt.issued advance
  simp only [hjump, hloops, h, hstart, afterIndex, Option.map_some, List.nil_append]

end

/-! ## Answers -/

section
variable {s : State} {c : Core} (hs : s.settled) (hrun : (s.core c).run = .run) (hawake : s.dev.asleep = false)
  (hlast : (s.core c).lastIssue ≠ some s.cc) (hstill : (s.core c).still) (hbank : (s.core c).pc < (s.core c).bankLen c)
  (hclean : causesOf s c (fetchWord s c) .none = [])
include hs hrun hawake hlast hstill hbank hclean

/-- An instruction whose moves touch its core alone. -/
theorem answers_issue {f : CoreSt → CoreSt} (hmoves : runMoves c (fetchWord s c) s = s.updCore c f) :
    answers (.instructionIssue c .none) s fun t =>
      t.core c = (f (s.core c)).issued (s.core c).pc (movesOf s c (fetchWord s c)) s.cc ∧ changesOnly [.core c] s t := by
  have hexec := exec_instructionIssue hrun hawake hlast hstill .none
  rw [issue_clean hbank hclean, hmoves] at hexec
  have hall : Moves [.core c] s ((s.updCore c f).updCore c fun x =>
      x.issued (s.core c).pc (movesOf s c (fetchWord s c)) s.cc) := by simp
  exact answers_quiet hexec hs.2 ⟨by simp, hall.changesOnly hs.2 hs.2⟩

variable (hjump : (s.core c).jump = none) (hloops : (s.core c).loops = [])
  (hreads : ∀ x, x ∈ readsOf s c (fetchWord s c) → x < 0x120 ∨ 0x124 ≤ x)
include hjump hloops hreads

/-- Moves to locals and guards take the values their sources held at issue. -/
theorem answers_moves (h : ∀ m, m ∈ movesOf s c (fetchWord s c) → m.dst < 0x028) : answers (.instructionIssue c .none) s fun t =>
    t.core c = { s.core c with
      pc := (s.core c).pc + 1, lastPc := (s.core c).pc, lastIssue := some s.cc, locals := (t.core c).locals, guards := (t.core c).guards }
    ∧ (∀ j : Fin 32, (t.core c).locals[j]
        = (((movesOf s c (fetchWord s c)).find? fun m => decide (m.dst = j.val)).map Move.val).getD (s.core c).locals[j])
    ∧ (∀ j : Fin 8, bitOf (t.core c).guards j.val = (((movesOf s c (fetchWord s c)).find? fun m => decide (m.dst = 0x020 + j.val)).map
        fun m => decide (m.val ≠ 0)).getD (bitOf (s.core c).guards j.val))
    ∧ changesOnly [.core c] s t := by
  have hdst := movesOf_dsts hclean
  obtain ⟨t, ht, hcore, hchanges⟩ := answers_issue hs hrun hawake hlast hstill hbank hclean (runMoves_stores hreads h)
  have hplain : ∀ m ∈ movesOf s c (fetchWord s c), m.control = false ∧ m.dst ≠ 0x049 := by
    intro m hm
    have := h m hm
    refine ⟨decide_eq_false ?_, ?_⟩ <;> omega
  generalize movesOf s c (fetchWord s c) = l at *
  have hkeeps := storeOperands_keeps h (s.core c)
  have hissued := issued_plain (k := storeOperands (s.core c) l) (by rw [hkeeps]; exact hjump) (by rw [hkeeps]; exact hloops)
    (s.core c).pc s.cc hplain
  rw [hissued] at hcore
  refine ⟨t, ht, ?_, fun j => ?_, fun j => ?_, hchanges⟩
  · rw [hcore]
    conv_lhs => rw [hkeeps]
  · rw [hcore]
    exact storeOperands_reads h (fun k => k.locals[j]) id j.val (fun k id v hid => storeOperand_local hid v j) hdst (s.core c)
  · rw [hcore]
    exact storeOperands_reads h (fun k => bitOf k.guards j.val) (fun v => decide (v ≠ 0)) (0x020 + j.val)
      (fun k id v hid => storeOperand_guard hid v j) hdst (s.core c)

variable {m : Move} (hm : movesOf s c (fetchWord s c) = [m])
include hm

omit hjump hloops in
/-- A move to a unit's trigger that touches its core alone, and no control move. -/
theorem answers_trigger {f : CoreSt → CoreSt} (hkind : m.kind = some .trigger) (hctl : m.control = false) (hloop : m.dst ≠ 0x049)
    (hunit : unitTrigger c m.dst m.val (if m.dst = 0x045 then s.updCore c (waitTrigger c m.val s.cc) else s) = s.updCore c f)
    (hjump' : (f (s.core c)).jump = none) (hloops' : (f (s.core c)).loops = []) : answers (.instructionIssue c .none) s fun t =>
      t.core c = { f (s.core c) with pc := (s.core c).pc + 1, lastPc := (s.core c).pc, lastIssue := some s.cc }
      ∧ changesOnly [.core c] s t := by
  have hissue := answers_issue hs hrun hawake hlast hstill hbank hclean ((runMoves_trigger hreads hm hkind).trans hunit)
  rw [hm, issued_plain hjump' hloops' _ _ (by simpa using ⟨hctl, hloop⟩)] at hissue
  exact hissue

/-- A taken control move. -/
theorem answers_jump {t : Nat} {ends : Bool} {stack : List Nat} (hkind : m.kind = some .trigger) (hlo : m.dst < 0x045)
    (hunit : m.dst ≠ 0x03B) (htaken : takenControl (s.core c) (s.core c).pc [m] = (some (t, ends), stack)) :
    answers (.instructionIssue c .none) s fun u =>
      u.core c = { s.core c with
        pc := (s.core c).pc + 1, lastPc := (s.core c).pc, lastIssue := some s.cc, jump := some (2, t, ends), stack := stack }
      ∧ changesOnly [.core c] s u := by
  have hnone : unitTrigger c m.dst m.val (if m.dst = 0x045 then s.updCore c (waitTrigger c m.val s.cc) else s) = s := by
    rw [if_neg (by omega)]
    exact (if_neg hunit).trans (if_pos (by omega))
  have hmoves : runMoves c (fetchWord s c) s = s.updCore c id :=
    ((runMoves_trigger hreads hm hkind).trans hnone).trans (updCore_of_fixed rfl).symm
  have hissue := answers_issue hs hrun hawake hlast hstill hbank hclean hmoves
  rw [hm, id, issued_jump hjump hloops _ _ (by omega) htaken] at hissue
  exact hissue

end

/-- An index past the bank traps at the bank's last instruction (R258). -/
theorem issue_past {s : State} {c : Core} (h : (s.core c).bankLen c ≤ (s.core c).pc) (e : Ecc) : issue c e s
    = trapCore c { cause := 5, sub := 3, slot := 0, arg := 0, multi := false }
        (s.updCore c fun k => { k with pc := k.bankLen c - 1 }) := if_pos h

theorem takenControl_jump {m : Move} (h : m.dst = 0x040) (k : CoreSt) (i : Nat) :
    takenControl k i [m] = (some (m.val.toNat, true), k.stack) := by simp [takenControl, Move.control, controlTarget, h]

theorem takenControl_call {m : Move} (h : m.dst = 0x042) (k : CoreSt) (i : Nat) :
    takenControl k i [m] = (some (m.val.toNat, false), (i + 3) :: k.stack) := by simp [takenControl, Move.control, controlTarget, h]

theorem kind_alu : ∀ d : Fin 20, ((sockAt (0x081 + d.val)).map fun k => k.kind) = some .trigger := by decide

theorem waitTrigger_holds {c : Core} {k : CoreSt} (h : k.ready c = 0) (v : Word) (cc : Nat) :
    waitTrigger c v cc k = { k with waitCc := some cc, run := .wait, waitT := v.setWidth 17 } := if_neg (not_not.2 h)

theorem waitTrigger_goesOn {c : Core} {k : CoreSt} (h : k.ready c ≠ 0) (v : Word) (cc : Nat) : waitTrigger c v cc k
    = { ({ k with waitCc := some cc } : CoreSt).clearPend cc (setFld 0 (lowestBit (k.ready c)) (lowestBit (k.ready c)) 1) with
        evtSrc := BitVec.ofNat 32 (lowestBit (k.ready c)) } := if_pos h

/-- Settles O59: the moves by their kind, the traps by the cause that issue meets. -/
theorem instructionsIssue : Obligations.InstructionsIssue := by
  unfold Obligations.InstructionsIssue
  intro s c e hs k w l i becomes next hrun hawake hlast hstill hjump hloops
  refine ⟨fun hbank hclean hreads => ⟨answers_moves hs hrun hawake hlast hstill hbank hclean hjump hloops hreads,
    fun m hm hlo hhi => ?alu, fun m hm hd => ?jump, fun m hm hd => ?call, fun m hm hd hready => ?wait, fun m hm hd hready => ?goesOn⟩,
    fun hbank hf hc => ?format, fun hbank hc => ?fetch, fun hbank hc hon hr hfeed hports => ?past⟩
  case alu =>
    have hkind : m.kind = some .trigger := by
      have hdst : 0x081 + (m.dst - 0x081) = m.dst := by omega
      have := kind_alu ⟨m.dst - 0x081, by omega⟩
      rwa [hdst] at this
    have hunit : unitTrigger c m.dst m.val (if m.dst = 0x045 then s.updCore c (waitTrigger c m.val s.cc) else s)
        = s.updCore c (aluTrigger m.dst m.val s.cc) := by
      rw [if_neg (by omega)]
      exact (if_neg (by omega)).trans ((if_neg (by omega)).trans (if_pos (by omega)))
    have hissue := answers_trigger hs hrun hawake hlast hstill hbank hclean hreads hm hkind (decide_eq_false (by omega)) (by omega) hunit
      hjump hloops
    have hin : (s.core c).inflight = [] := hstill.1
    simp only [aluTrigger, CoreSt.launch, hin, addInflight] at hissue
    exact hissue
  case jump =>
    refine answers_jump hs hrun hawake hlast hstill hbank hclean hjump hloops hreads hm (by rw [Move.kind, hd]; rfl) (by omega)
      (by omega) (takenControl_jump hd _ _)
  case call =>
    refine answers_jump hs hrun hawake hlast hstill hbank hclean hjump hloops hreads hm (by rw [Move.kind, hd]; rfl) (by omega)
      (by omega) (takenControl_call hd _ _)
  case wait =>
    have hunit : unitTrigger c m.dst m.val (if m.dst = 0x045 then s.updCore c (waitTrigger c m.val s.cc) else s)
        = s.updCore c (waitTrigger c m.val s.cc) := by
      rw [if_pos hd, hd]
      rfl
    have hissue := answers_trigger hs hrun hawake hlast hstill hbank hclean hreads hm (by rw [Move.kind, hd]; rfl)
      (by rw [Move.control, hd]; rfl) (by omega) hunit (by rw [waitTrigger_holds hready]; exact hjump)
      (by rw [waitTrigger_holds hready]; exact hloops)
    rw [waitTrigger_holds hready] at hissue
    exact hissue
  case goesOn =>
    have hunit : unitTrigger c m.dst m.val (if m.dst = 0x045 then s.updCore c (waitTrigger c m.val s.cc) else s)
        = s.updCore c (waitTrigger c m.val s.cc) := by
      rw [if_pos hd, hd]
      rfl
    obtain ⟨t, ht, hcore, hchanges⟩ := answers_trigger hs hrun hawake hlast hstill hbank hclean hreads hm (by rw [Move.kind, hd]; rfl)
      (by rw [Move.control, hd]; rfl) (by omega) hunit (by rw [waitTrigger_goesOn hready]; exact hjump)
      (by rw [waitTrigger_goesOn hready]; exact hloops)
    rw [waitTrigger_goesOn hready] at hcore
    exact ⟨t, ht, by rw [hcore]; exact hrun, by rw [hcore], by rw [hcore], hchanges⟩
  case format =>
    have hexec := exec_instructionIssue hrun hawake hlast hstill .none
    rw [issue_traps hbank (causesOf_format hf)] at hexec
    exact traps_of hs hc hexec (by simp) (by simp) (by simp)
  case fetch =>
    have hexec := exec_instructionIssue hrun hawake hlast hstill .fetch
    rw [issue_traps hbank (causesOf_fetch s c _)] at hexec
    exact traps_of hs hc hexec (by simp) (by simp) (by simp)
  case past =>
    have hexec := exec_instructionIssue hrun hawake hlast hstill e
    rw [issue_past hbank] at hexec
    have hshows := trapShows_of (s := s.updCore c fun k => { k with pc := k.bankLen c - 1 }) hs hc
      (x := { cause := 5, sub := 3, slot := 0, arg := 0, multi := false }) (by simp) (by simp) (by simp) hon (by simpa using hr) hfeed hports
    obtain ⟨hhalt, hcause, hsub, -, -, hlogs, -⟩ := hshows
    exact answers_of hexec ⟨hhalt, hcause, hsub, hlogs⟩

end Sys2Proof.Machine
end

section
/-! O57, the part of the ports: a RIPEN of a port's set is asked, waits and exchanges (R345 to R347, R354, R522). -/

namespace Sys2Proof.Machine

/-! ## Two blocks of memory change places (R344, R345) -/

/-- The hub after two blocks of len bytes have changed places. -/
def State.exchanged (s : State) (a b len : Nat) : State := (s.writeMem a (s.readMem b len)).writeMem b (s.readMem a len)

theorem exchanged_eq (s : State) (a b len : Nat) : s.exchanged a b len = { s with mem := memExchange s.mem a b len } := rfl

section
variable {s : State} {a b len : Nat} (hm : memGood s.mem = true)
include hm

theorem memGood_exchanged (a b len : Nat) : memGood (s.exchanged a b len).mem = true := memGood_memExchange _ _ _ _ hm

theorem readMem_exchanged_high : (s.exchanged a b len).readMem b len = s.readMem a len := by
  have hgood : memGood (s.writeMem a (s.readMem b len)).mem = true := memGood_memWriteN _ _ _ hm
  have hlen : (s.readMem a len).length = len := length_memReadN _ _ _
  rw [State.exchanged, readMem_writeMem_start hgood hlen.ge]
  exact List.take_of_length_le hlen.le

theorem readMem_exchanged_low (h : a + len ≤ b) : (s.exchanged a b len).readMem a len = s.readMem b len := by
  have hgood : memGood (s.writeMem a (s.readMem b len)).mem = true := memGood_memWriteN _ _ _ hm
  have hlen : (s.readMem b len).length = len := length_memReadN _ _ _
  rw [State.exchanged, readMem_writeMem_out hgood (.inl h), readMem_writeMem_start hm hlen.ge]
  exact List.take_of_length_le hlen.le

theorem readMem_exchanged_out {x k : Nat} (ha : x + k ≤ a ∨ a + len ≤ x) (hb : x + k ≤ b ∨ b + len ≤ x) :
    (s.exchanged a b len).readMem x k = s.readMem x k := by
  have hgood : memGood (s.writeMem a (s.readMem b len)).mem = true := memGood_memWriteN _ _ _ hm
  have hla : (s.readMem a len).length = len := length_memReadN _ _ _
  have hlb : (s.readMem b len).length = len := length_memReadN _ _ _
  rw [State.exchanged, readMem_writeMem_out hgood (by omega), readMem_writeMem_out hm (by omega)]

theorem moves_exchanged {l : List Area} {r : State} (ha : covers l a (a + len)) (hb : covers l b (b + len)) :
    Moves l r (s.exchanged a b len) ↔ Moves l r s := by
  have hgood : memGood (s.writeMem a (s.readMem b len)).mem = true := memGood_memWriteN _ _ _ hm
  have hla : (s.readMem a len).length = len := length_memReadN _ _ _
  have hlb : (s.readMem b len).length = len := length_memReadN _ _ _
  rw [State.exchanged, moves_writeMem_covered hgood hb (by omega), moves_writeMem_covered hm ha (by omega)]

end

/-! ## The window under the ripe WINPCT (R154) -/

/-- A port with its sets exchanged. -/
def PortSt.ripened (p : PortSt) : PortSt :=
  { p with green := p.ripe, ripe := p.green, pw := { p.pw with ripenedSinceTrip := true }
           st := { p.st with ripPend := false, ripDone := true } }

/-- A new WINPCT changes nothing but the window. -/
theorem rewindow_eq (n : Port) (p : PortSt) : rewindow n p = { p with ct := { p.ct with window := (rewindow n p).ct.window } } := by
  unfold rewindow
  dsimp only
  split
  · rfl
  · split
    · split <;> rfl
    · rfl
    · rfl
    · rfl

theorem rewindow_narrowing {n : Port} {p : PortSt} (h : p.ct.narrowing = true) : rewindow n p = p := if_pos h

theorem window_rewindow {n : Port} {p : PortSt} (hn : p.ct.narrowing = false) (ht : p.ct.trans = false)
    (hst : p.ct.state = .default ∨ p.ct.state = .negotiated) : (rewindow n p).ct.window = inForceWindow n p := by
  unfold rewindow
  rw [hn]
  rcases hst with hst | hst <;> simp [hst, ht]

/-- While KU is not the feed its own settings lose no supply. -/
theorem supplyLoss_elsewhere {s u : State} (hfd : u.fd = s.fd) (hcc : u.cc = s.cc) (hfeed : s.isFeed portKU = false)
    (h : supplyLoss s = none) : supplyLoss u = none := by
  have hwithin : u.bWithin = s.bWithin := by rw [State.bWithin, State.bWithin, hfd, hcc]
  unfold supplyLoss at h ⊢
  rw [hfd, hwithin]
  cases hf : s.fd.feed with
  | none => rfl
  | ku => simp [State.isFeed, hf, Feed.port] at hfeed
  | g => rw [hf] at h; exact h
  | b => rw [hf] at h; exact h

/-! ## The exchange (R345) -/

/-- The hub with the sets and the Y slices of port n exchanged. -/
def portRipened (n : Port) (s : State) : State :=
  ((s.updPort n fun p => rewindow n p.ripened).exchanged (setBase n) (setBase n + 0x400) 0x400).exchanged (ySlice n) (ySlice n + 0x2000) 0x800

section
variable {n : Port} {s : State}

theorem fd_portRipened : (portRipened n s).fd = s.fd := rfl

/-- With a feed elsewhere, and nothing held up, the exchange is reported and nothing follows it. -/
theorem portExchange_eq (hparam : bitOf s.bt.paramLoaded n.val = false) (hfed : s.fedElsewhere n) (hoff : (s.port n).pw.offElapsed = false)
    (hku : n = portKU → supplyLoss s = none) :
    portExchange n s = ((portRipened n s).fireSrc (leOf n) (24 + leLocal n)).fire 145 (0x10 + n.val) := by
  have hstart : portExchange n s = resumeOffTime n (if n = portKU
      then supplyChanged (contractChanged n (((portRipened n s).fireSrc (leOf n) (24 + leLocal n)).fire 145 (0x10 + n.val)))
      else contractChanged n (((portRipened n s).fireSrc (leOf n) (24 + leLocal n)).fire 145 (0x10 + n.val))) := by
    unfold portExchange portRipened
    simp only [hparam, Bool.false_eq_true, if_false, exchanged_eq]
    rfl
  have hfd : (((portRipened n s).fireSrc (leOf n) (24 + leLocal n)).fire 145 (0x10 + n.val)).fd = s.fd := by
    rw [State.fire_fd]
    rfl
  have hcc : (((portRipened n s).fireSrc (leOf n) (24 + leLocal n)).fire 145 (0x10 + n.val)).cc = s.cc := by
    rw [State.fire_cc]
    rfl
  have hlow : ((((portRipened n s).fireSrc (leOf n) (24 + leLocal n)).fire 145 (0x10 + n.val)).port n).pw.offElapsed = false := by
    have hpw : (rewindow n (s.port n).ripened).pw = (s.port n).ripened.pw := by rw [rewindow_eq]
    have hport : (portRipened n s).port n = rewindow n (s.port n).ripened := by
      simp only [portRipened, State.exchanged, State.port_writeMem, State.port_updPort_same]
    rw [State.port_fire, State.port_fireSrc, hport, hpw]
    exact hoff
  rw [hstart]
  generalize ((portRipened n s).fireSrc (leOf n) (24 + leLocal n)).fire 145 (0x10 + n.val) = u at *
  have hfed' : u.fedElsewhere n := by rw [State.fedElsewhere, isFeed_congr hfd, hfd]; exact hfed
  have hsupply : n = portKU → supplyChanged u = u := fun hn =>
    supplyChanged_kept hfed'.1 hfed'.2.2 (supplyLoss_elsewhere hfd hcc (hn ▸ hfed.2.1) (hku hn))
  rw [contractChanged_elsewhere hfed']
  have hsame : (if n = portKU then supplyChanged u else u) = u := by
    split
    · next hn => exact hsupply hn
    · rfl
  rw [hsame]
  exact if_neg (by simp [hlow])

end

/-! ## What the exchange leaves -/

theorem setBase_bounds (n : Port) : 0x3000C400 ≤ setBase n ∧ setBase n + 0x800 ≤ 0x30014400 := by
  have := n.isLt
  unfold setBase
  omega

theorem ySlice_bounds (n : Port) : ySlice n + 0x2800 ≤ 0x30000000 := by
  have := (leOf n).isLt
  unfold ySlice leLocal
  omega

section
variable (n : Port) {s : State} (hm : memGood s.mem = true)
include hm

theorem memGood_portRipened : memGood (portRipened n s).mem = true := memGood_exchanged (memGood_exchanged hm _ _ _) _ _ _

/-- The parameter sets and the Y slices have changed places. -/
theorem readMem_portRipened :
    (portRipened n s).readMem (setBase n) 0x400 = s.readMem (setBase n + 0x400) 0x400
    ∧ (portRipened n s).readMem (setBase n + 0x400) 0x400 = s.readMem (setBase n) 0x400
    ∧ (portRipened n s).readMem (ySlice n) 0x800 = s.readMem (ySlice n + 0x2000) 0x800
    ∧ (portRipened n s).readMem (ySlice n + 0x2000) 0x800 = s.readMem (ySlice n) 0x800 := by
  have hstart : memGood (s.updPort n fun p => rewindow n p.ripened).mem = true := hm
  have hgood := memGood_exchanged hstart (setBase n) (setBase n + 0x400) 0x400
  obtain ⟨hlo, hhi⟩ := setBase_bounds n
  have hy := ySlice_bounds n
  refine ⟨?_, ?_, ?_, ?_⟩
  · exact (readMem_exchanged_out hgood (by omega) (by omega)).trans (readMem_exchanged_low hstart (by omega))
  · exact (readMem_exchanged_out hgood (by omega) (by omega)).trans (readMem_exchanged_high hstart)
  · exact (readMem_exchanged_low hgood (by omega)).trans (readMem_exchanged_out hstart (by omega) (by omega))
  · exact (readMem_exchanged_high hgood).trans (readMem_exchanged_out hstart (by omega) (by omega))

theorem moves_portRipened {l : List Area} (hport : Area.port n ∈ l) (hg : Area.mem (setBase n) (setBase n + 0x800) ∈ l)
    (hy : Area.mem (ySlice n) (ySlice n + 0x800) ∈ l) (hy' : Area.mem (ySlice n + 0x2000) (ySlice n + 0x2800) ∈ l) :
    Moves l s (portRipened n s) := by
  have hstart : memGood (s.updPort n fun p => rewindow n p.ripened).mem = true := hm
  have hgood := memGood_exchanged hstart (setBase n) (setBase n + 0x400) 0x400
  unfold portRipened
  rw [moves_exchanged hgood (covers_of_mem hy) ⟨_, _, hy', le_rfl, by omega⟩,
    moves_exchanged hstart ⟨_, _, hg, le_rfl, by omega⟩ ⟨_, _, hg, by omega, by omega⟩, moves_updPort (.inl hport)]
  exact .refl _ s

end

theorem port_portRipened (n : Port) (s : State) : (portRipened n s).port n = rewindow n (s.port n).ripened := by
  simp only [portRipened, State.exchanged, State.port_writeMem, State.port_updPort_same]

/-- The source of the engine that a RIPEN of a port's set fires (R345). -/
theorem evtPend_ripened {s : State} (c : Core) {b : Nat} (hb : b < 32) (hon : s.eventsOn = true) (arg : Nat) :
    bitOf ((((s.fireSrc c b).fire 145 arg).core c).evtPend) b = true := by
  have hfire : (s.fireSrc c b).fire 145 arg
      = { ((s.fireSrc c b).fireSrc coreSV 4) with evq := (s.fireSrc c b).evq ++ [(145, arg)] } := if_pos hon
  rw [hfire]
  exact evtPend_fireSrc_mono coreSV 4 (evtPend_fireSrc_same s c hb)

/-- The exchange of a port's sets on a hub fed elsewhere. -/
theorem answers_portSetExchange {s : State} {n : Port} (hs : s.settled) (hon : s.eventsOn = true)
    (hpend : (s.port n).st.ripPend = true) (hparam : bitOf s.bt.paramLoaded n.val = false) (hfed : s.fedElsewhere n)
    (hoff : (s.port n).pw.offElapsed = false) (hku : n = portKU → supplyLoss s = none) :
    answers (.portSetExchange n) s fun t =>
      t.port n = rewindow n (s.port n).ripened
      ∧ t.readMem (setBase n) 0x400 = s.readMem (setBase n + 0x400) 0x400
      ∧ t.readMem (setBase n + 0x400) 0x400 = s.readMem (setBase n) 0x400
      ∧ t.readMem (ySlice n) 0x800 = s.readMem (ySlice n + 0x2000) 0x800
      ∧ t.readMem (ySlice n + 0x2000) 0x800 = s.readMem (ySlice n) 0x800
      ∧ bitOf (t.core (leOf n)).evtPend (24 + leLocal n) = true ∧ logs s t 145 (0x10 + n.val)
      ∧ changesOnly [.port n, .events, .mem (setBase n) (setBase n + 0x800), .mem (ySlice n) (ySlice n + 0x800),
          .mem (ySlice n + 0x2000) (ySlice n + 0x2800)] s t := by
  have hexec : exec (.portSetExchange n) s
      = done (((portRipened n s).fireSrc (leOf n) (24 + leLocal n)).fire 145 (0x10 + n.val)) :=
    (if_pos hpend).trans (congrArg done (portExchange_eq hparam hfed hoff hku))
  have hgood := memGood_portRipened n hs.1
  have hmoves := moves_portRipened n hs.1 (l := [.port n, .events, .mem (setBase n) (setBase n + 0x800),
    .mem (ySlice n) (ySlice n + 0x800), .mem (ySlice n + 0x2000) (ySlice n + 0x2800)]) (by simp) (by simp) (by simp) (by simp)
  obtain ⟨hg, hg', hy, hy'⟩ := readMem_portRipened n hs.1
  have hport := port_portRipened n s
  have hevq : (portRipened n s).evq = [] := hs.2
  have hhost : (portRipened n s).host = s.host := rfl
  have hon' : (portRipened n s).eventsOn = true := hon
  obtain ⟨hlo, hhi⟩ := setBase_bounds n
  have hend := ySlice_bounds n
  generalize portRipened n s = u at *
  have hmem : ((u.fireSrc (leOf n) (24 + leLocal n)).fire 145 (0x10 + n.val)).mem = u.mem := by simp
  have hgood' : memGood ((u.fireSrc (leOf n) (24 + leLocal n)).fire 145 (0x10 + n.val)).mem = true := by rwa [hmem]
  have hread (a k : Nat) (ha : 0x3000B800 ≤ a ∨ a + k ≤ 0x3000A000) :
      ((u.fireSrc (leOf n) (24 + leLocal n)).fire 145 (0x10 + n.val)).flush.readMem a k = u.readMem a k := by
    rcases ha with ha | ha
    · rw [readMem_flush hgood' ha, readMem_congr hmem]
    · rw [readMem_flush_below hgood' ha, readMem_congr hmem]
  have hall := (moves_fire (by simp) 145 (0x10 + n.val)).2 ((moves_fireSrc (by simp) (leOf n) (24 + leLocal n)).2 hmoves)
  have hqueue : ((u.fireSrc (leOf n) (24 + leLocal n)).fire 145 (0x10 + n.val)).evq = [(145, 0x10 + n.val)] := by
    have hfired : (u.fireSrc (leOf n) (24 + leLocal n)).eventsOn = true := hon'
    rw [State.fire_evq _ _ _ hfired, State.fireSrc_evq, hevq, List.nil_append]
  refine answers_of hexec ⟨by simp [hport], (hread _ _ (by omega)).trans hg, (hread _ _ (by omega)).trans hg',
    (hread _ _ (by omega)).trans hy, (hread _ _ (by omega)).trans hy', ?_, logs_flush hqueue hgood' (by simp [hhost]),
    hall.flush (by simp) hs.2 hgood'⟩
  rw [State.core_flush]
  exact evtPend_ripened (leOf n) (by unfold leLocal; omega) hon' _

/-! ## Requests (R345, R354, R522) -/

theorem hostEffect_ripen (b : Byte) (u : State) : hostEffect 0xF0 [b] none u = ripenCmd b u := rfl

theorem setClaimClash_fired (s : State) (c : Core) (b : Nat) (n : Port) : setClaimClash (s.fireSrc c b) n = setClaimClash s n := by
  have hcore (d : Core) : ((s.fireSrc c b).core d).ripeMeta = (s.core d).ripeMeta :=
    (congrArg CoreSt.ripeMeta (quiet_core _ _ (fireSrc_quiet s c b) d) :)
  have hkind (k : Nat) : ripeOfKind (s.fireSrc c b) k = ripeOfKind s k := by
    unfold ripeOfKind
    split
    · exact hcore 0
    · exact hcore corePC0
    · exact hcore coreSV
    · rfl
  simp only [setClaimClash, State.fireSrc_bt, hkind]

section
variable {s : State} {n : Port} (hs : s.settled)
include hs

theorem setripReq_taken {w : Writer} (hhas : s.has n = true) (hw : writerPolicy w n = true) (hclash : setClaimClash s n = false) :
    setsPort (.setripReq n w) s n { s.port n with st := { (s.port n).st with ripPend := true } } := by
  have hreq : setripRequest n s = s.updSt n fun t => { t with ripPend := true } := if_neg (by simp [hclash])
  have hcond : (s.has n && writerPolicy w n) = true := by simp [hhas, hw]
  have hexec : exec (.setripReq n w) s = done (s.updSt n fun t => { t with ripPend := true }) :=
    (if_pos hcond).trans (congrArg done hreq)
  exact setsPort_updSt hs hexec

theorem setripReq_clash {w : Writer} (hhas : s.has n = true) (hon : s.eventsOn = true) (hw : writerPolicy w n = true)
    (hclash : setClaimClash s n = true) : setsPortFires (.setripReq n w) s n
      { s.port n with st := { (s.port n).st with ripCause := 2, ripRefused := true } } 146 (0x210 + n.val) := by
  have hreq : setripRequest n s = (s.updSt n fun t => { t with ripCause := 2, ripRefused := true }).fire 146 (0x210 + n.val) :=
    if_pos hclash
  have hcond : (s.has n && writerPolicy w n) = true := by simp [hhas, hw]
  have hexec : exec (.setripReq n w) s
      = done ((s.updSt n fun t => { t with ripCause := 2, ripRefused := true }).fire 146 (0x210 + n.val)) :=
    (if_pos hcond).trans (congrArg done hreq)
  have hon' : (s.updSt n fun t => { t with ripCause := 2, ripRefused := true }).eventsOn = true := hon
  refine setsPortFires_of_moves hs hexec ?_ (by simp [State.updSt]) (by simp) (by simpa using hs.1) (by simp)
  rw [State.fire_evq _ _ _ hon']
  exact congrArg (· ++ [(146, 0x210 + n.val)]) hs.2

theorem answers_ripen_port (b : Byte) (hhas : s.has n = true) (ha : codeAccepted s.hostState 0xF0 = true)
    (hclash : setClaimClash s n = false) (hb : b.toNat = n.val) : answers (.ripen (s.writes 0xF0 false [b])) s fun t =>
      t.port n = { s.port n with st := { (s.port n).st with ripPend := true } }
      ∧ t.host = { s.host with sent := [], nack := none } ∧ changesOnly [.port n, .bus, .sources] s t := by
  have hn := n.isLt
  have hhigh : ¬ fld b 6 4 ≠ 0 := by unfold fld; rw [Nat.shiftRight_eq_div_pow]; omega
  have hport : ¬ bitOf b 7 = true := by
    rw [bitOf, BitVec.getLsbD, Nat.testBit_lt_two_pow (by omega)]
    exact Bool.false_ne_true
  have hlow : fld b 3 0 = n.val := by unfold fld; rw [Nat.shiftRight_eq_div_pow]; omega
  have hsame : (⟨fld b 3 0 % 16, by omega⟩ : Port) = n := Fin.ext (by simp only [hlow]; omega)
  have hcmd (u : State) (hu : u.has n = true) : ripenCmd b u = setripRequest n u := by
    unfold ripenCmd
    dsimp only
    rw [if_neg hhigh, if_neg hport, hsame, if_pos hu]
  have hreq : setripRequest n ((hostStart s).fireSrc coreSV 0) = ((hostStart s).fireSrc coreSV 0).updSt n fun t => { t with ripPend := true } :=
    if_neg (by simp [(setClaimClash_fired (hostStart s) coreSV 0 n).trans hclash])
  have hexec : exec (.ripen (s.writes 0xF0 false [b])) s = _ := congrArg done ((hostRun_writesByte none rfl ha).trans
    ((hostEffect_ripen b _).trans ((hcmd ((hostStart s).fireSrc coreSV 0) hhas).trans hreq)))
  have hmoves : Moves [.port n, .bus, .sources] s (((hostStart s).fireSrc coreSV 0).updSt n fun t => { t with ripPend := true }) :=
    (moves_updSt (by simp) _).2 (moves_fired_hostStart (by simp) (by simp))
  exact answers_quiet hexec hs.2 ⟨by simp [State.updSt], rfl, hmoves.changesOnly hs.2 hs.2⟩

theorem hostError_ripen (b : Byte) (ha : codeAccepted s.hostState 0xF0 = true)
    (h : fld b 6 4 ≠ 0 ∨ (bitOf b 7 = true ∧ 5 < fld b 3 0)) : hostError (.ripen (s.writes 0xF0 false [b])) s 0xF0 2 [] none := by
  refine hostError_byte hs none rfl rfl ha (by decide) ((hostEffect_ripen b _).trans ?_)
  unfold ripenCmd
  dsimp only
  by_cases hhigh : fld b 6 4 ≠ 0
  · exact if_pos hhigh
  · obtain ⟨hcore, hnone⟩ := h.resolve_left hhigh
    rw [if_neg hhigh, if_pos hcore, dif_neg (by omega)]

end

end Sys2Proof.Machine
end

section
/-! O57, the part of the cores: a RIPEN of a core's bank is asked, waits for a safe point, exchanges or ends refused (R347 to R349,
R355, R485 to R488). -/

namespace Sys2Proof.Machine

/-! ## The checks (R486, R488) -/

section
variable {s : State} {c : Core} (hv : (s.core c).verified = false)
include hv

theorem ripenCheck_field (hlife : s.stone.life = 3) : ripenCheck s c = some 6 := if_pos ⟨hlife, hv⟩

theorem ripenCheck_unverified (hlife : s.stone.life ≠ 3) : ripenCheck s c = none :=
  (if_neg fun h => hlife h.1).trans (if_neg (by simp [hv]))

/-- A core whose banks have changed places. -/
def CoreSt.swapped (k : CoreSt) : CoreSt :=
  { k with bank := !k.bank, ripenPend := false, verified := k.ripeVerified, ripeVerified := k.verified }

/-- The ledger of RIPENs after an exchange of core c's banks. -/
def BootSt.noted (b : BootSt) (c : Core) : BootSt :=
  { b with ripDone := setFld b.ripDone c.val c.val 1, ripStatCore := BitVec.ofNat 4 c.val }

/-- A bank that no LOADGREEN filled carries no claims: nothing else changes. -/
theorem bankExchange_unverified : bankExchange c s = (({ s with bt := s.bt.noted c } : State).updCore c CoreSt.swapped).fire 145 c.val := by
  unfold bankExchange
  simp only [hv, Bool.false_eq_true, if_false]
  rfl

end

/-! ## A RIPEN ends refused (R355) -/

/-- The ledger of RIPENs after a refusal. -/
def BootSt.refused (b : BootSt) (c : Core) (code : BitVec 4) : BootSt :=
  { b with ripStatCause := code, ripStatCore := BitVec.ofNat 4 c.val }

section
variable {i : Instr} {s u : State} {c : Core} (hs : s.settled)
include hs

/-- A command that fires one event and moves its own areas alone. -/
theorem answers_fired {l : List Area} {e arg : Nat} (hexec : exec i s = done u) (hevq : u.evq = [(e, arg)]) (hmem : u.mem = s.mem)
    (hhost : u.host = s.host) (hl : Area.events ∈ l) (hu : Moves l s u) : answers i s fun t =>
      t.core c = u.core c ∧ t.bt = u.bt ∧ logs s t e arg ∧ changesOnly l s t := by
  have hgood : memGood u.mem = true := by rw [hmem]; exact hs.1
  exact answers_of hexec ⟨State.core_flush _ _, by simp, logs_flush hevq hgood (by rw [hhost]), hu.flush hl hs.2 hgood⟩

variable (hon : s.eventsOn = true)
include hon

/-- A command that notes a RIPEN, moves its core and fires one event. -/
theorem answers_noted {l : List Area} {e arg : Nat} {b : BootSt} {f : CoreSt → CoreSt}
    (hexec : exec i s = done ((({ s with bt := b } : State).updCore c f).fire e arg)) (hl : Area.events ∈ l)
    (hc : Moves l s (({ s with bt := b } : State).updCore c f)) : answers i s fun t =>
      (t.core c).quiet = (f (s.core c)).quiet ∧ t.bt = b ∧ logs s t e arg ∧ changesOnly l s t := by
  have hon' : (({ s with bt := b } : State).updCore c f).eventsOn = true := hon
  have hcore : (({ s with bt := b } : State).updCore c f).core c = f (s.core c) := State.core_updCore_same _ _ _
  have hevq : (({ s with bt := b } : State).updCore c f).evq = [] := hs.2
  have hfired := answers_fired (c := c) hs hexec (by rw [State.fire_evq _ _ _ hon', hevq, List.nil_append]) (by simp) (by simp) hl
    ((moves_fire (.inl hl) e arg).2 hc)
  obtain ⟨t, ht, htc, hbt, hrest⟩ := hfired
  exact ⟨t, ht, by rw [htc, quiet_core _ _ (fire_quiet _ e arg), hcore], by rw [hbt, State.fire_bt]; rfl, hrest⟩

theorem answers_ripenRefused {code : BitVec 4} (hexec : exec i s = done (ripenRefused c code s)) : answers i s fun t =>
    (t.core c).quiet = (s.core c).quiet ∧ t.bt = s.bt.refused c code ∧ logs s t 146 (c.val + 256 * code.toNat)
    ∧ changesOnly [.bt, .events] s t := by
  have hsame : ({ s with bt := s.bt.refused c code } : State).updCore c id = { s with bt := s.bt.refused c code } := updCore_of_fixed rfl
  have hexec' : exec i s = done ((({ s with bt := s.bt.refused c code } : State).updCore c id).fire 146 (c.val + 256 * code.toNat)) := by
    rw [hsame]
    exact hexec
  exact answers_noted hs hon hexec' (by simp) (by rw [hsame]; simp)

theorem answers_ripenCancel {code : BitVec 4} (hexec : exec i s = done (ripenCancel c code s)) : answers i s fun t =>
    (t.core c).quiet = ({ s.core c with ripenPend := false } : CoreSt).quiet ∧ t.bt = s.bt.refused c code
    ∧ logs s t 146 (c.val + 256 * code.toNat) ∧ changesOnly [.bt, .events, .core c] s t :=
  answers_noted (b := s.bt.refused c code) (f := fun k => { k with ripenPend := false }) hs hon hexec (by simp) (by simp)

theorem answers_bankExchange (hv : (s.core c).verified = false) (hexec : exec i s = done (bankExchange c s)) : answers i s fun t =>
    (t.core c).quiet = (s.core c).swapped.quiet ∧ t.bt = s.bt.noted c ∧ logs s t 145 c.val ∧ changesOnly [.core c, .bt, .events] s t := by
  rw [bankExchange_unverified hv] at hexec
  exact answers_noted hs hon hexec (by simp) (by simp)

/-- At the safe point the core goes on at instruction 0 of its new bank. -/
theorem answers_bankExchange_resumed (hv : (s.core c).verified = false)
    (hexec : exec i s = done ((bankExchange c s).updCore c fun x => { x with run := .run, pc := 0, jump := none, waitCc := none })) :
    answers i s fun t =>
      (t.core c).quiet = ({ s.core c with run := .run, pc := 0, jump := none, waitCc := none } : CoreSt).swapped.quiet
      ∧ t.bt = s.bt.noted c ∧ logs s t 145 c.val ∧ changesOnly [.core c, .bt, .events] s t := by
  rw [bankExchange_unverified hv] at hexec
  have hon' : (({ s with bt := s.bt.noted c } : State).updCore c CoreSt.swapped).eventsOn = true := hon
  have hcore : (({ s with bt := s.bt.noted c } : State).updCore c CoreSt.swapped).core c = (s.core c).swapped :=
    State.core_updCore_same _ _ _
  have hevq : (({ s with bt := s.bt.noted c } : State).updCore c CoreSt.swapped).evq = [] := hs.2
  have hmoves : Moves [.core c, .bt, .events] s (({ s with bt := s.bt.noted c } : State).updCore c CoreSt.swapped) := by simp
  have hmem : (({ s with bt := s.bt.noted c } : State).updCore c CoreSt.swapped).mem = s.mem := rfl
  have hhost : (({ s with bt := s.bt.noted c } : State).updCore c CoreSt.swapped).host = s.host := rfl
  have hbt : (({ s with bt := s.bt.noted c } : State).updCore c CoreSt.swapped).bt = s.bt.noted c := rfl
  generalize ({ s with bt := s.bt.noted c } : State).updCore c CoreSt.swapped = v at *
  have hquiet : ((v.fire 145 c.val).core c).quiet = (s.core c).swapped.quiet := by rw [quiet_core _ _ (fire_quiet v 145 c.val), hcore]
  obtain ⟨t, ht, htc, htb, hrest⟩ := answers_fired (c := c) (l := [.core c, .bt, .events]) hs hexec
    (by rw [State.updCore_evq, State.fire_evq _ _ _ hon', hevq, List.nil_append]) (by simp [hmem]) (by simp [hhost]) (by simp)
    (by simpa using hmoves)
  refine ⟨t, ht, ?_, by rw [htb, State.updCore_bt, State.fire_bt, hbt], hrest⟩
  rw [htc, State.core_updCore_same]
  exact congrArg (fun k : CoreSt => { k with run := .run, pc := 0, jump := none, waitCc := none }) hquiet

end

/-! ## Requests and safe points (R347 to R349, R488, R492) -/

section
variable {s : State} {c : Core} (hs : s.settled)
include hs

section
variable {w : Writer} (hw : writerCore w = true)
include hw

omit hs in
theorem exec_ripreq : exec (.ripreqReq c w) s = done (ripreqRequest c s) := if_pos hw

variable (hc : c ≠ coreSV)
include hc

omit hs in
theorem exec_ripreq_refused {code : BitVec 4} (hrun : (s.core c).run ≠ .reset) (hpend : (s.core c).ripenPend = false)
    (hcheck : ripenCheck s c = some code) : exec (.ripreqReq c w) s = done (ripenRefused c code s) := by
  rw [exec_ripreq hw, ripreqRequest, if_neg hc, if_neg hrun, hpend, hcheck]
  rfl

omit hs in
theorem exec_ripreq_taken (hrun : (s.core c).run ≠ .reset) (hpend : (s.core c).ripenPend = false) (hcheck : ripenCheck s c = none) :
    exec (.ripreqReq c w) s
      = done (if (s.core c).run = .halted then bankExchange c s else s.updCore c fun x => { x with ripenPend := true }) := by
  rw [exec_ripreq hw, ripreqRequest, if_neg hc, if_neg hrun, hpend, hcheck]
  rfl

end

/-- A core that runs waits for its safe point. -/
theorem answers_ripreq_waits {w : Writer} (hw : writerCore w = true) (hc : c ≠ coreSV) (hrun : (s.core c).run = .run ∨ (s.core c).run = .wait)
    (hpend : (s.core c).ripenPend = false) (hcheck : ripenCheck s c = none) : answers (.ripreqReq c w) s fun t =>
      t.core c = { s.core c with ripenPend := true } ∧ changesOnly [.core c] s t := by
  have hreset : (s.core c).run ≠ .reset := by rcases hrun with h | h <;> rw [h] <;> decide
  have hhalt : (s.core c).run ≠ .halted := by rcases hrun with h | h <;> rw [h] <;> decide
  have hexec := exec_ripreq_taken hw hc hreset hpend hcheck
  rw [if_neg hhalt] at hexec
  exact answers_quiet hexec hs.2 ⟨State.core_updCore_same _ _ _, changesOnly_updCore _ _ _ _ (by simp)⟩

section
variable (hpend : (s.core c).ripenPend = true) (hsafe : (s.core c).safePoint s.cc = true) (hdog : (s.core c).wdOut s.cc = false)
include hpend hsafe hdog

omit hs in
theorem exec_safePoint : exec (.imemRipenSafePoint c) s = match ripenCheck s c with
    | some code => done (ripenCancel c code s)
    | none => done ((bankExchange c s).updCore c fun x => { x with run := .run, pc := 0, jump := none, waitCc := none }) :=
  if_pos (by simp [hpend, hsafe, hdog])

omit hs in
theorem exec_safePoint_refused {code : BitVec 4} (hcheck : ripenCheck s c = some code) :
    exec (.imemRipenSafePoint c) s = done (ripenCancel c code s) := by rw [exec_safePoint hpend hsafe hdog, hcheck]

omit hs in
theorem exec_safePoint_exchanges (hcheck : ripenCheck s c = none) : exec (.imemRipenSafePoint c) s
    = done ((bankExchange c s).updCore c fun x => { x with run := .run, pc := 0, jump := none, waitCc := none }) := by
  rw [exec_safePoint hpend hsafe hdog, hcheck]

end

/-- Without a safe point nothing happens, nor where the watchdog runs out in the cc (R271). -/
theorem idles_safePoint
    (h : (s.core c).ripenPend = false ∨ (s.core c).safePoint s.cc = false ∨ (s.core c).wdOut s.cc = true) :
    idles (.imemRipenSafePoint c) s := by
  have hno : ¬ ((s.core c).ripenPend && (s.core c).safePoint s.cc && !(s.core c).wdOut s.cc) = true := by
    rcases h with h | h | h <;> simp [h]
  exact idles_of hs (if_neg hno)

end

/-- Settles O57: requests by who asks and what the checks say, exchanges at the period start and at the safe point. -/
theorem ripensWaitAndExchange : Obligations.RipensWaitAndExchange := by
  unfold Obligations.RipensWaitAndExchange
  refine ⟨fun s n w b hs hhas hon => ?ports, fun s c w hs hon => ?banks⟩
  case ports =>
    refine ⟨fun hclash hw => setripReq_taken hs hhas hw hclash, fun hclash hw => setripReq_clash hs hhas hon hw hclash, fun hw => ?_,
      fun ha => ⟨fun hclash hb => answers_ripen_port hs b hhas ha hclash hb, hostError_ripen hs b ha⟩,
      fun hpend hparam hfed hoff hku => ?_, fun hpend => idles_of hs (if_neg (by simp [hpend]))⟩
    · have hcond : ¬ (s.has n && writerPolicy w n) = true := by simp [hw]
      exact refusesWrite_of hs (by decide) (if_neg hcond)
    · obtain ⟨t, ht, hport, hg, hg', hy, hy', hpend', hlogs, hchanges⟩ :=
        answers_portSetExchange hs hon hpend hparam hfed hoff hku
      refine ⟨t, ht, ?_, fun hnarrow htrans hstate => ?_, fun hnarrow => ?_, hg, hg', hy, hy', hpend', hlogs, hchanges⟩
      · rw [hport]
        exact rewindow_eq n _
      · rw [hport]
        exact window_rewindow (p := (s.port n).ripened) hnarrow htrans hstate
      · rw [hport, rewindow_narrowing (p := (s.port n).ripened) hnarrow]
        rfl
  case banks =>
    intro k wait refused swapped
    refine ⟨fun hw => refusesWrite_of hs (by decide) (if_neg (by simp [hw])), fun hw hc => ⟨fun hrun => ?inReset, fun hrun hpend => ?second,
      fun hrun hpend hlife hv => ?field, fun hlife hv hpend => ⟨fun hrun => ?waits, fun hrun => ?halted⟩⟩,
      fun hw hc => idles_of hs ((if_pos hw).trans (congrArg done (if_pos hc))), fun hpend hsafe hdog hlife hv => ?safe,
      fun hpend hsafe hdog hlife hv => ?unverified, fun h => ?noPoint, fun hpend => ?timeout, fun hpend => ?noTimeout⟩
    case inReset =>
      exact answers_ripenRefused hs hon ((if_pos hw).trans (congrArg done ((if_neg hc).trans (if_pos hrun))))
    case second =>
      exact answers_ripenRefused hs hon ((if_pos hw).trans (congrArg done ((if_neg hc).trans ((if_neg hrun).trans (if_pos hpend)))))
    case field => exact answers_ripenRefused hs hon (exec_ripreq_refused hw hc hrun hpend (ripenCheck_field hv hlife))
    case waits => exact answers_ripreq_waits hs hw hc hrun hpend (ripenCheck_unverified hv hlife)
    case halted =>
      have hreset : (s.core c).run ≠ .reset := by rw [show (s.core c).run = .halted from hrun]; decide
      have hexec := exec_ripreq_taken hw hc hreset hpend (ripenCheck_unverified hv hlife)
      rw [if_pos hrun] at hexec
      exact answers_bankExchange hs hon hv hexec
    case safe =>
      exact answers_bankExchange_resumed hs hon hv (exec_safePoint_exchanges hpend hsafe hdog (ripenCheck_unverified hv hlife))
    case unverified =>
      exact answers_ripenCancel hs hon (exec_safePoint_refused hpend hsafe hdog (ripenCheck_field hv hlife))
    case noPoint => exact idles_safePoint hs h
    case timeout => exact answers_ripenCancel hs hon (if_pos hpend)
    case noTimeout => exact idles_of hs (if_neg (by simp [show (s.core c).ripenPend = false from hpend]))

end Sys2Proof.Machine
end

section
/-! O49: the outcome of BOOT by the life cycle, the margins and the slots (R457 to R462, R468 to R472, R480, R481). -/

namespace Sys2Proof.Machine

/-! ## The events of a boot (R470, R471, R480) -/

/-- The events that a boot reports fire no wait source. -/
theorem fire_cores_of {e : Nat} (h : e = 134 ∨ e = 137 ∨ e = 144 ∨ e = 147) (s : State) (arg : Nat) : (s.fire e arg).cores = s.cores := by
  have hglobal : s.globalSrc e = s := by
    unfold State.globalSrc
    rcases h with rfl | rfl | rfl | rfl <;> rfl
  unfold State.fire
  rw [hglobal]
  split <;> rfl

/-- The reports of a boot leave the cores as they are. -/
theorem bootEvents_cores (s : State) : (bootEvents s).cores = s.cores := by
  have hrep (p : Prop) [Decidable p] (x : State) (arg : Nat) : (if p then x.fire 147 arg else x).cores = x.cores := by
    split
    · exact fire_cores_of (by simp) x arg
    · rfl
  unfold bootEvents
  dsimp only
  rw [hrep, hrep, hrep, State.flush_cores, fire_cores_of (by simp), State.flush_cores]
  split
  · exact fire_cores_of (by simp) s _
  · split
    · exact fire_cores_of (by simp) s _
    · rfl

/-! ## Cores at the end of a boot (R462, R472, R481) -/

/-- Each core of a list is changed by its own rule. -/
theorem core_foldl_updCore (g : Core → CoreSt → CoreSt) {l : List Core} (hl : l.Nodup) {c : Core} (hc : c ∈ l) (s : State) :
    (l.foldl (fun t d => t.updCore d (g d)) s).core c = g c (s.core c) :=
  foldl_once (I := fun _ => True) (P := fun t => t.core c = s.core c) (Q := fun t => t.core c = g c (s.core c)) (fun _ _ _ => trivial)
    (fun t d _ hd h => (State.core_updCore_ne _ _ _ _ hd.symm).trans h) (fun t _ h => by rw [State.core_updCore_same, h])
    (fun t d _ hd h => (State.core_updCore_ne _ _ _ _ hd.symm).trans h) hc hl trivial rfl

/-- A core at the end of a boot. -/
def bootedCore (r : CoreState) (loaded : Bool) (s : State) (c : Core) (k : CoreSt) : CoreSt :=
  if c = coreSV then { k with run := .run, inRom := !loaded, pc := 0, startCc := s.cc, wdStart := s.cc }
  else if engineUsed s.stone.variant c then { k with run := r, pc := 0, startCc := s.cc, wdStart := s.cc, wdLim := k.wdctl }
  else k

theorem core_coresAfterBoot (r : CoreState) (loaded : Bool) (s : State) (c : Core) :
    (coresAfterBoot r loaded s).core c = bootedCore r loaded s c (s.core c) := by
  have hstep : coresAfterBoot r loaded s = allCores.foldl (fun t d => t.updCore d (bootedCore r loaded s d)) s := by
    unfold coresAfterBoot
    congr 1
    funext t d
    unfold bootedCore
    by_cases hd : d = coreSV
    · simp only [hd, if_true]
    · simp only [hd, if_false]
      cases engineUsed s.stone.variant d
      · exact (updCore_of_fixed rfl).symm
      · rfl
  rw [hstep]
  exact core_foldl_updCore _ (List.nodup_finRange 7) (List.mem_finRange c) s

theorem engineUsed_policy (v : BitVec 2) : engineUsed v corePC0 = true ∧ engineUsed v corePC1 = true := by
  simp [engineUsed]

/-- SV runs, from its IMEM where a set is loaded and else from the boot ROM; the policy cores stand as the boot puts them. -/
theorem run_coresAfterBoot (r : CoreState) (loaded : Bool) (s : State) :
    ((coresAfterBoot r loaded s).core coreSV).run = .run ∧ ((coresAfterBoot r loaded s).core coreSV).inRom = !loaded
    ∧ ((coresAfterBoot r loaded s).core corePC0).run = r ∧ ((coresAfterBoot r loaded s).core corePC1).run = r := by
  obtain ⟨h0, h1⟩ := engineUsed_policy s.stone.variant
  refine ⟨?_, ?_, ?_, ?_⟩ <;> rw [core_coresAfterBoot]
  · rfl
  · rfl
  · simp [bootedCore, h0, show corePC0 ≠ coreSV by decide]
  · simp [bootedCore, h1, show corePC1 ≠ coreSV by decide]

/-! ## Outcomes (R462, R469, R480, R481) -/

/-- A boot ends before the slots are looked at. -/
def endedBoot (m : HubMode) (result : BitVec 4) (restrict : Bool) (s : State) : State :=
  { s with dev := { s.dev with mode := m }, bt := { s.bt with result := result }, stone := { s.stone with restrict := restrict } }

/-- The hub with the check codes of its slots noted (R480). -/
def slotsNoted (a b : BitVec 4) (s : State) : State := { s with bt := { s.bt with chkA := a, chkB := b } }

/-- A boot ends with the set of slot A (R481). -/
def bootLoaded (s : State) : State :=
  let y := coresAfterBoot .run true (loadSet 0 (checkSlot s 0).2 (slotsNoted 1 0 s))
  { y with dev := { y.dev with mode := .running }
           bt := { y.bt with result := 1, unsign := s.unsignedOk, slotUsed := some false, imgRun := 1 } }

/-- A boot ends without a set (R480). -/
def bootUnloaded (s : State) : State :=
  let y := coresAfterBoot (if s.stone.life = 3 then .reset else .halted) false (slotsNoted (checkSlot s 0).1 (checkSlot s 1).1 s)
  { y with dev := { y.dev with mode := .noset }, bt := { y.bt with result := 5 } }

section
variable {s : State}

theorem bootOutcome_vendor (h : s.stone.life.toNat ≤ 1) :
    bootOutcome s = endedBoot .vendor 7 false (coresAfterBoot .halted false s) := if_pos h

theorem bootOutcome_scrapped (h : s.stone.life = 4) :
    bootOutcome s = endedBoot .scrapped 8 true (coresAfterBoot .reset false s) := by
  have hlife : ¬ s.stone.life.toNat ≤ 1 := by rw [h]; decide
  exact (if_neg hlife).trans (if_pos h)

variable (hnormal : s.stone.life = 2 ∨ s.stone.life = 3)
include hnormal

theorem bootOutcome_normal : bootOutcome s = if s.stone.integrityFails = true then
      if s.stone.variant = 3 then endedBoot .integrity 6 false s else endedBoot .restrictive 6 true (coresAfterBoot .reset false s)
    else bootSlots s := by
  have hlife : ¬ s.stone.life.toNat ≤ 1 := by rcases hnormal with h | h <;> rw [h] <;> decide
  have hscrap : ¬ s.stone.life = 4 := by rcases hnormal with h | h <;> rw [h] <;> decide
  exact (if_neg hlife).trans (if_neg hscrap)

variable (hok : s.stone.integrityFails = false) (hb : headerAt s (slotBase 1) = none)
include hok hb

theorem bootOutcome_loaded (h : (checkSlot s 0).1 = 1) : bootOutcome s = bootLoaded s := by
  rw [bootOutcome_normal hnormal, hok, if_neg Bool.false_ne_true]
  unfold bootSlots
  simp only [hb]
  cases headerAt s (slotBase 0) <;> exact if_pos h

theorem bootOutcome_unloaded (h : (checkSlot s 0).1 ≠ 1) (h' : (checkSlot s 1).1 ≠ 1) : bootOutcome s = bootUnloaded s := by
  rw [bootOutcome_normal hnormal, hok, if_neg Bool.false_ne_true]
  unfold bootSlots
  simp only [hb]
  cases headerAt s (slotBase 0) <;> exact (if_neg h).trans (if_neg h')

end

theorem chkA_loadSet (slot : Nat) (l : List Img) (s : State) : (loadSet slot l s).bt.chkA = s.bt.chkA := by
  unfold loadSet
  dsimp only
  rw [foldl_bt _ _ _ fun t c => by simp, foldl_bt _ _ _ fun t c => by simp]
  dsimp only
  rw [foldl_bt _ _ _ fun t c => by simp, foldl_bt _ _ _ fun t c => by simp]

/-! ## Answers -/

theorem life_stoneRead (reads : List StoneRead) (s : State) :
    (stoneRead reads s).stone.life = lifeOf (readOf (bootReads reads s.stone) 0).any := by simp [stoneRead]

/-- A boot whose outcome is u: its events change neither the device nor the cores. -/
theorem answers_boot {s u : State} {addr : BitVec 3} {reads : List StoneRead} (tb : Byte) (hmode : s.dev.mode = .booting)
    (hhold : s.dev.hold = .none) (hv : s.fd.vhost = true)
    (hu : bootOutcome (stoneRead reads { s with dev := { s.dev with addr := addr } }) = u) : answers (.boot addr reads tb) s fun t =>
      t.dev = u.dev ∧ t.bt = { u.bt with tboot := tb } ∧ t.stone = u.stone ∧ t.cores = u.cores ∧ t.led = s.led ∧ t.freeCtr = s.freeCtr := by
  have hexec : exec (.boot addr reads tb) s = done (bootEvents { u with bt := { u.bt with tboot := tb } }) := by
    rw [← hu]
    exact if_pos ⟨hmode, hhold, hv⟩
  have hled : u.led = s.led := by simp [← hu]
  have hfree : u.freeCtr = s.freeCtr := by simp [← hu]
  exact answers_of hexec ⟨by simp, by simp, by simp, by rw [State.flush_cores, bootEvents_cores], by simp [hled], by simp [hfree]⟩

/-- A boot's outcome: its mode, its result, and the life cycle and the address it was decided with. -/
structure BootEnds (k u : State) (m : HubMode) (result : BitVec 4) : Prop where
  mode : u.dev.mode = m
  result : u.bt.result = result
  addr : u.dev.addr = k.dev.addr
  life : u.stone.life = k.stone.life

theorem bootEnds_ended (k : State) (m : HubMode) (result : BitVec 4) (b : Bool) (r : CoreState) :
    BootEnds k (endedBoot m result b (coresAfterBoot r false k)) m result := ⟨rfl, rfl, by simp [endedBoot], by simp [endedBoot]⟩

theorem bootEnds_integrity (k : State) (m : HubMode) (result : BitVec 4) (b : Bool) : BootEnds k (endedBoot m result b k) m result :=
  ⟨rfl, rfl, rfl, rfl⟩

theorem bootEnds_loaded (k : State) : BootEnds k (bootLoaded k) .running 1 :=
  ⟨rfl, rfl, by simp [bootLoaded, slotsNoted], by simp [bootLoaded, slotsNoted]⟩

theorem bootEnds_unloaded (k : State) : BootEnds k (bootUnloaded k) .noset 5 :=
  ⟨rfl, rfl, by simp [bootUnloaded, slotsNoted], by simp [bootUnloaded, slotsNoted]⟩

theorem slots_bootLoaded (k : State) : (bootLoaded k).bt.chkA = 1 ∧ (bootLoaded k).bt.slotUsed = some false := by
  simp [bootLoaded, slotsNoted, chkA_loadSet]

theorem run_bootLoaded (k : State) : ((bootLoaded k).core coreSV).run = .run ∧ ((bootLoaded k).core coreSV).inRom = false
    ∧ ((bootLoaded k).core corePC0).run = .run ∧ ((bootLoaded k).core corePC1).run = .run := by
  have hrun := run_coresAfterBoot .run true (loadSet 0 (checkSlot k 0).2 (slotsNoted 1 0 k))
  unfold bootLoaded
  dsimp only
  generalize coresAfterBoot .run true (loadSet 0 (checkSlot k 0).2 (slotsNoted 1 0 k)) = y at *
  exact hrun

/-- Settles O49: idle where the hub does not boot, else by the outcome that the Stone and the slots decide. -/
theorem bootDecidesByTheStone : Obligations.BootDecidesByTheStone := by
  unfold Obligations.BootDecidesByTheStone
  intro s addr reads tb hs k ends normal
  refine ⟨fun h => ?idle, fun hmode hhold hv => ?boots⟩
  case idle =>
    refine idles_of hs (if_neg ?_)
    rintro ⟨hmode, hhold, hv⟩
    rcases h with h | h | h
    · exact h hmode
    · exact h hhold
    · exact Bool.false_ne_true (h.symm.trans hv)
  case boots =>
    have hends {m : HubMode} {result : BitVec 4} {u : State} {P : State → Prop} (hu : bootOutcome k = u) (h : BootEnds k u m result)
        (hP : ∀ t : State, t.bt = { u.bt with tboot := tb } → t.stone = u.stone → t.cores = u.cores → P t) : ends m result P := by
      obtain ⟨t, ht, hdev, hbt, hstone, hcores, hled, hfree⟩ := answers_boot tb hmode hhold hv hu
      have haddr : k.dev.addr = addr := by simp [k]
      refine ⟨t, ht, by rw [hdev, h.mode], by rw [hbt]; exact h.result, by rw [hbt], by rw [hdev, h.addr, haddr], ?_, hled, hfree,
        hP t hbt hstone hcores⟩
      rw [hstone, h.life]
      exact life_stoneRead reads _
    have hcore {t u : State} (h : t.cores = u.cores) (c : Core) : t.core c = u.core c := congrArg (fun v => v[c]) h
    refine ⟨fun h => ?vendor, fun h => ?scrapped, fun hn hf hvar => ?integrity, fun hn hf hvar => ?restrictive, fun hn hok hb ha hb' => ?noset,
      fun hn hok hb ha => ?running⟩
    case vendor =>
      obtain ⟨hsv, hrom, hpc, -⟩ := run_coresAfterBoot .halted false k
      exact hends (bootOutcome_vendor h) (bootEnds_ended ..) fun t _ _ hc => by
        rw [hcore hc, hcore hc]
        exact ⟨hsv, hrom, hpc⟩
    case scrapped =>
      obtain ⟨-, -, hpc, -⟩ := run_coresAfterBoot .reset false k
      exact hends (bootOutcome_scrapped h) (bootEnds_ended ..) fun t _ hst hc => by
        rw [hcore hc, hst]
        exact ⟨rfl, hpc⟩
    case integrity =>
      have hu := (bootOutcome_normal hn).trans ((if_pos hf).trans (if_pos hvar))
      exact hends hu (bootEnds_integrity ..) fun t _ _ hc => hc.trans (by simp [endedBoot, k])
    case restrictive =>
      have hu := (bootOutcome_normal hn).trans ((if_pos hf).trans (if_neg hvar))
      exact hends hu (bootEnds_ended ..) fun t _ hst _ => by rw [hst]; rfl
    case noset =>
      refine hends (bootOutcome_unloaded hn hok hb ha hb') (bootEnds_unloaded k) fun t hbt _ hc => ?_
      obtain ⟨-, hrom, -⟩ := run_coresAfterBoot (if k.stone.life = 3 then .reset else .halted) false
        (slotsNoted (checkSlot k 0).1 (checkSlot k 1).1 k)
      rw [hcore hc, hbt]
      exact ⟨by simp [bootUnloaded, slotsNoted], hrom⟩
    case running =>
      refine hends (bootOutcome_loaded hn hok hb ha) (bootEnds_loaded k) fun t hbt _ hc => ?_
      obtain ⟨hchk, hslot⟩ := slots_bootLoaded k
      have hrun := run_bootLoaded k
      generalize bootLoaded k = u at *
      rw [hcore hc, hcore hc, hcore hc, hbt]
      exact ⟨hchk, hslot, hrun⟩

end Sys2Proof.Machine
end
